-- ==== Sys2Proof/Word.lean ====
section
/-!
DEFINITION. The word types of the DXV-4616 (R4, R5 and R38) and the one shape of sparse data the model uses.
-/

namespace Sys2Proof

/-- A byte of memory or of a record. -/
abbrev Byte := BitVec 8

/-- A control-space register: registers are 32 bits wide (R6). -/
abbrev Word := BitVec 32

/-- A 64-bit value: a mark, a frame number, a control register of a core. -/
abbrev Dword := BitVec 64

/-- A long-vector register, a matrix tile or an accumulator: 8,192 bits. -/
abbrev VReg := BitVec 8192

/-- A 64-byte line or command record, little-endian (R4). -/
abbrev Line := BitVec 512

/-- Sparse plain data keyed by a number: strictly rising keys, no entry equal to what an unlisted key reads as. -/
abbrev NatMap (α : Type) := List (Nat × α)

/-- Device time and its fractions are counted in thirds of a nanosecond: a nanosecond is 3 of them and a core-clock
cycle of 2/3 ns (R5) is 2. -/
abbrev Thirds := Nat

/-- Cycles in one microsecond (R34: one microsecond is exactly 1,500 cycles). -/
def cyclesPerMicro : Nat := 1500

end Sys2Proof
end

