-- ==== Sys2Proof/Syntax.lean ====
section
/-!
DEFINITION. The commands of the DXV-4616: one constructor for every row of the operation table (spec/opcode_table.json),
with the operands the command carries. A command that a unit of the device carries out names the unit; a command that
reports something from outside the device (a flit, a host request, a reading) carries what arrived; `t` is the device
time, in core-clock cycles, at which an event falls. A core instruction carries the core that executes it and its
32-bit word (R111).
-/

namespace Sys2Proof

/-- A message of the TRAIN flits (R412, R413): a timestamp to echo, its echo with the time it lay there, or an identity. -/
inductive TrainMsg where
  | stamp (t : Nat)
  | echo (t turn : Nat)
  | ident (b : List Byte)
  deriving DecidableEq, Repr

/-- A PCIe configuration request (R430 to R434, R442, R482) to a function, 0 the PF and p + 1 the VF of partition p: a read
of its identification or of what AER has logged, or a write of one of the settings this device acts on. -/
inductive CfgReq where
  | ident (fn : Nat)
  | aer (fn : Nat)
  | clearAer (fn bits : Nat)
  | busMaster (fn : Nat) (on : Bool)
  | msix (fn : Nat) (enable mask : Bool)
  | vfEnable (on : Bool)
  | numVfs (n : Nat)
  | hdm (base size ways : Nat)
  deriving DecidableEq, Repr

/-- How a management message comes (R458, R536, R557): from a partner (an SMBus address or MCTP endpoint ID) at device time `t`,
inside session `session`, 0 outside any; `packet` is 0 for a sound packet and otherwise the row of R536 that it breaks (4 a bad
PEC, 6 a bad MCTP header, version or sequence); `auth` says whether a secured message authenticates. -/
structure Ask where
  partner : Nat := 0
  session : Nat := 0
  t : Nat := 0
  packet : Nat := 0
  auth : Bool := true
  deriving DecidableEq, Repr

/-- A request on the debug and trace path (R396, R469): boundary scan, the identification code, an instruction of a stack's
IEEE 1500 controller (`hard`: hard repair or fuses), or a read of device memory. -/
inductive LoupeReq where
  | scan
  | idcode
  | ieee1500 (stack : Nat) (hard : Bool)
  | memory (addr n : Nat)
  deriving DecidableEq, Repr

/-- An IDE_KM message (R443), for a stream: 0 the link IDE stream, 1 to 8 the selective ones (R443). -/
inductive IdeKm where
  | query
  | program (stream : Nat)
  | setGo (stream : Nat)
  | setStop (stream : Nat)
  deriving DecidableEq, Repr

/-- A command. -/
inductive Instr where
  /-- TICK (R58). Shutter tick: the eleven ordered per-partition steps run within 1 µs of the tick. -/
  | tick
  /-- FLYWHEEL_TICK (R64). No valid message or edge arrived by the predicted time, so a tick fires at previous tick + P. -/
  | flywheelTick
  /-- GUARD_BAND_START (R36). The guard band begins and admission stops. -/
  | guardBandStart
  /-- TICK_MESSAGE_SEND (R60). The tick master sends the TICK flit for a tick 10 µs ahead. -/
  | tickMessageSend
  /-- TICK_MESSAGE_RECEIVE (R62). A TICK flit arrives; the device adds the port delay, schedules its tick, or discards the flit if late. -/
  | tickMessageReceive (q : Nat) (block : List Byte) (t res : Nat)
  /-- SHUTTER_IN_EDGE (R560). A rising edge on SHUTTER_IN counts as a tick in PIN mode and feeds the mapped partition input. -/
  | shutterInEdge (t : Nat)
  /-- HELD_CORE_STOP (R55). 10 µs after entry into HELD, cores still running a kernel are stopped with reason HELD. -/
  | heldCoreStop (p : Nat)
  /-- PERIODIC_TIMER_EXPIRY (R79). A PERIODIC timer adds 1 to its mark and reloads. -/
  | periodicTimerExpiry (p i : Nat)
  /-- ONESHOT_TIMER_EXPIRY (R79). A ONESHOT timer adds 1 to its mark and stops. -/
  | oneshotTimerExpiry (p i : Nat)
  /-- WATCHDOG_EXPIRY (R79). A WATCHDOG timer raises a contained WDOG error and its partition enters HELD at the next tick. -/
  | watchdogExpiry (p i : Nat)
  /-- INPUT_EDGE (R561). An edge on EVT_IN is latched by its detector. -/
  | inputEdge (input : Nat) (rising : Bool)
  /-- EDGE_DELIVER (R79). A latched edge of the selected kind adds 1 to its input's mark within 1 µs. -/
  | edgeDeliver (input : Nat)
  /-- Q_TAIL_WRITE (R259). A doorbell write is accepted as the new TAIL or ignored with TAILBAD. -/
  | qTailWrite (p q : Nat) (x : Word)
  /-- Q_CTRL_WRITE (R283). Enabling a queue resets its counts or sets CFGERR; disabling it aborts copied, unadmitted records. -/
  | qCtrlWrite (p q : Nat) (x : Word)
  /-- CQ_CTRL_WRITE (R284). Enables or disables a completion queue, setting CFGERR on a bad configuration. -/
  | cqCtrlWrite (p c : Nat) (x : Word)
  /-- CQ_HEAD_WRITE (R284). Software reports consumed completion records; out-of-range values are ignored. -/
  | cqHeadWrite (p c : Nat) (x : Word)
  /-- MK_ADD (R282). The host adds an amount to a mark. -/
  | mkAdd (p : Nat) (x : Word)
  /-- RECORD_COPY (R259). The scheduler copies the next record from a queue ring. -/
  | recordCopy (p q : Nat) (host : Option Line)
  /-- COMMAND_ADMIT (R45). A head record whose marks, frame, committed ends, apertures and slot allow it is admitted and dispatched. -/
  | commandAdmit (p q core t : Nat)
  /-- COMMAND_COMPLETE (R267). A command ends: its completion record is posted, its mark is signalled and events are raised. -/
  | commandComplete (p id t : Nat)
  /-- KRN_LAUNCH (R272). A LAUNCH command is dispatched to its named cores. -/
  | krnLaunch (p id : Nat)
  /-- KERNEL_START (R279). Once a core's previous kernel has ended, launch state is set and the kernel begins. -/
  | kernelStart (p id core : Nat)
  /-- MOV_COPY (R273). The data mover copies N bytes. -/
  | movCopy (p id : Nat)
  /-- MOV_COPY2D (R273). The data mover copies P rows of N bytes with strides. -/
  | movCopy2d (p id : Nat)
  /-- MOV_GATHER (R273). The data mover gathers elements by an index list. -/
  | movGather (p id : Nat)
  /-- MOV_SCATTER (R273). The data mover scatters elements by an index list. -/
  | movScatter (p id : Nat)
  /-- MOV_FILL (R273). The data mover fills N bytes with an 8-byte pattern. -/
  | movFill (p id : Nat)
  /-- MOV_COMPRESS (R326). The Condenser encodes raw data into a CTF stream and index table. -/
  | movCompress (p id : Nat)
  /-- MOV_DECOMPRESS (R327). The Condenser decodes blocks of a CTF stream, stopping at the first damaged block. -/
  | movDecompress (p id : Nat)
  /-- MOV_KSLOAD (R273). The data mover loads bytes into the kernel store. -/
  | movKsload (p id : Nat)
  /-- FIX_TENSOR (R292). The Fixer walks the descriptor shape and computes each element once. -/
  | fixTensor (p id : Nat)
  /-- RDU_OPEN (R304). A reduction is opened and its slots reserved; for SYSTEM scope it is announced to the home device. -/
  | rduOpen (p id : Nat)
  /-- RDU_CONTRIBUTE (R305). Values are checked by tag, summed privately, and merged into the reduction. -/
  | rduContribute (p id : Nat)
  /-- GRN_SEED (R343). A stream is seeded from a 64-bit seed. -/
  | grnSeed (p id : Nat)
  /-- GRN_SEED_LOAD (R343). A stream image is read and installed. -/
  | grnSeedLoad (p id : Nat)
  /-- GRN_SEED_SAVE (R343). A stream image is written to memory. -/
  | grnSeedSave (p id : Nat)
  /-- GRN_BITS (R344). 64-bit random words are written. -/
  | grnBits (p id : Nat)
  /-- GRN_MASK (R344). A random bit mask with probability P/65,536 is written. -/
  | grnMask (p id : Nat)
  /-- GRN_UNIFORM (R344). Uniform values in [0, 1) are written. -/
  | grnUniform (p id : Nat)
  /-- GRN_NORMAL (R345). Normal values are written by the Box–Muller form. -/
  | grnNormal (p id : Nat)
  /-- GRN_DISCRETE (R346). Indices are sampled from a weights row. -/
  | grnDiscrete (p id : Nat)
  /-- GRN_SAMPLE (R347). One token is sampled from a logits row with temperature, top-k and top-p. -/
  | grnSample (p id : Nat)
  /-- GRN_TOPK_EXPORT (R348). The K best logits are exported for host sampling. -/
  | grnTopkExport (p id : Nat)
  /-- LNK_PUT (R420). The link engine sends local data to a remote partition as WRITE messages. -/
  | lnkPut (p id : Nat)
  /-- LNK_GET (R420). The link engine reads remote data with READ messages. -/
  | lnkGet (p id : Nat)
  /-- SYN_NOP (R277). A SYN NOP completes at admission, serving waits and signals only. -/
  | synNop (p id : Nat)
  /-- SYN_MARK_ADD (R277). Adds an amount to a mark. -/
  | synMarkAdd (p id : Nat)
  /-- SYN_MARK_SET (R277). Sets a mark to a value. -/
  | synMarkSet (p id : Nat)
  /-- SYN_TIMESTAMP (R277). Writes device time and frame number. -/
  | synTimestamp (p id : Nat)
  /-- SYN_FRAME_ALIGN (R56). Completes at the next tick. -/
  | synFrameAlign (p id : Nat)
  /-- SYN_WATCHDOG (R79). Reloads a WATCHDOG timer of the partition. -/
  | synWatchdog (p id : Nat)
  /-- SYN_EVENT (R278). Raises a cluster event on the named cores. -/
  | synEvent (p id : Nat)
  /-- LOADING_COMPLETE (R97). Clearing and setup of a LOADING partition finish, so it enters RUNNING at the next tick. -/
  | loadingComplete (p : Nat)
  /-- DRAIN_COMPLETE (R99). A DRAINING partition's work and flushes finish, so it becomes OFF at the next tick. -/
  | drainComplete (p : Nat)
  /-- MIGRATION_LAST_ACK (R100). The target acknowledges the last byte, so the source becomes OFF with reason MIGRATED. -/
  | migrationLastAck (p : Nat)
  /-- PLT_STAGE (R88). A plate is copied into I/O die 0 and validated, or STAGE is refused with BUSY. -/
  | pltStage (host : Option (List Byte))
  /-- PLT_ABORT (R88). Discards a staged plate that is not yet installed. -/
  | pltAbort
  /-- PLATE_VALIDATION_DONE (R87). Validation ends with a result code, and the plate is staged for its install tick or fails. -/
  | plateValidationDone (t : Nat)
  /-- PLT_START (R96). Requests OFF to LOADING at the next tick. -/
  | pltStart (p : Nat)
  /-- PLT_STOP (R96). Requests LOADING to OFF, or DRAINING from RUNNING or HELD, at the next tick. -/
  | pltStop (p : Nat)
  /-- PLT_RELEASE (R98). Requests release of a HELD partition at the next tick. -/
  | pltRelease (p : Nat)
  /-- MIGRATE_OUT (R100). Starts migration of a partition to a target device and partition. -/
  | migrateOut (p dev part : Nat)
  /-- PG_RELEASE (R453). RELEASE requested from the partition's own VF page. -/
  | pgRelease (p : Nat)
  /-- ALU (R115). Register-register integer operations. -/
  | alu (c : Nat) (w : Word)
  /-- MULDIV (R116). Multiply, divide and remainder. -/
  | muldiv (c : Nat) (w : Word)
  /-- IMMEDIATE_OP (R114). ADDI, logic, compare, shift, LUI, ADDPC and ADDIW immediates. -/
  | immediateOp (c : Nat) (w : Word)
  /-- LOAD (R117). Scalar integer and FP loads, with their access checks. -/
  | load (c : Nat) (w : Word)
  /-- STORE (R119). Scalar stores enter the store buffer after checks 1 to 3. -/
  | store (c : Nat) (w : Word)
  /-- BRANCH (R120). Conditional branches with one delay slot. -/
  | branch (c : Nat) (w : Word)
  /-- J (R120). Unconditional jump with a delay slot. -/
  | j (c : Nat) (w : Word)
  /-- JAL (R120). Jump and link to g1, with a delay slot. -/
  | jal (c : Nat) (w : Word)
  /-- JALR (R124). Register jump and link, with a delay slot. -/
  | jalr (c : Nat) (w : Word)
  /-- GATE (R234). Checked system call through the gate table. -/
  | gate (c : Nat) (w : Word)
  /-- RETG (R237). Return from a gate frame. -/
  | retg (c : Nat) (w : Word)
  /-- RETE (R231). Return from an exception frame. -/
  | rete (c : Nat) (w : Word)
  /-- YIELD (R125). Drains the core, cleans L1D and ends the kernel with yielded status. -/
  | yield (c : Nat) (w : Word)
  /-- ENDK (R125). Drains the core, cleans L1D and ends the kernel normally. -/
  | endk (c : Nat) (w : Word)
  /-- BREAK (R125). Raises the breakpoint exception. -/
  | breakpoint (c : Nat) (w : Word)
  /-- WAITEV (R230). Waits until an enabled event, FRAME or LATEBUS is pending. -/
  | waitev (c : Nat) (w : Word)
  /-- MFC (R126). Reads a control register. -/
  | mfc (c : Nat) (w : Word)
  /-- MTC (R126). Writes a control register. -/
  | mtc (c : Nat) (w : Word)
  /-- SWC (R126). Swaps a control register with a g register. -/
  | swc (c : Nat) (w : Word)
  /-- SETC (R126). Sets bits of a control register. -/
  | setc (c : Nat) (w : Word)
  /-- CLRC (R126). Clears bits of a control register. -/
  | clrc (c : Nat) (w : Word)
  /-- FENCE_S (R127). Waits for the store buffer to empty. -/
  | fenceS (c : Nat) (w : Word)
  /-- FENCE_L (R252). Orders loads. -/
  | fenceL (c : Nat) (w : Word)
  /-- FENCE_A (R252). Orders all accesses of the core. -/
  | fenceA (c : Nat) (w : Word)
  /-- FENCE_E (R252). Orders with engines and retires the core's write-combining lines. -/
  | fenceE (c : Nat) (w : Word)
  /-- SYNC (R128). Completes pending SYNC-class writes and mode changes, switches decode bank and refetches. -/
  | sync (c : Nat) (w : Word)
  /-- CLEAN_A (R243). Writes back a dirty L1D line by address. -/
  | cleanA (c : Nat) (w : Word)
  /-- INV_A (R243). Invalidates an L1D line by address. -/
  | invA (c : Nat) (w : Word)
  /-- CLINV_A (R243). Cleans and invalidates an L1D line by address. -/
  | clinvA (c : Nat) (w : Word)
  /-- CLEAN_SW (R244). Cleans an L1D line by set and way. -/
  | cleanSw (c : Nat) (w : Word)
  /-- INV_SW (R244). Invalidates an L1D line by set and way. -/
  | invSw (c : Nat) (w : Word)
  /-- CLINV_SW (R244). Cleans and invalidates an L1D line by set and way. -/
  | clinvSw (c : Nat) (w : Word)
  /-- IINV_ALL (R247). Invalidates the instruction cache, fetch buffer and BTB and refetches. -/
  | iinvAll (c : Nat) (w : Word)
  /-- FP_OP (R134). Scalar FP arithmetic, square root, min/max and sign operations. -/
  | fpOp (c : Nat) (w : Word)
  /-- FMA_OP (R135). Scalar fused multiply-add forms. -/
  | fmaOp (c : Nat) (w : Word)
  /-- FP_COMPARE (R136). FCMPEQ, FCMPLT and FCMPLE. -/
  | fpCompare (c : Nat) (w : Word)
  /-- FKIND (R136). Classifies an FP operand. -/
  | fkind (c : Nat) (w : Word)
  /-- FNARROW (R136). Rounds FP64 to FP32. -/
  | fnarrow (c : Nat) (w : Word)
  /-- FWIDEN (R136). Widens FP32 to FP64. -/
  | fwiden (c : Nat) (w : Word)
  /-- FTOI (R137). Converts floating point to integer. -/
  | ftoi (c : Nat) (w : Word)
  /-- ITOF (R136). Converts integer to floating point. -/
  | itof (c : Nat) (w : Word)
  /-- FMOVG (R136). Moves an f register to a g register. -/
  | fmovg (c : Nat) (w : Word)
  /-- FMOVF (R136). Moves a g register to an f register. -/
  | fmovf (c : Nat) (w : Word)
  /-- SV_ARITH (R144). Short-vector add, subtract, multiply, FMA, min and max. -/
  | svArith (c : Nat) (w : Word)
  /-- SVCVT (R144). Short-vector format conversion. -/
  | svcvt (c : Nat) (w : Word)
  /-- SVSHUF (R144). Short-vector element shuffle. -/
  | svshuf (c : Nat) (w : Word)
  /-- VINT (R157). Long-vector integer operations. -/
  | vint (c : Nat) (w : Word)
  /-- VFP (R158). Long-vector floating-point operations. -/
  | vfp (c : Nat) (w : Word)
  /-- VMASK_COMPARE (R159). Integer and FP compares writing a mask. -/
  | vmaskCompare (c : Nat) (w : Word)
  /-- MASK_LOGIC (R159). VMAND, VMOR, VMXOR, VMANDN and VMNOT. -/
  | maskLogic (c : Nat) (w : Word)
  /-- VMPOPC (R159). Counts active set mask bits. -/
  | vmpopc (c : Nat) (w : Word)
  /-- VMFIRST (R159). Finds the first active set mask bit. -/
  | vmfirst (c : Nat) (w : Word)
  /-- VMSET (R159). Sets active bits of a mask. -/
  | vmset (c : Nat) (w : Word)
  /-- VSETL (R160). Sets VLN to min(request, VLMAX). -/
  | vsetl (c : Nat) (w : Word)
  /-- VMV (R160). Copies a vector group. -/
  | vmv (c : Nat) (w : Word)
  /-- VMV_SCALAR (R160). VMV.X and VMV.F broadcast a scalar. -/
  | vmvScalar (c : Nat) (w : Word)
  /-- VEXT (R160). VEXT.X and VEXT.F extract one element. -/
  | vext (c : Nat) (w : Word)
  /-- VSLIDEUP (R160). Slides elements up by k. -/
  | vslideup (c : Nat) (w : Word)
  /-- VSLIDEDN (R160). Slides elements down by k. -/
  | vslidedn (c : Nat) (w : Word)
  /-- VGATHER (R160). Gathers elements by index. -/
  | vgather (c : Nat) (w : Word)
  /-- VMERGE (R160). Merges two groups under a mask. -/
  | vmerge (c : Nat) (w : Word)
  /-- VID (R160). Writes element indices. -/
  | vid (c : Nat) (w : Word)
  /-- VREDSUM (R160). Integer sum of active elements. -/
  | vredsum (c : Nat) (w : Word)
  /-- VFREDSUM (R161). Exact FP sum of active elements, rounded once. -/
  | vfredsum (c : Nat) (w : Word)
  /-- VFREDMAXMIN (R160). VFREDMAX and VFREDMIN reductions. -/
  | vfredmaxmin (c : Nat) (w : Word)
  /-- VLD (R165). Long-vector load in unit-stride, strided, indexed or mask mode. -/
  | vld (c : Nat) (w : Word)
  /-- VLD_FIRST_FAULT (R167). First-fault load that shortens VLN at the first failing element. -/
  | vldFirstFault (c : Nat) (w : Word)
  /-- VST (R164). Long-vector store. -/
  | vst (c : Nat) (w : Word)
  /-- CVT (R170). VCVT conversion with RM or stochastic rounding. -/
  | cvt (c : Nat) (w : Word)
  /-- CVT_T (R169). VCVT conversion toward zero. -/
  | cvtT (c : Nat) (w : Word)
  /-- MXQ (R174). Quantises to an MX format with block scales. -/
  | mxq (c : Nat) (w : Word)
  /-- MXD (R175). Dequantises an MX format. -/
  | mxd (c : Nat) (w : Word)
  /-- MOP_ACC (R182). Adds the tile products to an accumulator. -/
  | mopAcc (c : Nat) (w : Word)
  /-- MOP_NACC (R182). Adds the negated products. -/
  | mopNacc (c : Nat) (w : Word)
  /-- MOP_SET (R182). Starts from zero, then adds the products. -/
  | mopSet (c : Nat) (w : Word)
  /-- MOP_NSET (R182). Starts from zero, then adds the negated products. -/
  | mopNset (c : Nat) (w : Word)
  /-- TLD (R187). Loads 16 rows of 64 bytes into a tile. -/
  | tld (c : Nat) (w : Word)
  /-- TLD_W (R187). Loads 8 rows of 128 bytes into a tile. -/
  | tldW (c : Nat) (w : Word)
  /-- TST (R187). Stores 16 rows of a tile. -/
  | tst (c : Nat) (w : Word)
  /-- TST_W (R187). Stores 8 wide rows of a tile. -/
  | tstW (c : Nat) (w : Word)
  /-- TSLD (R187). Loads a tile scale register. -/
  | tsld (c : Nat) (w : Word)
  /-- TSST (R187). Stores a tile scale register. -/
  | tsst (c : Nat) (w : Word)
  /-- VFROMT (R186). Copies a tile to a vector register. -/
  | vfromt (c : Nat) (w : Word)
  /-- TFROMV (R186). Copies a vector register to a tile. -/
  | tfromv (c : Nat) (w : Word)
  /-- VFROMA (R186). Copies an accumulator to a vector register. -/
  | vfroma (c : Nat) (w : Word)
  /-- AFROMV (R186). Copies a vector register to an accumulator. -/
  | afromv (c : Nat) (w : Word)
  /-- VFROMTS (R186). Copies a tile scale register to a vector register. -/
  | vfromts (c : Nat) (w : Word)
  /-- TSFROMV (R186). Copies a vector register to a tile scale register. -/
  | tsfromv (c : Nat) (w : Word)
  /-- AZERO (R186). Zeroes an accumulator. -/
  | azero (c : Nat) (w : Word)
  /-- ARED (R189). Contributes an accumulator to the tile reduction unit. -/
  | ared (c : Nat) (w : Word)
  /-- FIXQ (R287). Assembles a FIX record from a template and scalars into the core's lane. -/
  | fixq (c : Nat) (w : Word)
  /-- CUSTOM_INSTRUCTION (R212). Executes a decode-table entry's micro-ops. -/
  | customInstruction (c : Nat) (w : Word)
  /-- ASYNC_EXCEPTION (R228). At a boundary the highest-priority ready asynchronous exception or event is taken. -/
  | asyncException (c : Nat)
  /-- STORE_ACCEPT (R248). A store-buffer entry is accepted by its target and freed. -/
  | storeAccept (c i : Nat)
  /-- L1D_FILL (R241). An L1D miss fill returns and the line is allocated, or a fault is raised. -/
  | l1dFill (c a : Nat) (ce ue : BitVec 8)
  /-- INSTRUCTION_LINE_FILL (R199). A fetch line arrives from the kernel store or flash. -/
  | instructionLineFill (c a : Nat) (wrongPath late : Bool)
  /-- CHANNEL_READ (R363). A channel controller serves a line read. -/
  | channelRead (ch l flip : Nat) (die : Option Nat) (req : Nat)
  /-- CHANNEL_WRITE (R367). A full-line write supersedes any write-combining entry. -/
  | channelWrite (ch l : Nat) (data : Line)
  /-- PARTIAL_WRITE (R367). A partial write merges into a write-combining entry. -/
  | partialWrite (ch l : Nat) (data : Line) (valid : BitVec 64) (core : Option Nat)
  /-- WC_AGE_FLUSH (R368). An entry 256 cycles old is flushed by read-modify-write. -/
  | wcAgeFlush (ch t : Nat)
  /-- WC_MARKER (R368). A FENCE.E marker reaches a controller and flushes earlier entries. -/
  | wcMarker (c ch : Nat)
  /-- SRAM_ACCESS (R373). A tray or kernel-store access, with correction and poisoning per 8-byte word. -/
  | sramAccess (g kind i flip off : Nat) (data : List Byte)
  /-- REFRESH (R374). A per-bank refresh is issued at the refresh interval. -/
  | refresh (t : Nat)
  /-- THERMAL_READING (R375). Every 10 µs the stack temperature is read and acted on. -/
  | thermalReading (tile : Nat) (temp : Int) (t : Nat)
  /-- WARNING_CLEAR (R570). The warning clears after 100 ms at or below the threshold minus 3 °C. -/
  | warningClear (t : Nat)
  /-- SENSOR_SILENCE (R376). 100 µs without a reading halts the stack under THERMAL SENSOR. -/
  | sensorSilence (tile t : Nat)
  /-- IODIE_JUNCTION_READING (R554). Every 10 µs an I/O die reads its junction temperature and asserts ALERT_N or THERM_TRIP_N. -/
  | iodieJunctionReading (die : Nat) (temp : Int) (t : Nat)
  /-- AG_START (R390). Checks the configuration and test state, then starts an Agitator run. -/
  | agStart (ch : Nat)
  /-- AG_STOP (R390). Stops an Agitator run after outstanding requests. -/
  | agStop (ch : Nat)
  /-- AG_CLEAR (R388). Zeroes the Agitator and Proof counters. -/
  | agClear (ch : Nat)
  /-- ATP_CTRL_WRITE (R388). Writing EN = 0 while RUNNING stops the run with STOPCMD. -/
  | atpCtrlWrite (ch : Nat) (x : Word)
  /-- AGITATOR_ISSUE (R386). The Agitator issues its next request of the pattern. -/
  | agitatorIssue (ch t : Nat)
  /-- PROOF_CHECK (R387). An Agitator read returns and is checked against the expected data. -/
  | proofCheck (ch : Nat)
  /-- AGITATOR_RUN_END (R390). The last outstanding request completes, and the run ends DONE or STOPPED. -/
  | agitatorRunEnd (ch t : Nat)
  /-- RPR_APPLY (R392). Carries out and records a repair. -/
  | rprApply (stores : Bool)
  /-- RPR_REMOVE (R393). Deletes a repair map entry. -/
  | rprRemove (stores : Bool)
  /-- RPR_DIGEST (R393). Computes the assent digest of a repair request. -/
  | rprDigest
  /-- DATA_FLIT (R404). A DATA flit is accepted in sequence, discarded as a duplicate, or NAKed. -/
  | dataFlit (q : Nat) (block : List Byte) (t : Nat)
  /-- NULL_FLIT (R403). A NULL flit delivers ACK and credit returns. -/
  | nullFlit (q : Nat) (block : List Byte) (t : Nat)
  /-- NAK_FLIT (R405). A NAK causes replay of unacknowledged flits. -/
  | nakFlit (q : Nat) (block : List Byte) (t : Nat)
  /-- BAD_BLOCK (R404). A block failing FEC or CRC is discarded and a NAK sent. -/
  | badBlock (q : Nat) (tick : Bool) (t : Nat)
  /-- TRAIN_FLIT (R413). A TRAIN flit carries timestamp or identity messages. -/
  | trainFlit (q : Nat) (m : TrainMsg) (t : Nat)
  /-- FLIT_TRANSMIT (R409). A DATA flit is sent against a free credit. -/
  | flitTransmit (q t : Nat)
  /-- RETRY_TIMEOUT (R405). After 10 µs without ACK progress, the sender replays from the oldest flit. -/
  | retryTimeout (q t : Nat)
  /-- TRAINING_COMPLETE (R411). Link training completes and the port moves to MEASURE. -/
  | trainingComplete (q t : Nat)
  /-- TRAINING_FAIL (R411). Training fails or times out, and the port retries 1 s later. -/
  | trainingFail (q t : Nat)
  /-- RETRAIN_DEADLINE (R406). A retrain not done in 100 ms sends the port DARK and ends transactions. -/
  | retrainDeadline (q t : Nat)
  /-- MBX_RETRAIN (R428). MBX_CMD RETRAIN moves a port to TRAINING. -/
  | mbxRetrain (q : Nat)
  /-- MBX_DARK (R428). MBX_CMD DARK moves a port to DARK. -/
  | mbxDark (q : Nat)
  /-- MSG_WRITE (R421). A WRITE message is performed or refused at the target. -/
  | msgWrite (i : Nat)
  /-- MSG_READ (R421). A READ message returns data or is refused. -/
  | msgRead (i : Nat)
  /-- MSG_WRITE_SYS (R422). A remote core store by device-local address. -/
  | msgWriteSys (i : Nat)
  /-- MSG_READ_SYS (R422). A remote core load by device-local address. -/
  | msgReadSys (i : Nat)
  /-- MSG_MARK_ADD (R420). Adds 1 to the remote mark after every byte is performed. -/
  | msgMarkAdd (i : Nat)
  /-- MSG_MIG_WRITE (R423). Writes migration data into a target granule. -/
  | msgMigWrite (i : Nat)
  /-- MSG_MIG_CTL (R100). A migration control step is checked and accepted or refused by the target. -/
  | msgMigCtl (i : Nat)
  /-- MSG_RED_DELTA (R423). A reduction delta is merged once all pieces arrive. -/
  | msgRedDelta (i : Nat)
  /-- MSG_RED_RESULT (R311). A reduction result is written at this device's ADDR. -/
  | msgRedResult (i : Nat)
  /-- MSG_VIOLATION (R426). A partner's violation notice is logged. -/
  | msgViolation (i : Nat)
  /-- MSG_MGMT (R407). A management message between controllers. -/
  | msgMgmt (i : Nat)
  /-- MSG_WRITE_ACK (R420). A write acknowledgement completes part of a transaction. -/
  | msgWriteAck (i : Nat)
  /-- MSG_READ_DATA (R420). Read data is written locally, or the command ends on poison. -/
  | msgReadData (i : Nat)
  /-- MSG_MARK_ACK (R420). Acknowledges a remote mark update or migration step. -/
  | msgMarkAck (i : Nat)
  /-- MSG_REFUSE (R421). A refusal ends the origin's command with REMOTE_REFUSED. -/
  | msgRefuse (i : Nat)
  /-- MSG_RED_ACK (R310). A delta is acknowledged, or answered NOT_OPEN for retry. -/
  | msgRedAck (i : Nat)
  /-- DELTA_SEND (R310). A unit sends a delta within 1 µs of acceptance. -/
  | deltaSend (p rid u : Nat)
  /-- DELTA_RETRY (R310). A delta refused NOT_OPEN is sent again after 2 µs. -/
  | deltaRetry (p rid : Nat)
  /-- TRANSACTION_TIMEOUT (R424). A transaction unanswered for 1,000 µs completes with ROUTE_DOWN. -/
  | transactionTimeout (dst tag t : Nat)
  /-- TAG_QUARANTINE_END (R424). A freed tag becomes reusable after 10 ms. -/
  | tagQuarantineEnd (dst tag t : Nat)
  /-- PF_W2_READ (R438). A host read of device-local memory through PF W2. -/
  | pfW2Read (rid off n : Nat)
  /-- PF_W2_WRITE (R438). A host write of device-local memory through PF W2. -/
  | pfW2Write (rid off : Nat) (data : List Byte) (poisoned : Bool)
  /-- VF_W2_READ (R439). A host read of partition addresses through VF W2. -/
  | vfW2Read (p rid off n : Nat)
  /-- VF_W2_WRITE (R439). A host write of partition addresses through VF W2. -/
  | vfW2Write (p rid off : Nat) (data : List Byte) (poisoned : Bool)
  /-- ATOMICOP (R437). A PCIe AtomicOp is answered UR. -/
  | atomicop (path rid : Nat)
  /-- VENDOR_DEFINED_MESSAGE (R437). A vendor message goes to Safelight if MCTP, and is otherwise answered UR or discarded. -/
  | vendorDefinedMessage (rid kind : Nat) (mctp : Bool)
  /-- VF_FLR (R440). Closes the partition session and disables queues. -/
  | vfFlr (p : Nat)
  /-- PF_FLR (R440). Resets the PF and clears VF Enable. -/
  | pfFlr
  /-- HOT_RESET (R440). Hot reset or link down acts as PF FLR. -/
  | hotReset (linkDown : Bool)
  /-- D3HOT_ENTRY (R440). A function enters D3hot. -/
  | d3hotEntry (fn : Nat)
  /-- D0_RETURN (R440). A function returns to D0 as it was. -/
  | d0Return (fn : Nat)
  /-- HOST_LINK_RETRAIN (R436). After a host link retrain, service-only operation is re-judged. -/
  | hostLinkRetrain (speed width : Nat) (flitMode : Bool)
  /-- CXL_MEM_READ (R435). A CXL.mem read is performed at the channel controller, or poisoned if owned. -/
  | cxlMemRead (addr rid : Nat)
  /-- CXL_MEM_WRITE (R435). A CXL.mem write is performed, or dropped if owned. -/
  | cxlMemWrite (addr rid : Nat) (data : Line)
  /-- IDENTIFY_MEMORY_DEVICE (R434). CXL mailbox command. -/
  | identifyMemoryDevice
  /-- GET_EVENT_RECORDS (R434). CXL mailbox command. -/
  | getEventRecords
  /-- CLEAR_EVENT_RECORDS (R434). CXL mailbox command. -/
  | clearEventRecords (n : Nat)
  /-- GET_POISON_LIST (R434). CXL mailbox command. -/
  | getPoisonList (addr n : Nat)
  /-- MSIX_UNMASK (R442). Unmasking a vector with a pending bit sends one message. -/
  | msixUnmask (fn v : Nat)
  /-- REGISTER_WRITE (R7). A write to a register with no row of its own, including RWD, narrow and unaligned cases. -/
  | registerWrite (path rid off en : Nat) (data : List Byte) (poisoned : Bool)
  /-- RC_REGISTER_READ (R6). A read of an RC register returns and clears it, except on exempt paths. -/
  | rcRegisterRead (path rid off n en : Nat)
  /-- LO_REGISTER_READ (R447). A read of a *_LO register latches bits [63:32] for that path. -/
  | loRegisterRead (path rid off n en : Nat)
  /-- ERR_HEAD_WRITE (R541). Software reports consumed error records; out-of-range values are ignored. -/
  | errHeadWrite (x : Word)
  /-- GET_VERSION (R458). SPDM request. -/
  | getVersion (q : Ask)
  /-- GET_CAPABILITIES (R458). SPDM request. -/
  | getCapabilities (q : Ask) (version largest : Nat)
  /-- NEGOTIATE_ALGORITHMS (R458). SPDM request. -/
  | negotiateAlgorithms (q : Ask) (offered : Bool)
  /-- GET_DIGESTS (R458). SPDM request for slot 0. -/
  | getDigests (q : Ask)
  /-- GET_CERTIFICATE (R474). Returns the certificate chain of slot 0. -/
  | getCertificate (q : Ask) (slot off n : Nat)
  /-- SPDM_CHALLENGE (R474). Signed with the Alias key. -/
  | spdmChallenge (q : Ask) (slot : Nat) (nonce : List Byte)
  /-- GET_MEASUREMENTS (R474). Reports measurements 1 to 11. -/
  | getMeasurements (q : Ask) (index : Nat) (sign : Bool) (nonce : List Byte)
  /-- PSK_EXCHANGE (R459). Opens a management session for a role hint. -/
  | pskExchange (q : Ask) (role part : Nat)
  /-- PSK_FINISH (R459). Completes a session, or records AUTH_FAIL. -/
  | pskFinish (q : Ask) (key : BitVec 384)
  /-- HEARTBEAT (R459). Keeps a session alive. -/
  | heartbeat (q : Ask)
  /-- KEY_UPDATE (R458). Updates session keys. -/
  | keyUpdate (q : Ask) (tag : Nat)
  /-- END_SESSION (R459). Ends a management session. -/
  | endSession (q : Ask)
  /-- CHUNK_SEND (R458). Sends an SPDM chunk. -/
  | chunkSend (q : Ask) (handle seq : Nat) (last : Bool) (chunk : List Byte)
  /-- CHUNK_GET (R458). Gets an SPDM chunk. -/
  | chunkGet (q : Ask) (handle seq : Nat)
  /-- HEARTBEAT_TIMEOUT (R459). A session ends after three heartbeat periods without traffic. -/
  | heartbeatTimeout (session t : Nat)
  /-- MCTP_CONTROL_MESSAGE (R536). An MCTP control message is answered or refused. -/
  | mctpControlMessage (q : Ask) (cmd : Nat) (body : List Byte)
  /-- SESSION_INFO (R460). Returns session and device state. -/
  | sessionInfo (q : Ask) (body : List Byte)
  /-- PREPARE_DIGEST (R463). Computes an assent digest and returns ASSENT_SEQ. -/
  | prepareDigest (q : Ask) (body : List Byte)
  /-- ASSENT (R464). Records, or completes, an assent record. -/
  | assent (q : Ask) (body : List Byte)
  /-- ASSENT_STATUS (R460). Returns the assent records. -/
  | assentStatus (q : Ask) (body : List Byte)
  /-- WITHDRAW (R460). Removes a record the caller's role alone has assented to. -/
  | withdraw (q : Ask) (body : List Byte)
  /-- SET_PSK (R461). Replaces a role's PSK and ends that role's sessions. -/
  | setPsk (q : Ask) (body : List Byte) (stores : Bool)
  /-- SET_PART_KEY (R456). Sets or erases a partition key and raises KEY_GEN. -/
  | setPartKey (q : Ask) (body : List Byte) (stores : Bool)
  /-- LOCK_RELEASE (R467). Consumes a LOCK assent and clears the owner lock. -/
  | lockRelease (q : Ask) (body : List Byte) (stores : Bool)
  /-- DEBUG_UNLOCK (R469). Consumes a DEBUG assent; the unlock takes effect at the next tick. -/
  | debugUnlock (q : Ask) (body : List Byte) (stores erases : Bool)
  /-- DEBUG_LOCK (R470). Closes Loupe at once. -/
  | debugLock (q : Ask) (body : List Byte)
  /-- MGMT_REPAIR (R460). Carries out a repair APPLY or REMOVE through management. -/
  | mgmtRepair (q : Ask) (body : List Byte) (stores : Bool)
  /-- GET_LOG (R535). Reads the flash log area. -/
  | getLog (q : Ask) (body : List Byte)
  /-- CLAIM (R457). Claims a factory-state device. -/
  | claim (q : Ask) (body : List Byte) (stores : Bool)
  /-- ASSENT_EXPIRY (R464). An assent record past its deadline is removed. -/
  | assentExpiry (t : Nat)
  /-- PS_CHALLENGE (R472). Issues a fresh 32-byte nonce. -/
  | psChallenge (p t : Nat)
  /-- PS_OPEN (R472). Checks the HMAC response and opens the session, or counts a failure. -/
  | psOpen (p t : Nat)
  /-- PS_CLOSE (R473). Closes the partition session. -/
  | psClose (p : Nat)
  /-- NONCE_EXPIRY (R472). A nonce dies 10 s after it is issued. -/
  | nonceExpiry (p t : Nat)
  /-- LOCKOUT_END (R473). A session lockout period ends. -/
  | lockoutEnd (p t : Nat)
  /-- SMBUS_CLOCK_TIMEOUT (R536). The clock held low over 35 ms resets the SMBus interface. -/
  | smbusClockTimeout (partner t : Nat)
  /-- PARTNER_IGNORE_END (R537). A violating management partner is heard again after 1 s. -/
  | partnerIgnoreEnd (partner t : Nat)
  /-- POWER_ON (R477). VSTBY33 applied starts the always-on domain with cause POWER_ON. -/
  | powerOn
  /-- PWRGD_DEASSERT (R550). The device enters reset within 1 µs with cause PWRGD. -/
  | pwrgdDeassert
  /-- PWRGD_ASSERT (R548). Boot may start once PERST_N is also released. -/
  | pwrgdAssert (t : Nat) (hottest : Int)
  /-- PERST_ASSERT (R477). Device reset with cause PERST. -/
  | perstAssert
  /-- PERST_RELEASE (R482). Samples HOSTMODE and starts boot. -/
  | perstRelease (t : Nat) (strap : Bool)
  /-- HOLDUP_CHANGE (R553). HOLDUP_N changes after 10 µs filtering. -/
  | holdupChange (asserted : Bool)
  /-- STEP_ROM (R479). ROM self-check, fuse read, UDS derivation and flash discovery. -/
  | stepRom (t : Nat) (sound : Bool)
  /-- STEP_FLASH (R479). Reads selectors, counters and journal, settles the previous boot, and chooses paths. -/
  | stepFlash (t fails : Nat) (stores : Bool)
  /-- STEP_IMAGE (R489). Verifies the slot and starts Safelight. -/
  | stepImage (t : Nat) (stores : Bool)
  /-- STEP_CLOCKS (R479). Locks the core clock. -/
  | stepClocks (t : Nat) (locked stores : Bool)
  /-- STEP_HOST (R479). Applies the host configuration and readies configuration space. -/
  | stepHost (t : Nat) (stores : Bool)
  /-- STEP_SETTINGS (R479). Opens the settings archive and loads secrets, map and plate. -/
  | stepSettings (t : Nat) (stores : Bool)
  /-- STEP_TILES (R479). Loads tile firmware and runs the tile self-test. -/
  | stepTiles (t : Nat) (sound stores : Bool)
  /-- STEP_STACKS (R395). Trains stacks, replays the repair map and zeroes DRAM. -/
  | stepStacks (t : Nat) (fail80 fail64 chans refused : List Nat) (remaps : List (List Byte)) (stores : Bool)
  /-- STEP_CORES (R479). Core self-test and sparing. -/
  | stepCores (t : Nat) (failed : List Nat) (stores : Bool)
  /-- STEP_MESH (R479). Trains the mesh edges. -/
  | stepMesh (t : Nat) (half dead : List Nat) (stores : Bool)
  /-- STEP_LINKS (R479). Selects the plate and trains MBX ports. -/
  | stepLinks (t : Nat) (stores : Bool)
  /-- STEP_SHUTTER (R492). Starts ticks and waits for lock. -/
  | stepShutter (t : Nat) (stores : Bool)
  /-- STEP_PLATE (R479). Installs the plate at the first tick. -/
  | stepPlate (t : Nat) (stores : Bool)
  /-- STEP_READY (R479). Writes counters and journal and opens the windows. -/
  | stepReady (t : Nat) (stores : Bool) (bad : Option Nat)
  /-- STEP_WATCHDOG_EXPIRY (R480). A step exceeding its maximum time resets the device with cause STEP_WDOG. -/
  | stepWatchdogExpiry (units : List Nat)
  /-- SAFELIGHT_WATCHDOG_EXPIRY (R497). Resets the device before READY, or restarts Safelight after READY. -/
  | safelightWatchdogExpiry (t : Nat) (stores : Bool)
  /-- BOOT_RESET (R498). BOOT_CMD RESET resets the device with cause HOST_CMD. -/
  | bootReset
  /-- CLEAR_FAILRUN (R496). Writes FAILRUN = 0 and SERVICE_HOLD = 0. -/
  | clearFailrun (stores : Bool)
  /-- FWU_BEGIN (R507). Starts an update and erases the target slot. -/
  | fwuBegin (t : Nat)
  /-- ERASE_COMPLETE (R507). Erasure of the target slot ends, and the update moves to RECEIVING. -/
  | eraseComplete (t : Nat)
  /-- FWU_WRITE_BLOCK (R508). Writes a 4 KiB image block with CRC and read-back checks. -/
  | fwuWriteBlock (t : Nat) (stores : Bool)
  /-- FWU_VERIFY (R510). Verifies the image and manifest. -/
  | fwuVerify (t : Nat)
  /-- FWU_ACTIVATE (R513). Writes a selector naming the new slot on trial. -/
  | fwuActivate (t : Nat) (stores : Bool)
  /-- FWU_ABORT (R507). Abandons the update. -/
  | fwuAbort (t : Nat)
  /-- FWU_CONFIRM (R515). Confirms the trial and raises the security version. -/
  | fwuConfirm (stores : Bool) (bad : Option Nat)
  /-- FWU_REVERT (R515). Writes a selector returning to the previous slot. -/
  | fwuRevert (stores : Bool)
  /-- UPDATE_TIMEOUT (R507). 600 s of silence aborts the update with TIMEOUT. -/
  | updateTimeout (t : Nat)
  /-- ACTIVATE_RESET (R513). 10 ms after activation with RESET set, the device resets with cause ACTIVATE. -/
  | activateReset
  /-- REQUEST_UPDATE (R509). PLDM RequestUpdate, with the checks of BEGIN. -/
  | requestUpdate (q : Ask) (maxXfer : Nat)
  /-- PASS_COMPONENT_TABLE (R509). PLDM PassComponentTable. -/
  | passComponentTable (q : Ask) (ident : Nat)
  /-- UPDATE_COMPONENT (R509). PLDM UpdateComponent acts as BEGIN. -/
  | updateComponent (q : Ask) (ident size : Nat)
  /-- FIRMWARE_DATA_RECEIVE (R509). Data answering RequestFirmwareData is assembled into blocks and written. -/
  | firmwareDataReceive (q : Ask) (data : List Byte) (stores : Bool)
  /-- ACTIVATE_FIRMWARE (R509). PLDM ActivateFirmware acts as ACTIVATE with AUTOCONF. -/
  | activateFirmware (q : Ask) (selfContained stores : Bool)
  /-- CANCEL_UPDATE_COMPONENT (R509). Acts as ABORT. -/
  | cancelUpdateComponent (q : Ask)
  /-- CANCEL_UPDATE (R509). Acts as ABORT. -/
  | cancelUpdate (q : Ask)
  /-- GET_STATUS (R509). Reports the update state. -/
  | getStatus (q : Ask)
  /-- GET_FIRMWARE_PARAMETERS (R509). Reports running, pending and previous versions. -/
  | getFirmwareParameters (q : Ask)
  /-- PARITY_ERROR (R528). An internal logic error is detected in a cluster, scheduler, tile or I/O die. -/
  | parityError (kind unit t : Nat)
  /-- MESH_EDGE_FAILURE (R528). Loss of a mesh module degrades the edge; loss of both is FATAL. -/
  | meshEdgeFailure (e : Nat) (ports : List Nat) (t : Nat)
  /-- FLASH_LOG_WRITE (R535). Safelight writes records from its stream to the flash log. -/
  | flashLogWrite (stores : Bool)
  /-- BLOCK_LOCK_LOSS (R406). A port loses block lock on a lane and leaves UP to retrain. -/
  | blockLockLoss (q t : Nat)
  /-- SIGNAL_ON_DARK_PORT (R101). A signal appears on a port marked DARK; it is ignored but logged, with a PLT_EVENTS bit raised. -/
  | signalOnDarkPort (q : Nat)
  /-- MESH_FLIT_RETRY (R528). A UCIe flit on a mesh edge fails its CRC and is retried, writing a CORRECTED MESH RETRY record. -/
  | meshFlitRetry (e t : Nat)
  /-- CONFIGURATION_REQUEST (R482). A PCIe configuration request is answered with CRS before HOST ends, and otherwise carries out writes such as VF Enable, NumVFs and Bus Master Enable. -/
  | configurationRequest (r : CfgReq)
  /-- IDE_KM_REQUEST (R443). An IDE_KM message on the PF's DOE mailbox programs or activates IDE stream keys. -/
  | ideKmRequest (q : Ask) (r : IdeKm)
  /-- LOUPE_REQUEST (R469). A request on the debug and trace path is served (boundary scan and ID code, or everything after unlock) or refused, with raw IEEE 1500 hard-repair and fuse instructions always refused. -/
  | loupeRequest (r : LoupeReq)
  /-- REPAIR_OPERATION_COMPLETE (R392). A repair operation on the IEEE 1500 port ends: the affected lines are zeroed, the map is persisted, RPR_RESULT is written and RPR_STAT moves from BUSY to DONE. -/
  | repairOperationComplete (code : Nat) (lines : List Nat) (stores : Bool)
  /-- VERIFY_COMPLETE (R507). VERIFY finishes reading the slot, within 1 s, and the update moves from VERIFYING to VERIFIED, or back to RECEIVING. -/
  | verifyComplete (t : Nat)
  /-- SAFELIGHT_RESTART_COMPLETE (R497). Within 500 ms of a post-READY watchdog restart, Safelight runs again from the verified slot and answers MCTP and management. -/
  | safelightRestartComplete (t : Nat)
  deriving DecidableEq, Repr

end Sys2Proof
end

