-- ==== Sys2Proof/Decode.lean ====
section
/-!
DEFINITION. Commands as words: the operation table gives its rows no bits, so a word spells no command.
-/

namespace Sys2Proof

/-- The command a word of the operation table spells: none, since the table gives no row an encoding. -/
def decodeTableWord (_nbits _w : Nat) : Option Instr := none

end Sys2Proof
end

