-- ==== Sys2Proof/Config.lean ====
section
/-!
DEFINITION. What the spec fixes by reference to another standard, and the values it leaves open. Every constant here is
opaque: it has no body, so that no proof can rest on a value the spec does not give. notes/assumptions names each.
-/

namespace Sys2Proof.Config

/-- SHA-384 of a byte string (FIPS 180-4, named in R83, R456, R463, R474). -/
opaque sha384 : List Byte → BitVec 384

/-- Does this ECDSA P-384 signature verify: public key, signature, digest (R83)? -/
opaque ecdsaVerify : List Byte → List Byte → BitVec 384 → Bool

/-- HMAC-SHA-384 of a byte string under a key (R472). -/
opaque hmac384 : BitVec 384 → List Byte → BitVec 384

/-- The k-th 32-byte nonce of the device's random source (R472). -/
opaque nonce : Nat → BitVec 256

/-- A byte the spec leaves open, by the number of the draw. -/
opaque freeByte : Nat → Byte

/-- A 64-bit value the spec leaves open, by the number of the draw. -/
opaque freeDword : Nat → Dword

/-- A choice the spec leaves open, by the number of the draw. -/
opaque freeBool : Nat → Bool

/-- Which of the results within its bound a transcendental operation of the Fixer gives (R296), by operation, source
format and bits, destination format and FTZ. -/
opaque transcendental (op fmt bits dfmt : Nat) (ftz : Bool) : Nat

/-- The DeviceID public key in its 97-byte form (R463, R474). -/
opaque deviceIdKey : List Byte

/-- The Folzia firmware key hash of the fuse block (R503). -/
opaque firmwareKeyHash : BitVec 384

/-- What a CLAIM's ciphertext decrypts to (R457): its 240 bytes, or none where the tag does not verify. -/
opaque claimPlain : List Byte → Option (List Byte)

/-- Measurement 1, the digest of the ROM code (R474). -/
opaque romDigest : BitVec 384

/-- The certificate chain of slot 0 (R474), given the security version and the digest of SAFELIGHT. -/
opaque certChain : Nat → BitVec 384 → List Byte

/-- A signature with the Alias key (R474). -/
opaque aliasSign : List Byte → List Byte

/-- Settings migration (R518): the content a migration program makes of settings of a version, or none where it fails. -/
opaque migrateOk : List Byte → Nat → Bool

/-- The minimum of R431's standards that the spec only names: what CDAT, DOE discovery or a CXL command's payload holds
beyond what the spec gives, by command and a number. -/
opaque standardBytes : Nat → Nat → List Byte

/-- A choice the spec leaves open for each address of a range, by the number of the draw and the address. -/
opaque freeAt : Nat → Nat → Bool

/-- Does stochastic rounding of a value above a format's largest finite value give the infinity (R172)? It depends on the
16 random bits and on the value, as a significand and an exponent. -/
opaque srInfinite (u m : Nat) (e : Int) : Bool

end Sys2Proof.Config
end

