-- ==== Sys2Proof/Machine/Map.lean ====
section
/-!
DEFINITION. Reading and writing sparse data in its one canonical form, and the little-endian byte helpers of R4.
-/

namespace Sys2Proof

/-- What key `k` reads as, where an unlisted key reads as `d`. -/
def NatMap.get {α : Type} (d : α) : NatMap α → Nat → α
  | [], _ => d
  | (j, a) :: m, k => if k = j then a else NatMap.get d m k

/-- Put `v` at key `k`, keeping the keys rising (used by `NatMap.set` for a value that is not the default). -/
def NatMap.put {α : Type} (k : Nat) (v : α) : NatMap α → NatMap α
  | [] => [(k, v)]
  | (j, a) :: m =>
    if k < j then (k, v) :: (j, a) :: m
    else if k = j then (k, v) :: m
    else (j, a) :: NatMap.put k v m

/-- Remove key `k`. -/
def NatMap.del {α : Type} (k : Nat) (m : NatMap α) : NatMap α := m.filter (fun e => e.1 != k)

/-- Write `v` at key `k`; writing what an unlisted key reads as removes the entry. -/
def NatMap.set {α : Type} [DecidableEq α] (d : α) (m : NatMap α) (k : Nat) (v : α) : NatMap α :=
  if v = d then NatMap.del k m else NatMap.put k v m

/-- Change the value at key `k`. -/
def NatMap.upd {α : Type} [DecidableEq α] (d : α) (m : NatMap α) (k : Nat) (f : α → α) : NatMap α :=
  NatMap.set d m k (f (NatMap.get d m k))

/-- Every key of the map is above `lo` and no entry equals the default. -/
def NatMap.wfFrom {α : Type} [DecidableEq α] (d : α) (lo : Nat) : NatMap α → Bool
  | [] => true
  | (j, a) :: m => decide (lo ≤ j) && !(decide (a = d)) && NatMap.wfFrom d (j + 1) m

/-- The canonical form: keys strictly rising, no entry equal to the default. -/
def NatMap.wf {α : Type} [DecidableEq α] (d : α) (m : NatMap α) : Bool := NatMap.wfFrom d 0 m

/-- Write the same function of the key over a list of keys. -/
def NatMap.setAll {α : Type} [DecidableEq α] (d : α) (m : NatMap α) (ks : List Nat) (f : Nat → α → α) : NatMap α :=
  ks.foldl (fun m k => NatMap.upd d m k (f k)) m

/-- Keep the entries whose key passes the test. -/
def NatMap.filterKeys {α : Type} (p : Nat → Bool) (m : NatMap α) : NatMap α := m.filter (fun e => p e.1)

/-- The number a little-endian list of bytes spells (R4). -/
def leNat : List Byte → Nat
  | [] => 0
  | b :: bs => b.toNat + 256 * leNat bs

/-- The `n` little-endian bytes of a number (R4). -/
def natLE : Nat → Nat → List Byte
  | 0, _ => []
  | n + 1, v => BitVec.ofNat 8 v :: natLE n (v / 256)

/-- The number a big-endian list of bytes spells. -/
def beNat (bs : List Byte) : Nat := leNat bs.reverse

/-- Bytes `[lo, lo + n)` of a list of bytes, as a little-endian number. -/
def fieldLE (bs : List Byte) (lo n : Nat) : Nat := leNat ((bs.drop lo).take n)

/-- Byte `i` of a list of bytes, 0 past its end. -/
def byteAt (bs : List Byte) (i : Nat) : Nat := ((bs.drop i).headD 0#8).toNat

/-- Are bytes `[lo, lo + n)` all zero? -/
def zeroAt (bs : List Byte) (lo n : Nat) : Bool := ((bs.drop lo).take n).all (· = 0#8)

/-- Bits `[lo, lo + n)` of a number. -/
def bitsOf (v lo n : Nat) : Nat := (v / 2 ^ lo) % 2 ^ n

/-- Bit `i` of a number. -/
def bitOf (v i : Nat) : Bool := v.testBit i

/-- Bytes `[lo, lo + n)` of a record held as a number with byte 0 lowest. -/
def bytesOf (v lo n : Nat) : Nat := bitsOf v (8 * lo) (8 * n)

/-- Sign-extend the low `n` bits of a number to an integer. -/
def signed (n : Nat) (v : Nat) : Int :=
  if v % 2 ^ n < 2 ^ (n - 1) then ((v % 2 ^ n : Nat) : Int) else ((v % 2 ^ n : Nat) : Int) - ((2 ^ n : Nat) : Int)

/-- How many of bits 0 to `n − 1` of a number are 1. -/
def popcount (n v : Nat) : Nat := ((List.range n).filter (fun i => bitOf v i)).length

/-- The positions of the bits of a number that are 1, below `n`, rising. -/
def onesOf (n v : Nat) : List Nat := (List.range n).filter (fun i => bitOf v i)

/-- A saturating 32-bit increment. -/
def satInc (w : Word) : Word := if w = 0xFFFFFFFF#32 then w else w + 1#32

/-- A saturating 32-bit addition. -/
def satAdd (w : Word) (n : Nat) : Word := if w.toNat + n ≥ 2 ^ 32 then 0xFFFFFFFF#32 else w + BitVec.ofNat 32 n

/-- Division rounded up. -/
def ceilDiv (a b : Nat) : Nat := (a + b - 1) / b

/-- Apply `f` to the first element that passes `p`. -/
def updFirst {α : Type} (p : α → Bool) (f : α → α) : List α → List α
  | [] => []
  | a :: l => if p a then f a :: l else a :: updFirst p f l

/-- Insert an element before the first one that it does not follow. -/
def insertBy {α : Type} (le : α → α → Bool) (a : α) : List α → List α
  | [] => [a]
  | b :: l => if le a b then a :: b :: l else b :: insertBy le a l

/-- A stable sort by insertion. -/
def sortBy {α : Type} (le : α → α → Bool) (l : List α) : List α := l.foldr (insertBy le) []

/-- One step of the bitwise CRC of a byte with reflected polynomial `poly`. -/
def crcByteStep (poly : BitVec 32) (c : BitVec 32) : Nat → BitVec 32
  | 0 => c
  | n + 1 => crcByteStep poly (if c.getLsbD 0 then (c >>> 1) ^^^ poly else c >>> 1) n

/-- A reflected CRC-32 with initial value and final inversion of all ones. -/
def crc32With (poly : BitVec 32) (bs : List Byte) : BitVec 32 :=
  ~~~ (bs.foldl (fun c b => crcByteStep poly (c ^^^ b.setWidth 32) 8) 0xFFFFFFFF#32)

end Sys2Proof
end

