-- ==== Sys2Proof/Machine/Types/Nv.lean ====
section
/-!
DEFINITION. What survives a device reset (R478): the fuses, the flash with its selector records (R504), boot counters (R485),
journal (R486) and settings archive (R456, R516), and the always-on SRAM.
-/

namespace Sys2Proof.Machine

/-- The content of a settings half, and what the device holds of it (R84, R394, R456, R457, R516). `psks` is keyed by role
code, with OPERATOR p at 16 + p. `plate` is the default plate, empty where none is stored. -/
structure Archive where
  setver : Nat := 0
  gen : Nat := 0
  claimed : Bool := false
  ownerHash : Option (BitVec 384) := none
  custodianHash : Option (BitVec 384) := none
  operatorHash : NatMap (Option (BitVec 384)) := []
  psks : NatMap (Option (BitVec 384)) := []
  /-- Partition keys, 0 where unset, and their KEY_GEN. -/
  keys : NatMap (BitVec 384) := []
  keyGens : NatMap Nat := []
  assentSeq : Word := 0
  lock : Bool := false
  window : Nat := 120
  /-- The PROTECTED digest of the plate installed last. -/
  protDigest : Option (BitVec 384) := none
  debugPolicy : Nat := 0
  updatePolicy : Nat := 0
  plate : List Byte := []
  floor : Nat := 0
  map : List (List Byte) := []
  mapGen : Nat := 0
  deriving DecidableEq, Repr

/-- A selector record (R504): slot 0 is A, slot 1 is B; PREVIOUS is none where its byte is 0xFF. -/
structure Selector where
  seq : Nat := 0
  active : Nat := 0
  trial : Bool := false
  previous : Option Nat := none
  fails : Nat := 0
  autoconf : Bool := false
  activeDigest : BitVec 384 := 0
  previousDigest : BitVec 384 := 0
  deriving DecidableEq, Repr

/-- A boot counter record (R485). -/
structure Counter where
  seq : Nat := 0
  bootnum : Nat := 0
  failrun : Nat := 0
  prev : Nat := 3
  hold : Bool := false
  deriving DecidableEq, Repr

/-- A journal record (R486) before its CRC. -/
structure JRec where
  jseq : Nat := 0
  bootnum : Nat := 0
  step : Nat := 0
  outcome : Nat := 0
  path : Nat := 0
  unitKind : Nat := 0
  unit : Nat := 0
  code : Nat := 0
  time : Nat := 0
  deriving DecidableEq, Repr

/-- Flash, settings archive and fuses. `cells` holds, by flash offset, what is not the erased byte 0xFF, each byte kept as its
complement; a copy or half that is not valid is none. -/
structure Nv where
  cells : NatMap Byte := []
  sel0 : Option Selector := none
  sel1 : Option Selector := none
  cnt0 : Option Counter := none
  cnt1 : Option Counter := none
  half0 : Option Archive := none
  half1 : Option Archive := none
  journal : List JRec := []
  /-- The fuse cells that read as blown (R475). -/
  fuses : Dword := 0
  deriving DecidableEq, Repr

/-- The always-on SRAM and latches (R477, R478): the journal copy, the next JSEQ, the cause of the last reset, none where
the state is not valid, and the step of a STEP_WDOG. -/
structure AlwaysOn where
  journal : List JRec := []
  jseq : Nat := 0
  cause : Option Nat := none
  wdogStep : Nat := 0
  deriving DecidableEq, Repr

/-- Update states (R507), in the order of their codes. -/
inductive FwuState where
  | idle | erasing | receiving | verifying | verified | activated
  deriving DecidableEq, Repr

/-- The firmware update (R506 to R521). `path` is 0 none, 1 MAILBOX, 2 PLDM; `written` lists the offsets of blocks written,
rising; `partBlock` holds what has arrived of the PLDM block that is being assembled, and `pldmNext` the offset expected next. -/
structure Fwu where
  en : Bool := false
  wign : Bool := false
  badCmd : Bool := false
  state : FwuState := .idle
  path : Nat := 0
  session : Nat := 0
  target : Nat := 0
  len : Nat := 0
  result : Nat := 0
  detail : Nat := 0
  written : List Nat := []
  digest : BitVec 384 := 0
  svn : Nat := 0
  lastCmd : Nat := 0
  /-- When the device resets itself after an ACTIVATE with RESET set. -/
  resetAt : Option Nat := none
  /-- RequestUpdate and PassComponentTable have been accepted. -/
  pldm : Nat := 0
  partBlock : List Byte := []
  pldmNext : Nat := 0
  /-- The bytes of one RequestFirmwareData. -/
  xfer : Nat := 4096
  deriving DecidableEq, Repr

end Sys2Proof.Machine
end

