-- ==== Sys2Proof/Machine/Types/Plate.lean ====
section
/-!
DEFINITION. The plate as data (R71 to R83), the partitions and the Shutter (chapters 02 and 03).
-/

namespace Sys2Proof.Machine

/-- One port's entry of the SYSTEM section (R74). -/
structure PortExpect where
  neighDev : Nat := 0
  neighPort : Nat := 0
  connected : Bool := false
  deriving DecidableEq, Repr

/-- The SYSTEM section (R74). -/
structure SysSec where
  deviceNum : Nat := 0
  dimX : Nat := 1
  dimY : Nat := 1
  dimZ : Nat := 1
  tickMaster : Nat := 0
  hostMode : Nat := 0
  hostSpeed : Nat := 1
  hostWidth : Nat := 1
  coolant : Nat := 1
  stackCount : Nat := 16
  ports : List PortExpect := []
  deriving DecidableEq, Repr

/-- The SHUTTER section (R75): P and G in microseconds, the tick source code of R59, the pin compensation in ps. -/
structure ShtSec where
  period : Nat := 250
  guard : Nat := 5
  source : Nat := 0
  pinComp : Nat := 0
  deriving DecidableEq, Repr

/-- The LINKS section (R76). Port `q`'s slice for partition `p` is entry `16 q + p` of `slices`. -/
structure LinksSec where
  roles : List Nat := []
  classMin : List Nat := []
  slices : List Nat := []
  deriving DecidableEq, Repr

/-- The PROTECTION section (R77). Key hashes are byte strings read big-endian. -/
structure ProtSec where
  ownerHash : BitVec 384 := 0
  custodianHash : BitVec 384 := 0
  operatorHash : List (BitVec 384) := []
  window : Nat := 120
  debugPolicy : Nat := 0
  updatePolicy : Nat := 0
  ownerLock : Nat := 0
  deriving DecidableEq, Repr

/-- One timer entry of a PARTITION section (R78): KIND 0 unused, 1 WATCHDOG, 2 PERIODIC, 3 ONESHOT. -/
structure TimerCfg where
  id : Nat := 0
  kind : Nat := 0
  mark : Nat := 0
  period : Nat := 0
  deriving DecidableEq, Repr

/-- One input mapping of a PARTITION section (R78): EDGE 0 OFF, 1 RISE, 2 FALL, 3 BOTH. -/
structure InputCfg where
  edge : Nat := 0
  mark : Nat := 0
  deriving DecidableEq, Repr

/-- One entry of a SEGMENTS section (R80). -/
structure Seg where
  base : Nat := 0
  size : Nat := 0
  target : Nat := 0
  mode : Nat := 0
  perm : Nat := 0
  deriving DecidableEq, Repr

/-- A decode table (R81): the 16 VALID bits and 16 entries of 32 micro-ops. -/
structure DecodeTab where
  valid : Nat := 0
  uops : List (BitVec 64) := []
  deriving DecidableEq, Repr

/-- The sections of one partition (R78, R80, R81). `bounds` is the 48-byte bounds block as a number. -/
structure PartSec where
  num : Nat := 0
  bounds : Nat := 0
  spanning : Bool := false
  clusters : BitVec 256 := 0
  initRun : Bool := false
  migrateIn : Bool := false
  test : Bool := false
  aperTime : List Nat := []
  aperTraf : List Nat := []
  inputs : List InputCfg := []
  timers : List TimerCfg := []
  segs : List Seg := []
  decode : DecodeTab := {}
  deriving DecidableEq, Repr

/-- A plate (R71). -/
structure Plate where
  isPartial : Bool := false
  service : Bool := false
  plateId : BitVec 128 := 0
  generation : Nat := 0
  sys : SysSec := {}
  sht : ShtSec := {}
  links : LinksSec := {}
  prot : ProtSec := {}
  parts : List PartSec := []
  /-- The PROTECTED digest (R83) of a plate read from bytes; the service plate has none. -/
  protDigest : Option (BitVec 384) := none
  deriving DecidableEq, Repr

/-- The staging states of PLT_STAT.STATE (R103). -/
inductive StageState where
  | idle | copying | validating | staged | failed
  deriving DecidableEq, Repr

/-- A plate being validated or staged (R88, R89). -/
structure Staged where
  bytes : List Byte := []
  plate : Plate := {}
  mode : Nat := 0
  target : Nat := 0
  persist : Bool := false
  /-- PLT_LEN when the plate was staged. -/
  len : Nat := 0
  /-- The assent this staged plate reserved (R465), by position in the record table. -/
  assent : Option Nat := none
  deriving DecidableEq, Repr

/-- The PLATE block's own state. -/
structure PlateSt where
  en : Bool := false
  wign : Bool := false
  installed : Option Plate := none
  /-- The SYSTEM values in use until the next device reset (R92). -/
  sysInForce : SysSec := {}
  /-- The LINKS section that governs the ports, from boot step LINKS on. -/
  linksInForce : LinksSec := {}
  stage : StageState := .idle
  staged : Option Staged := none
  resetPending : Bool := false
  badCmd : Bool := false
  result : Nat := 0
  errOffset : Nat := 0
  /-- The whole plate as its bytes, for measurement 9 (R474). -/
  installedBytes : List Byte := []
  /-- The TICK message of the coming tick carries FLAGS bit 0 (R89). -/
  masterFlag : Bool := false
  deriving DecidableEq, Repr

/-- Partition states with the codes of PLT_PART_STATE (R96, R103). -/
inductive PState where
  | off | loading | running | held | draining | migrating
  deriving DecidableEq, Repr

/-- A request that takes effect at step 5 of the next tick (R57, R103). -/
inductive PartReq where
  | start | stop | release
  | migrateOut (dev part : Nat)
  /-- A MIG_CTL accepted by a MIGRATE_IN partition (R100). -/
  | migrateIn
  deriving DecidableEq, Repr

/-- A loaded timer (R79). `due` is the expiry in device-time cycles while it runs; `left` is the remaining count, in
cycles, while it is stopped. -/
structure Timer where
  cfg : TimerCfg := {}
  active : Bool := false
  due : Nat := 0
  left : Nat := 0
  deriving DecidableEq, Repr

/-- An edge detector's latched edge (R79, R95): the partition that mapped the input, the mark it goes to and whether
the edge was rising. -/
structure LatchedEdge where
  part : Nat := 0
  rising : Bool := true
  deriving DecidableEq, Repr

/-- One partition's state. Remaining apertures are per class code 0 to 5 (R39), their time in thirds of an
engine-nanosecond. -/
structure Part where
  state : PState := .off
  reason : Nat := 0
  heldFromLoading : Bool := false
  request : Option PartReq := none
  /-- A CONTAINED record names the partition, so that it enters HELD at the next tick (R523), with this reason. -/
  holdReason : Option Nat := none
  admStopped : Bool := false
  loadDone : Bool := false
  drainDone : Bool := false
  drainTicks : Nat := 0
  /-- Where a migration goes or whence it comes, and how it stands (R100). -/
  migPeer : Option (Nat × Nat) := none
  migSource : Bool := false
  migLastAck : Bool := false
  migFailed : Bool := false
  ovxLast : Bool := false
  ovxPrev : Bool := false
  ovxTotal : Nat := 0
  throttle : Nat := 0
  remTime : NatMap Nat := []
  remTraf : NatMap Nat := []
  /-- The device time of the tick at which the partition last entered HELD (R55). -/
  heldAt : Nat := 0
  /-- Device time at which a command's completion was last recorded, SYN and stopped ones apart (R49). -/
  lastDone : Option Nat := none
  timers : List Timer := []
  deriving DecidableEq, Repr

/-- A tick scheduled by a tick message (R62) or a counted edge (R64): its device time, frame number and period, and
whether it installs a MASTER-mode plate. -/
structure TickPlan where
  time : Thirds := 0
  frame : Nat := 0
  period : Nat := 0
  installs : Bool := false
  deriving DecidableEq, Repr

/-- The Shutter (chapter 02). -/
structure Shutter where
  en : Bool := false
  frame : Dword := 0
  period : Nat := 250
  guard : Nat := 5
  source : Nat := 0
  pinComp : Nat := 0
  master : Bool := false
  locked : Bool := false
  flywheel : Bool := false
  started : Bool := false
  /-- A LINK or PIN device that has heard no source yet keeps its own time (R492). -/
  ownBase : Bool := false
  missRun : Nat := 0
  /-- Consecutive messages or edges within 200 ns of the prediction (R64). -/
  goodRun : Nat := 0
  skew : Int := 0
  lastTick : Thirds := 0
  guardBand : Bool := false
  open_ : Bool := false
  plan : Option TickPlan := none
  /-- What the last message a PIN device heard says of its tick (R59, R64). -/
  heard : Option TickPlan := none
  /-- The last counted edge on SHUTTER_IN, after compensation (R64). -/
  lastEdge : Option Thirds := none
  /-- Spanning partitions enter HELD at the next tick, with this DETAIL (R64, R65). -/
  spanHold : Option Nat := none
  /-- The frame that the master's last tick message announced (R60). -/
  announced : Option Dword := none
  /-- SHUTTER_OUT is high until this device time (R66). -/
  outUntil : Thirds := 0
  deriving DecidableEq, Repr

end Sys2Proof.Machine
end

