-- ==== Sys2Proof/Machine/Types/Boot.lean ====
section
/-!
DEFINITION. Power-up and boot as data (chapter 19).
-/

namespace Sys2Proof.Machine

/-- What failed in the previous boot (R484, R488): step, unit kind, unit and the path on which it failed. -/
structure Retry where
  step : Nat := 0
  kind : Nat := 0
  unit : Nat := 0
  path : Nat := 0
  deriving DecidableEq, Repr

/-- Where boot stands. `step` is the step in progress, which began at `since`; once READY is reached it stays 14. -/
structure Boot where
  ready : Bool := false
  service : Bool := false
  /-- The device is held in reset by PERST_N or PWRGD. -/
  held : Bool := true
  /-- Device time at which the reset was released. -/
  released : Nat := 0
  halted : Bool := false
  step : Nat := 1
  since : Nat := 0
  stepMs : NatMap Nat := []
  readyMs : Nat := 0
  cause : Nat := 0
  prev : Nat := 3
  failrun : Nat := 0
  svcReason : Nat := 0
  slot : Nat := 0
  flashSafe : Bool := false
  plateSrc : Nat := 0
  unlocked : Bool := false
  badCmd : Bool := false
  bootnum : Nat := 0xFFFFFFFF
  /-- The journal in force, oldest first. -/
  journal : List JRec := []
  retry : Option Retry := none
  degraded : Bool := false
  /-- The boot runs the slot that the selector names ACTIVE. -/
  onActive : Bool := true
  /-- The plate chosen at LINKS, and its bytes. -/
  plate : Option Plate := none
  plateBytes : List Byte := []
  /-- Units excluded or degraded, and stacks trained at the lower rate, for the BOOT registers. -/
  stackExcl : Nat := 0
  /-- Journal records that wait for the next opportunity to be written to flash (R487). -/
  unwritten : List JRec := []
  /-- The settings version and the security version of the running firmware. -/
  setver : Nat := 0
  svn : Nat := 0
  deriving DecidableEq, Repr

end Sys2Proof.Machine
end

