-- ==== Sys2Proof/Machine/Types/Core.lean ====
section
/-!
DEFINITION. A cluster core as data (chapters 04 to 09): its registers, its control registers as written and as in effect,
its caches, its store buffer and the kernel it runs; and what the cores of a cluster share.
-/

namespace Sys2Proof.Machine

/-- The SYNC-class control registers (R106, R201, R208, R218, R242, R360), with their values after core reset. -/
structure SyncRegs where
  evbase : Dword := 0
  gatebase : Dword := 0
  slimit : Dword := 0
  segen : Dword := 0xFFFF
  winctl : Dword := 0
  win : NatMap Dword := []
  /-- DTAB_CTRL fields UEN, CMD and ADDR. -/
  dtabUen : Bool := true
  dtabCmd : Nat := 0
  dtabAddr : Nat := 0
  ksWait : Nat := 4
  l1dCfg : Nat := 5
  icEn : Bool := true
  deriving DecidableEq, Repr

/-- Where a translated access goes: this device (none) or another, and the device-local address. -/
structure Place where
  dev : Option Nat := none
  addr : Nat := 0
  deriving DecidableEq, Repr

/-- What a store-buffer entry is (R248). -/
inductive SbKind where
  | scalar | vector | tile | ared | writeBack
  deriving DecidableEq, Repr

/-- One piece of a store, within one 64-byte line. -/
structure SbPiece where
  place : Place := {}
  bytes : List Byte := []
  deriving DecidableEq, Repr

/-- A store-buffer entry (R119, R248). -/
structure SbEntry where
  kind : SbKind := .scalar
  cacheable : Bool := false
  /-- The address a late error reports. -/
  addr : Nat := 0
  pieces : List SbPiece := []
  /-- Uncorrectable words of a dirty line written back (R241). -/
  poisonWords : BitVec 8 := 0
  /-- The contribution an ARED carries (R189): identifiers and values. -/
  ared : List Nat := []
  /-- A late error not yet reported, by its LATEBUS subcode (R229). -/
  late : Option Nat := none
  /-- Once it has been sent to other devices: the messages not yet answered, as device and tag. -/
  sent : Option (List (Nat × Nat)) := none
  deriving DecidableEq, Repr

/-- One L1D line (R238, R241). `ue` and `ce` mark its 8-byte words with uncorrectable and single-bit errors. -/
structure L1Line where
  valid : Bool := false
  dirty : Bool := false
  line : Nat := 0
  data : Line := 0
  ue : BitVec 8 := 0
  ce : BitVec 8 := 0
  deriving DecidableEq, Repr

/-- One instruction-cache line (R246); `used` orders its set for replacement. -/
structure ICLine where
  valid : Bool := false
  line : Nat := 0
  data : Line := 0
  used : Nat := 0
  deriving DecidableEq, Repr

/-- One branch-target-buffer entry (R203). -/
structure BtbEntry where
  valid : Bool := false
  addr : Nat := 0
  target : Nat := 0
  ctr : Nat := 0
  words : BitVec 128 := 0
  used : Nat := 0
  deriving DecidableEq, Repr

/-- What a transfer does at its target, after its delay slot (R121, R231, R234, R237). -/
inductive AtTarget where
  | plain
  | gate (newSp n ret status time frame : Nat)
  | ret (status g2 : Dword) (uop : Option (Nat × Nat))
  deriving DecidableEq, Repr

/-- A transfer whose delay slot comes next. `guard` lists the g registers the slot must not write through a custom
instruction (R140); `gateSlot` marks the stricter rule of R236. -/
structure Delay where
  addr : Nat := 0
  target : Nat := 0
  act : AtTarget := .plain
  guard : List Nat := []
  gateSlot : Bool := false
  deriving DecidableEq, Repr

/-- A read of another device's memory that the core's instruction waits for (R422): the request, and the answer once it
came. An instruction that makes several keeps them in order until it ends. -/
structure RemoteLoad where
  dev : Nat
  addr : Nat
  len : Nat
  tag : Nat
  /-- The data, or the BUSERR subcode. -/
  answer : Option (List Byte ⊕ Nat) := none
  deriving DecidableEq, Repr

/-- Is a core free, running a kernel, or stopped with a reason of R225? -/
inductive RunState where
  | idle
  | running
  | stopped (reason : Nat)
  deriving DecidableEq, Repr

/-- The architectural registers of a core (R104, R143, R176). -/
structure CoreRegs where
  g : NatMap Dword := []
  f : NatMap Dword := []
  v : NatMap VReg := []
  m : NatMap VReg := []
  t : NatMap VReg := []
  ts : NatMap Line := []
  a : NatMap VReg := []
  deriving DecidableEq, Repr

/-- The registers that a kernel launch sets to their core-reset values (R279), and the run of the kernel. A register
with a shadow (R205) holds the value last written, the value in effect and the changes still to come, each with the
number of instructions it waits for. -/
structure CoreCtl where
  pc : Dword := 0
  priv : Bool := true
  ie : Bool := false
  mode : Nat := 0
  modeEff : Nat := 0
  modePend : List (Nat × Nat) := []
  fflags : Nat := 0
  vshape : Nat := 0x31
  vshapeEff : Nat := 0x31
  vshapePend : List (Nat × Nat) := []
  vln : Nat := 0
  vresElem : Nat := 0
  vresArmed : Bool := false
  vstat : Nat := 0
  evpend : Nat := 0
  delay : Option Delay := none
  /-- The address and micro-op at which a custom instruction resumes (R231). -/
  resumeUop : Option (Nat × Nat) := none
  deriving DecidableEq, Repr

/-- The kernel a core runs: its launch and what FRAME it has taken or is to take (R54, R55, R228). -/
structure KernelRun where
  part : Nat := 0
  cmd : Nat := 0
  admitFrame : Nat := 0
  overrun : Bool := false
  overrunTaken : Bool := false
  held : Bool := false
  heldTaken : Bool := false
  waitEv : Bool := false
  /-- Device time at which the kernel began, and the bytes its data accesses have moved (R48). -/
  startedAt : Nat := 0
  traffic : Nat := 0
  deriving DecidableEq, Repr

/-- A core. -/
structure Core where
  run : RunState := .idle
  kernel : KernelRun := {}
  regs : CoreRegs := {}
  ctl : CoreCtl := {}
  /-- The SYNC-class registers as written and as in effect (R109). -/
  sr : SyncRegs := {}
  sre : SyncRegs := {}
  ssp : Dword := 0
  even : Nat := 0
  dtabResult : Nat := 0
  ksEff : Nat := 4
  bank : Nat := 0
  perf : NatMap Dword := []
  l1d : NatMap L1Line := []
  plru : NatMap Nat := []
  ic : NatMap ICLine := []
  btb : NatMap BtbEntry := []
  useCount : Nat := 0
  sb : List SbEntry := []
  remote : List RemoteLoad := []
  /-- The channels that have received a partial write since the last FENCE.E, ENDK or YIELD (R368). -/
  wcChans : List Nat := []
  deriving DecidableEq, Repr

/-- What the cores of a cluster share: the two microcode banks and which is installed (R93, R215). -/
structure Cluster where
  bank0 : DecodeTab := {}
  bank1 : DecodeTab := {}
  installed : Nat := 0
  deriving DecidableEq, Repr

end Sys2Proof.Machine
end

