-- ==== Sys2Proof/Machine/Types/Err.lean ====
section
/-!
DEFINITION. Error records and where they are kept (R525, R533 to R535), and the errors a record is made of.
-/

namespace Sys2Proof.Machine

/-- An error record before its CRC (R525). -/
structure ErrRec where
  rseq : Nat := 0
  bootnum : Nat := 0
  cls : Nat := 0
  source : Nat := 0
  code : Nat := 0
  part : Nat := 255
  flags : Nat := 0
  frame : Nat := 0
  time : Nat := 0
  addr : Nat := 0
  unit : Nat := 0
  detail : Nat := 0
  suppressed : Nat := 0
  aux : Nat := 0
  deriving DecidableEq, Repr

/-- An entry of the management controller's event stream (R534): a record, or an event bit of a block's register. -/
inductive StreamEntry where
  | record (r : ErrRec)
  | event (reg bit : Nat)
  deriving DecidableEq, Repr

/-- Per (SOURCE, CODE, UNIT) triple, the frame of its last record and the count suppressed since (R527). -/
structure SuppEntry where
  source : Nat
  code : Nat
  unit : Nat
  frame : Nat
  count : Nat
  deriving DecidableEq, Repr

/-- The error state of the device (chapter 21). -/
structure ErrSt where
  rseq : Nat := 0
  /-- The boot number records carry (R525): all ones before step FLASH assigns it. -/
  bootnum : Nat := 0xFFFFFFFF
  /-- Ring slots 0 to 511 (R533). -/
  ring : NatMap ErrRec := []
  tail : Word := 0
  head : Word := 0
  /-- Records made before the end of step HOST (R533). -/
  early : List ErrRec := []
  stream : List StreamEntry := []
  streamLost : Word := 0
  flashLost : Word := 0
  /-- The flash log, oldest first (R535), and how many records it has lost to erased sectors. -/
  flash : List ErrRec := []
  flashBase : Nat := 0
  fatal : Bool := false
  fatalSrc : Word := 0
  /-- A FATAL record holds every partition at the next tick (R524). -/
  fatalHold : Bool := false
  supp : List SuppEntry := []
  /-- Clusters named by an INTERNAL CLUSTER record since reset (R523). -/
  badClusters : List Nat := []
  deriving DecidableEq, Repr

end Sys2Proof.Machine
end

