-- ==== Sys2Proof/Machine/Types/Grain.lean ====
section
/-!
DEFINITION. A stream of a cluster's Grain as data (R332): its 64 lanes and the rounds drawn.
-/

namespace Sys2Proof.Machine

/-- The state of a xoshiro256** lane (R332, R334). -/
structure Lane where
  s0 : Dword := 0
  s1 : Dword := 0
  s2 : Dword := 0
  s3 : Dword := 0
  deriving DecidableEq, Repr

/-- A stream. A stream never seeded has no lanes listed, and a lane not listed reads as all zero. -/
structure GStream where
  rounds : Dword := 0
  lanes : List Lane := []
  deriving DecidableEq, Repr

end Sys2Proof.Machine
end

