-- ==== Sys2Proof/Machine/Types/Host.lean ====
section
/-!
DEFINITION. The host interface as data (chapter 17), and what the device sends out on its interfaces.
-/

namespace Sys2Proof.Machine

/-- How a host request is answered (R437, R482): success with data, UR, CA, a completion with the poisoned bit set,
or configuration request retry. -/
inductive Answer where
  | data (bytes : List Byte)
  | ur | ca | ep | crs
  /-- A posted write that is dropped. -/
  | dropped
  deriving DecidableEq, Repr

/-- What the device sends on its interfaces: the answers to host requests, the values register reads return, the
writes and messages it issues as a requester, link flits and management responses. -/
inductive Out where
  | answer (path : Nat) (a : Answer)
  | value (path : Nat) (w : Word)
  | hostWrite (fn addr : Nat) (bytes : List Byte)
  | msix (fn vec : Nat) (addr data : Nat)
  | flit (port : Nat) (kind : Nat) (seq : Nat) (bytes : List Byte)
  | wire (port : Nat) (kind : Nat) (args : List Nat)
  | mgmt (session : Nat) (code : Nat) (bytes : List Byte)
  | spdm (code : Nat) (args : List Nat) (bytes : List Byte)
  | mctp (code : Nat) (bytes : List Byte)
  | pldm (cmd code : Nat) (bytes : List Byte)
  | cxl (code : Nat) (bytes : List Byte)
  | smbusReset
  | loupe (code : Nat) (bytes : List Byte)
  deriving DecidableEq, Repr

/-- A PCIe function: 0 the PF, p + 1 the VF of partition p. Entries hold what configuration space holds of it. -/
structure Fn where
  busMaster : Bool := false
  d3hot : Bool := false
  msixEnable : Bool := false
  msixMask : Bool := false
  deriving DecidableEq, Repr

/-- One IDE stream (R443): whether its keys are programmed and whether it is active. -/
structure IdeStream where
  keyed : Bool := false
  active : Bool := false
  deriving DecidableEq, Repr

/-- The host interface (R430 to R451). -/
structure HostIf where
  en : Bool := false
  /-- The HOSTMODE strap as sampled (R434). -/
  strap : Bool := false
  linkUp : Bool := false
  speed : Nat := 0
  width : Nat := 0
  flit : Bool := false
  /-- The reason code of R436, 0 while the interface is not service-only. -/
  serviceReason : Nat := 0
  vfEnable : Bool := false
  numVfs : Nat := 0
  fns : NatMap Fn := []
  pend : NatMap Bool := []
  ide : NatMap IdeStream := []
  cxlSize : Nat := 0
  /-- The granules behind CXL.mem, rising (R435). -/
  cxlGrans : List Nat := []
  /-- The HDM decoder (R434): its base and size in the host's addresses and its interleave ways; none while it is off. -/
  hdm : Option (Nat × Nat × Nat) := none
  /-- The CXL event log: device physical addresses found poisoned, oldest first (R434). -/
  cxlEvents : List Nat := []
  /-- What each function, by path code, has logged of AER (R437): the bits of PCIe's uncorrectable error status. -/
  aer : NatMap Nat := []
  pgBadCmd : NatMap Bool := []
  deriving DecidableEq, Repr

end Sys2Proof.Machine
end

