-- ==== Sys2Proof/Machine/Types/Link.lean ====
section
/-!
DEFINITION. MBX ports, messages and transactions as data (chapter 16).
-/

namespace Sys2Proof.Machine

/-- A message (R418). `part`, `skip` and `trim` are the fields of SPAN. -/
structure Msg where
  op : Nat := 0
  dlen : Nat := 0
  src : Nat := 0
  dst : Nat := 0
  tag : Nat := 0
  part : Nat := 0
  skip : Nat := 0
  trim : Nat := 0
  addr : Nat := 0
  aux : Nat := 0
  data : List Byte := []
  deriving DecidableEq, Repr

/-- A place a flit holds in a port's receive buffer (R408): the port, the credit key of R409 and a
number that tells the flits of a port apart. -/
structure RxSlot where
  port : Nat := 0
  key : Nat := 0
  fid : Nat := 0
  deriving DecidableEq, Repr

/-- A message received here and not yet served. -/
structure InMsg where
  msg : Msg := {}
  slot : Option RxSlot := none
  deriving DecidableEq, Repr

/-- A message that waits to leave. `dir` is the direction of R415 (1 X+ to 6 Z−), `vc` the virtual channel it will travel
on; a message in transit still holds its place in the buffer of the port it came by. -/
structure TxMsg where
  msg : Msg := {}
  slice : Nat := 16
  cls : Nat := 3
  dir : Nat := 0
  vc : Nat := 0
  slot : Option RxSlot := none
  deriving DecidableEq, Repr

/-- The states of a port (R411), with the codes of MBX_STAT in this order. -/
inductive PortState where
  | dark | training | measure | ident | up | retrain | darkHeld
  deriving DecidableEq, Repr

/-- A DATA flit in the retry buffer (R405): its sequence number and its 256 bytes as sent, less ACK, credits and CRC,
which every sending sets anew. -/
structure SentFlit where
  seq : Nat := 0
  tagByte : Nat := 0
  nmsg : Nat := 0
  payload : List Byte := []
  deriving DecidableEq, Repr

/-- A port. Credit keys are 8 × slice + 2 × class + virtual channel. -/
structure Port where
  state : PortState := .dark
  reason : Nat := 1
  badCmd : Bool := false
  partner : Word := 0
  delay : Nat := 0
  rtt : Nat := 0
  lastViol : Word := 0
  /-- Receiver (R404): the expected sequence number, and since when a NAK is outstanding. -/
  expected : Nat := 0
  gotAny : Bool := false
  nakAt : Option Nat := none
  /-- Sender (R405): how many DATA flits it has sent, whose number modulo 4,096 comes next; the unacknowledged flits,
  oldest first, those of them to send again, and since when no ACK has made progress. -/
  sent : Nat := 0
  retry : List SentFlit := []
  replay : List SentFlit := []
  progressAt : Nat := 0
  /-- NAKs in a row for one sequence number (R406). -/
  nakSeq : Nat := 0
  nakRun : Nat := 0
  /-- The partner's slices in flits, partitions 0 to 15 and then the device, as its identity message gave them, and its
  class minima; the credits in use, reserved and shared (R409). -/
  mirror : List Nat := []
  mirrorMin : List Nat := []
  usedRes : NatMap Nat := []
  usedShared : NatMap Nat := []
  /-- Flits this port's own buffer holds, and credits still to be returned, by key. -/
  held : NatMap Nat := []
  heldRes : NatMap Nat := []
  returns : NatMap Nat := []
  nextFid : Nat := 0
  /-- Device times of recent discarded blocks, retrains and violations (R406, R427), newest first. -/
  discards : List Nat := []
  retrains : List Nat := []
  viols : List Nat := []
  violRetrains : List Nat := []
  /-- When the present training or retraining began, and, while the state is RETRAIN, how far it is: 0 training, 1
  measuring, 2 identifying. -/
  since : Nat := 0
  phase : Nat := 0
  /-- The smallest round trip measured so far, and how many measurements (R412). -/
  echoes : Nat := 0
  minTrip : Nat := 0
  /-- The partner's identity before a retrain (R406). -/
  knownPartner : Option (Nat × Nat) := none
  deriving DecidableEq, Repr

/-- What a transaction is part of (R420 to R424). -/
inductive TxnKind where
  | lnkWrite (part cmd len : Nat)
  | lnkRead (part cmd off len : Nat)
  | lnkMark (part cmd : Nat)
  | store (core : Nat)
  | load (core : Nat)
  | delta (part rid : Nat)
  | result (part rid : Nat)
  | migData (part : Nat)
  | migCtl (part step : Nat)
  deriving DecidableEq, Repr

/-- A transaction not yet answered: its destination, tag and kind, when its last message was sent, and its first-hop
port. -/
structure Txn where
  dst : Nat := 0
  tag : Nat := 0
  kind : TxnKind := .store 0
  sentAt : Nat := 0
  port : Nat := 0
  deriving DecidableEq, Repr

/-- How a LNK command stands (R420): bytes asked for so far, bytes whose response came, whether the remote mark has been
asked for, and how it ended early. -/
structure LnkProg where
  issued : Nat := 0
  answered : Nat := 0
  marked : Bool := false
  markDone : Bool := false
  deriving DecidableEq, Repr

/-- A migration this device sends or receives (R100, R423): the peer, the position in the stream (0 before its first
message, then one more than the bytes of memory sent; at the target 1 once the first message was accepted), at the source
whether a message awaits its answer; at the target the source's granule count and, by rank, which of its granules have two
channels, and the state that has arrived; and whether the stream is complete. -/
structure MigProg where
  peerDev : Nat := 0
  peerPart : Nat := 0
  next : Nat := 0
  waiting : Bool := false
  wide : Nat := 0
  ctlBytes : List Byte := []
  finished : Bool := false
  deriving DecidableEq, Repr

/-- The links of the device. -/
structure Links where
  ports : NatMap Port := []
  inbox : List InMsg := []
  outbox : List TxMsg := []
  txns : List Txn := []
  /-- Freed tags and when they were freed, as destination and tag (R424). -/
  quarantine : List (Nat × Nat × Nat) := []
  nextTag : NatMap Nat := []
  /-- The port of each direction that sent last (R417). -/
  turn : NatMap Nat := []
  lnk : NatMap LnkProg := []
  mig : NatMap MigProg := []
  deriving DecidableEq, Repr

end Sys2Proof.Machine
end

