-- ==== Sys2Proof/Machine/Types/Mem.lean ====
section
/-!
DEFINITION. The stack memory system as data (chapter 14): DRAM, trays and kernel stores, their check data, the
write-combining buffers, the stacks and which units boot left enabled (R30).
-/

namespace Sys2Proof.Machine

/-- Who made a request, coded as CHANNEL UE's DETAIL codes it (R528). -/
inductive Requester where
  | core | engine | host | remote | fill | flush
  deriving DecidableEq, Repr

/-- An entry of a write-combining buffer (R367): the line it belongs to, its valid bytes and their values. -/
structure WcEntry where
  line : Nat := 0
  valid : BitVec 64 := 0
  data : Line := 0
  alloc : Nat := 0
  writer : Requester := .core
  writerCore : Nat := 0
  deriving DecidableEq, Repr

/-- The memory of the device. `bytes` is keyed by device-local address (R352) and holds DRAM, trays and kernel stores.
`poisoned` marks, by address, the DRAM lines and SRAM words written poisoned (R372, R373). `flips` holds, by address,
the bits of a stored code word that have changed since it was written: 512 data bits and 64 check bits of a DRAM line
(R370), or 1 or 2 flipped bits of an SRAM word (R373). -/
structure Mem where
  bytes : List Host.Cell := []
  poisoned : NatMap Bool := []
  flips : NatMap Nat := []
  wc : NatMap (List WcEntry) := []
  deriving DecidableEq, Repr

/-- One stack (R375 to R380). -/
structure Stack where
  enabled : Bool := false
  slow : Bool := false
  halted : Bool := false
  level : Nat := 0
  refresh2x : Bool := false
  temp : Int := 0
  tmaxLast : Int := 0
  /-- The readings since the previous tick, newest first (R376). -/
  reads : List Int := []
  lastRead : Option Nat := none
  /-- Device time of the last reading of 95 °C or more, or of the silence that halted the stack (R377). -/
  hotAt : Nat := 0
  /-- The first uncorrectable line since STK_EVENTS was last read (R379). -/
  ueAddr : Nat := 0
  ueValid : Bool := false
  deriving DecidableEq, Repr

/-- What boot left enabled (R20, R30). Granules are 16 s + c, channels 32 s + n, edges 0 to 31. Core maps hold the
enabled physical cores of a cluster as an 18-bit mask. -/
structure Units where
  granOff : NatMap Bool := []
  chanOff : NatMap Bool := []
  /-- Channels of a stack that failed training, or that the repair map disables (R381). -/
  untrained : NatMap Bool := []
  coreMask : NatMap Nat := []
  routerOff : NatMap Bool := []
  /-- Lost modules of a mesh edge: 0, 1 or 2. -/
  edgeLost : NatMap Nat := []
  deriving DecidableEq, Repr

end Sys2Proof.Machine
end

