-- ==== Sys2Proof/Machine/Types/Mgmt.lean ====
section
/-!
DEFINITION. Partition sessions, management sessions and assent records as data (chapter 18).
-/

namespace Sys2Proof.Machine

/-- Session states of PS_STAT (R471). -/
inductive PsState where
  | closed | challenged | opened | lockout
  deriving DecidableEq, Repr

/-- The session area of a partition's page (R471 to R473). -/
structure PSess where
  state : PsState := .closed
  badCmd : Bool := false
  result : Nat := 0
  /-- OPENs failed in all, saturating, and in a row. -/
  failTotal : Nat := 0
  failRun : Nat := 0
  nonce : BitVec 256 := 0
  /-- When the live nonce was issued. -/
  nonceAt : Option Nat := none
  /-- Until when CHALLENGE is locked out. -/
  lockUntil : Nat := 0
  /-- The twelve words of PS_RESP. -/
  resp : BitVec 384 := 0
  deriving DecidableEq, Repr

/-- Assent record states, in the order of SES_REC's codes 1 to 4 (R464, R476). -/
inductive AssentState where
  | owner | custodian | complete | reserved
  deriving DecidableEq, Repr

/-- An assent record (R464). The deadline is a device time in cycles and the window in seconds. -/
structure Assent where
  state : AssentState := .owner
  kind : Nat := 0
  digest : BitVec 384 := 0
  window : Nat := 0
  deadline : Nat := 0
  deriving DecidableEq, Repr

/-- A management session (R459): its role code and partition, the partner it is held with, when it last had traffic, and
whether PSK_FINISH has completed it. -/
structure MSess where
  id : Nat := 0
  role : Nat := 0
  part : Nat := 255
  partner : Nat := 0
  lastAt : Nat := 0
  live : Bool := false
  deriving DecidableEq, Repr

/-- Safelight's management side. -/
structure Mgmt where
  /-- Safelight's firmware answers (R482, R497). -/
  up : Bool := false
  /-- The archive content in force and the half it is in, 0 or 1. -/
  held : Archive := {}
  half : Nat := 0
  sessions : List MSess := []
  nextSess : Nat := 1
  /-- Assent records 0 to 7. -/
  assents : NatMap (Option Assent) := []
  debugUnlocked : Bool := false
  /-- A DEBUG_UNLOCK that takes effect at the next tick: its session, and whether the archive takes the erasure. -/
  unlockAt : Option (Nat × Bool) := none
  /-- How far each partner's SPDM negotiation has come. -/
  stages : NatMap Nat := []
  /-- MCTP endpoint ID. -/
  eid : Nat := 0
  /-- Times of each partner's violations within 1 s, and until when it is ignored (R537). -/
  viols : NatMap (List Nat) := []
  ignored : NatMap Nat := []
  /-- Chunks of a request sent with CHUNK_SEND so far, the largest message that each partner takes (0 while it has named none),
  and the response of which it fetches chunks. -/
  chunks : NatMap (List Byte) := []
  largest : NatMap Nat := []
  response : NatMap (List Byte) := []
  deriving DecidableEq, Repr

end Sys2Proof.Machine
end

