-- ==== Sys2Proof/Machine/Types/Rdu.lean ====
section
/-!
DEFINITION. The reduction units as data (chapter 11).
-/

namespace Sys2Proof.Machine

/-- One position of a SUM reduction (R307): the integer X, whose unit is 2^−1074, and its flags. ALLNEG and ALLPOS are
held as whether some value received was not −0, or not +0. -/
structure SumState where
  x : Int := 0
  nan : Bool := false
  snan : Bool := false
  pinf : Bool := false
  ninf : Bool := false
  notNeg : Bool := false
  notPos : Bool := false
  any : Bool := false
  deriving DecidableEq, Repr

/-- A partial state (R307, R309, R310): sums by position, or by position the best entries as value and index, best
first; whether a signalling NaN was met; and the counts. -/
structure RPart where
  sums : NatMap SumState := []
  picks : NatMap (List (Nat × Nat)) := []
  nv : Bool := false
  contributors : Nat := 0
  refused : Nat := 0
  deriving DecidableEq, Repr

/-- The parameters of an OPEN (R275, R302). -/
structure ROpen where
  rid : Nat := 0
  epoch : Nat := 0
  declared : Nat := 0
  rop : Nat := 0
  rfmt : Nat := 0
  scope : Nat := 0
  k : Nat := 0
  addr : Nat := 0
  w : Nat := 0
  tiles : Nat := 0
  deriving DecidableEq, Repr

/-- A reduction open at one unit (R304): what has been merged and not sent on (or, at the final stage, all of it), the
contributor IDs merged there, the delta that awaits its answer, and when it may next be sent. -/
structure RUnit where
  unit : Nat := 0
  part : Nat := 0
  cmd : Nat := 0
  op : ROpen := {}
  acc : RPart := {}
  ids : List Nat := []
  duplicates : Nat := 0
  /-- Cycles the unit has worked on ARED contributions (R304). -/
  busy : Nat := 0
  inflight : Option RPart := none
  retryAt : Option Nat := none
  /-- At a root: an announcement is still to be sent; at the home device: the devices that announced. -/
  announce : Bool := false
  announced : List Nat := []
  /-- The reduction is complete, and its result is still to be sent to these announced devices. -/
  closed : Bool := false
  deriving DecidableEq, Repr

/-- Pieces of a delta or result that have arrived (R423). -/
structure RedPieces where
  src : Nat := 0
  tag : Nat := 0
  op : Nat := 0
  pieces : NatMap (List Byte) := []
  last : Option Nat := none
  deriving DecidableEq, Repr

/-- The reduction units. Unit numbers are the tile, 0 to 15, and 16 for the root. `recent` holds, by 256 × unit +
partition, the last 64 completed reductions. -/
structure Rdu where
  units : List RUnit := []
  recent : NatMap (List (Nat × Nat)) := []
  pieces : List RedPieces := []
  deriving DecidableEq, Repr

end Sys2Proof.Machine
end

