-- ==== Sys2Proof/Machine/Types/Sched.lean ====
section
/-!
DEFINITION. The scheduler of a partition as data (R258, R259, R261 to R269), one per partition.
-/

namespace Sys2Proof.Machine

/-- What the checks made at copying say of a record (R262, R263). -/
inductive Verdict where
  | pass
  /-- Rejected under R263 with this status and DETAIL. -/
  | reject (status detail : Nat)
  /-- A duplicate of an accepted record (R262). -/
  | dup
  deriving DecidableEq, Repr

/-- A record the scheduler has copied from a ring or a lane (R259, R265). -/
structure Copied where
  image : Line := 0
  verdict : Verdict := .pass
  /-- It did not fit under the scaled aperture when it was last considered (R47). -/
  apWait : Bool := false
  deriving DecidableEq, Repr

/-- What is kept of one of the last 256 accepted records of a queue (R262): its completion record once it completed, less
PHASE, and the duplicates that wait for it, each with the run of the completion queue its slot is of, that queue, and
whether it asks for an interrupt. -/
structure Accepted where
  seq : Nat := 0
  done : Option (BitVec 256) := none
  waiters : List (Nat × Nat × Bool) := []
  deriving DecidableEq, Repr

/-- Queue states of Q_STAT (R283). -/
inductive QState where
  | off | active | fetchErr
  deriving DecidableEq, Repr

/-- A submission queue (R259, R283). -/
structure SQ where
  en : Bool := false
  state : QState := .off
  tailBad : Bool := false
  wign : Bool := false
  cfgErr : Bool := false
  baseLo : Word := 0
  baseHi : Word := 0
  cfg : Word := 0
  tail : Word := 0
  head : Word := 0
  lastSeq : Word := 0xFFFFFFFF
  gaps : Word := 0
  copied : List Copied := []
  accepted : List Accepted := []
  deriving DecidableEq, Repr

/-- A completion queue (R268, R284). -/
structure CQ where
  en : Bool := false
  wign : Bool := false
  cfgErr : Bool := false
  writeErr : Bool := false
  irqEn : Word := 0
  baseLo : Word := 0
  baseHi : Word := 0
  cfg : Word := 0
  tail : Word := 0
  head : Word := 0
  reserved : Nat := 0
  /-- How often the queue has been enabled: a slot reserved in an earlier run is gone. -/
  run : Nat := 0
  deriving DecidableEq, Repr

/-- How a named core of a launch stands (R270, R280). -/
inductive CoreEnd where
  | notStarted | running | ended | yielded
  | stopped (reason : Nat)
  | aborted
  deriving DecidableEq, Repr

/-- An admitted command that has not completed (R45, R264). `start` and `decl` are in thirds of a nanosecond and
nanoseconds. `result` is the status and DETAIL once the executing unit has done its work. -/
structure Cmd where
  id : Nat := 0
  /-- 0 to 31, or 255 for a FIXQ lane. -/
  queue : Nat := 0
  laneCore : Nat := 0
  image : Line := 0
  units : List Nat := []
  admitFrame : Nat := 0
  start : Thirds := 0
  /-- Device time at which the unit began, in cycles, once it has. -/
  began : Option Nat := none
  /-- Bytes moved so far (R48). -/
  moved : Nat := 0
  result : Option (Nat × Nat) := none
  stopped : Bool := false
  /-- Carried work: its time carry (R50) has been charged up to this device time, in cycles. -/
  carriedTo : Option Nat := none
  /-- The run of the completion queue in which its slot is reserved. -/
  cqSlot : Option Nat := none
  /-- The completion queue of that slot. -/
  cq : Nat := 0
  /-- For an OPEN, cycles its units have worked for it; for a launch, the longest run of a core so far (R48, R304). -/
  busy : Nat := 0
  /-- For a launch: how each named core stands, by core number. -/
  ends : NatMap CoreEnd := []
  deriving DecidableEq, Repr

/-- The scheduler of one partition (R258). Committed ends are keyed by unit number. -/
structure Sched where
  sq : NatMap SQ := []
  cq : NatMap CQ := []
  marks : NatMap Dword := []
  lanes : NatMap (List Copied) := []
  cmds : List Cmd := []
  nextId : Nat := 0
  ends : NatMap Nat := []
  deriving DecidableEq, Repr

end Sys2Proof.Machine
end

