-- ==== Sys2Proof/Machine/Types/Test.lean ====
section
/-!
DEFINITION. The Agitator and Proof of a channel, the repair map and the REPAIR block as data (chapter 15), and the module's
signals and temperatures (chapter 22).
-/

namespace Sys2Proof.Machine

/-- ATP_STAT.STATE (R389). -/
inductive AgState where
  | idle | running | done | stopped
  deriving DecidableEq, Repr

/-- A read the Agitator has issued and Proof has not checked: the line, the pass, the request index, the data and check
bytes observed, and whether the line code gave it up or corrected it. -/
structure AgRead where
  line : Nat := 0
  pass : Nat := 0
  index : Nat := 0
  data : BitVec 512 := 0
  chk : BitVec 64 := 0
  ue : Bool := false
  ce : Bool := false
  deriving DecidableEq, Repr

/-- The Agitator and Proof of one channel (R383 to R390). -/
structure Agit where
  en : Bool := false
  wign : Bool := false
  cfgErr : Bool := false
  badCmd : Bool := false
  state : AgState := .idle
  reason : Nat := 0
  err : Bool := false
  /-- The pass of the run and the request to be issued next, the state of the LFSR, when the run began and when it last
  issued, the reads not yet checked, and the reason for which the run is to end. -/
  runPass : Nat := 0
  index : Nat := 0
  startedAt : Nat := 0
  lastIssue : Option Nat := none
  reads : List AgRead := []
  ending : Option Nat := none
  pass : Word := 0
  reqs : Dword := 0
  cycles : Dword := 0
  checked : Dword := 0
  mismatch : Word := 0
  bits : Word := 0
  chkMis : Word := 0
  ueCount : Word := 0
  ceCount : Word := 0
  lanes0 : Word := 0
  lanes1 : Word := 0
  feAddr : Word := 0
  fePass : Word := 0
  feIndex : Word := 0
  feChk : BitVec 64 := 0
  feXor : BitVec 512 := 0
  deriving DecidableEq, Repr

/-- The repair operation in progress: its request, where it comes from (R391) as ORIGIN codes it (1 the host, 2 management),
and the management session that awaits its answer. -/
structure RepairOp where
  request : List Byte := []
  origin : Nat := 1
  session : Nat := 0
  deriving DecidableEq, Repr

/-- The REPAIR block and the map in force (R391 to R397). -/
structure Repair where
  en : Bool := false
  wign : Bool := false
  badCmd : Bool := false
  done : Bool := false
  result : Nat := 0
  digest : BitVec 384 := 0
  op : Option RepairOp := none
  map : List (List Byte) := []
  gen : Nat := 0
  deriving DecidableEq, Repr

/-- Signals, temperatures outside the stacks, and alerts (R553 to R556, R570). -/
structure Env where
  pwrgd : Bool := false
  perst : Bool := true
  holdup : Bool := false
  trip : Bool := false
  junction : NatMap Int := []
  /-- I/O dies whose junction has read 105 °C and has not fallen below 102 °C since. -/
  junctionHot : List Nat := []
  /-- The thermal warning, and the last time a stack read above its threshold minus 3 °C. -/
  warning : Bool := false
  warmAt : Nat := 0
  deriving DecidableEq, Repr

end Sys2Proof.Machine
end

