-- ==== Sys2Proof/Machine/State.lean ====
section
/-!
DEFINITION. The state of the device as plain data, the outcomes that are not a next state, and the state after reset.
-/

namespace Sys2Proof.Machine

/-- No command of this device ends in a fault: what the spec calls an error is written to State. The one constructor stands for
a command that names a unit outside the ranges of R11. No arm raises it: such a command acts on a unit that does not exist, whose
entry nothing reads; it would be safe. -/
inductive Fault where
  | noSuchUnit
  deriving DecidableEq, Repr

/-- Reasons for which a command has no meaning. `notModelled` is raised by `exec` alone, for a row without a meaning;
it is safe. -/
inductive Refusal where
  | notModelled (mnemonic : String)
  deriving DecidableEq, Repr

/-- The device. -/
structure State where
  /-- The commands that wait, first in first out. -/
  pending : List Instr := []
  /-- The model's own field: how many free values have been drawn. -/
  drawn : Nat := 0
  /-- Device time in core-clock cycles (R38). -/
  now : Nat := 0
  /-- Registers of control space and partition pages that hold what was last put there, by register key. -/
  regs : NatMap Word := []
  /-- The latches of R447, by path and register key. -/
  latches : NatMap Word := []
  sht : Shutter := {}
  plate : PlateSt := {}
  parts : NatMap Part := []
  sched : NatMap Sched := []
  /-- Edges latched by the input detectors and not yet delivered (R79, R95), inputs 0 to 4. -/
  edges : NatMap (List LatchedEdge) := []
  err : ErrSt := {}
  mem : Mem := {}
  /-- Late errors that a core has not yet taken (R229), by core, oldest first: subcode and address. -/
  late : NatMap (List (Nat × Nat)) := []
  /-- Cores, by 16 × granule + logical core. -/
  cores : NatMap Core := []
  clusters : NatMap Cluster := []
  /-- Grain streams, by 32 × granule + stream. -/
  grains : NatMap GStream := []
  stackTab : NatMap Stack := []
  units : Units := {}
  /-- Agitators, by 32 × tile + channel. -/
  agits : NatMap Agit := []
  repair : Repair := {}
  env : Env := {}
  host : HostIf := {}
  boot : Boot := {}
  nv : Nv := {}
  aon : AlwaysOn := {}
  mgmt : Mgmt := {}
  fwu : Fwu := {}
  links : Links := {}
  rdu : Rdu := {}
  /-- Partition sessions. -/
  psess : NatMap PSess := []
  /-- What the device has sent on its interfaces, oldest first. -/
  out : List Out := []
  deriving DecidableEq, Repr

/-- The device right after reset: every field at the value the spec gives for reset, or at the value the assumption
log names. -/
def State.reset : State := {}

end Sys2Proof.Machine
end

