-- ==== Sys2Proof/Machine/Ops.lean ====
section
/-!
DEFINITION. The named operations every command is built from: device time, registers, event bits and MSI-X messages
(R6, R441, R442), ownership (R78, R529) and error records (R522 to R534).
-/

namespace Sys2Proof.Machine

/-- The outcome of a command that runs: a next state. -/
abbrev ok (s : State) : Host.Outcome State Fault Refusal := .next s

/-! ## Device time -/

/-- Device time moves on to `t` cycles; it never moves back. -/
def State.advance (s : State) (t : Nat) : State := { s with now := max s.now t }

/-- Device time in thirds of a nanosecond. -/
def State.nowThirds (s : State) : Thirds := 2 * s.now

/-- The cycle at or after a time in thirds of a nanosecond. -/
def cycleOf (t : Thirds) : Nat := ceilDiv t 2

/-- Nanoseconds in thirds. -/
def nsThirds (n : Nat) : Thirds := 3 * n

/-- Microseconds in thirds. -/
def usThirds (n : Nat) : Thirds := 3000 * n

/-- Draw the next free value's number. -/
def State.draw (s : State) : Nat × State := (s.drawn, { s with drawn := s.drawn + 1 })

/-- Send something on an interface. -/
def State.emit (s : State) (o : Out) : State := { s with out := s.out ++ [o] }

/-! ## Register keys: control-space offsets (R444), and partition pages above them (R452) -/

def devKey (o : Nat) : Nat := o
def hifKey (o : Nat) : Nat := 0x1000 + o
def shtKey (o : Nat) : Nat := 0x2000 + o
def pltKey (o : Nat) : Nat := 0x3000 + o
def rprKey (o : Nat) : Nat := 0x4000 + o
def sesKey (o : Nat) : Nat := 0x8000 + o
def fwuKey (o : Nat) : Nat := 0x10000 + o
def errKey (o : Nat) : Nat := 0x20000 + o
def bootKey (o : Nat) : Nat := 0x30000 + o
def mbxKey (q o : Nat) : Nat := 0x100000 + 0x1000 * q + o
def stkKey (t o : Nat) : Nat := 0x200000 + 0x1000 * t + o
def atpKey (ch o : Nat) : Nat := 0x400000 + 0x1000 * ch + o
def pgKey (p o : Nat) : Nat := 2 ^ 28 + 2 ^ 20 * p + o
/-- The scheduler area of partition p's page (R452). -/
def schKey (p o : Nat) : Nat := pgKey p (0x10000 + o)
/-- Entry `v` of function `fn`'s MSI-X table (R441): the PF's lies in control space, a VF's in its page. -/
def msixKey (fn v : Nat) : Nat := if fn = 0 then 0x7FE0000 + 16 * v else pgKey (fn - 1) (0xF0000 + 16 * v)

/-- What a stored register holds. -/
def State.reg (s : State) (k : Nat) : Word := NatMap.get 0#32 s.regs k

/-- Store a register. -/
def State.setReg (s : State) (k : Nat) (w : Word) : State := { s with regs := NatMap.set 0#32 s.regs k w }

/-- Increment a saturating counter register. -/
def State.incReg (s : State) (k : Nat) : State := s.setReg k (satInc (s.reg k))

/-- Set one bit of a register. -/
def State.orReg (s : State) (k bit : Nat) : State := s.setReg k (s.reg k ||| BitVec.twoPow 32 bit)

/-- Increment a 64-bit counter held in two registers, LO at `k` and HI after it. -/
def State.inc64 (s : State) (k : Nat) : State :=
  let s := s.setReg k (s.reg k + 1#32)
  if s.reg k = 0#32 then s.setReg (k + 4) (s.reg (k + 4) + 1#32) else s

/-! ## Functions and MSI-X -/

def State.fn (s : State) (f : Nat) : Fn := NatMap.get {} s.host.fns f

def State.modFn (s : State) (f : Nat) (g : Fn → Fn) : State :=
  { s with host := { s.host with fns := NatMap.upd {} s.host.fns f g } }

/-- The pending bit of a vector, keyed by function and vector. -/
def pendKey (f v : Nat) : Nat := 4096 * f + v

def State.pend (s : State) (f v : Nat) : Bool := NatMap.get false s.host.pend (pendKey f v)

def State.setPend (s : State) (f v : Nat) (b : Bool) : State :=
  { s with host := { s.host with pend := NatMap.set false s.host.pend (pendKey f v) b } }

/-- Is the vector masked, by its own mask or by the function mask (R442)? The table stores a vector's mask bit
inverted, since a table entry is masked after reset. -/
def State.vecMasked (s : State) (f v : Nat) : Bool :=
  (s.fn f).msixMask || !(s.reg (msixKey f v + 12)).getLsbD 0

/-- May the function send messages? MSI-X enabled, Bus Master Enable set (R431), and only the PF while the host
interface is service-only (R436). -/
def State.canSend (s : State) (f : Nat) : Bool :=
  (s.fn f).msixEnable && (s.fn f).busMaster && (f == 0 || s.host.serviceReason == 0)

/-- Send the message of a vector. -/
def State.sendMsix (s : State) (f v : Nat) : State :=
  if s.canSend f then
    s.emit (.msix f v ((s.reg (msixKey f v)).toNat + 2 ^ 32 * (s.reg (msixKey f v + 4)).toNat)
      (s.reg (msixKey f v + 8)).toNat)
  else s

/-- Request a vector (R442): masked, its pending bit is set; otherwise the message is sent. -/
def State.requestMsix (s : State) (f v : Nat) : State :=
  if s.vecMasked f v then s.setPend f v true else s.sendMsix f v

/-! ## The event stream and event bits -/

/-- Is the stream entry one that the 256 kept places are for (R534)? -/
def StreamEntry.severe : StreamEntry → Bool
  | .record r => decide (r.cls ≥ 2)
  | .event _ _ => false

/-- Drop the oldest entry that is not severe. -/
def dropOldest : List StreamEntry → List StreamEntry
  | [] => []
  | e :: l => if e.severe then e :: dropOldest l else l

/-- Put an entry on the management controller's event stream (R534). -/
def State.toStream (s : State) (e : StreamEntry) : State :=
  let mild := (s.err.stream.filter (fun x => !x.severe)).length
  let full := if e.severe then decide (s.err.stream.length ≥ 4096) else decide (mild ≥ 4096 - 256)
  if !full then { s with err := { s.err with stream := s.err.stream ++ [e] } }
  else
    let lost := satInc s.err.streamLost
    if mild = 0 then { s with err := { s.err with streamLost := lost } }
    else { s with err := { s.err with stream := dropOldest s.err.stream ++ [e], streamLost := lost } }

/-- Set bit `bit` of an events register: the stream receives a copy (R534), and the vector is requested where the
block's IRQEN enables the bit (R441). -/
def State.raise (s : State) (fn ev irq bit vec : Nat) : State :=
  let s := (s.orReg ev bit).toStream (.event ev bit)
  if (s.reg irq).getLsbD bit then s.requestMsix fn vec else s

def State.devEvent (s : State) (bit : Nat) : State := s.raise 0 (devKey 0x10) (devKey 0x0C) bit 0
def State.hifEvent (s : State) (bit : Nat) : State := s.raise 0 (hifKey 0x10) (hifKey 0x0C) bit 0
def State.shtEvent (s : State) (bit : Nat) : State := s.raise 0 (shtKey 0x38) (shtKey 0x0C) bit 1
def State.pltEvent (s : State) (bit : Nat) : State := s.raise 0 (pltKey 0x40) (pltKey 0x0C) bit 2
def State.errEvent (s : State) (bit : Nat) : State := s.raise 0 (errKey 0x10) (errKey 0x0C) bit 4
def State.stkEvent (s : State) (t bit : Nat) : State := s.raise 0 (stkKey t 0x14) (stkKey t 0x0C) bit (32 + t)
def State.pgEvent (s : State) (p bit : Nat) : State := s.raise (p + 1) (pgKey p 0x10) (pgKey p 0x0C) bit 0
def State.schEvent (s : State) (p bit : Nat) : State := s.raise (p + 1) (schKey p 0x10) (schKey p 0x0C) bit 0

/-- A write ignored under R7 counts once. -/
def State.countWign (s : State) : State := (s.incReg (devKey 0x14)).devEvent 2

/-- A host request answered under R437 or ignored under R436 counts in HIF_REFUSED. -/
def State.countRefused (s : State) : State := (s.incReg (hifKey 0x20)).hifEvent 7

/-- A write the PF makes to control space takes effect (R436, R482, R524): none before the host interface is enabled; before
READY, after a FATAL record and on a service-only interface only those to the blocks still served are carried out, and the
others count as refused. `kind` is 0 for the blocks always served (DEV, HIF, SES, BOOT, FWU, ERR and the MSI-X table), 1 for
PLATE and 2 for the rest. -/
def State.pfWrite (s : State) (kind : Nat) (f : State → State) : State :=
  if !s.host.en then s
  else if kind = 0 ∨ (s.boot.ready ∧ !s.err.fatal ∧ (kind = 1 ∨ s.host.serviceReason = 0)) then f s
  else s.countRefused

/-! ## Partitions, schedulers and ownership -/

def State.part (s : State) (p : Nat) : Part := NatMap.get {} s.parts p
def State.modPart (s : State) (p : Nat) (f : Part → Part) : State :=
  { s with parts := NatMap.upd {} s.parts p f }
def State.sch (s : State) (p : Nat) : Sched := NatMap.get {} s.sched p
def State.modSch (s : State) (p : Nat) (f : Sched → Sched) : State :=
  { s with sched := NatMap.upd {} s.sched p f }
def State.stack (s : State) (t : Nat) : Stack := NatMap.get {} s.stackTab t
def State.modStack (s : State) (t : Nat) (f : Stack → Stack) : State :=
  { s with stackTab := NatMap.upd {} s.stackTab t f }

/-- The sections of partition `p` in a plate. -/
def Plate.part? (pl : Plate) (p : Nat) : Option PartSec := pl.parts.find? (fun q => q.num == p)

/-- The sections of partition `p` in the installed plate, if the plate defines it. -/
def State.psec (s : State) (p : Nat) : Option PartSec :=
  match s.plate.installed with
  | some pl => pl.part? p
  | none => none

def State.psecD (s : State) (p : Nat) : PartSec := (s.psec p).getD {}

/-- Does the section's CLUSTER_MAP name granule `g` (R78)? -/
def PartSec.owns (q : PartSec) (g : Nat) : Bool := q.clusters.getLsbD g

/-- The granules a partition owns, rising. -/
def PartSec.granules (q : PartSec) : List Nat := (List.range 256).filter q.owns

/-- The partition that owns granule `g` (R529). -/
def State.owner (s : State) (g : Nat) : Option Nat :=
  match s.plate.installed with
  | some pl => (pl.parts.find? (fun q => q.owns g)).map PartSec.num
  | none => none

/-- The partition byte of a record for a unit of granule `g` (R529). -/
def State.ownerByte (s : State) (g : Nat) : Nat := (s.owner g).getD 255

/-- The tiles that hold a granule of the partition, rising. -/
def PartSec.tiles (q : PartSec) : List Nat :=
  (List.range 16).filter (fun t => (List.range 16).any (fun c => q.owns (16 * t + c)))

/-- Is granule `g` excluded (R30)? -/
def State.granExcluded (s : State) (g : Nat) : Bool := NatMap.get false s.units.granOff g
/-- Is channel `ch` = 32 s + n enabled? -/
def State.chanOn (s : State) (ch : Nat) : Bool :=
  !NatMap.get false s.units.chanOff ch && !s.granExcluded (ch / 2)
/-- The enabled channels of granule `g`, CH(2c) before CH(2c + 1). Channel 2 g + x is 32 s + 2 c + x. -/
def State.chansOf (s : State) (g : Nat) : List Nat := [2 * g, 2 * g + 1].filter s.chanOn
/-- Does the granule run on one channel (R30)? -/
def State.oneChan (s : State) (g : Nat) : Bool := (s.chansOf g).length == 1
/-- The logical cores of an enabled cluster are 0 to 15 (R20): its enabled physical cores, rising. -/
def State.physCores (s : State) (g : Nat) : List Nat := onesOf 18 (NatMap.get 0xFFFF s.units.coreMask g)
/-- The physical position of logical core `k` (R20). -/
def State.physCore (s : State) (g k : Nat) : Nat := ((s.physCores g).drop k).headD 0

/-- Is the partition defined and created, with no excluded granule (R96)? -/
def State.created (s : State) (p : Nat) : Bool :=
  match s.psec p with
  | some q => q.granules.all (fun g => !s.granExcluded g)
  | none => false

/-! ## Error records -/

/-- The 64 bytes of a record (R525). -/
def ErrRec.bytes (r : ErrRec) : List Byte :=
  let b := natLE 4 r.rseq ++ natLE 4 r.bootnum ++ natLE 1 r.cls ++ natLE 1 r.source ++ natLE 1 r.code ++ natLE 1 r.part
    ++ natLE 1 r.flags ++ natLE 3 0 ++ natLE 8 r.frame ++ natLE 8 r.time ++ natLE 8 r.addr ++ natLE 4 r.unit
    ++ natLE 4 r.detail ++ natLE 4 r.suppressed ++ natLE 8 r.aux
  b ++ natLE 4 (crc32With 0x82F63B78#32 b).toNat

/-- Codes whose records are limited to one per triple and frame (R527). -/
def rateLimited (cls source code : Nat) : Bool :=
  cls == 1 || (cls == 0 && ((source == 4 && (code == 1 || code == 6)) || (source == 8 && (code == 1 || code == 2))
    || (source == 0x0A && code == 1) || source == 0x0C))

/-- The free places of the host ring (R533). -/
def ErrSt.free (e : ErrSt) : Nat := 512 - (e.tail - e.head).toNat

/-- Place a record in the host ring as R533 admits it. -/
def State.ringPut (s : State) (r : ErrRec) : State :=
  if r.cls ≥ 2 then
    if s.err.free > 0 then
      let s := { s with err := { s.err with ring := NatMap.set {} s.err.ring (s.err.tail.toNat % 512) r, tail := s.err.tail + 1#32 } }
      (s.errEvent 0).errEvent (if r.cls = 2 then 1 else 2)
    else (s.incReg (errKey 0x20)).errEvent 3
  else
    if s.err.free > 32 then
      let s := { s with err := { s.err with ring := NatMap.set {} s.err.ring (s.err.tail.toNat % 512) r, tail := s.err.tail + 1#32 } }
      s.errEvent 0
    else (s.incReg (errKey 0x1C)).errEvent 3

/-- REASON of PLT_PART_STATE from a CONTAINED record's code (R523). -/
def heldReason (source code : Nat) : Nat :=
  if source = 4 ∧ code = 5 then 8
  else if source = 4 ∧ code = 4 then 1
  else if source = 6 ∧ (code = 1 ∨ code = 3) then 4
  else if source = 9 ∧ code = 1 then 2
  else if source = 0x0B ∧ code = 3 then 6
  else 3

/-- A CONTAINED record names partition `p` (R523): admission stops, ERR_PART_HELD is set, and the partition enters
HELD at the next tick unless it already is; the first record gives the REASON. -/
def State.contain (s : State) (p source code : Nat) : State :=
  let s := s.orReg (errKey 0x24) p
  if (s.part p).state = .held then s
  else s.modPart p (fun q => { q with admStopped := true, holdReason := q.holdReason.or (some (heldReason source code)) })

/-- Stop every command of every partition that still has work to do. -/
def State.stopAllCmds (s : State) : State :=
  { s with sched := s.sched.map (fun e => (e.1, { e.2 with cmds := e.2.cmds.map (fun c =>
      if c.result.isNone then { c with stopped := true } else c) })) }

/-- A FATAL record (R524): admission stops everywhere, engines stop, ERR_STAT.FATAL and the first source are kept. -/
def State.fatalStop (s : State) (source code : Nat) : State :=
  let src := if s.err.fatal then s.err.fatalSrc else BitVec.ofNat 32 (source + 256 * code) ||| 0x80000000#32
  let s := { s with err := { s.err with fatal := true, fatalSrc := src, fatalHold := true } }
  let s := (List.range 16).foldl (fun s p => s.modPart p (fun q => { q with admStopped := true })) s
  s.stopAllCmds

/-- The suppression entry of a triple. -/
def ErrSt.suppOf (e : ErrSt) (source code unit : Nat) : Option SuppEntry :=
  e.supp.find? (fun x => x.source == source && x.code == code && x.unit == unit)

/-- The frame number a record carries: all ones before step SHUTTER (R525). -/
def State.errFrame (s : State) : Nat := if 12 ≤ s.boot.step then s.sht.frame.toNat else 2 ^ 64 - 1

/-- What a record says, before the device numbers it. -/
structure ErrArg where
  cls : Nat := 0
  source : Nat
  code : Nat
  part : Nat := 255
  unit : Nat := 0
  detail : Nat := 0
  aux : Nat := 0
  /-- An address, and whether it is a partition address. -/
  addr : Option (Nat × Bool) := none
  /-- The count of a record that stands for an episode (R537). -/
  episode : Option Nat := none
  deriving DecidableEq, Repr

/-- Number the record, keep it in the stream and the ring, and act on its class. -/
def State.logErrWrite (s : State) (a : ErrArg) (cls fr count : Nat) (rest : List SuppEntry) (limited : Bool) : State :=
  let supp := if limited then rest ++ [⟨a.source, a.code, a.unit, fr, 0⟩] else rest
  let r : ErrRec :=
    { rseq := s.err.rseq, bootnum := s.err.bootnum, cls := cls, source := a.source, code := a.code, part := a.part,
      flags := match a.addr with | none => 0 | some (_, k) => if k then 3 else 1,
      frame := fr, time := s.now % 2 ^ 64, addr := (a.addr.map Prod.fst).getD 0, unit := a.unit, detail := a.detail,
      suppressed := a.episode.getD count, aux := a.aux }
  let s := { s with err := { s.err with rseq := s.err.rseq + 1, supp := supp } }
  let s := s.toStream (.record r)
  let s := if s.host.en then s.ringPut r else { s with err := { s.err with early := s.err.early ++ [r] } }
  let s := if a.source = 0x0F ∧ a.code = 1 then { s with err := { s.err with badClusters := a.unit :: s.err.badClusters } } else s
  if cls = 2 then s.contain a.part a.source a.code
  else if cls = 3 then s.fatalStop a.source a.code
  else s

/-- Write an error record (R522 to R534), with the effects its class has. -/
def State.logErr (s : State) (a : ErrArg) : State :=
  let cls := if a.part = 255 ∧ a.cls = 2 then 0 else a.cls
  let fr := s.errFrame
  let old := s.err.suppOf a.source a.code a.unit
  let limited := rateLimited cls a.source a.code && a.episode.isNone
  let rest := s.err.supp.filter (fun x => !(x.source == a.source && x.code == a.code && x.unit == a.unit))
  match limited, old with
  | true, some o =>
    if o.frame = fr then
      { s with err := { s.err with supp := rest ++ [{ o with count := o.count + 1 }] } }
    else State.logErrWrite s a cls fr o.count rest limited
  | true, none => State.logErrWrite s a cls fr 0 rest limited
  | false, _ => State.logErrWrite s a cls fr 0 s.err.supp limited

/-! ## Host requests that are refused (R437) -/

/-- The bit of PCIe's uncorrectable error status that a row of R437 logs: Unsupported Request, Completer Abort or Poisoned
TLP Received; a poisoned completion logs none at its sender. -/
def aerBit (row : Nat) : Option Nat := if row = 5 then some 15 else if row = 7 then some 12 else if row = 6 then none else some 20

/-- A request of requester `rid` by `path` is answered under row `row` of R437 (R536): it counts and is recorded. -/
def State.hostRefused (s : State) (path row rid part : Nat) : State :=
  let s := s.countRefused
  let s := match aerBit row with
    | some b => { s with host := { s.host with aer := NatMap.upd 0 s.host.aer path (fun v => v ||| 2 ^ b) } }
    | none => s
  s.logErr { cls := 0, source := 0x0A, code := 1, part := part, unit := path, detail := row, aux := rid % 2 ^ 16 + path * 2 ^ 16 }

/-- The requester ID of a write whose command does not name it. -/
def State.anyRid (s : State) : Nat × State :=
  let d := s.draw
  ((Config.freeDword d.1).toNat % 2 ^ 16, d.2)

/-- Does VF p + 1 exist on the bus (R433), and is it served (R437, R524)? -/
def State.vfThere (s : State) (p : Nat) : Bool := decide (p < 16) && s.host.vfEnable && decide (p + 1 ≤ s.host.numVfs)
def State.vfServed (s : State) (p : Nat) : Bool :=
  s.boot.ready && !s.err.fatal && s.host.serviceReason == 0 && !(s.fn (p + 1)).d3hot

/-- Is the partition of the page defined? -/
def State.pageDefined (s : State) (p : Nat) : Bool := (s.psec p).isSome

/-- A write to partition `p`'s page takes effect only where its VF exists and is served (R437). -/
def State.vfWrite (s : State) (p : Nat) (f : State → State) : State :=
  if !s.vfThere p then s
  else if s.vfServed p then f s
  else
    let r := s.anyRid
    r.2.hostRefused (p + 1) 2 r.1 p

/-- An access refused under R433, R439 or R454. -/
def State.denyPage (s : State) (p : Nat) : State := (s.incReg (pgKey p 0x28)).pgEvent p 1

end Sys2Proof.Machine
end

