-- ==== Sys2Proof/Machine/LinkOps.lean ====
section
/-!
DEFINITION. Routes (R415 to R417), messages (R418, R419) and transactions (R424): how a message leaves the device.
-/

namespace Sys2Proof.Machine

def State.port (s : State) (q : Nat) : Port := NatMap.get {} s.links.ports q
def State.modPort (s : State) (q : Nat) (f : Port → Port) : State :=
  { s with links := { s.links with ports := NatMap.upd {} s.links.ports q f } }
def State.modLinks (s : State) (f : Links → Links) : State := { s with links := f s.links }

/-- This device's number. -/
def State.dev (s : State) : Nat := s.plate.sysInForce.deviceNum

/-! ## Routes -/

/-- The coordinates of a device (R74). -/
def SysSec.coords (y : SysSec) (d : Nat) : List Nat := [d % y.dimX, d / y.dimX % y.dimY, d / (y.dimX * y.dimY)]
def SysSec.dims (y : SysSec) : List Nat := [y.dimX, y.dimY, y.dimZ]
/-- How many devices the system has. -/
def SysSec.count (y : SysSec) : Nat := y.dimX * y.dimY * y.dimZ

/-- The step a message takes in one ring (R415): none where it is done, else whether it moves in +. -/
def ringStep (a b n : Nat) : Option Bool :=
  let d := (b + n - a) % n
  if d = 0 then none
  else if 2 * d < n then some true
  else if 2 * d > n then some false
  else some (a % 2 == 0)

/-- The direction of the next hop to a device, as a ROLE code (R76, R415): 1 X+, 2 X−, 3 Y+, 4 Y−, 5 Z+, 6 Z−. -/
def SysSec.routeDir (y : SysSec) (here dst : Nat) : Option Nat :=
  (List.range 3).findSome? (fun i =>
    let at_ := fun (l : List Nat) => (l.drop i).headD 0
    match ringStep (at_ (y.coords here)) (at_ (y.coords dst)) (at_ y.dims) with
    | some plus => some (2 * i + (if plus then 1 else 2))
    | none => none)

def State.routeDir (s : State) (dst : Nat) : Option Nat := s.plate.sysInForce.routeDir s.dev dst

/-- Does a hop in a direction cross its ring's dateline (R416)? -/
def SysSec.crosses (y : SysSec) (here dir : Nat) : Bool :=
  let i := (dir - 1) / 2
  let a := ((y.coords here).drop i).headD 0
  let n := (y.dims.drop i).headD 1
  if dir % 2 = 1 then a == n - 1 else a == 0

/-- The ports whose role is the direction, rising, and those of them that are UP (R417). -/
def State.dirPorts (s : State) (dir : Nat) : List Nat :=
  (List.range 16).filter (fun q => (s.plate.linksInForce.roles.drop q).headD 0 == dir)
def State.dirUp (s : State) (dir : Nat) : List Nat := (s.dirPorts dir).filter (fun q => (s.port q).state == .up)

/-- The first-hop port to a device: the lowest-numbered UP port of the direction, or the lowest-numbered port of the
direction where none is UP (R417, R424). -/
def State.routePort (s : State) (dst : Nat) : Nat :=
  match s.routeDir dst with
  | none => 0
  | some d => ((s.dirUp d).head?.or (s.dirPorts d).head?).getD 0

/-! ## Messages (R419) -/

/-- The class of a message: 0 CTL, 1 RSP, 2 RED, 3 REQ. -/
def Msg.cls (m : Msg) : Nat :=
  if m.op = 0x20 ∨ m.op = 0x21 then 0 else if m.op ≥ 0x80 then 1 else if m.op = 0x10 ∨ m.op = 0x11 then 2 else 3

/-- The slice a message travels in: the device slice for CTL and the MIG operations. -/
def Msg.slice (m : Msg) : Nat := if m.cls = 0 ∨ m.op = 6 ∨ m.op = 7 then 16 else m.part

/-- Is the operation one of the table? -/
def msgOpKnown (op : Nat) : Bool :=
  [1, 2, 3, 4, 5, 6, 7, 0x10, 0x11, 0x20, 0x21, 0x81, 0x82, 0x85, 0x8F, 0x90].contains op

/-- A partner's slice in flits, as its identity message gave it. -/
def Port.mirrorSlice (q : Port) (slice : Nat) : Nat := (q.mirror.drop slice).headD 0

/-- The response that refuses a message with a code of R421. -/
def Msg.refusal (m : Msg) (code : Nat) : Msg :=
  { op := 0x8F, src := m.dst, dst := m.src, tag := m.tag, part := m.part, addr := m.addr, aux := code }

/-- Put a message at the end of the outbox, on its virtual channel (R416). `inDir` is the direction in which it moved
into this device and `inVc` its channel there. -/
def State.queueMsg (s : State) (m : Msg) (dir : Nat) (inDir inVc : Nat) (slot : Option RxSlot) : State :=
  let sameDim := inDir != 0 && (inDir - 1) / 2 == (dir - 1) / 2
  let vc := if s.plate.sysInForce.crosses s.dev dir || (sameDim && inVc == 1) then 1 else 0
  s.modLinks (fun l => { l with outbox := l.outbox ++ [{ msg := m, slice := m.slice, cls := m.cls, dir := dir, vc := vc, slot := slot }] })

/-- Does the next hop hold nothing for the message's slice (R417)? -/
def State.noSlice (s : State) (m : Msg) (dir : Nat) : Bool :=
  !(s.dirUp dir).isEmpty && (s.dirUp dir).all (fun q => (s.port q).mirrorSlice m.slice == 0)

/-- The partition a message names: that of its SPAN, or of AUX for the MIG operations (R419, R529). -/
def Msg.named (m : Msg) : Nat := if m.op = 6 ∨ m.op = 7 then m.aux % 256 else m.part

/-- The record of a message this device refuses (R421, R528). -/
def State.refuseRec (s : State) (m : Msg) (port code : Nat) : State :=
  s.logErr { cls := 0, source := 8, code := 4, part := m.named, unit := port, detail := code,
             aux := m.src + 2 ^ 8 * m.tag + 2 ^ 24 * m.op }

/-- Is the message one that draws a response (R419)? -/
def Msg.asks (m : Msg) : Bool := m.cls == 2 || m.cls == 3

/-- Put a message with those received. -/
def State.toInbox (s : State) (m : Msg) (slot : Option RxSlot) : State :=
  s.modLinks (fun l => { l with inbox := l.inbox ++ [{ msg := m, slot := slot }] })

/-- Send a message that originates here (R415 to R417). One for this device itself, or a refusal for want of a slice at
the next hop, is put with the messages received. -/
def State.sendMsg (s : State) (m : Msg) : State :=
  match s.routeDir m.dst with
  | none => s.toInbox m none
  | some dir =>
    if s.noSlice m dir then
      if m.asks then (s.refuseRec m ((s.dirUp dir).headD 0) 5).toInbox (m.refusal 5) none else s
    else s.queueMsg m dir 0 0 none

/-! ## Transactions (R424) -/

/-- A tag of the destination's space that is neither outstanding nor in its 10 ms quarantine. -/
def State.freeTag (s : State) (dst : Nat) : Option Nat :=
  let used := (s.links.txns.filter (fun t => t.dst == dst)).map Txn.tag ++
    (s.links.quarantine.filter (fun x => x.1 == dst)).map (fun x => x.2.1)
  let next := NatMap.get 0 s.links.nextTag dst
  if used.length ≥ 65536 then none
  else ((List.range (used.length + 1)).map (fun i => (next + i) % 65536)).find? (fun t => !used.contains t)

/-- Open a transaction with the tag and send its request. -/
def State.request (s : State) (m : Msg) (kind : TxnKind) : State :=
  (s.modLinks (fun l => { l with
    txns := l.txns ++ [{ dst := m.dst, tag := m.tag, kind := kind, sentAt := s.now, port := s.routePort m.dst }],
    nextTag := NatMap.set 0 l.nextTag m.dst ((m.tag + 1) % 65536) })).sendMsg m

/-- A message that carries or asks for the `n` bytes at `addr` (R418). -/
def spanMsg (op src dst tag part addr n aux : Nat) (data : List Byte) : Msg :=
  let skip := addr % 16
  let dlen := ceilDiv (skip + n) 16
  { op := op, dlen := dlen, src := src, dst := dst, tag := tag, part := part, skip := skip, trim := 16 * dlen - skip - n,
    addr := addr, aux := aux,
    data := if data.isEmpty then [] else List.replicate skip 0#8 ++ data ++ List.replicate (16 * dlen - skip - n) 0#8 }

/-- The bytes a message covers (R418). -/
def Msg.count (m : Msg) : Nat := 16 * m.dlen - m.skip - m.trim
/-- The data of the bytes a message covers. -/
def Msg.payload (m : Msg) : List Byte := (m.data.drop m.skip).take m.count

/-- A transaction ends: its tag is in quarantine for 10 ms (R424). -/
def State.endTxn (s : State) (dst tag : Nat) : State :=
  s.modLinks (fun l => { l with txns := l.txns.filter (fun t => !(t.dst == dst && t.tag == tag)),
                                quarantine := l.quarantine ++ [(dst, tag, s.now)] })

end Sys2Proof.Machine
end

