-- ==== Sys2Proof/Machine/Operands.lean ====
section
/-!
DEFINITION. The fields of a core instruction word (R111) and the operands they give.
-/

namespace Sys2Proof.Machine

/-- The major opcode, bits [31:26] (R110). -/
def major (w : Word) : Nat := (w.extractLsb' 26 6).toNat
/-- Bits [25:21]: rd, d, or a store's data source. -/
def fRd (w : Word) : Nat := (w.extractLsb' 21 5).toNat
/-- Bits [20:16]: ra or a. -/
def fRa (w : Word) : Nat := (w.extractLsb' 16 5).toNat
/-- Bits [15:11]: rb or b. -/
def fRb (w : Word) : Nat := (w.extractLsb' 11 5).toNat
/-- Bits [10:6]: c of R4 format; 0 in R format. -/
def fRc (w : Word) : Nat := (w.extractLsb' 6 5).toNat
/-- FUNC, bits [5:0]. -/
def fFunc (w : Word) : Nat := (w.extractLsb' 0 6).toNat
/-- IMM16 as written. -/
def fImm (w : Word) : BitVec 16 := w.extractLsb' 0 16
/-- IMM16 sign-extended to 64 bits. -/
def sImm (w : Word) : Dword := (fImm w).signExtend 64
/-- IMM16 zero-extended to 64 bits. -/
def zImm (w : Word) : Dword := (fImm w).setWidth 64
/-- DISP26 sign-extended, times 4. -/
def disp26 (w : Word) : Dword := ((w.extractLsb' 0 26).signExtend 64) <<< 2
/-- DISP16 sign-extended, times 4. -/
def disp16 (w : Word) : Dword := (sImm w) <<< 2
/-- SYS: FN in [7:0] and N in [15:8] (R125). -/
def sysFn (w : Word) : Nat := (w.extractLsb' 0 8).toNat
def sysN (w : Word) : Nat := (w.extractLsb' 8 8).toNat
/-- CREG: the register number in [15:4] and OP in [3:0] (R126). -/
def cregNum (w : Word) : Nat := (w.extractLsb' 4 12).toNat
def cregOp (w : Word) : Nat := (w.extractLsb' 0 4).toNat
/-- Custom majors: FN in [10:9] and IMM9 in [8:0] (R139). -/
def custFn (w : Word) : Nat := (w.extractLsb' 9 2).toNat
def custImm (w : Word) : BitVec 9 := w.extractLsb' 0 9

end Sys2Proof.Machine
end

