-- ==== Sys2Proof/Machine/Float.lean ====
section
/-!
DEFINITION. Exact arithmetic on the element formats and one rounding at the end (R131 to R138, R168, R171, R172): IEEE
754-2019 binary64, binary32 and binary16, BF16, and the FP8 and MX element formats. Flags are in the bit order of FFLAGS
(R108); bit 5 stands for VSTAT.SAT (R151).
-/

namespace Sys2Proof.Machine

def flNX : Nat := 1
def flUF : Nat := 2
def flOF : Nat := 4
def flDZ : Nat := 8
def flNV : Nat := 16
def flSAT : Nat := 32

/-- A rounding: the codes of MODE.RM (R107), or stochastic with 16 random bits (R172). -/
inductive Rounding where
  | near | zero | down | up
  | stochastic (u : Nat)
  deriving DecidableEq, Repr

/-- The rounding that a two-bit RM code names (R107). -/
def Rounding.ofCode (n : Nat) : Rounding :=
  match n % 4 with
  | 0 => .near | 1 => .zero | 2 => .down | _ => .up

/-- How a format spends its largest exponent field. -/
inductive Specials where
  /-- Infinities and NaNs. -/
  | ieee
  /-- One NaN code in either sign, no infinity (E4M3). -/
  | nanOnly
  /-- Finite values only. -/
  | finite
  deriving DecidableEq, Repr

/-- An element format (R168). `saturates` marks those whose overflow gives the largest finite value (R171, R174). -/
structure FFmt where
  width : Nat
  eb : Nat
  mb : Nat
  bias : Nat
  specials : Specials := .ieee
  saturates : Bool := false
  deriving DecidableEq, Repr

def fp64 : FFmt := { width := 64, eb := 11, mb := 52, bias := 1023 }
def fp32 : FFmt := { width := 32, eb := 8, mb := 23, bias := 127 }
def fp16 : FFmt := { width := 16, eb := 5, mb := 10, bias := 15 }
def bf16 : FFmt := { width := 16, eb := 8, mb := 7, bias := 127 }
def e4m3 : FFmt := { width := 8, eb := 4, mb := 3, bias := 7, specials := .nanOnly, saturates := true }
def e5m2 : FFmt := { width := 8, eb := 5, mb := 2, bias := 15, saturates := true }
def e3m2 : FFmt := { width := 6, eb := 3, mb := 2, bias := 3, specials := .finite, saturates := true }
def e2m3 : FFmt := { width := 6, eb := 2, mb := 3, bias := 1, specials := .finite, saturates := true }
def e2m1 : FFmt := { width := 4, eb := 2, mb := 1, bias := 1, specials := .finite, saturates := true }

/-- Does FTZ apply to the format (R132, R145, R158, R171)? -/
def FFmt.flushes (f : FFmt) : Bool := decide (f.width ≥ 16)

/-- A value: (−1)^neg · m · 2^e when finite. -/
inductive Val where
  | nan (signalling : Bool)
  | inf (neg : Bool)
  | fin (neg : Bool) (m : Nat) (e : Int)
  deriving DecidableEq, Repr

/-- The value of a bit pattern. Only the IEEE formats of 16 bits and more have signalling NaNs (R183). -/
def FFmt.value (f : FFmt) (b : Nat) : Val :=
  let neg := bitOf b (f.width - 1)
  let e := bitsOf b f.mb f.eb
  let m := bitsOf b 0 f.mb
  let top := decide (e = 2 ^ f.eb - 1)
  if f.specials = .ieee ∧ top then
    if m = 0 then .inf neg else .nan (f.flushes && !bitOf m (f.mb - 1))
  else if f.specials = .nanOnly ∧ top ∧ m = 2 ^ f.mb - 1 then .nan false
  else if e = 0 then .fin neg m (1 - (f.bias : Int) - f.mb)
  else .fin neg (m + 2 ^ f.mb) ((e : Int) - f.bias - f.mb)

/-- Is the bit pattern a non-zero subnormal? -/
def FFmt.isSubnormal (f : FFmt) (b : Nat) : Bool := bitsOf b f.mb f.eb == 0 && bitsOf b 0 f.mb != 0

/-- An operand under FTZ (R132): a subnormal reads as a zero of the same sign. -/
def FFmt.read (f : FFmt) (ftz : Bool) (b : Nat) : Val :=
  if ftz && f.flushes && f.isSubnormal b then .fin (bitOf b (f.width - 1)) 0 0 else f.value b

/-- The bits of a sign, exponent field and fraction. -/
def FFmt.pack (f : FFmt) (neg : Bool) (code : Nat) : Nat := (if neg then 2 ^ (f.width - 1) else 0) + code

/-- The canonical quiet NaN (R133, R168); a format without NaN has none and none is asked for. -/
def FFmt.canonNan (f : FFmt) : Nat :=
  match f.specials with
  | .ieee => (2 ^ f.eb - 1) * 2 ^ f.mb + 2 ^ (f.mb - 1)
  | _ => 2 ^ (f.width - 1) - 1

/-- The largest finite code, without sign. -/
def FFmt.maxCode (f : FFmt) : Nat :=
  match f.specials with
  | .ieee => (2 ^ f.eb - 1) * 2 ^ f.mb - 1
  | .nanOnly => 2 ^ (f.width - 1) - 2
  | .finite => 2 ^ (f.width - 1) - 1

def FFmt.infCode (f : FFmt) : Nat := (2 ^ f.eb - 1) * 2 ^ f.mb

/-- Is a value a NaN? -/
def Val.isNan : Val → Bool
  | .nan _ => true
  | _ => false
def Val.signals : Val → Bool
  | .nan b => b
  | _ => false
def Val.isZero : Val → Bool
  | .fin _ 0 _ => true
  | _ => false
def Val.sign : Val → Bool
  | .nan _ => false
  | .inf n => n
  | .fin n _ _ => n
def Val.neg : Val → Val
  | .nan b => .nan b
  | .inf n => .inf !n
  | .fin n m e => .fin (!n) m e
def Val.abs : Val → Val
  | .nan b => .nan b
  | .inf _ => .inf false
  | .fin _ m e => .fin false m e

/-- The position of the highest bit of a number, plus one. -/
def bitLen (m : Nat) : Nat := if m = 0 then 0 else Nat.log2 m + 1

/-- Round `m / 2^sh`, below which a further positive part may lie, to an integer: the result and whether it is inexact.
A `sticky` part asks for `sh` of at least 1. -/
def roundShift (r : Rounding) (neg : Bool) (m sh : Nat) (sticky : Bool) : Nat × Bool :=
  let q := m / 2 ^ sh
  let rem := m % 2 ^ sh
  let inexact := rem != 0 || sticky
  let up := match r with
    | .near => decide (2 * rem > 2 ^ sh) || (decide (2 * rem = 2 ^ sh) && (sticky || q % 2 == 1))
    | .zero => false
    | .down => neg && inexact
    | .up => !neg && inexact
    | .stochastic u => decide (u < 65536 * rem / 2 ^ sh)
  (if up then q + 1 else q, inexact)

/-- Round `m · 2^e` to a multiple of `2^q`. -/
def roundTo (r : Rounding) (neg : Bool) (m : Nat) (e q : Int) (sticky : Bool) : Nat × Bool :=
  if q ≤ e then (m * 2 ^ (e - q).toNat, sticky) else roundShift r neg m (q - e).toNat sticky

/-- A result: its bits and the flags it raises. -/
structure FRes where
  bits : Nat := 0
  flags : Nat := 0
  deriving DecidableEq, Repr

/-- Overflow of (−1)^neg · m · 2^e (R131, R171, R183). Stochastic rounding gives one of the two neighbours of R172; with an
infinity above, its F is not stated and which one it gives is a free choice. -/
def FFmt.overflow (f : FFmt) (r : Rounding) (neg : Bool) (m : Nat) (e : Int) : FRes :=
  if f.saturates then { bits := f.pack neg f.maxCode, flags := flOF + flNX + flSAT }
  else
    let toInf := match r with
      | .near => true | .zero => false | .down => neg | .up => !neg | .stochastic u => Config.srInfinite u m e
    { bits := f.pack neg (if toInf then f.infCode else f.maxCode), flags := flOF + flNX }

/-- Round the exact value (−1)^neg · m · 2^e (plus a part below its last bit when `sticky`) once into the format. -/
def FFmt.round (f : FFmt) (r : Rounding) (ftz neg : Bool) (m : Nat) (e : Int) (sticky : Bool) : FRes :=
  if m = 0 ∧ !sticky then { bits := f.pack neg 0 }
  else
    let free : Int := e + bitLen m - (f.mb + 1)
    let low : Int := 1 - (f.bias : Int) - f.mb
    let q := max free low
    let u := roundTo r neg m e free sticky
    let tiny := decide (free + (bitLen u.1 : Int) - 1 < 1 - (f.bias : Int))
    let x := roundTo r neg m e q sticky
    let trunc := (roundTo .zero neg m e q sticky).1
    let code := fun (t : Nat) =>
      if t = 2 ^ (f.mb + 1) then ((q + 1 + f.mb + f.bias).toNat) * 2 ^ f.mb
      else if t ≥ 2 ^ f.mb then ((q + f.mb + f.bias).toNat) * 2 ^ f.mb + (t - 2 ^ f.mb)
      else t
    let tooBig := match r with
      | .stochastic _ => decide (code trunc > f.maxCode) || (decide (code trunc = f.maxCode) && x.2)
      | _ => decide (code x.1 > f.maxCode)
    if tooBig then f.overflow r neg m e
    else if ftz && f.flushes && decide (x.1 < 2 ^ f.mb) && x.1 != 0 then { bits := f.pack neg 0, flags := flUF + flNX }
    else { bits := f.pack neg (code x.1), flags := (if x.2 then flNX else 0) + (if x.2 && tiny then flUF else 0) }

/-- Round a value into the format, with the flags already raised. An infinity that the format lacks saturates (R171). -/
def FFmt.put (f : FFmt) (r : Rounding) (ftz : Bool) (v : Val) (flags : Nat) : FRes :=
  match v with
  | .nan _ => { bits := f.canonNan, flags := flags }
  | .inf n =>
    if f.specials = .ieee then { bits := f.pack n f.infCode, flags := flags }
    else { bits := f.pack n f.maxCode, flags := flags ||| flSAT }
  | .fin n m e =>
    let x := f.round r ftz n m e false
    { x with flags := x.flags ||| flags }

/-- NV for a signalling operand (R133). -/
def signalFlag (vs : List Val) : Nat := if vs.any Val.signals then flNV else 0

/-- The exact product, with the flags it raises. -/
def Val.mul (a b : Val) : Val × Nat :=
  match a, b with
  | .nan _, _ => (.nan false, signalFlag [a, b])
  | _, .nan _ => (.nan false, signalFlag [a, b])
  | .inf x, .inf y => (.inf (x != y), 0)
  | .inf x, .fin y m _ => if m = 0 then (.nan false, flNV) else (.inf (x != y), 0)
  | .fin x m _, .inf y => if m = 0 then (.nan false, flNV) else (.inf (x != y), 0)
  | .fin x m e, .fin y n d => (.fin (x != y) (m * n) (e + d), 0)

/-- The signed mantissa of a finite value at exponent `q`, which is at most its own. -/
def mantAt (neg : Bool) (m : Nat) (e q : Int) : Int :=
  let x : Int := (m * 2 ^ (e - q).toNat : Nat)
  if neg then -x else x

/-- The exact sum, with the flags it raises; an exact zero takes its sign as IEEE 754 gives it. -/
def Val.add (r : Rounding) (a b : Val) : Val × Nat :=
  match a, b with
  | .nan _, _ => (.nan false, signalFlag [a, b])
  | _, .nan _ => (.nan false, signalFlag [a, b])
  | .inf x, .inf y => if x = y then (.inf x, 0) else (.nan false, flNV)
  | .inf x, .fin _ _ _ => (.inf x, 0)
  | .fin _ _ _, .inf y => (.inf y, 0)
  | .fin x m e, .fin y n d =>
    let q := min e d
    let s := mantAt x m e q + mantAt y n d q
    if s = 0 then (.fin (if m = 0 ∧ n = 0 ∧ x = y then x else decide (r = .down)) 0 0, 0)
    else (.fin (decide (s < 0)) s.natAbs q, 0)

/-- a × b + c, exactly (R135). A NaN that comes from 0 × ∞ raises NV even when c is a NaN. -/
def Val.fma (r : Rounding) (a b c : Val) : Val × Nat :=
  let p := a.mul b
  let s := p.1.add r c
  (s.1, p.2 ||| s.2)

/-- The integer square root, bit by bit from bit `n − 1` down. -/
def isqrtFrom (m : Nat) : Nat → Nat → Nat
  | 0, acc => acc
  | n + 1, acc => if (acc + 2 ^ n) * (acc + 2 ^ n) ≤ m then isqrtFrom m n (acc + 2 ^ n) else isqrtFrom m n acc

def isqrt (m : Nat) : Nat := isqrtFrom m (bitLen m / 2 + 1) 0

/-- Division (R134). -/
def FFmt.div (f : FFmt) (r : Rounding) (ftz : Bool) (a b : Val) : FRes :=
  match a, b with
  | .nan _, _ => f.put r ftz (.nan false) (signalFlag [a, b])
  | _, .nan _ => f.put r ftz (.nan false) (signalFlag [a, b])
  | .inf _, .inf _ => f.put r ftz (.nan false) flNV
  | .inf x, .fin y _ _ => f.put r ftz (.inf (x != y)) 0
  | .fin x _ _, .inf y => f.put r ftz (.fin (x != y) 0 0) 0
  | .fin x m e, .fin y n d =>
    if n = 0 then
      if m = 0 then f.put r ftz (.nan false) flNV else f.put r ftz (.inf (x != y)) flDZ
    else if m = 0 then f.put r ftz (.fin (x != y) 0 0) 0
    else
      let k := f.mb + 24 + bitLen n
      f.round r ftz (x != y) (m * 2 ^ k / n) (e - d - k) (m * 2 ^ k % n != 0)

/-- Square root (R134). -/
def FFmt.sqrt (f : FFmt) (r : Rounding) (ftz : Bool) (a : Val) : FRes :=
  match a with
  | .nan s => f.put r ftz (.nan false) (if s then flNV else 0)
  | .inf true => f.put r ftz (.nan false) flNV
  | .inf false => f.put r ftz (.inf false) 0
  | .fin neg m e =>
    if m = 0 then f.put r ftz (.fin neg 0 0) 0
    else if neg then f.put r ftz (.nan false) flNV
    else
      let k0 := 2 * (f.mb + 24)
      let k := if (e - k0) % 2 = 0 then k0 else k0 + 1
      let x := m * 2 ^ k
      let s := isqrt x
      f.round r ftz false s ((e - k) / 2) (s * s != x)

/-- Does the first value lie below the second, −0 below +0? Neither is a NaN. -/
def Val.below (a b : Val) : Bool :=
  match a, b with
  | .inf x, .inf y => x && !y
  | .inf x, _ => x
  | _, .inf y => !y
  | .fin x m e, .fin y n d =>
    let q := min e d
    let s := mantAt x m e q
    let t := mantAt y n d q
    decide (s < t) || (decide (s = 0) && decide (t = 0) && x && !y)
  | _, _ => false

/-- Are the values equal, −0 and +0 being equal? Neither is a NaN. -/
def Val.same (a b : Val) : Bool :=
  match a, b with
  | .inf x, .inf y => x == y
  | .fin x m e, .fin y n d => mantAt x m e (min e d) == mantAt y n d (min e d)
  | _, _ => false

/-- Minimum (`max` = false) or maximum (R134): `num` selects minimumNumber and maximumNumber. -/
def Val.extremum (max num : Bool) (a b : Val) : Val × Nat :=
  let fl := signalFlag [a, b]
  let pick := if a.below b then (if max then b else a) else if b.below a then (if max then a else b) else a
  match a.isNan, b.isNan with
  | true, true => (.nan false, fl)
  | true, false => (if num then b else .nan false, fl)
  | false, true => (if num then a else .nan false, fl)
  | false, false => (pick, fl)

/-- An ordered comparison (R136): 0 equal, 1 less, 2 less or equal; NaN operands give false. -/
def Val.compare (op : Nat) (a b : Val) : Bool × Nat :=
  if a.isNan || b.isNan then (false, if op = 0 then signalFlag [a, b] else flNV)
  else
    let lt := a.below b && !a.same b
    (if op = 0 then a.same b else if op = 1 then lt else lt || a.same b, 0)

/-- Conversion to an `n`-bit integer, signed or unsigned (R137). -/
def toInteger (n : Nat) (sgn : Bool) (r : Rounding) (v : Val) : Int × Nat :=
  let hi : Int := if sgn then 2 ^ (n - 1) - 1 else 2 ^ n - 1
  let lo : Int := if sgn then -(2 ^ (n - 1)) else 0
  match v with
  | .nan _ => (0, flNV)
  | .inf neg => (if neg then lo else hi, flNV)
  | .fin neg m e =>
    let x := roundTo r neg m e 0 false
    let i : Int := if neg then -(x.1 : Int) else (x.1 : Int)
    if i > hi then (hi, flNV) else if i < lo then (lo, flNV) else (i, if x.2 then flNX else 0)

/-- An integer as a value. -/
def Val.ofInt (i : Int) : Val := .fin (decide (i < 0)) i.natAbs 0

end Sys2Proof.Machine
end

