-- ==== Sys2Proof/Machine/Exact.lean ====
section
/-!
DEFINITION. Exact sums and their one final rounding (R307, R308, and VFREDSUM under R161).
-/

namespace Sys2Proof.Machine

/-- A finite value in units of 2^−1074. -/
def Val.units (neg : Bool) (m : Nat) (e : Int) : Int := mantAt neg m e (-1074)

/-- Take a value into a sum. -/
def SumState.add (t : SumState) (v : Val) : SumState :=
  let t := { t with any := true }
  match v with
  | .nan b => { t with nan := true, snan := t.snan || b, notNeg := true, notPos := true }
  | .inf n => { t with pinf := t.pinf || !n, ninf := t.ninf || n, notNeg := true, notPos := true }
  | .fin n m e =>
    { t with x := t.x + Val.units n m e, notNeg := t.notNeg || m != 0 || !n, notPos := t.notPos || m != 0 || n }

/-- Merge two partial states (R307). -/
def SumState.merge (a b : SumState) : SumState :=
  { x := a.x + b.x, nan := a.nan || b.nan, snan := a.snan || b.snan, pinf := a.pinf || b.pinf, ninf := a.ninf || b.ninf,
    notNeg := a.notNeg || b.notNeg, notPos := a.notPos || b.notPos, any := a.any || b.any }

/-- The float result of a sum (R308). -/
def SumState.result (t : SumState) (f : FFmt) (r : Rounding) : FRes :=
  if t.nan || (t.pinf && t.ninf) then
    { bits := f.canonNan, flags := if t.snan || (t.pinf && t.ninf) then flNV else 0 }
  else if t.pinf then { bits := f.pack false f.infCode }
  else if t.ninf then { bits := f.pack true f.infCode }
  else if t.x ≠ 0 then f.round r false (decide (t.x < 0)) t.x.natAbs (-1074) false
  else if t.any && !t.notNeg then { bits := f.pack true 0 }
  else { bits := f.pack (decide (r = .down) && t.any && t.notPos) 0 }

/-- The integer result of a sum, saturated to `n` bits (R308). X counts units of 2^−1074, so an integer enters as a
multiple of 2^1074. -/
def SumState.intResult (t : SumState) (n : Nat) : FRes :=
  let i := t.x / (2 ^ 1074 : Int)
  let hi : Int := 2 ^ (n - 1) - 1
  let lo : Int := -(2 ^ (n - 1))
  let y := if i > hi then hi else if i < lo then lo else i
  { bits := (BitVec.ofInt n y).toNat, flags := if y = i then 0 else flOF }

end Sys2Proof.Machine
end

