-- ==== Sys2Proof/Machine/LineCode.lean ====
section
/-!
DEFINITION. The line check code (R370, R371): a Reed–Solomon code over GF(2^16) with four check symbols.
-/

namespace Sys2Proof.Machine

/-- Multiply by α = x in GF(2^16) with field polynomial x^16 + x^12 + x^3 + x + 1 (R370). -/
def gfX (a : BitVec 16) : BitVec 16 := if a.getLsbD 15 then (a <<< 1) ^^^ 0x100B#16 else a <<< 1

/-- Sum over the low `n` bits of `b`, highest first (used by `gfMul`). -/
def gfMulFrom (a b : BitVec 16) : Nat → BitVec 16 → BitVec 16
  | 0, acc => acc
  | n + 1, acc => gfMulFrom a b n (gfX acc ^^^ (if b.getLsbD n then a else 0#16))

/-- The product in GF(2^16). -/
def gfMul (a b : BitVec 16) : BitVec 16 := gfMulFrom a b 16 0#16

/-- α to the power `n`. -/
def gfPow : Nat → BitVec 16
  | 0 => 1#16
  | n + 1 => gfX (gfPow n)

/-- The coefficients of g(x) = (x − 1)(x − α)(x − α²)(x − α³) below x⁴, lowest first (R370). -/
def genPoly : List (BitVec 16) :=
  [0, 1, 2, 3].foldl
    (fun g i => List.zipWith (· ^^^ ·) (g.map (gfMul (gfPow i)) ++ [0#16]) (0#16 :: g)) [1#16]

/-- One step of the division by g(x): the remainder after taking in the next higher data symbol. -/
def checkStep (r : List (BitVec 16)) (d : BitVec 16) : List (BitVec 16) :=
  let fb := d ^^^ (r.getLastD 0#16)
  List.zipWith (· ^^^ ·) (0#16 :: r.dropLast) ((genPoly.take 4).map (gfMul fb))

/-- Data symbol `k` of a line (R370). -/
def dataSym (d : BitVec 512) (k : Nat) : BitVec 16 := d.extractLsb' (16 * k) 16

/-- The four check symbols of a line, lowest first (R370). -/
def checkSyms (d : BitVec 512) : List (BitVec 16) :=
  (List.range 32).reverse.foldl (fun r k => checkStep r (dataSym d k)) [0#16, 0#16, 0#16, 0#16]

/-- The 64 check bits of a line: check symbol p_j in check bytes [2j + 1 : 2j]. -/
def checkBits (d : BitVec 512) : BitVec 64 :=
  (checkSyms d).reverse.foldl (fun acc p => (acc <<< 16) ||| p.setWidth 64) 0#64

/-- The stored symbols, position 0 first: check symbol j at j, data symbol k at k + 4. -/
def wordSyms (d : BitVec 512) (c : BitVec 64) : List (BitVec 16) :=
  (List.range 4).map (fun j => c.extractLsb' (16 * j) 16) ++ (List.range 32).map (dataSym d)

/-- The syndrome S_i = c(α^i) of stored symbols (R371). -/
def syndrome (w : List (BitVec 16)) (i : Nat) : BitVec 16 :=
  w.foldr (fun sym acc => gfMul acc (gfPow i) ^^^ sym) 0#16

/-- What the syndromes say of a line (R371). -/
inductive LineKind where
  | clean
  | poisoned
  /-- Symbol `e` is corrected by XOR with `s0`. -/
  | corrected (e : Nat) (s0 : BitVec 16)
  | uncorrectable
  deriving DecidableEq, Repr

/-- The poison syndromes: check symbols all ones and data zero (R371). -/
def poisonSyndrome (i : Nat) : BitVec 16 :=
  syndrome (List.replicate 4 0xFFFF#16 ++ List.replicate 32 0#16) i

/-- Classify a stored line by the first row of R371 that applies. -/
def classify (d : BitVec 512) (c : BitVec 64) : LineKind :=
  let w := wordSyms d c
  let s0 := syndrome w 0
  let s1 := syndrome w 1
  let s2 := syndrome w 2
  let s3 := syndrome w 3
  if s0 = 0#16 ∧ s1 = 0#16 ∧ s2 = 0#16 ∧ s3 = 0#16 then .clean
  else if s0 = poisonSyndrome 0 ∧ s1 = poisonSyndrome 1 ∧ s2 = poisonSyndrome 2 ∧ s3 = poisonSyndrome 3 then .poisoned
  else if s0 ≠ 0#16 ∧ gfMul s0 s2 = gfMul s1 s1 ∧ gfMul s1 s3 = gfMul s2 s2 then
    match (List.range 36).find? (fun e => gfMul s0 (gfPow e) == s1) with
    | some e => .corrected e s0
    | none => .uncorrectable
  else .uncorrectable

/-- The line with data symbol `e − 4` changed by `x`; a check symbol leaves the data alone. -/
def fixSymbol (d : BitVec 512) (e : Nat) (x : BitVec 16) : BitVec 512 :=
  if e < 4 then d else d ^^^ (x.setWidth 512 <<< (16 * (e - 4)))

end Sys2Proof.Machine
end

