-- ==== Sys2Proof/Machine/Memory.lean ====
section
/-!
DEFINITION. Device-local memory (R352 to R354), channel controllers and their write-combining buffers (R367 to R372),
trays and kernel stores (R373).
-/

namespace Sys2Proof.Machine

/-- How an access fails: check 2 or 3 of R118, or a data error. -/
inductive MemErr where
  | segment | window | poison | bus
  deriving DecidableEq, Repr

/-- Where a device-local address lies (R352): granule and offset. -/
inductive Region where
  | dram (g o : Nat)
  | tray (g o : Nat)
  | ks (g o : Nat)
  | control (o : Nat)
  | unmapped
  deriving DecidableEq, Repr

/-- The region of a device-local address (R352). -/
def regionOf (a : Nat) : Region :=
  if a < 0x10000000000 then .dram (a / 2 ^ 32) (a % 2 ^ 32)
  else if 0x80000000000 ≤ a ∧ a < 0x80020000000 then .tray ((a - 0x80000000000) / 2 ^ 21) ((a - 0x80000000000) % 2 ^ 21)
  else if 0x81000000000 ≤ a ∧ a < 0x81004000000 then .ks ((a - 0x81000000000) / 2 ^ 18) ((a - 0x81000000000) % 2 ^ 18)
  else if 0xF0000000000 ≤ a ∧ a < 0xF0008000000 then .control (a - 0xF0000000000)
  else .unmapped

/-- Base addresses of a granule's pieces (R352). -/
def dramBase (g : Nat) : Nat := g * 2 ^ 32
def trayBase (g : Nat) : Nat := 0x80000000000 + g * 2 ^ 21
def ksBase (g : Nat) : Nat := 0x81000000000 + g * 2 ^ 18

/-- Does the byte exist and have backing (R353)? -/
def State.backed (s : State) (a : Nat) : Bool :=
  match regionOf a with
  | .dram g o => !s.granExcluded g && !(s.chansOf g).isEmpty && (!s.oneChan g || decide (o < 2 ^ 31))
  | .tray g _ => !s.granExcluded g
  | .ks g _ => !s.granExcluded g
  | _ => false

/-- The channel of a DRAM byte (R354), as 32 s + n. -/
def State.chanOf (s : State) (g o : Nat) : Nat :=
  if s.oneChan g then (s.chansOf g).headD (2 * g) else 2 * g + (if bitOf o 12 then 1 else 0)

/-- The pseudo-channel of a DRAM byte and its address in it (R354). -/
def State.pseudoOf (s : State) (g o : Nat) : Nat × Nat :=
  (bitsOf o 8 1,
    if s.oneChan g then bitsOf o 9 22 * 2 ^ 8 + bitsOf o 0 8
    else bitsOf o 13 19 * 2 ^ 11 + bitsOf o 9 3 * 2 ^ 8 + bitsOf o 0 8)

/-- What a memory byte holds: an address never written reads as zero. -/
def State.byteAt (s : State) (a : Nat) : Byte := NatMap.get 0#8 s.mem.bytes a

/-- The bytes `[a, a + n)` as they stand in memory, without checks. -/
def State.rawBytes (s : State) (a n : Nat) : List Byte := (List.range n).map (fun i => s.byteAt (a + i))

/-- Put bytes into memory, without checks. -/
def putBytes (m : List Host.Cell) : Nat → List Byte → List Host.Cell
  | _, [] => m
  | a, b :: bs => putBytes (NatMap.set 0#8 m a b) (a + 1) bs

def State.rawWrite (s : State) (a : Nat) (bs : List Byte) : State :=
  { s with mem := { s.mem with bytes := putBytes s.mem.bytes a bs } }

/-- Zero every byte in `[lo, hi)`, with valid check data (R97). -/
def State.zeroRange (s : State) (lo hi : Nat) : State :=
  let out := fun k : Nat => decide (k < lo) || decide (hi ≤ k)
  { s with mem := { s.mem with
      bytes := NatMap.filterKeys out s.mem.bytes, poisoned := NatMap.filterKeys out s.mem.poisoned,
      flips := NatMap.filterKeys out s.mem.flips } }

def State.isPoisoned (s : State) (u : Nat) : Bool := NatMap.get false s.mem.poisoned u
def State.flipsOf (s : State) (u : Nat) : Nat := NatMap.get 0 s.mem.flips u

/-- Mark or clear the poison of a line or word, its stored code word being otherwise sound. -/
def State.setUnit (s : State) (u : Nat) (poison : Bool) : State :=
  { s with mem := { s.mem with poisoned := NatMap.set false s.mem.poisoned u poison,
                               flips := NatMap.set 0 s.mem.flips u 0 } }

/-- The write-combining buffer of a channel, oldest entry first (R367). -/
def State.wcOf (s : State) (ch : Nat) : List WcEntry := NatMap.get [] s.mem.wc ch
def State.setWc (s : State) (ch : Nat) (l : List WcEntry) : State :=
  { s with mem := { s.mem with wc := NatMap.set [] s.mem.wc ch l } }

/-- The bytes of a line held as a number. -/
def lineBytes (d : Line) : List Byte := natLE 64 d.toNat
/-- A line from its bytes. -/
def bytesLine (bs : List Byte) : Line := BitVec.ofNat 512 (leNat bs)

/-- The 512-bit mask of a 64-bit byte mask. -/
def byteMask (v : BitVec 64) : Line :=
  (List.range 64).foldl (fun acc i => if v.getLsbD i then acc ||| (0xFF#512 <<< (8 * i)) else acc) 0#512

/-- The bytes of `new` where the mask is set, over `old`. -/
def mergeLine (old new : Line) (v : BitVec 64) : Line := (old &&& ~~~ byteMask v) ||| (new &&& byteMask v)

/-- The code of a requester in CHANNEL UE's DETAIL (R528). -/
def Requester.code : Requester → Nat
  | .core => 0 | .engine => 1 | .host => 2 | .remote => 3 | .fill => 4 | .flush => 5

/-- A stored DRAM line as the controller reads it (R370): data and check bits, with the poison inversion of R372 and
the bits that have flipped. -/
def State.storedLine (s : State) (u : Nat) : Line × BitVec 64 :=
  let d := bytesLine (s.rawBytes u 64)
  let f := s.flipsOf u
  let c := checkBits d ^^^ (if s.isPoisoned u then 0xFFFFFFFFFFFFFFFF#64 else 0#64)
  (d ^^^ BitVec.ofNat 512 f, c ^^^ BitVec.ofNat 64 (f / 2 ^ 512))

/-- Record an uncorrectable or poisoned read of line `u` in channel `ch` (R371, R379, R532). -/
def State.lineUE (s : State) (ch u : Nat) (written : Bool) (req : Requester) : State :=
  let t := ch / 32
  let s := s.incReg (stkKey t (0x44 + 16 * (ch % 32)))
  let s := if (s.stack t).ueValid then s else s.modStack t (fun x => { x with ueAddr := u, ueValid := true })
  (s.stkEvent t 5).logErr
    { cls := 0, source := 1, code := 2, part := s.ownerByte (ch / 2), unit := ch,
      detail := (if written then 1 else 0) + 256 * req.code, addr := some (u, false) }

/-- Read the DRAM line at `u` of channel `ch` (R371, R372): a corrected line is written back and counted. -/
def State.readDramLine (s : State) (ch u : Nat) (req : Requester) : Except MemErr Line × State :=
  let w := s.storedLine u
  match classify w.1 w.2 with
  | .clean => (.ok w.1, s)
  | .corrected e x =>
    let d := fixSymbol w.1 e x
    let t := ch / 32
    let s := (s.rawWrite u (lineBytes d)).setUnit u false
    let s := (s.incReg (stkKey t (0x40 + 16 * (ch % 32)))).stkEvent t 4
    (.ok d, s.logErr { cls := 1, source := 1, code := 1, part := s.ownerByte (ch / 2), unit := ch, detail := e,
                       addr := some (u, false) })
  | .poisoned => (.error .poison, s.lineUE ch u true req)
  | .uncorrectable => (.error .poison, s.lineUE ch u false req)

/-- A late error reaches core `core` (R229); a core that runs no kernel takes none (R540). -/
def State.addLate (s : State) (core sub addr : Nat) : State :=
  if (NatMap.get {} s.cores core).run ≠ .running then s
  else { s with late := NatMap.upd [] s.late core (fun l => l ++ [(sub, addr)]) }

/-- The read-modify-write of a write-combining entry (R369): read and correct, merge, write the whole line; an
uncorrectable or poisoned read leaves the merged line poisoned and is reported. LATEBUS subcode POISON is 1 (R222). -/
def State.rmw (s : State) (ch : Nat) (e : WcEntry) : State :=
  let t := ch / 32
  let k := stkKey t (0x48 + 16 * (ch % 32))
  let s := s.setReg k (s.reg k + 1#32)
  let written := s.isPoisoned e.line && decide (s.flipsOf e.line = 0)
  match s.readDramLine ch e.line .flush with
  | (.ok d, s) => (s.rawWrite e.line (lineBytes (mergeLine d e.data e.valid))).setUnit e.line false
  | (.error _, s) =>
    let old := (s.storedLine e.line).1
    let s := (s.rawWrite e.line (lineBytes (mergeLine old e.data e.valid))).setUnit e.line true
    let s := (s.stkEvent t 6).logErr
      { cls := 0, source := 1, code := 3, part := s.ownerByte (ch / 2), unit := ch,
        detail := (if written then 1 else 0) + 256 * e.writer.code, addr := some (e.line, false) }
    match e.writer with
    | .core => s.addLate e.writerCore 1 e.line
    | _ => s

/-- Flush one entry (R368): all bytes valid is a full-line write. -/
def State.flushEntry (s : State) (ch : Nat) (e : WcEntry) : State :=
  if e.valid = 0xFFFFFFFFFFFFFFFF#64 then (s.rawWrite e.line (lineBytes e.data)).setUnit e.line false
  else s.rmw ch e

/-- Flush the entries of a channel that pass the test, oldest first. -/
def State.flushWhere (s : State) (ch : Nat) (p : WcEntry → Bool) : State :=
  let l := s.wcOf ch
  (l.filter p).foldl (fun s e => s.flushEntry ch e) (s.setWc ch (l.filter (fun e => !p e)))

/-- Flush every entry of a channel. -/
def State.flushChan (s : State) (ch : Nat) : State := s.flushWhere ch (fun _ => true)

/-- A full-line write (R367): it supersedes any entry of the line and clears its poison (R372). -/
def State.fullWrite (s : State) (ch u : Nat) (d : Line) : State :=
  let s := s.setWc ch ((s.wcOf ch).filter (fun e => e.line != u))
  (s.rawWrite u (lineBytes d)).setUnit u false

/-- A partial write merges into the line's entry, allocating one and, when all 16 are in use, flushing the oldest
first (R367, R368). An entry whose 64 bytes are all valid is written at once. -/
def State.partialWrite (s : State) (ch u : Nat) (d : Line) (v : BitVec 64) (w : Requester) (core : Nat) : State :=
  let l := s.wcOf ch
  let s := match l.find? (fun e => e.line == u) with
    | some _ =>
      s.setWc ch (updFirst (fun e => e.line == u)
        (fun e => { e with valid := e.valid ||| v, data := mergeLine e.data d v, writer := w, writerCore := core }) l)
    | none =>
      let s := if l.length ≥ 16 then
          match l with
          | [] => s
          | e :: rest => (s.setWc ch rest).flushEntry ch e
        else s
      s.setWc ch (s.wcOf ch ++ [({ line := u, valid := v, data := mergeLine 0#512 d v, alloc := s.now, writer := w, writerCore := core } : WcEntry)])
  s.flushWhere ch (fun e => e.line == u && e.valid == 0xFFFFFFFFFFFFFFFF#64)

/-- Split `n` bytes from address `a` at multiples of `u`; the fuel is at least the number of pieces. -/
def chunksFrom (u : Nat) : Nat → Nat → Nat → List (Nat × Nat)
  | 0, _, _ => []
  | f + 1, a, n =>
    if n = 0 then []
    else
      let k := min n (u - a % u)
      (a, k) :: chunksFrom u f (a + k) (n - k)

def chunks (u a n : Nat) : List (Nat × Nat) := chunksFrom u (n / u + 2) a n

/-- One error record of an SRAM word (R373): DETAIL 0 tray, 1 kernel store. -/
def State.sramErr (s : State) (g kind code u : Nat) : State :=
  s.logErr { cls := if code = 1 then 1 else 0, source := 2, code := code, part := s.ownerByte g, unit := g,
             detail := kind, addr := some (u, false) }

/-- Read the aligned 8-byte word at `u` of an SRAM (R373): one flipped bit is corrected and written back. -/
def State.readWord (s : State) (g kind u : Nat) : Except MemErr (List Byte) × State :=
  let f := s.flipsOf u
  if s.isPoisoned u then (.error .poison, s.sramErr g kind 2 u)
  else if f = 0 then (.ok (s.rawBytes u 8), s)
  else if popcount 72 f = 1 then (.ok (s.rawBytes u 8), (s.setUnit u false).sramErr g kind 1 u)
  else (.error .poison, s.sramErr g kind 2 u)

/-- Write `bs` at `a` within the aligned word at `u` of an SRAM (R373). -/
def State.writeWord (s : State) (g kind u a : Nat) (bs : List Byte) : State :=
  if bs.length = 8 then (s.rawWrite a bs).setUnit u false
  else
    let f := s.flipsOf u
    if s.isPoisoned u || decide (popcount 72 f ≥ 2) then ((s.rawWrite a bs).setUnit u true).sramErr g kind 2 u
    else if f = 0 then s.rawWrite a bs
    else ((s.rawWrite a bs).setUnit u false).sramErr g kind 1 u

/-- Is the stack of granule `g` halted (R377)? -/
def State.haltedAt (s : State) (g : Nat) : Bool := (s.stack (g / 16)).halted

/-- Read the bytes of one aligned 64-byte line of DRAM, its write-combining entry over it (R367), as bytes. -/
def State.readLine (s : State) (g u : Nat) (req : Requester) : Except MemErr (List Byte) × State :=
  let ch := s.chanOf g (u % 2 ^ 32)
  match s.readDramLine ch u req with
  | (.ok d, s) =>
    let d := match (s.wcOf ch).find? (fun e => e.line == u) with
      | some e => mergeLine d e.data e.valid
      | none => d
    (.ok (lineBytes d), s)
  | (.error e, s) => (.error e, s)

/-- Read the words of an SRAM that hold `[a, a + n)`. -/
def State.readWords (s : State) (g kind : Nat) : List (Nat × Nat) → Except MemErr (List Byte) × State
  | [] => (.ok [], s)
  | (a, n) :: l =>
    match s.readWord g kind (a / 8 * 8) with
    | (.ok b, s) =>
      match State.readWords s g kind l with
      | (.ok r, s) => (.ok ((b.drop (a % 8)).take n ++ r), s)
      | (.error e, s) => (.error e, s)
    | (.error e, s) => (.error e, s)

/-- Read bytes that lie in one 64-byte line of device-local memory. A halted stack refuses with a bus error (R377), and
so does an address without backing (R353). -/
def State.readPiece (s : State) (a n : Nat) (req : Requester) : Except MemErr (List Byte) × State :=
  if !s.backed a then (.error .bus, s)
  else match regionOf a with
    | .dram g _ =>
      if s.haltedAt g then (.error .bus, s)
      else match s.readLine g (a / 64 * 64) req with
        | (.ok b, s) => (.ok ((b.drop (a % 64)).take n), s)
        | (.error e, s) => (.error e, s)
    | .tray g _ => s.readWords g 0 (chunks 8 a n)
    | .ks g _ => s.readWords g 1 (chunks 8 a n)
    | _ => (.error .bus, s)

/-- Write bytes that lie in one 64-byte line of device-local memory, for requester `w` (core `core`). -/
def State.writePiece (s : State) (a : Nat) (bs : List Byte) (w : Requester) (core : Nat) : Except MemErr Unit × State :=
  if !s.backed a then (.error .bus, s)
  else match regionOf a with
    | .dram g o =>
      if s.haltedAt g then (.error .bus, s)
      else
        let ch := s.chanOf g o
        let u := a / 64 * 64
        if bs.length = 64 then (.ok (), s.fullWrite ch u (bytesLine bs))
        else
          let v := ((BitVec.twoPow 64 bs.length) - 1#64) <<< (a % 64)
          (.ok (), s.partialWrite ch u (bytesLine bs <<< (8 * (a % 64))) v w core)
    | .tray g _ => (.ok (), (chunks 8 a bs.length).foldl (fun s c => s.writeWord g 0 (c.1 / 8 * 8) c.1 ((bs.drop (c.1 - a)).take c.2)) s)
    | .ks g _ => (.ok (), (chunks 8 a bs.length).foldl (fun s c => s.writeWord g 1 (c.1 / 8 * 8) c.1 ((bs.drop (c.1 - a)).take c.2)) s)
    | _ => (.error .bus, s)

/-- Read the pieces in order, stopping at the first that fails; the count is of the bytes read before it. -/
def State.readPieces (s : State) (req : Requester) : List (Nat × Nat) → Nat → Except (MemErr × Nat) (List Byte) × State
  | [], _ => (.ok [], s)
  | (a, n) :: l, done =>
    match s.readPiece a n req with
    | (.ok b, s) =>
      match State.readPieces s req l (done + n) with
      | (.ok r, s) => (.ok (b ++ r), s)
      | (.error e, s) => (.error e, s)
    | (.error e, s) => (.error (e, done), s)

/-- Read `n` bytes of device-local memory. -/
def State.readDev (s : State) (a n : Nat) (req : Requester) : Except (MemErr × Nat) (List Byte) × State :=
  s.readPieces req (chunks 64 a n) 0

/-- Write the pieces in order, stopping at the first that fails. -/
def State.writePieces (s : State) (w : Requester) (core : Nat) : List (Nat × Nat) → List Byte → Nat → Except (MemErr × Nat) Unit × State
  | [], _, _ => (.ok (), s)
  | (a, n) :: l, bs, done =>
    match s.writePiece a (bs.take n) w core with
    | (.ok _, s) => State.writePieces s w core l (bs.drop n) (done + n)
    | (.error e, s) => (.error (e, done), s)

/-- Write bytes of device-local memory. -/
def State.writeDev (s : State) (a : Nat) (bs : List Byte) (w : Requester) (core : Nat) : Except (MemErr × Nat) Unit × State :=
  s.writePieces w core (chunks 64 a bs.length) bs 0

end Sys2Proof.Machine
end

