-- ==== Sys2Proof/Machine/Translate.lean ====
section
/-!
DEFINITION. Segments and translation (R355 to R358), and the accesses engines make at partition addresses (R270).
-/

namespace Sys2Proof.Machine

/-- What an access asks of a segment's PERM (R80). -/
inductive Access where
  | read | write | ksload
  deriving DecidableEq, Repr

def Access.bit : Access → Nat
  | .read => 0 | .write => 1 | .ksload => 2

/-- Where a translated byte lies: on this device or at a device-local address of another. -/
inductive Target where
  | here (a : Nat)
  | there (dev a : Nat)
  deriving DecidableEq, Repr

/-- Does the segment hold the partition address? -/
def Seg.holds (g : Seg) (pa : Nat) : Bool := decide (g.mode ≠ 0) && decide (g.base ≤ pa) && decide (pa < g.base + g.size)

/-- The channels of a partition in the order of R357. -/
def State.chanList (s : State) (q : PartSec) : List Nat := q.granules.flatMap s.chansOf

/-- The base of granule `g`'s piece of the space a CLUSTER-LOCAL TARGET names in bits [43:32] (R356). -/
def spaceBase (space g : Nat) : Nat :=
  if space = 0x800 then trayBase g else if space = 0x810 then ksBase g else dramBase g

/-- The channel and channel address of an offset in a PARTITION-SPREAD segment with `m` channels (R357). -/
def spreadOf (m t off : Nat) : Nat × Nat :=
  let q := off / 4096
  let rho := q / m
  let h := ((rho * 0x9E3779B1) % 2 ^ 32) / 2 ^ 16
  (((q % m) + h) % m, t + rho * 4096 + off % 4096)

/-- The device-local address of channel address `a` in channel `ch` (R357). -/
def State.chanAddr (s : State) (ch a : Nat) : Nat :=
  let g := ch / 2
  if s.oneChan g then dramBase g + a
  else dramBase g + bitsOf a 12 19 * 2 ^ 13 + (ch % 2) * 2 ^ 12 + a % 2 ^ 12

/-- The target of a partition address in a segment (R356). -/
def State.segTarget (s : State) (q : PartSec) (g : Seg) (pa : Nat) : Target :=
  let off := pa - g.base
  if g.mode = 1 then
    let gs := q.granules
    let slice := g.size / gs.length
    .here (spaceBase (bitsOf g.target 32 12) ((gs.drop (off / slice)).headD 0) + g.target % 2 ^ 32 + off % slice)
  else if g.mode = 2 then
    let cs := s.chanList q
    let r := spreadOf cs.length (g.target % 2 ^ 31) off
    .here (s.chanAddr ((cs.drop r.1).headD 0) r.2)
  else
    let a := g.target + off
    if bitsOf a 44 8 = s.plate.sysInForce.deviceNum then .here (a % 2 ^ 44) else .there (bitsOf a 44 8) (a % 2 ^ 44)

/-- The segment index that holds a partition address, among those the mask enables (R355). -/
def PartSec.segOf (q : PartSec) (en pa : Nat) : Option Seg :=
  ((List.range 16).filter (fun i => bitOf en i)).findSome? (fun i =>
    match (q.segs.drop i).head? with
    | some g => if g.holds pa then some g else none
    | none => none)

/-- Translate a partition address of partition `p` (R355): the one valid segment that holds it, its PERM tested. -/
def State.translate (s : State) (p en : Nat) (acc : Access) (pa : Nat) : Except MemErr Target :=
  match s.psec p with
  | none => .error .segment
  | some q =>
    match q.segOf en pa with
    | none => .error .segment
    | some g => if bitOf g.perm acc.bit then .ok (s.segTarget q g pa) else .error .segment

/-- Read bytes at partition addresses for an engine or the host, piece by piece; a failure carries how many bytes were
read before it (R270). An engine reaches another device only through LNK commands, so a remote target is a bus error. -/
def State.readPa (s : State) (p : Nat) (acc : Access) (req : Requester) :
    List (Nat × Nat) → Nat → Except (MemErr × Nat) (List Byte) × State
  | [], _ => (.ok [], s)
  | (pa, n) :: l, done =>
    match s.translate p 0xFFFF acc pa with
    | .error e => (.error (e, done), s)
    | .ok (.there _ _) => (.error (.bus, done), s)
    | .ok (.here a) =>
      match s.readPiece a n req with
      | (.error e, s) => (.error (e, done), s)
      | (.ok b, s) =>
        match State.readPa s p acc req l (done + n) with
        | (.ok r, s) => (.ok (b ++ r), s)
        | (.error e, s) => (.error e, s)

/-- Read `n` bytes at partition address `pa`. -/
def State.readPart (s : State) (p : Nat) (acc : Access) (req : Requester) (pa n : Nat) :
    Except (MemErr × Nat) (List Byte) × State :=
  s.readPa p acc req (chunks 64 pa n) 0

/-- Write bytes at partition addresses for an engine or the host; bytes written before a failure stay (R270). -/
def State.writePa (s : State) (p : Nat) (req : Requester) :
    List (Nat × Nat) → List Byte → Nat → Except (MemErr × Nat) Unit × State
  | [], _, _ => (.ok (), s)
  | (pa, n) :: l, bs, done =>
    match s.translate p 0xFFFF .write pa with
    | .error e => (.error (e, done), s)
    | .ok (.there _ _) => (.error (.bus, done), s)
    | .ok (.here a) =>
      match s.writePiece a (bs.take n) req 0 with
      | (.error e, s) => (.error (e, done), s)
      | (.ok _, s) => State.writePa s p req l (bs.drop n) (done + n)

/-- Write bytes at partition address `pa`. -/
def State.writePart (s : State) (p : Nat) (req : Requester) (pa : Nat) (bs : List Byte) :
    Except (MemErr × Nat) Unit × State :=
  s.writePa p req (chunks 64 pa bs.length) bs 0

end Sys2Proof.Machine
end

