-- ==== Sys2Proof/Machine/SchedOps.lean ====
section
/-!
DEFINITION. The scheduler's named operations: record fields (R261), units (R22, R271), committed ends (R45, R46) and how
a launch ends (R270, R280).
-/

namespace Sys2Proof.Machine

/-! ## The command record (R261) -/

/-- Bytes `[lo, lo + n)` of a command record. -/
def fld (r : Line) (lo n : Nat) : Nat := bytesOf r.toNat lo n

def recOpcode (r : Line) : Nat := fld r 0 1
def recClass (r : Line) : Nat := fld r 1 1 % 16
def recFlags (r : Line) : Nat := fld r 2 2
def recSeq (r : Line) : Nat := fld r 4 4
def recDeclNs (r : Line) : Nat := fld r 8 4
def recDeclBytes (r : Line) : Nat := fld r 12 5
def recSigAdd (r : Line) : Nat := fld r 17 1
def recW0 (r : Line) : Nat := fld r 18 2
def recW1 (r : Line) : Nat := fld r 20 2
def recSig (r : Line) : Nat := fld r 22 2
def recW0Val (r : Line) : Nat := fld r 24 4
def recW1Val (r : Line) : Nat := fld r 28 4

/-- The time and traffic charges of a command that names `n` units (R41). -/
def timeCharge (r : Line) (n : Nat) : Nat := recDeclNs r * n
def trafCharge (r : Line) : Nat := ceilDiv (recDeclBytes r) 64

/-! ## Units (R22, R40): cores 0 to 4,095, then movers, Fixers, Grains, tile reduction units and link engines -/

def moverUnit (g : Nat) : Nat := 4096 + g
def fixerUnit (g : Nat) : Nat := 4352 + g
def grainUnit (g : Nat) : Nat := 4608 + g
def tileUnit (t : Nat) : Nat := 4864 + t
def linkUnit (q : Nat) : Nat := 4880 + q

/-- The cores a LAUNCH names (R271, R272), rising. -/
def launchCores (r : Line) : List Nat :=
  let mask := fld r 38 2
  ((List.range (fld r 37 1 + 1)).map (fun i => fld r 36 1 + i)).flatMap (fun g => (onesOf 16 mask).map (fun k => 16 * g + k))

/-! ## Admitted commands -/

/-- The admitted command with identifier `id`. -/
def Sched.cmd? (x : Sched) (id : Nat) : Option Cmd := x.cmds.find? (fun c => c.id == id)

/-- Change the admitted command with identifier `id`. -/
def State.modCmd (s : State) (p id : Nat) (f : Cmd → Cmd) : State :=
  s.modSch p (fun x => { x with cmds := updFirst (fun c => c.id == id) f x.cmds })

/-- Has the command begun on unit `u`? -/
def Cmd.begunOn (c : Cmd) (u : Nat) : Bool :=
  if u < 4096 then NatMap.get .notStarted c.ends u != .notStarted else c.began.isSome

/-- Is unit `u` still occupied by the command? -/
def Cmd.occupies (c : Cmd) (u : Nat) : Bool :=
  c.units.contains u && (if u < 4096 then
      (match NatMap.get .notStarted c.ends u with
        | .notStarted => true | .running => true | _ => false)
    else true)

/-- E(u) after a command leaves unit `u` now (R46): now plus the declared time of the commands admitted to `u` and not
yet started there. -/
def State.recomputeEnd (s : State) (p u : Nat) : State :=
  let x := s.sch p
  let rest := (x.cmds.filter (fun c => c.occupies u && !c.begunOn u)).foldl (fun n c => n + nsThirds (recDeclNs c.image)) 0
  s.modSch p (fun x => { x with ends := NatMap.set 0 x.ends u (s.nowThirds + rest) })

/-- The status and DETAIL of a launch all of whose cores have ended (R270): ABORTED, then CORE_STOPPED, then YIELDED,
then OK. -/
def launchStatus (cores : List Nat) (ends : NatMap CoreEnd) : Nat × Nat :=
  let es := cores.map (NatMap.get .notStarted ends)
  let stops := es.filterMap (fun e => match e with | .stopped r => some r | _ => none)
  if es.contains .aborted then (2, 0)
  else match stops with
    | r :: _ => (0x0A, r % 16 + 2 ^ 16 * stops.length)
    | [] =>
      let y := (es.filter (· == .yielded)).length
      if y > 0 then (1, y) else (0, 0)

/-- Has every named core ended? -/
def allEnded (cores : List Nat) (ends : NatMap CoreEnd) : Bool :=
  cores.all (fun u => match NatMap.get .notStarted ends u with | .notStarted => false | .running => false | _ => true)

/-- How many units the command runs on now. -/
def Cmd.liveUnits (c : Cmd) : Nat :=
  if recClass c.image = 0 then (c.units.filter (fun u => NatMap.get .notStarted c.ends u == .running)).length else c.units.length

/-- Debit the time that carried work has run since it was last debited (R50); a remaining aperture stops at zero. -/
def State.settleCarry (s : State) (p id : Nat) : State :=
  match (s.sch p).cmd? id with
  | none => s
  | some c =>
    match c.carriedTo with
    | none => s
    | some t =>
      (s.modPart p (fun q => { q with remTime := NatMap.upd 0 q.remTime (recClass c.image) (fun r => r - 2 * (s.now - t) * c.liveUnits) })).modCmd
        p id (fun c => { c with carriedTo := some s.now })

/-- What a core's run of the launch adds to the launch's figures (R48). -/
def State.addRun (s : State) (p id cycles bytes : Nat) : State :=
  s.modCmd p id (fun c => { c with busy := max c.busy cycles, moved := c.moved + bytes })

/-- A core of a launch ends (R280): its unit is free, and the launch has its status once every core has ended. A core
that HELD stopped may resume (R98), so such a launch waits. -/
def State.coreEnded (s : State) (p id core : Nat) (e : CoreEnd) : State :=
  let s := (s.settleCarry p id).modCmd p id (fun c =>
    let ends := NatMap.set .notStarted c.ends core e
    { c with ends := ends,
             result := if allEnded c.units ends then some (launchStatus c.units ends) else c.result })
  s.recomputeEnd p core

/-! ## Marks (R267) -/

def State.mark (s : State) (p m : Nat) : Dword := NatMap.get 0 (s.sch p).marks m

def State.setMark (s : State) (p m : Nat) (v : Dword) : State :=
  s.modSch p (fun x => { x with marks := NatMap.set 0 x.marks m v })

/-- Add to a mark, all 64 bits together, modulo 2^64. -/
def State.addMark (s : State) (p m n : Nat) : State := s.setMark p m (s.mark p m + BitVec.ofNat 64 n)

/-- Is a wait on a mark satisfied (R267)? -/
def markReached (mark : Dword) (v : Nat) : Bool := decide ((mark.setWidth 32 - BitVec.ofNat 32 v).toNat < 2 ^ 31)

end Sys2Proof.Machine
end

