-- ==== Sys2Proof/Machine/Reduction.lean ====
section
/-!
DEFINITION. The reduction units (R300 to R312): slots, checks, partial states, deltas and the final stage.
-/

namespace Sys2Proof.Machine

/-! ## Slots (R300, R304) -/

/-- The tiles of an RDU record, rising. -/
def rduTiles (r : Line) : List Nat := onesOf 16 (fld r 56 2)

/-- A partition's slots at a tile (R300): 256 for each of its clusters there; 16 for each cluster at the root. -/
def PartSec.tileShare (q : PartSec) (t : Nat) : Nat := 256 * ((List.range 16).filter (fun c => q.owns (16 * t + c))).length
def PartSec.rootShare (q : PartSec) : Nat := 16 * q.granules.length
def PartSec.unitShare (q : PartSec) (u : Nat) : Nat := if u = 16 then q.rootShare else q.tileShare u

/-- The reduction units an OPEN uses (R304): its tiles, and the root (16) beyond TILE scope. -/
def openUnits (r : Line) : List Nat := rduTiles r ++ (if fld r 42 1 = 0 then [] else [16])

/-- Does a ROP keep a list of the best values (TOPK, BOTTOMK), and does it sum? -/
def ropTopk (rop : Nat) : Bool := rop % 16 == 3 || rop % 16 == 4
def ropSum (rop : Nat) : Bool := rop % 16 == 0

/-- The slots a reduction takes at each unit (R304). -/
def ROpen.slots (o : ROpen) : Nat := if ropTopk o.rop then ceilDiv o.k 16 else o.w
def recSlots (r : Line) : Nat := if ropTopk (fld r 40 1) then ceilDiv (fld r 44 2) 16 else fld r 52 4

/-- The reductions open at a unit for a partition. -/
def State.openAt (s : State) (p u : Nat) : List RUnit := s.rdu.units.filter (fun x => x.unit == u && x.part == p && !x.closed)

/-- How many of the partition's slots at a unit reductions hold. -/
def State.slotsUsed (s : State) (p u : Nat) : Nat := ((s.openAt p u).map (fun x => x.op.slots)).foldl (· + ·) 0

/-- The reduction of this RID open for the partition at a unit. -/
def State.redUnit (s : State) (p u rid : Nat) : Option RUnit := (s.openAt p u).find? (fun x => x.op.rid == rid)
def State.ridOpen (s : State) (p u rid : Nat) : Bool := (s.redUnit p u rid).isSome

/-- Change the reduction of this RID open at a unit. -/
def State.modRed (s : State) (p u rid : Nat) (f : RUnit → RUnit) : State :=
  { s with rdu := { s.rdu with units := updFirst (fun x => x.unit == u && x.part == p && !x.closed && x.op.rid == rid) f s.rdu.units } }

/-- The last completed reductions of a partition at a unit (R306). -/
def State.recentAt (s : State) (p u : Nat) : List (Nat × Nat) := NatMap.get [] s.rdu.recent (256 * u + p)

/-! ## Values (R302, R307, R309) -/

/-- The value size of an RFMT IN or OUT code (R302). -/
def rfmtSize (c : Nat) : Nat :=
  match c with
  | 0 => 8 | 1 => 4 | 2 => 2 | 3 => 2 | 4 => 4 | _ => 8

def rfmtFloat (c : Nat) : Bool := decide (c ≤ 3)
def rfmtOf (c : Nat) : FFmt := match c with | 0 => fp64 | 1 => fp32 | 2 => fp16 | _ => bf16

/-- The value a bit pattern of an IN format stands for. -/
def rfmtVal (c bits : Nat) : Val :=
  if rfmtFloat c then (rfmtOf c).value bits else Val.ofInt (signed (8 * rfmtSize c) bits)

/-- Does one entry, a value and its index, rank before another (R309)? -/
def ranksBefore (largest : Bool) (c : Nat) (a b : Nat × Nat) : Bool :=
  let x := rfmtVal c a.1
  let y := rfmtVal c b.1
  if x.below y then !largest else if y.below x then largest else decide (a.2 ≤ b.2)

/-- How many entries a position keeps. -/
def ROpen.keep (o : ROpen) : Nat := if ropTopk o.rop then o.k else 1
def ROpen.largest (o : ROpen) : Bool := o.rop % 16 == 1 || o.rop % 16 == 3
def ROpen.inFmt (o : ROpen) : Nat := o.rfmt % 16
def ROpen.outFmt (o : ROpen) : Nat := o.rfmt / 16

/-- The best of two lists of entries, each best first. -/
def ROpen.mergePicks (o : ROpen) (a b : List (Nat × Nat)) : List (Nat × Nat) :=
  (b.foldl (fun l e => insertBy (ranksBefore o.largest o.inFmt) e l) a).take o.keep

/-- Take value `i` of contributor `id` into a partial state (R303, R307, R309). -/
def RPart.addValue (r : RPart) (o : ROpen) (id i bits : Nat) : RPart :=
  let pos := i % o.w
  let v := rfmtVal o.inFmt bits
  if ropSum o.rop then { r with sums := NatMap.upd {} r.sums pos (fun t => t.add v) }
  else if v.isNan then { r with nv := r.nv || v.signals }
  else { r with picks := NatMap.upd [] r.picks pos (fun l => o.mergePicks l [(bits, id * 2 ^ 32 + i)]) }

/-- The partial state of a contribution, whose count is one. -/
def ROpen.partial (o : ROpen) (id : Nat) (vals : List Nat) : RPart :=
  (vals.zip (List.range vals.length)).foldl (fun r x => r.addValue o id x.2 x.1) { contributors := 1 }

/-- Merge two partial states. -/
def RPart.merge (o : ROpen) (a b : RPart) : RPart :=
  { sums := b.sums.foldl (fun m e => NatMap.upd {} m e.1 (fun t => t.merge e.2)) a.sums,
    picks := b.picks.foldl (fun m e => NatMap.upd [] m e.1 (fun l => o.mergePicks l e.2)) a.picks,
    nv := a.nv || b.nv, contributors := a.contributors + b.contributors, refused := a.refused + b.refused }

/-! ## Results (R308, R309, R312) -/

/-- The entry of an empty place (R309). -/
def ROpen.empty (o : ROpen) : Nat × Nat := (if rfmtFloat o.inFmt then (rfmtOf o.inFmt).canonNan else 0, 2 ^ 64 - 1)

/-- The result of SUM at a position (R308). -/
def ROpen.sumAt (o : ROpen) (r : RPart) (pos : Nat) : FRes :=
  let t := NatMap.get {} r.sums pos
  if rfmtFloat o.outFmt then t.result (rfmtOf o.outFmt) (Rounding.ofCode (o.rop / 16)) else t.intResult (8 * rfmtSize o.outFmt)

/-- The entries of every position, filled up with empty ones. -/
def ROpen.entries (o : ROpen) (r : RPart) : List (Nat × Nat) :=
  (List.range o.w).flatMap (fun pos =>
    let l := NatMap.get [] r.picks pos
    l ++ List.replicate (o.keep - l.length) o.empty)

def entryBytes (e : Nat × Nat) : List Byte := natLE 8 e.1 ++ natLE 8 e.2

/-- The trailer of R312. -/
def redTrailer (flags refused contributors duplicates : Nat) : List Byte :=
  natLE 1 flags ++ natLE 1 0 ++ natLE 2 (min refused 0xFFFF) ++ natLE 4 contributors ++ natLE 4 (min duplicates 0xFFFFFFFF) ++ natLE 4 0

/-- The bytes of a result (R312). -/
def ROpen.result (o : ROpen) (r : RPart) (duplicates : Nat) : List Byte :=
  let nv := if r.nv then flNV else 0
  if ropSum o.rop then
    let rs := (List.range o.w).map (o.sumAt r)
    let vs := rs.flatMap (fun x => natLE (rfmtSize o.outFmt) x.bits)
    let fl := rs.foldl (fun n x => n ||| x.flags) nv
    vs ++ List.replicate (16 * ceilDiv vs.length 16 - vs.length) 0#8 ++ redTrailer fl r.refused r.contributors duplicates
  else (o.entries r).flatMap entryBytes ++ redTrailer nv r.refused r.contributors duplicates

/-! ## Deltas and results on the links (R310, R311, R423) -/

/-- The 288 bytes of a SUM position; the counts travel in position 0. -/
def sumBytes (t : SumState) (contributors refused : Nat) : List Byte :=
  let f := fun (b : Bool) (n : Nat) => if b then n else 0
  natLE 272 (BitVec.ofInt 2176 t.x).toNat
    ++ natLE 1 (f t.nan 1 + f t.snan 2 + f t.pinf 4 + f t.ninf 8 + f (!t.notNeg) 16 + f t.any 32 + f (!t.notPos) 64)
    ++ natLE 3 0 ++ natLE 4 contributors ++ natLE 4 refused ++ natLE 4 0

/-- A partial state as it is sent. -/
def ROpen.deltaBytes (o : ROpen) (r : RPart) : List Byte :=
  if ropSum o.rop then
    (List.range o.w).flatMap (fun i => sumBytes (NatMap.get {} r.sums i) (if i = 0 then r.contributors else 0) (if i = 0 then r.refused else 0))
  else (o.entries r).flatMap entryBytes ++ redTrailer (if r.nv then flNV else 0) r.refused r.contributors 0

/-- The SUM position in 288 bytes. -/
def sumOfBytes (b : List Byte) : SumState :=
  let f := byteAt b 272
  { x := signed 2176 (fieldLE b 0 272), nan := bitOf f 0, snan := bitOf f 1, pinf := bitOf f 2, ninf := bitOf f 3,
    notNeg := !bitOf f 4, any := bitOf f 5, notPos := !bitOf f 6 }

/-- A partial state as it arrives; an empty delta is none. -/
def ROpen.ofDelta (o : ROpen) (b : List Byte) : RPart :=
  if b.isEmpty then {}
  else if ropSum o.rop then
    { sums := (List.range o.w).foldl (fun m i => NatMap.set {} m i (sumOfBytes (b.drop (288 * i)))) [],
      contributors := fieldLE b 276 4, refused := fieldLE b 280 4 }
  else
    let t := b.drop (16 * o.w * o.keep)
    { picks := (List.range o.w).foldl (fun m i => NatMap.set [] m i
        (((List.range o.keep).map (fun k => (fieldLE b (16 * (o.keep * i + k)) 8, fieldLE b (16 * (o.keep * i + k) + 8) 8))).filter
          (fun e => e.2 != 2 ^ 64 - 1))) [],
      nv := bitOf (byteAt t 0) 4, refused := fieldLE t 2 2, contributors := fieldLE t 4 4 }

/-- The pieces of a delta or result. -/
def redMsgs (op src dst tag part rid epoch : Nat) (b : List Byte) : List Msg :=
  let n := max 1 (ceilDiv b.length 224)
  (List.range n).map (fun i =>
    let d := (b.drop (224 * i)).take 224
    { op := op, dlen := d.length / 16, src := src, dst := dst, tag := tag, part := part, addr := rid + 2 ^ 16 * epoch,
      aux := i + (if i + 1 = n then 2 ^ 15 else 0), data := d })

/-- Open a transaction and send the pieces. -/
def State.sendRed (s : State) (op dst tag part rid epoch : Nat) (b : List Byte) (kind : TxnKind) : State :=
  match redMsgs op s.dev dst tag part rid epoch b with
  | [] => s
  | m :: l => l.foldl (fun s x => s.sendMsg x) (s.request m kind)

/-- The home device of a SYSTEM reduction (R301). -/
def State.redHome (s : State) (rid : Nat) : Nat := rid % s.plate.sysInForce.count

/-- Is unit `u` the final stage of a reduction on this device (R301)? -/
def State.finalStage (s : State) (o : ROpen) (u : Nat) : Bool :=
  if o.scope = 0 then u != 16 else u == 16 && (o.scope == 1 || s.redHome o.rid == s.dev)

/-- Send an announced device the result, where a tag is free (R311); the device is then done with. -/
def State.sendResult (s : State) (x : RUnit) (d : Nat) : Option State :=
  (s.freeTag d).map (fun t =>
    s.sendRed 0x11 d t x.part x.op.rid x.op.epoch (x.op.deltaBytes x.acc) (.result x.part x.op.rid))

/-- Send the result to the announced devices; those for which no tag is free stay. -/
def State.sendResults (s : State) (x : RUnit) : List Nat × State :=
  x.announced.foldl (fun (acc : List Nat × State) d =>
    match acc.2.sendResult x d with
    | some t => (acc.1, t)
    | none => (acc.1 ++ [d], acc.2)) ([], s)

/-! ## Completion (R311) -/

/-- The reduction is done at every unit of this device: its tag is among the recent ones and its slots are free. -/
def State.closeRed (s : State) (p rid epoch : Nat) : State :=
  let mine := fun x : RUnit => x.part == p && x.op.rid == rid && !x.closed
  let us := (s.rdu.units.filter mine).map RUnit.unit
  { s with rdu := { s.rdu with
      units := s.rdu.units.filter (fun x => !mine x),
      recent := us.foldl (fun m u => NatMap.upd [] m (256 * u + p) (fun l => ((rid, epoch) :: l).take 64)) s.rdu.recent } }

/-- Cycles a unit takes for `n` values (R300, R309). -/
def redCycles (rop n : Nat) : Nat := ceilDiv n (if ropTopk rop then 16 else 64)

/-- Write a result at the OPEN's ADDR and let the OPEN's command have its status. -/
def State.writeResult (s : State) (x : RUnit) (r : RPart) : State :=
  let mine := s.rdu.units.filter (fun y => y.part == x.part && y.op.rid == x.op.rid && !y.closed)
  let dup := (mine.map RUnit.duplicates).foldl (· + ·) 0
  let busy := (mine.map RUnit.busy).foldl max 0 + redCycles x.op.rop x.op.slots
  match (s.sch x.part).cmd? x.cmd with
  | none => s
  | some _ =>
    let b := x.op.result r dup
    let w := s.writePart x.part .engine x.op.addr b
    let st := match w.1 with
      | .ok _ => (b.length, 0, 0)
      | .error (.segment, n) => (n, 8, 2 ^ 28 + n / 64)
      | .error (.window, n) => (n, 8, 2 * 2 ^ 28 + n / 64)
      | .error (.poison, n) => (n, 9, 3 * 2 ^ 28 + n / 64)
      | .error (.bus, n) => (n, 9, 4 * 2 ^ 28 + n / 64)
    w.2.modCmd x.part x.cmd (fun c => { c with moved := c.moved + st.1, busy := c.busy + busy, result := some st.2 })

/-- The final stage completes once its contributor count reaches the declared count. -/
def State.redCheck (s : State) (p u rid : Nat) : State :=
  match s.redUnit p u rid with
  | none => s
  | some x =>
    if !(s.finalStage x.op u && decide (x.acc.contributors ≥ x.op.declared)) then s
    else
      let s := s.writeResult x x.acc
      let r := if x.op.scope = 2 then s.sendResults x else ([], s)
      let s := r.2.closeRed p rid x.op.epoch
      if r.1.isEmpty then s
      else { s with rdu := { s.rdu with units := s.rdu.units ++ [{ x with closed := true, announced := r.1 }] } }

/-! ## Contributions (R305, R306) -/

/-- How a contribution's tag is judged. -/
inductive RedVerdict where
  | duplicate
  | refuse (code : Nat)
  | accept
  deriving DecidableEq, Repr

/-- The checks of R306 at unit `u`; `tagOk` is check 1 and `fits` check 5. -/
def State.redVerdict (s : State) (p u rid epoch id : Nat) (tagOk : Bool) (fits : ROpen → Bool) : RedVerdict :=
  if !tagOk then .refuse 5
  else if (s.recentAt p u).contains (rid, epoch) then .duplicate
  else match s.redUnit p u rid with
    | none => .refuse 1
    | some x =>
      if x.op.epoch ≠ epoch then .refuse 2
      else if !fits x.op then .refuse 3
      else if id ≥ x.op.declared then .refuse 4
      else if x.ids.contains id then .duplicate
      else .accept

/-- The record of a refusal (R306, R528). -/
def State.redRecord (s : State) (p u code rid epoch id : Nat) : State :=
  s.logErr { cls := 0, source := 5, code := 1, part := p, unit := u, detail := code, aux := rid + 2 ^ 16 * epoch + 2 ^ 48 * id }

/-- A refused contribution: recorded, and counted where its RID is open. -/
def State.redRefuse (s : State) (p u code rid epoch id : Nat) : State :=
  (s.redRecord p u code rid epoch id).modRed p u rid (fun x => { x with acc := { x.acc with refused := x.acc.refused + 1 } })

/-- A discarded duplicate. -/
def State.redDuplicate (s : State) (p u rid : Nat) : State := s.modRed p u rid (fun x => { x with duplicates := x.duplicates + 1 })

/-- An accepted contribution is merged (R305, R307). -/
def State.redMerge (s : State) (p u rid id : Nat) (vals : List Nat) : State :=
  (s.modRed p u rid (fun x => { x with acc := x.acc.merge x.op (x.op.partial id vals), ids := id :: x.ids })).redCheck p u rid

/-- The format an ARED's SUB requires of IN (R306). -/
def aredFmt (sub : Nat) : Nat := if sub = 0 then 1 else if sub = 1 then 0 else 4

/-- A tile reduction unit takes in the contribution an ARED carries (R189, R303, R306): the core, g[RA], g[RB], SUB and the
values. -/
def State.aredAccept (s : State) (args : List Nat) : State :=
  match args with
  | c :: ga :: gb :: sub :: vals =>
    let u := c / 256
    let p := (s.owner (c / 16)).getD 255
    let rid := ga % 2 ^ 16
    let epoch := bitsOf ga 16 32
    let id := gb % 2 ^ 16
    match s.redVerdict p u rid epoch id (decide (ga < 2 ^ 48) && decide (gb < 2 ^ 16)) (fun o => o.inFmt == aredFmt sub) with
    | .duplicate => s.redDuplicate p u rid
    | .refuse code => s.redRefuse p u code rid epoch id
    | .accept =>
      let s := match s.redUnit p u rid with
        | some x => s.modCmd p x.cmd (fun m => { m with moved := m.moved + 1024 })
        | none => s
      (s.modRed p u rid (fun x => { x with busy := x.busy + redCycles x.op.rop vals.length })).redMerge p u rid id vals
  | _ => s

end Sys2Proof.Machine
end

