-- ==== Sys2Proof/Machine/CoreOps.lean ====
section
/-!
DEFINITION. What every core instruction is built from: registers (R104), the checks of R118, the L1D (R238 to R241), the
store buffer (R119, R229, R248), instruction fetch (R199, R226, R246), the branch-target buffer (R203), exception entry
and core stops (R224, R225, R227) and retirement with the delay slot and the shadow (R121, R205).
-/

namespace Sys2Proof.Machine

/-! ## Cores and their registers -/

def State.core (s : State) (c : Nat) : Core := NatMap.get {} s.cores c
def State.modCore (s : State) (c : Nat) (f : Core → Core) : State :=
  { s with cores := NatMap.upd {} s.cores c f }
def State.cluster (s : State) (g : Nat) : Cluster := NatMap.get {} s.clusters g
def State.modCluster (s : State) (g : Nat) (f : Cluster → Cluster) : State :=
  { s with clusters := NatMap.upd {} s.clusters g f }

def State.modCtl (s : State) (c : Nat) (f : CoreCtl → CoreCtl) : State :=
  s.modCore c (fun k => { k with ctl := f k.ctl })
def State.modRegs (s : State) (c : Nat) (f : CoreRegs → CoreRegs) : State :=
  s.modCore c (fun k => { k with regs := f k.regs })

/-- Read a general register: g0 reads zero (R104). -/
def Core.gr (k : Core) (r : Nat) : Dword := if r = 0 then 0 else NatMap.get 0 k.regs.g r
/-- Write a general register: writes to g0 are discarded (R104). -/
def State.setG (s : State) (c r : Nat) (v : Dword) : State :=
  if r = 0 then s else s.modRegs c (fun x => { x with g := NatMap.set 0 x.g r v })
def Core.fr (k : Core) (r : Nat) : Dword := NatMap.get 0 k.regs.f r
def State.setF (s : State) (c r : Nat) (v : Dword) : State :=
  s.modRegs c (fun x => { x with f := NatMap.set 0 x.f r v })

/-- Add to a performance counter (R216). -/
def State.bump (s : State) (c num n : Nat) : State :=
  s.modCore c (fun k => { k with perf := NatMap.upd 0 k.perf num (fun v => v + BitVec.ofNat 64 n) })

/-! ## The traffic of a core's kernel (R41, R48) -/

/-- Count bytes the kernel on a core has read or written in memory of this device. -/
def State.addTraffic (s : State) (c n : Nat) : State :=
  s.modCore c (fun k => if k.run = .running then { k with kernel := { k.kernel with traffic := k.kernel.traffic + n } } else k)

/-- A core's read of bytes in one line, counted. -/
def State.coreRead (s : State) (c a n : Nat) (req : Requester) : Except MemErr (List Byte) × State :=
  match s.readPiece a n req with
  | (.ok b, s) => (.ok b, s.addTraffic c n)
  | (.error e, s) => (.error e, s)

/-- A core's write of bytes in one line, counted. -/
def State.coreWrite (s : State) (c a : Nat) (bs : List Byte) : Except MemErr Unit × State :=
  match s.writePiece a bs .core c with
  | (.ok _, s) => (.ok (), s.addTraffic c bs.length)
  | (.error e, s) => (.error e, s)

/-- The partition whose granule the core lies in. -/
def State.corePart (s : State) (c : Nat) : Nat := (s.owner (c / 16)).getD 255

/-! ## Faults and results -/

/-- A precise fault: cause and subcode (R221, R222), the ACCESS code, the failing address, element and micro-op. -/
structure FaultInfo where
  cause : Nat
  sub : Nat := 0
  access : Nat := 0
  eaddr : Nat := 0
  aux : Nat := 0
  uidx : Option Nat := none
  deriving DecidableEq, Repr

/-- ILLEGAL with a subcode of R222. -/
def illegal (sub : Nat) : FaultInfo := { cause := 1, sub := sub }

/-- What executing an instruction's own operation gives. -/
inductive Res where
  /-- It completes. -/
  | ok (s : State)
  /-- It faults precisely; memory may have recorded errors. -/
  | fault (f : FaultInfo) (s : State)
  /-- It waits: nothing of it has happened, and the core tries it again. -/
  | wait (s : State)

def Res.bind (r : Res) (f : State → Res) : Res :=
  match r with
  | .ok s => f s
  | .fault x s => .fault x s
  | .wait s => .wait s

/-- The fault of an instruction that may not execute in a delay slot: RESERVED for a reserved encoding, else SLOT (R112,
R236). -/
def Res.reservedOrSlot (r : Res) : FaultInfo :=
  match r with
  | .fault f _ => if f = illegal 1 then illegal 1 else illegal 2
  | _ => illegal 2

/-- What a read of memory gives a core: its bytes, a precise fault, or a wait. -/
inductive Got where
  | ok (b : List Byte) (s : State)
  | fault (f : FaultInfo) (s : State)
  | wait (s : State)

/-- Go on with the bytes read. -/
def Got.andThen (g : Got) (f : List Byte → State → Res) : Res :=
  match g with
  | .ok b s => f b s
  | .fault x s => .fault x s
  | .wait s => .wait s

def illReserved : FaultInfo := illegal 1
def illSlot : FaultInfo := illegal 2
def illPriv : FaultInfo := illegal 3
def illCreg : FaultInfo := illegal 4
def illEmpty : FaultInfo := illegal 5
def illVshape : FaultInfo := illegal 6
def illGang : FaultInfo := illegal 7
def illOverlap : FaultInfo := illegal 8
def illVresume : FaultInfo := illegal 9
def illVformat : FaultInfo := illegal 10
def illFrame : FaultInfo := illegal 11
/-- MISALIGNED (R222): 1 LOAD, 2 STORE, 3 FETCH. ACCESS follows. -/
def misaligned (sub addr : Nat) : FaultInfo := { cause := 2, sub := sub, access := sub - 1, eaddr := addr }
/-- The BUSERR subcode of a failed check (R222). -/
def MemErr.sub : MemErr → Nat
  | .segment => 1 | .window => 2 | .poison => 3 | .bus => 4
def busErr (e : MemErr) (access addr : Nat) : FaultInfo := { cause := 3, sub := e.sub, access := access, eaddr := addr }
/-- The LATEBUS subcode of a late error (R222). -/
def MemErr.late : MemErr → Nat
  | .poison => 1 | _ => 2

/-! ## Checks 2 and 3 of R118 -/

/-- Does window `w` bind and hold address `pa` with the permission bit (R361)? -/
def windowHolds (w : Dword) (pa permBit : Nat) : Bool :=
  let n := w.toNat
  let lg := n % 64
  let base := bitsOf n 12 36 * 4096
  bitOf n 10 && decide (12 ≤ lg) && decide (lg ≤ 47) && decide (base % 2 ^ lg = 0) && decide (base ≤ pa)
    && decide (pa < base + 2 ^ lg) && bitOf n permBit

/-- The window check (R361) of the bytes `[pa, pa + n)` at system or user level. -/
def Core.windowOk (k : Core) (sys : Bool) (acc : Access) (pa n : Nat) : Bool :=
  !(k.sre.winctl.getLsbD 0) || (sys && !(k.sre.winctl.getLsbD 1)) ||
    (chunks 4096 pa n).all (fun x => (List.range 8).any (fun i =>
      windowHolds (NatMap.get 0 k.sre.win i) x.1 (if acc = .write then 9 else 8)))

/-- Checks 2 and 3 of R118 for the bytes `[pa, pa + n)` of a core's access, at system or user level. -/
def State.coreCheck (s : State) (c : Nat) (sys : Bool) (acc : Access) (pa n : Nat) : Except MemErr Unit :=
  let k := s.core c
  if pa + n > 2 ^ 48 then .error .segment
  else if (chunks 4096 pa n).all (fun x => (s.translate (s.corePart c) k.sre.segen.toNat acc x.1).toBool) then
    if k.windowOk sys acc pa n then .ok () else .error .window
  else .error .segment

/-- The place of a translated address of the core. -/
def State.corePlace (s : State) (c : Nat) (acc : Access) (pa : Nat) : Place :=
  match s.translate (s.corePart c) (s.core c).sre.segen.toNat acc pa with
  | .ok (.here a) => { addr := a }
  | .ok (.there d a) => { dev := some d, addr := a }
  | .error _ => {}

/-! ## The L1 data cache -/

/-- May the core's scalar accesses to this place be cached (R239)? -/
def Core.cacheable (k : Core) (pl : Place) : Bool :=
  pl.dev.isNone && (match regionOf pl.addr with
    | .dram _ _ => bitOf k.sre.l1dCfg 0
    | .tray _ _ => bitOf k.sre.l1dCfg 1
    | _ => false)

/-- The set of a device-local address (R240). -/
def l1Set (a : Nat) : Nat := ((bitsOf a 6 6) ^^^ (bitsOf a 12 6)) ^^^ (bitsOf a 18 6)

def Core.l1At (k : Core) (set way : Nat) : L1Line := NatMap.get {} k.l1d (8 * set + way)

/-- The way that holds the line of address `a`. -/
def Core.l1Way (k : Core) (a : Nat) : Option Nat :=
  (List.range 8).find? (fun w => let x := k.l1At (l1Set a) w; x.valid && x.line == a / 64)

def State.setL1 (s : State) (c set way : Nat) (x : L1Line) : State :=
  s.modCore c (fun k => { k with l1d := NatMap.set {} k.l1d (8 * set + way) x })

/-- The tree bits after a use of way `w`: the bits on its path point away from it. -/
def plruTouch (bits w : Nat) : Nat :=
  let b0 := if w < 4 then bits ||| 1 else bits &&& 0x7E
  let i1 := 1 + w / 4
  let b1 := if (w / 2) % 2 = 0 then b0 ||| 2 ^ i1 else b0 &&& (0x7F - 2 ^ i1)
  let i2 := 3 + w / 2
  if w % 2 = 0 then b1 ||| 2 ^ i2 else b1 &&& (0x7F - 2 ^ i2)

/-- The way the tree bits point to. -/
def plruVictim (bits : Nat) : Nat :=
  let h := if bitOf bits 0 then 1 else 0
  let m := if bitOf bits (1 + h) then 1 else 0
  let q := 2 * h + m
  2 * q + (if bitOf bits (3 + q) then 1 else 0)

def State.touchL1 (s : State) (c set way : Nat) : State :=
  s.modCore c (fun k => { k with plru := NatMap.upd 0 k.plru set (fun b => plruTouch b way) })

/-- The way that a new line of the set takes (R238): the lowest invalid way, else the tree's victim. -/
def Core.l1Victim (k : Core) (set : Nat) : Nat :=
  match (List.range 8).find? (fun w => !(k.l1At set w).valid) with
  | some w => w
  | none => plruVictim (NatMap.get 0 k.plru set)

/-- The store-buffer entry that writes a line back (R241, R245). -/
def writeBackEntry (x : L1Line) : SbEntry :=
  { kind := .writeBack, addr := 64 * x.line, pieces := [{ place := { addr := 64 * x.line }, bytes := lineBytes x.data }],
    poisonWords := x.ue }

def State.pushSb (s : State) (c : Nat) (e : SbEntry) : State :=
  s.modCore c (fun k => { k with sb := k.sb ++ [e] })

/-- Invalidate a way, discarding what it holds. -/
def State.l1Drop (s : State) (c set way : Nat) : State := s.setL1 c set way {}

/-- Write back way `way` of `set` if it is dirty, through the store buffer, and leave it clean and valid; a line with an
uncorrectable word is recorded (SRAM UE, DETAIL 3) and invalidated (R241). -/
def State.l1Clean (s : State) (c set way : Nat) : State :=
  let x := (s.core c).l1At set way
  if x.valid && x.dirty then
    let s := s.pushSb c (writeBackEntry x)
    if x.ue = 0#8 then s.setL1 c set way { x with dirty := false }
    else (s.l1Drop c set way).sramErr (c / 16) 3 2 (64 * x.line)
  else s

/-- A line written back reaches its target (R241): uncorrectable words leave a DRAM line poisoned whole, and a tray
line poisoned in those words. -/
def State.writeBackLine (s : State) (c a : Nat) (bs : List Byte) (ue : BitVec 8) : Except MemErr Unit × State :=
  match s.coreWrite c a bs with
  | (.error e, s) => (.error e, s)
  | (.ok _, s) =>
    if ue = 0#8 then (.ok (), s)
    else match regionOf a with
      | .dram _ _ => (.ok (), s.setUnit a true)
      | _ => (.ok (), (onesOf 8 ue.toNat).foldl (fun s w => s.setUnit (a + 8 * w) true) s)

/-- Before a line is filled, the core's write-backs of it that still wait are performed: accesses to the same bytes keep
program order (R251). An error is a late one (R229). -/
def State.settleLine (s : State) (c line : Nat) : State :=
  let mine := fun e : SbEntry => e.kind == .writeBack && e.addr == 64 * line && e.late.isNone
  let s' := s.modCore c (fun k => { k with sb := k.sb.filter (fun e => !mine e) })
  ((s.core c).sb.filter mine).foldl (fun s e =>
    match e.pieces with
    | [] => s
    | q :: _ => match s.writeBackLine c q.place.addr q.bytes e.poisonWords with
      | (.ok _, s) => s
      | (.error x, s) => s.addLate c x.late e.addr) s'

/-- Fill the line of address `a` (R241): read it, make room, allocate. -/
def State.l1Fill (s : State) (c a : Nat) : Except MemErr Nat × State :=
  let s := (s.bump c 0x30B 1).settleLine c (a / 64)
  match s.coreRead c (a / 64 * 64) 64 .fill with
  | (.error e, s) => (.error e, s)
  | (.ok b, s) =>
    let set := l1Set a
    let way := (s.core c).l1Victim set
    let s := s.l1Clean c set way
    (.ok way, (s.setL1 c set way { valid := true, line := a / 64, data := bytesLine b }).touchL1 c set way)

/-- The words of a line that the bytes `[a, a + n)` touch. -/
def wordsMask (a n : Nat) : BitVec 8 :=
  (List.range 8).foldl (fun m w =>
    if decide (a % 64 < 8 * w + 8) && decide (8 * w < a % 64 + n) then m ||| BitVec.twoPow 8 w else m) 0#8

/-- Find or fill the line of `a` for a read of its bytes `[a, a + n)` (R241): corrected errors are recorded, an
uncorrectable word of a clean line refills it, and one of a dirty line is poison: the line is written back poisoned. -/
def State.l1Read (s : State) (c a n : Nat) : Except MemErr (List Byte) × State :=
  let set := l1Set a
  let g := c / 16
  let fill := fun (s : State) => match s.l1Fill c a with
    | (.ok w, s) => (Except.ok ((lineBytes ((s.core c).l1At set w).data).drop (a % 64) |>.take n), s)
    | (.error e, s) => (.error e, s)
  match (s.core c).l1Way a with
  | none => fill s
  | some w =>
    let x := (s.core c).l1At set w
    let m := wordsMask a n
    if x.ue &&& m ≠ 0#8 then
      if x.dirty then
        (.error .poison, ((s.pushSb c (writeBackEntry x)).l1Drop c set w).sramErr g 3 2 (64 * x.line))
      else fill (s.l1Drop c set w)
    else
      let s := if x.ce &&& m ≠ 0#8 then (s.setL1 c set w { x with ce := x.ce &&& ~~~ m }).sramErr g 2 1 (64 * x.line) else s
      (.ok (((lineBytes x.data).drop (a % 64)).take n), s.touchL1 c set w)

/-- Write bytes into a held line (R241). A store that covers only part of an uncorrectable word is a late POISON. -/
def State.l1Write (s : State) (c set w a : Nat) (bs : List Byte) : Except MemErr Unit × State :=
  let x := (s.core c).l1At set w
  let whole := (List.range 8).foldl (fun m i =>
    if decide (a % 64 ≤ 8 * i) && decide (8 * i + 8 ≤ a % 64 + bs.length) then m ||| BitVec.twoPow 8 i else m) 0#8
  let part := wordsMask a bs.length &&& ~~~ whole
  if x.ue &&& part ≠ 0#8 then
    (.error .poison, ((s.pushSb c (writeBackEntry { x with dirty := true })).l1Drop c set w).sramErr (c / 16) 3 2 (64 * x.line))
  else
    let v := ((BitVec.twoPow 64 bs.length) - 1#64) <<< (a % 64)
    let v := if bs.length = 64 then 0xFFFFFFFFFFFFFFFF#64 else v
    let d := mergeLine x.data (bytesLine bs <<< (8 * (a % 64))) v
    (.ok (), (s.setL1 c set w { x with data := d, dirty := true, ue := x.ue &&& ~~~ whole, ce := x.ce &&& ~~~ whole }).touchL1 c set w)

/-! ## The store buffer -/

/-- Note the channel that a partial write of the core went to (R368). -/
def State.noteChan (s : State) (c a n : Nat) : State :=
  match regionOf a with
  | .dram g o =>
    if n = 64 then s
    else
      let ch := s.chanOf g o
      s.modCore c (fun k => if k.wcChans.contains ch then k else { k with wcChans := ch :: k.wcChans })
  | _ => s

/-- Write the pieces of an uncached store; the first failure is the late error. -/
def State.writeSbPieces (s : State) (c : Nat) : List SbPiece → Except MemErr Unit × State
  | [] => (.ok (), s)
  | q :: l =>
    match q.place.dev with
    | some _ => State.writeSbPieces s c l
    | none =>
      match s.coreWrite c q.place.addr q.bytes with
      | (.error e, s) => (.error e, s)
      | (.ok _, s) => State.writeSbPieces (s.noteChan c q.place.addr q.bytes.length) c l

/-- Perform a cacheable scalar store (R241): into a held line, into a line filled for it while WALLOC is 1, or as a
partial write. -/
def State.performCached (s : State) (c a : Nat) (bs : List Byte) : Except MemErr Unit × State :=
  let set := l1Set a
  match (s.core c).l1Way a with
  | some w => s.l1Write c set w a bs
  | none =>
    if bitOf (s.core c).sre.l1dCfg 2 then
      match s.l1Fill c a with
      | (.ok w, s) => s.l1Write c set w a bs
      | (.error e, s) => (.error e, s)
    else
      let s := s.bump c 0x30B 1
      match s.coreWrite c a bs with
      | (.ok _, s) => (.ok (), s.noteChan c a bs.length)
      | (.error e, s) => (.error e, s)

/-- Does the entry go to another device? -/
def SbEntry.remote (e : SbEntry) : Bool := e.pieces.any (fun q => q.place.dev.isSome)

/-- Perform an entry at its target. -/
def State.performSb (s : State) (c : Nat) (e : SbEntry) : Except MemErr Unit × State :=
  match e.kind with
  | .ared => (.ok (), s.aredAccept e.ared)
  | .writeBack => match e.pieces with
    | q :: _ => s.writeBackLine c q.place.addr q.bytes e.poisonWords
    | [] => (.ok (), s)
  | .scalar => match e.cacheable, e.pieces with
    | true, q :: _ => s.performCached c q.place.addr q.bytes
    | _, l => s.writeSbPieces c l
  | _ => s.writeSbPieces c e.pieces

/-- Remove entry `i` of the store buffer. -/
def State.dropSb (s : State) (c i : Nat) : State :=
  s.modCore c (fun k => { k with sb := k.sb.eraseIdx i })

/-- Give entry `i` a late error. -/
def State.lateSb (s : State) (c i sub : Nat) : State :=
  s.modCore c (fun k => { k with sb := k.sb.modify i (fun e => { e with late := some sub }) })

/-- Send the pieces of an entry for other devices (R422), each as a WRITE_SYS: none is sent while a destination has no
free tag (R424). -/
def State.sendPieces (s : State) (c : Nat) : List SbPiece → List (Nat × Nat) → Option (State × List (Nat × Nat))
  | [], l => some (s, l)
  | q :: rest, l =>
    match q.place.dev with
    | none => State.sendPieces s c rest l
    | some d =>
      match s.freeTag d with
      | none => none
      | some t =>
        State.sendPieces (s.request (spanMsg 3 s.dev d t (s.corePart c) q.place.addr q.bytes.length 0 q.bytes) (.store c)) c rest
          (l ++ [(d, t)])

/-- Send entry `i` of the store buffer to other devices; a piece that lies on this device is performed. -/
def State.sendStore (s : State) (c i : Nat) (e : SbEntry) : State :=
  match s.sendPieces c e.pieces [] with
  | none => s
  | some (s, l) =>
    let s := s.modCore c (fun k => { k with sb := k.sb.modify i (fun x => { x with sent := some l }) })
    match s.writeSbPieces c e.pieces with
    | (.ok _, s) => s
    | (.error x, s) => s.lateSb c i x.late

/-- Entry `i` of the store buffer is accepted by its target and freed (R248); an error stays in the entry until it is
reported (R229), or, on a core that runs no kernel, is dropped (R540). An entry for another device is sent (R422) and
stays until the answer comes. -/
def State.acceptSb (s : State) (c i : Nat) : State :=
  match (s.core c).sb[i]? with
  | none => s
  | some e =>
    if e.late.isSome || e.sent.isSome then s
    else if e.remote then s.sendStore c i e
    else match s.performSb c e with
      | (.ok _, s) => s.dropSb c i
      | (.error x, s) => if (s.core c).run = .running then s.lateSb c i x.late else s.dropSb c i

/-- The oldest late error waiting to be reported (R229), as subcode and address: store-buffer entries first. -/
def State.oldestLate (s : State) (c : Nat) : Option (Nat × Nat) :=
  match (s.core c).sb.find? (fun e => e.late.isSome) with
  | some e => some (e.late.getD 0, e.addr)
  | none => (NatMap.get [] s.late c).head?

/-- Report the oldest late error: its store leaves the buffer (R229). -/
def State.takeLate (s : State) (c : Nat) : State :=
  if (s.core c).sb.any (fun e => e.late.isSome) then
    s.modCore c (fun k => { k with sb := k.sb.eraseP (fun e => e.late.isSome) })
  else { s with late := NatMap.upd [] s.late c List.tail }

/-- LATEBUS as a precise fault (R229). -/
def lateFault (x : Nat × Nat) : FaultInfo := { cause := 4, sub := x.1, eaddr := x.2 }

/-- Make a store-buffer entry free for an instruction that needs one (R229, R248): with the buffer full, the oldest
entry is accepted, and an error it holds is reported precisely on the waiting instruction. -/
def State.sbRoom (s : State) (c : Nat) (k : State → Res) : Res :=
  if (s.core c).sb.length < 8 then k s
  else
    let s := s.acceptSb c 0
    match (s.core c).sb with
    | [] => k s
    | e :: l =>
      if l.length < 7 then k s
      else match e.late with
        | some sub => .fault (lateFault (sub, e.addr)) (s.dropSb c 0)
        | none => .wait s

/-- Drain the store buffer (R125, R127): accept every entry, oldest first. -/
def State.drainFrom (s : State) (c : Nat) : Nat → State
  | 0 => s
  | n + 1 =>
    match (s.core c).sb with
    | [] => s
    | e :: _ => if e.late.isSome || e.sent.isSome then s else State.drainFrom (s.acceptSb c 0) c n

/-- Drain the buffer, then go on: an error met is reported precisely on the draining instruction (R229); an entry that
another device has not answered makes it wait. -/
def State.drain (s : State) (c : Nat) (k : State → Res) : Res :=
  let s := s.drainFrom c ((s.core c).sb.length + 1)
  match (s.core c).sb with
  | [] => k s
  | e :: _ => match e.late with
    | some sub => .fault (lateFault (sub, e.addr)) (s.dropSb c 0)
    | none => .wait s

/-- The bytes of `base` at address `a`, with the pieces of the store-buffer entries of one path laid over them (R117,
R251), oldest first. -/
def overlayPieces (a : Nat) (base : List Byte) (l : List SbPiece) : List Byte :=
  (List.range base.length).map (fun i =>
    l.foldl (fun b q =>
      if q.place.dev.isNone && decide (q.place.addr ≤ a + i) && decide (a + i < q.place.addr + q.bytes.length) then
        (q.bytes.drop (a + i - q.place.addr)).headD b
      else b) ((base.drop i).headD 0#8))

/-- The pieces of the core's buffered scalar stores. -/
def Core.scalarPieces (k : Core) : List SbPiece := (k.sb.filter (fun e => e.kind == .scalar)).flatMap SbEntry.pieces
/-- The pieces of the core's buffered long-vector and tile stores. -/
def Core.vectorPieces (k : Core) : List SbPiece :=
  (k.sb.filter (fun e => e.kind == .vector || e.kind == .tile)).flatMap SbEntry.pieces

/-! ## Scalar accesses -/

/-- The `k`-th read an instruction makes of another device's memory (R422): it is sent, and the instruction waits for
its answer. -/
def State.remoteRead (s : State) (c k : Nat) (pl : Place) (n pa : Nat) : Got :=
  match (s.core c).remote[k]? with
  | none =>
    let d := pl.dev.getD 0
    match s.freeTag d with
    | none => .wait s
    | some tag =>
      .wait ((s.modCore c (fun x =>
        { x with remote := x.remote ++ [({ dev := d, addr := pl.addr, len := n, tag := tag } : RemoteLoad)] })).request
          (spanMsg 4 s.dev d tag (s.corePart c) pl.addr n 0 []) (.load c))
  | some r =>
    match r.answer with
    | none => .wait s
    | some (.inl b) => .ok b s
    | some (.inr sub) => .fault { cause := 3, sub := sub, access := 0, eaddr := pa } s

/-- Read `n` bytes at partition address `pa` for a scalar load, after its checks 1 to 3 (R117, R118, R239, R256): from
L1D or the memory path, with the core's own buffered stores over them. A load from another device waits for its
answer. -/
def State.scalarRead (s : State) (c pa n : Nat) : Got :=
  let pl := s.corePlace c .read pa
  if pl.dev.isSome then s.remoteRead c 0 pl n pa
  else
    match (if (s.core c).cacheable pl then s.l1Read c pl.addr n else s.coreRead c pl.addr n .core) with
    | (.error e, s) => .fault (busErr e 0 pa) s
    | (.ok b, s) => .ok (overlayPieces pl.addr b (s.core c).scalarPieces) s

/-- A scalar load (R117, R118): alignment, segment, window, then the data. -/
def State.load (s : State) (c pa n : Nat) : Got :=
  if pa % n ≠ 0 then .fault (misaligned 1 pa) s
  else match s.coreCheck c (s.core c).ctl.priv .read pa n with
    | .error e => .fault (busErr e 0 pa) s
    | .ok _ => s.scalarRead c pa n

/-- The store-buffer entry of a scalar store. -/
def State.scalarEntry (s : State) (c pa : Nat) (bs : List Byte) : SbEntry :=
  let pl := s.corePlace c .write pa
  { kind := .scalar, cacheable := (s.core c).cacheable pl, addr := pa, pieces := [{ place := pl, bytes := bs }] }

/-- A scalar store (R117 to R119): checks 1 to 3, then an entry of the store buffer. -/
def State.store (s : State) (c pa : Nat) (bs : List Byte) : Res :=
  if pa % bs.length ≠ 0 then .fault (misaligned 2 pa) s
  else match s.coreCheck c (s.core c).ctl.priv .write pa bs.length with
    | .error e => .fault (busErr e 1 pa) s
    | .ok _ => s.sbRoom c (fun s => .ok (s.pushSb c (s.scalarEntry c pa bs)))

/-! ## Instruction fetch -/

def icIndex (addr way : Nat) : Nat := 4 * bitsOf addr 6 6 + way

def Core.icWay (k : Core) (addr : Nat) : Option Nat :=
  (List.range 4).find? (fun w => let x := NatMap.get {} k.ic (icIndex addr w); x.valid && x.line == addr / 64)

/-- The way a new line takes: an invalid way, else the least recently used (R246). -/
def Core.icVictim (k : Core) (addr : Nat) : Nat :=
  match (List.range 4).find? (fun w => !(NatMap.get {} k.ic (icIndex addr w)).valid) with
  | some w => w
  | none => (List.range 4).foldl (fun best w =>
      if (NatMap.get {} k.ic (icIndex addr w)).used < (NatMap.get {} k.ic (icIndex addr best)).used then w else best) 0

def State.icPut (s : State) (c addr way : Nat) (x : ICLine) : State :=
  s.modCore c (fun k => { k with ic := NatMap.set {} k.ic (icIndex addr way) { x with used := k.useCount + 1 }, useCount := k.useCount + 1 })

/-- Request the line of an instruction address from the cluster's kernel store (R199), and allocate it while IC_CFG.EN
is 1. An offset of 256 KiB or more fails check 2 (R279). -/
def State.fillLine (s : State) (c addr : Nat) : Except MemErr Line × State :=
  if addr ≥ 2 ^ 18 then (.error .segment, s)
  else match s.coreRead c (ksBase (c / 16) + addr / 64 * 64) 64 .core with
    | (.error e, s) => (.error e, s)
    | (.ok b, s) =>
      if (s.core c).sre.icEn then
        (.ok (bytesLine b), s.icPut c addr ((s.core c).icVictim addr) { valid := true, line := addr / 64, data := bytesLine b })
      else (.ok (bytesLine b), s)

/-- A correct-path fetch of the line of an instruction address, through the instruction cache (R199, R226, R246). -/
def State.fetchLine (s : State) (c addr : Nat) : Except MemErr Line × State :=
  match (s.core c).icWay addr with
  | some w =>
    let x := NatMap.get {} (s.core c).ic (icIndex addr w)
    (.ok x.data, s.icPut c addr w x)
  | none => (s.bump c 0x306 1).fillLine c addr

/-- Read `n` bytes of a table in instruction address space, within one line (R226). -/
def State.tableRead (s : State) (c addr n : Nat) : Except MemErr (List Byte) × State :=
  match s.fetchLine c addr with
  | (.ok d, s) => (.ok (((lineBytes d).drop (addr % 64)).take n), s)
  | (.error e, s) => (.error e, s)

/-! ## The branch-target buffer (R203) -/

def btbIndex (addr way : Nat) : Nat := 4 * bitsOf addr 2 4 + way

def Core.btbWay (k : Core) (addr : Nat) : Option Nat :=
  (List.range 4).find? (fun w => let x := NatMap.get {} k.btb (btbIndex addr w); x.valid && x.addr == addr)

def Core.btbVictim (k : Core) (addr : Nat) : Nat :=
  match (List.range 4).find? (fun w => !(NatMap.get {} k.btb (btbIndex addr w)).valid) with
  | some w => w
  | none => (List.range 4).foldl (fun best w =>
      if (NatMap.get {} k.btb (btbIndex addr w)).used < (NatMap.get {} k.btb (btbIndex addr best)).used then w else best) 0

def State.btbPut (s : State) (c addr way : Nat) (x : BtbEntry) : State :=
  s.modCore c (fun k => { k with btb := NatMap.set {} k.btb (btbIndex addr way) { x with used := k.useCount + 1 }, useCount := k.useCount + 1 })

/-- A transfer at `addr` resolves (R203): the counter and target are updated, a taken transfer that missed allocates
with counter 2, and a prediction of the BTB counts as a hit or a miss (R216); a branch not taken that it does not hold
pays nothing and counts as neither. The four words at the target are those the kernel
store holds. -/
def State.btbResolve (s : State) (c addr : Nat) (taken : Bool) (target : Nat) : State :=
  let words := BitVec.ofNat 128 (leNat (s.rawBytes (ksBase (c / 16) + target) 16))
  match (s.core c).btbWay addr with
  | some w =>
    let x := NatMap.get {} (s.core c).btb (btbIndex addr w)
    let right := if taken then decide (x.ctr ≥ 2) && x.target == target else decide (x.ctr < 2)
    let s := if right then s.bump c 0x309 1 else s.bump c 0x30A 1
    if taken then s.btbPut c addr w { x with ctr := min 3 (x.ctr + 1), target := target, words := if x.target = target then x.words else words }
    else s.btbPut c addr w { x with ctr := x.ctr - 1 }
  | none =>
    if taken then
      (s.bump c 0x30A 1).btbPut c addr ((s.core c).btbVictim addr) { valid := true, addr := addr, target := target, ctr := 2, words := words }
    else s

/-! ## Stops and exception entry -/

/-- A core stops with a reason of R225: it keeps its registers, and the stop is reported to the scheduler and in an
error record. A HELD stop may resume (R55, R98), so it does not end the core's part of the launch. -/
def State.stopCore (s : State) (c reason : Nat) : State :=
  let kr := (s.core c).kernel
  let g := c / 16
  let s := s.modCore c (fun k => { k with run := .stopped reason })
  let s := s.logErr { cls := 0, source := 3, code := 1, part := s.ownerByte g, unit := 32 * g + s.physCore g (c % 16), detail := reason }
  if reason = 4 then s else (s.addRun kr.part kr.cmd (s.now - kr.startedAt) kr.traffic).coreEnded kr.part kr.cmd c (.stopped reason)

/-- The INFO word of a frame (R223). -/
def infoWord (cause sub access : Nat) (ds async : Bool) (uidx : Option Nat) (kind : Nat) : Nat :=
  cause + (if ds then 2 ^ 6 else 0) + (if async then 2 ^ 7 else 0) + sub * 2 ^ 8
    + (match uidx with | some j => j * 2 ^ 16 + 2 ^ 21 | none => 0) + access * 2 ^ 22 + kind * 2 ^ 24

/-- STATUS as a word (R219). -/
def CoreCtl.status (k : CoreCtl) : Nat := (if k.priv then 1 else 0) + (if k.ie then 2 else 0)

/-- The 64 bytes of a frame (R223). -/
def frameBytes (epc status g2 eaddr info time frame aux : Nat) : List Byte :=
  natLE 8 epc ++ natLE 8 status ++ natLE 8 g2 ++ natLE 8 eaddr ++ natLE 8 info ++ natLE 8 time ++ natLE 8 frame ++ natLE 8 aux

/-- Element width, registers per group and whether a VSHAPE value is illegal (R147). -/
def shapeFmt (v : Nat) : Nat := v % 16
def shapeSew (v : Nat) : Nat := 8 * 2 ^ bitsOf v 4 2
def shapeGang (v : Nat) : Nat := 2 ^ bitsOf v 6 2
def shapeIll (v : Nat) : Bool :=
  match shapeFmt v with
  | 0 => false
  | 1 => shapeSew v != 64
  | 2 => shapeSew v != 32
  | 3 => shapeSew v != 16
  | 4 => shapeSew v != 16
  | n => decide (n ≥ 0xD) || shapeSew v != 8

/-- VLMAX of a VSHAPE value (R148). -/
def vlmaxOf (v : Nat) : Nat := if shapeIll v then 0 else 8192 * shapeGang v / shapeSew v

/-- Put a VSHAPE value into effect: VLN is clamped to its VLMAX (R148). -/
def CoreCtl.setShape (k : CoreCtl) (v : Nat) : CoreCtl := { k with vshapeEff := v, vln := min k.vln (vlmaxOf v) }

/-- Complete every MODE and VSHAPE change that is still in its shadow (R128, R205). -/
def CoreCtl.settle (k : CoreCtl) : CoreCtl :=
  { k.setShape k.vshape with modeEff := k.mode, modePend := [], vshapePend := [] }

/-- Push a frame: a whole-line store ordered after the core's earlier ones (R224). With the buffer full, the oldest
entry is accepted first. -/
def State.pushFrame (s : State) (c sp : Nat) (bs : List Byte) : State :=
  let s := if (s.core c).sb.length < 8 then s else s.acceptSb c 0
  s.pushSb c (s.scalarEntry c sp bs)

/-- Exception entry (R224). `epc`, `ds` and `async` follow R227. A stopped core has written nothing and changed no
register. -/
def State.enterExc (s : State) (c : Nat) (f : FaultInfo) (epc : Nat) (ds async : Bool) : State :=
  let k := s.core c
  let sp := if k.ctl.priv then (k.gr 2).toNat else k.ssp.toNat
  let base := sp / 64 * 64
  if base < 64 ∨ base - 64 < k.sre.slimit.toNat then s.stopCore c 1
  else
    let nsp := base - 64
    match s.coreCheck c true .write nsp 64 with
    | .error _ => s.stopCore c 2
    | .ok _ =>
      match s.tableRead c (k.sre.evbase.toNat + 8 * f.cause) 8 with
      | (.error _, s) => s.stopCore c 3
      | (.ok v, s) =>
        let info := infoWord f.cause f.sub f.access ds async f.uidx 0
        let s := s.pushFrame c nsp (frameBytes epc k.ctl.status (k.gr 2).toNat f.eaddr info (s.now % 2 ^ 64) s.sht.frame.toNat f.aux)
        let s := s.setG c 2 (BitVec.ofNat 64 nsp)
        s.modCtl c (fun x => { x.settle with priv := true, ie := false, pc := BitVec.ofNat 64 (leNat v), delay := none, resumeUop := none })

/-- A precise fault of the instruction at the PC (R227): in a delay slot it is reported at the transfer with DS. -/
def State.faultAt (s : State) (c : Nat) (f : FaultInfo) : State :=
  let k := (s.core c).ctl
  match k.delay with
  | some d => s.enterExc c f d.addr true false
  | none => s.enterExc c f k.pc.toNat false false

/-! ## Retirement -/

/-- One instruction passes in a shadow (R205): each pending change comes one nearer, and one that has waited for three
takes effect. -/
def passShadow (eff : Nat) : List (Nat × Nat) → Nat × List (Nat × Nat)
  | [] => (eff, [])
  | (v, n) :: l =>
    if n ≤ 1 then passShadow v l
    else
      let r := passShadow eff l
      (r.1, (v, n - 1) :: r.2)

def CoreCtl.pass (k : CoreCtl) : CoreCtl :=
  let m := passShadow k.modeEff k.modePend
  let v := passShadow k.vshapeEff k.vshapePend
  { k.setShape v.1 with modeEff := m.1, modePend := m.2, vshapePend := v.2 }

/-- What happens at the target of a transfer, once its delay slot has executed (R121, R231, R234, R237). -/
def State.arrive (s : State) (c : Nat) (d : Delay) : State :=
  match d.act with
  | .plain => s.modCtl c (fun x => { x with pc := BitVec.ofNat 64 d.target, delay := none })
  | .gate nsp n ret status time frame =>
    let s := s.pushFrame c nsp (frameBytes ret status ((s.core c).gr 2).toNat 0 (infoWord 0 0 0 false false none 1)
      time frame n)
    let s := s.setG c 2 (BitVec.ofNat 64 nsp)
    s.modCtl c (fun x => { x with priv := true, ie := false, pc := BitVec.ofNat 64 d.target, delay := none })
  | .ret status g2 uop =>
    let s := s.setG c 2 g2
    s.modCtl c (fun x => { x with priv := status.getLsbD 0, ie := status.getLsbD 1, pc := BitVec.ofNat 64 d.target,
                                  delay := none, resumeUop := uop })

/-- Past the instruction at the PC: to the next word, or, after a delay slot, to the transfer's target. -/
def State.moveOn (s : State) (c : Nat) : State :=
  match (s.core c).ctl.delay with
  | some d => s.arrive c d
  | none => s.modCtl c (fun x => { x with pc := x.pc + 4 })

/-- A micro-op to resume at (R151) is kept until its address has been reached. -/
def State.endResume (s : State) (c : Nat) (resume : Option (Nat × Nat)) (here : Nat) : State :=
  match resume with
  | some (a, _) => if a = here then s.modCtl c (fun x => if x.resumeUop = resume then { x with resumeUop := none } else x) else s
  | none => s

/-- The instruction at the PC retires: the PC moves on, or, after a delay slot, the transfer arrives. -/
def State.retire (s : State) (c : Nat) : State :=
  let s := s.bump c 0x301 1
  let k := (s.core c).ctl
  (s.moveOn c).endResume c k.resumeUop k.pc.toNat

/-- May the core execute an instruction: it runs a kernel and waits for nothing? -/
def Core.canExecute (k : Core) : Bool := k.run == .running && !k.kernel.waitEv

/-- The core's fetch of the instruction at its PC (R118, R124, R279): a misaligned or unreachable address faults. -/
def fetchFault (pc : Nat) : Option FaultInfo :=
  if pc % 4 ≠ 0 then some (misaligned 3 pc)
  else if pc ≥ 2 ^ 18 then some (busErr .segment 2 pc)
  else none

/-- The g registers that an instruction word writes. -/
def gDests (w : Word) : List Nat :=
  let m := major w
  let f := fFunc w
  if (decide (1 ≤ m) && decide (m ≤ 0x0C)) || (decide (0x10 ≤ m) && decide (m ≤ 0x16)) then [fRd w]
  else if m = 0x2A ∧ cregOp w ≠ 1 then [fRd w]
  else if m = 0x2F ∧ (f ≤ 7 ∨ (0x10 ≤ f ∧ f ≤ 0x1F) ∨ f = 0x30) then [fRd w]
  else if m = 0x35 ∧ (f = 21 ∨ f = 22) then [fRd w]
  else if m = 0x36 ∧ (f = 0 ∨ f = 4 ∨ f = 11) then [fRd w]
  else []

/-- Would writing these registers break the transfer whose delay slot this is (R140, R236)? -/
def Delay.blocks (d : Delay) (rs : List Nat) : Bool := rs.any (fun r => r != 0 && d.guard.contains r)

/-- The instruction in progress has ended: its reads of other devices are forgotten. -/
def State.endRemote (s : State) (c : Nat) : State := s.modCore c (fun k => { k with remote := [] })

/-- An instruction that is no transfer has done its operation: it passes in the shadow and retires (R205). -/
def State.finish (s : State) (c : Nat) : State := ((s.endRemote c).modCtl c CoreCtl.pass).retire c

/-- Execute an instruction that is no transfer: `sem` is its operation. It completes and retires, faults, or waits. The
shadow count passes one instruction that completes; `sem` sees the state before that. In the delay slot of a GATE an
instruction that would write g2 or g10 to g15 is not executed (R236). -/
def State.execute (s : State) (c : Nat) (w : Word) (sem : State → Res) : State :=
  if !(s.core c).canExecute then s
  else match fetchFault (s.core c).ctl.pc.toNat with
    | some f => s.faultAt c f
    | none =>
      if (match (s.core c).ctl.delay with | some d => d.gateSlot && d.blocks (gDests w) | none => false) then
        s.faultAt c (sem s).reservedOrSlot
      else match sem s with
        | .ok t => t.finish c
        | .fault f t => (t.endRemote c).faultAt c f
        | .wait t => t

/-- What a control transfer gives (R120 to R124): where it goes after its delay slot, or a fault, or a wait. -/
inductive TransRes where
  | go (d : Delay) (s : State)
  | fault (f : FaultInfo) (s : State)
  | wait (s : State)

/-- The fault of a transfer that may not execute: RESERVED for a reserved encoding, else SLOT (R112, R122). -/
def TransRes.reservedOrSlot (r : TransRes) : FaultInfo :=
  match r with
  | .fault f _ => if f = illReserved then illReserved else illSlot
  | _ => illSlot

/-- A transfer has executed: it passes in the shadow, and its delay slot comes next. -/
def State.transfer (s : State) (c : Nat) (d : Delay) : State :=
  let s := ((s.endRemote c).modCtl c CoreCtl.pass).bump c 0x301 1
  let k := (s.core c).ctl
  (s.modCtl c (fun x => { x with pc := x.pc + 4, delay := some d })).endResume c k.resumeUop k.pc.toNat

/-- Execute a control transfer: in a delay slot it is not executed and faults SLOT (R122); otherwise its delay slot at
A + 4 comes next (R121). -/
def State.executeTransfer (s : State) (c : Nat) (sem : State → TransRes) : State :=
  if !(s.core c).canExecute then s
  else match fetchFault (s.core c).ctl.pc.toNat with
    | some f => s.faultAt c f
    | none =>
      if (s.core c).ctl.delay.isSome then s.faultAt c (sem s).reservedOrSlot
      else match sem s with
        | .go d t => t.transfer c d
        | .fault f t => (t.endRemote c).faultAt c f
        | .wait t => t

end Sys2Proof.Machine
end

