-- ==== Sys2Proof/Machine/PlateParse.lean ====
section
/-!
DEFINITION. Reading a plate from its bytes (R71 to R83) and the checks of R87 that need the plate alone: MAGIC, FORMAT,
LENGTH, STRUCTURE, CRC, FIELD, TOPOLOGY, OVERLAP and SEGMENT. A check answers the byte offset of the failing field.
-/

namespace Sys2Proof.Machine

/-- One section as it lies in the plate: its header's offset and its body. -/
structure Section where
  ty : Nat
  inst : Nat
  version : Nat
  off : Nat
  reservedZero : Bool
  body : List Byte
  deriving DecidableEq, Repr

/-- The failing offset of the first check that fails. -/
def firstFail : List (Option Nat) → Option Nat
  | [] => none
  | some o :: _ => some o
  | none :: l => firstFail l

/-- Fail at offset `o` unless `b`. -/
def need (b : Bool) (o : Nat) : Option Nat := if b then none else some o

/-- Cut the bytes after the header into sections (R72). -/
def cutSections : Nat → Nat → List Byte → List Section
  | 0, _, _ => []
  | f + 1, off, bs =>
    if bs.length < 16 then []
    else
      let n := fieldLE bs 4 4
      ⟨byteAt bs 0, byteAt bs 1, fieldLE bs 2 2, off, zeroAt bs 8 8, (bs.drop 16).take n⟩ ::
        cutSections f (off + 16 + n) (bs.drop (16 + n))

def plateSections (bs : List Byte) : List Section := cutSections (fieldLE bs 12 2) 64 (bs.drop 64)

/-- The body length of a section type (R73); none for a reserved type and for TRAILER, whose length varies. -/
def bodyLen (ty : Nat) : Option Nat :=
  match ty with
  | 1 => some 80 | 2 => some 16 | 3 => some 320 | 4 => some 512 | 5 => some 288 | 6 => some 4112 | 7 => some 880
  | _ => none

/-- Partition sections in order (R73): PARTITION, SEGMENTS, an optional DECODE, partitions ascending, then TRAILER. The
offset of the first section out of order. `last` is the least partition number still allowed. -/
def partOrder : Nat → Nat → List Section → Option Nat
  | 0, _, _ => some 0
  | f + 1, last, l =>
    match l with
    | [] => some 12
    | s :: r =>
      if s.ty = 15 then (if r.isEmpty then none else some s.off)
      else if s.ty = 3 ∧ last ≤ s.inst ∧ s.inst < 16 then
        match r with
        | g :: r2 =>
          if g.ty = 4 ∧ g.inst = s.inst then
            match r2 with
            | d :: r3 => if d.ty = 6 ∧ d.inst = s.inst then partOrder f (s.inst + 1) r3 else partOrder f (s.inst + 1) r2
            | [] => some 12
          else some g.off
        | [] => some 12
      else some s.off

/-- The order of all sections (R73). -/
def sectionOrder (isPartial : Bool) (l : List Section) : Option Nat :=
  if isPartial then
    (partOrder (l.length + 1) 0 l).or (need (l.any (fun s => s.ty == 3)) 12)
  else
    match l with
    | a :: b :: c :: d :: r =>
      firstFail [need (a.ty == 1 && a.inst == 255) a.off, need (b.ty == 2 && b.inst == 255) b.off,
        need (c.ty == 5 && c.inst == 255) c.off, need (d.ty == 7 && d.inst == 255) d.off, partOrder (l.length + 1) 0 r]
    | _ => some 12

/-- The trailer's section table agrees with the sections (R82). -/
def tableAgrees (tr : Section) (l : List Section) : Option Nat :=
  firstFail ((List.range l.length).map (fun i =>
    match (l.drop i).head? with
    | some s =>
      let e := (tr.body.drop (16 * i)).take 16
      need (byteAt e 0 == s.ty && byteAt e 1 == s.inst && zeroAt e 2 2 && fieldLE e 4 4 == s.off
        && fieldLE e 8 4 == 16 + s.body.length) (tr.off + 16 + 16 * i)
    | none => none))

/-- STRUCTURE of R87. -/
def checkStructure (bs : List Byte) : Option Nat :=
  let l := plateSections bs
  let pre := l.dropLast
  firstFail [
    need (zeroAt bs 14 2) 14, need (zeroAt bs 40 24) 40, need (decide (fieldLE bs 6 2 < 2)) 6,
    need (l.length == fieldLE bs 12 2) 12,
    firstFail (l.map (fun s => need (s.version == 1 && s.reservedZero && (s.ty == 15 || bodyLen s.ty == some s.body.length)) s.off)),
    sectionOrder (bitOf (fieldLE bs 6 2) 0) l,
    match l.getLast? with
    | none => some 12
    | some tr =>
      let n := 16 * pre.length
      firstFail [
        need (tr.ty == 15 && tr.inst == 255) tr.off,
        need (tr.off + 16 + tr.body.length == bs.length) tr.off,
        need (tr.body.length == n + 16 + 208 * byteAt tr.body n) tr.off,
        tableAgrees tr pre ]]

/-- CRC of R87: every section's CRC-32C, over its header and body (R82). -/
def checkCrc (bs : List Byte) : Option Nat :=
  let l := plateSections bs
  match l.getLast? with
  | none => some 12
  | some tr =>
    firstFail ((List.range (l.length - 1)).map (fun i =>
      match (l.drop i).head? with
      | some s =>
        need (fieldLE tr.body (16 * i + 12) 4 == (crc32With 0x82F63B78#32 ((bs.drop s.off).take (16 + s.body.length))).toNat)
          (tr.off + 16 + 16 * i + 12)
      | none => none))

/-! ## Bodies -/

def parseSys (b : List Byte) : SysSec :=
  { deviceNum := byteAt b 0, dimX := byteAt b 1, dimY := byteAt b 2, dimZ := byteAt b 3, tickMaster := byteAt b 4,
    hostMode := byteAt b 5, hostSpeed := byteAt b 6, hostWidth := byteAt b 7, coolant := byteAt b 8,
    stackCount := byteAt b 9,
    ports := (List.range 16).map (fun i =>
      { neighDev := byteAt b (16 + 4 * i), neighPort := byteAt b (17 + 4 * i), connected := byteAt b (18 + 4 * i) == 1 }) }

def parseSht (b : List Byte) : ShtSec :=
  { period := fieldLE b 0 2, guard := fieldLE b 2 2, source := byteAt b 4, pinComp := fieldLE b 6 2 }

def parseLinks (b : List Byte) : LinksSec :=
  { roles := (List.range 16).map (byteAt b), classMin := (List.range 4).map (fun i => byteAt b (16 + i)),
    slices := (List.range 256).map (fun i => byteAt b (32 + i)) }

def parseProt (b : List Byte) : ProtSec :=
  { ownerHash := BitVec.ofNat 384 (beNat (b.take 48)), custodianHash := BitVec.ofNat 384 (beNat ((b.drop 48).take 48)),
    operatorHash := (List.range 16).map (fun i => BitVec.ofNat 384 (beNat ((b.drop (96 + 48 * i)).take 48))),
    window := fieldLE b 864 2, debugPolicy := byteAt b 866, updatePolicy := byteAt b 867, ownerLock := byteAt b 868 }

def parseTimer (b : List Byte) : TimerCfg :=
  { id := fieldLE b 0 2, kind := byteAt b 2, mark := fieldLE b 4 2, period := fieldLE b 8 4 }

def parseSeg (b : List Byte) : Seg :=
  { base := fieldLE b 0 8, size := fieldLE b 8 8, target := fieldLE b 16 8, mode := byteAt b 24, perm := byteAt b 25 }

def parseDecode (b : List Byte) : DecodeTab :=
  { valid := fieldLE b 0 2, uops := (List.range 512).map (fun i => BitVec.ofNat 64 (fieldLE b (16 + 8 * i) 8)) }

def parsePart (b sg dec : List Byte) : PartSec :=
  { num := byteAt b 0, bounds := leNat (b.take 48), spanning := bitOf (byteAt b 1) 0,
    clusters := BitVec.ofNat 256 (fieldLE b 8 32), initRun := byteAt b 48 == 1,
    migrateIn := bitOf (byteAt b 49) 0, test := bitOf (byteAt b 49) 1,
    aperTime := (List.range 6).map (fun i => fieldLE b (64 + 16 * i) 8),
    aperTraf := (List.range 6).map (fun i => fieldLE b (72 + 16 * i) 8),
    inputs := (List.range 5).map (fun i => { edge := byteAt b (160 + 4 * i), mark := fieldLE b (162 + 4 * i) 2 }),
    timers := (List.range 8).map (fun i => parseTimer ((b.drop (192 + 16 * i)).take 16)),
    segs := (List.range 16).map (fun i => parseSeg ((sg.drop (32 * i)).take 32)),
    decode := if dec.isEmpty then {} else parseDecode dec }

/-- The body of the section of a type and partition, empty if absent. -/
def bodyOf (l : List Section) (ty inst : Nat) : List Byte :=
  match l.find? (fun s => s.ty == ty && s.inst == inst) with
  | some s => s.body
  | none => []

/-- The header offset of the section of a type and partition. -/
def offOf (l : List Section) (ty inst : Nat) : Nat :=
  match l.find? (fun s => s.ty == ty && s.inst == inst) with
  | some s => s.off
  | none => 0

/-- The partitions a plate holds sections of, rising. -/
def partNums (l : List Section) : List Nat := (l.filter (fun s => s.ty == 3)).map Section.inst

/-- The PROTECTED digest (R83): the SYSTEM, LINKS and PROTECTION bodies, then every partition's bounds block. -/
def protectedDigest (l : List Section) : BitVec 384 :=
  Config.sha384 (bodyOf l 1 255 ++ bodyOf l 5 255 ++ bodyOf l 7 255 ++
    (List.range 16).flatMap (fun p =>
      if (partNums l).contains p then (bodyOf l 3 p).take 48 else List.replicate 48 0#8))

/-- The digest of the PARTITION scope (R83). -/
def partitionDigest (bs : List Byte) (l : List Section) (p : Nat) : BitVec 384 :=
  Config.sha384 (bs.take 64 ++ (bodyOf l 3 p).drop 48 ++ bodyOf l 4 p ++ bodyOf l 6 p)

/-- The offset of the trailer's signature header. -/
def sigHeaderOff (l : List Section) : Nat := offOf l 15 255 + 16 + 16 * (l.length - 1)

/-- The digest of the FULL scope (R83). -/
def fullDigest (bs : List Byte) (l : List Section) : BitVec 384 := Config.sha384 (bs.take (sigHeaderOff l))

/-- The plate that bytes of sound structure spell. -/
def parsePlate (bs : List Byte) : Plate :=
  let l := plateSections bs
  let isPartial := bitOf (fieldLE bs 6 2) 0
  { isPartial := isPartial, plateId := BitVec.ofNat 128 (fieldLE bs 16 16), generation := fieldLE bs 32 8,
    sys := parseSys (bodyOf l 1 255), sht := parseSht (bodyOf l 2 255), links := parseLinks (bodyOf l 5 255),
    prot := parseProt (bodyOf l 7 255),
    parts := (partNums l).map (fun p => parsePart (bodyOf l 3 p) (bodyOf l 4 p) (bodyOf l 6 p)),
    protDigest := if isPartial then none else some (protectedDigest l) }

/-! ## FIELD (R74 to R81) -/

def sysFields (b : List Byte) (o : Nat) : Option Nat :=
  firstFail ([
    need (decide (1 ≤ byteAt b 1) && decide (byteAt b 1 ≤ 8)) (o + 1), need (decide (1 ≤ byteAt b 2) && decide (byteAt b 2 ≤ 8)) (o + 2),
    need (decide (1 ≤ byteAt b 3) && decide (byteAt b 3 ≤ 4)) (o + 3), need (decide (byteAt b 5 ≤ 1)) (o + 5),
    need (decide (1 ≤ byteAt b 6) && decide (byteAt b 6 ≤ 6)) (o + 6),
    need ([1, 2, 4, 8, 16].contains (byteAt b 7)) (o + 7), need (byteAt b 8 == 1 || byteAt b 8 == 2) (o + 8),
    need (decide (1 ≤ byteAt b 9) && decide (byteAt b 9 ≤ 16)) (o + 9), need (zeroAt b 10 6) (o + 10)]
    ++ (List.range 16).map (fun i =>
      (need (decide (byteAt b (17 + 4 * i) ≤ 15)) (o + 17 + 4 * i)).or
        ((need (decide (byteAt b (18 + 4 * i) ≤ 1)) (o + 18 + 4 * i)).or (need (byteAt b (19 + 4 * i) == 0) (o + 19 + 4 * i)))))

def shtFields (b : List Byte) (o : Nat) : Option Nat :=
  let p := fieldLE b 0 2
  let g := fieldLE b 2 2
  firstFail [need (decide (20 ≤ p) && decide (p ≤ 20000)) o, need (decide (2 ≤ g) && decide (g ≤ 1000) && decide (4 * g ≤ p)) (o + 2),
    need (decide (byteAt b 4 ≤ 2)) (o + 4), need (byteAt b 5 == 0) (o + 5), need (zeroAt b 8 8) (o + 8)]

def linksFields (b : List Byte) (o : Nat) (parts : List Nat) : Option Nat :=
  firstFail ((List.range 16).map (fun i => need (decide (byteAt b i ≤ 6)) (o + i))
    ++ [need (decide (byteAt b 16 + byteAt b 17 + byteAt b 18 + byteAt b 19 ≤ 64)) (o + 16), need (zeroAt b 20 12) (o + 20)]
    ++ (List.range 256).map (fun i => need (byteAt b (32 + i) == 0 || parts.contains (i % 16)) (o + 32 + i)))

def protFields (b : List Byte) (o : Nat) : Option Nat :=
  firstFail [need (decide (30 ≤ fieldLE b 864 2) && decide (fieldLE b 864 2 ≤ 900)) (o + 864), need (decide (byteAt b 866 ≤ 1)) (o + 866),
    need (decide (byteAt b 867 ≤ 1)) (o + 867), need (decide (byteAt b 868 ≤ 1)) (o + 868), need (zeroAt b 869 11) (o + 869)]

def timerFields (t : List Byte) (o : Nat) : Option Nat :=
  let k := byteAt t 2
  firstFail [need (decide (k ≤ 3)) (o + 2), need (k == 0 || decide (fieldLE t 0 2 ≠ 0)) o, need (byteAt t 3 == 0) (o + 3),
    need (decide (fieldLE t 4 2 ≤ 4095)) (o + 4), need (zeroAt t 6 2) (o + 6), need (k == 0 || decide (1 ≤ fieldLE t 8 4)) (o + 8),
    need (zeroAt t 12 4) (o + 12)]

/-- The IDs of the used timers of a PARTITION body. -/
def usedIds (b : List Byte) : List Nat :=
  (((List.range 8).map (fun i => parseTimer ((b.drop (192 + 16 * i)).take 16))).filter (fun t => t.kind != 0)).map TimerCfg.id

def partFields (b : List Byte) (o inst : Nat) : Option Nat :=
  firstFail ([need (byteAt b 0 == inst) o, need (decide (byteAt b 1 ≤ 1)) (o + 1), need (zeroAt b 2 6) (o + 2),
    need (!zeroAt b 8 32) (o + 8), need (zeroAt b 40 8) (o + 40), need (decide (byteAt b 48 ≤ 1)) (o + 48),
    need (decide (byteAt b 49 ≤ 3)) (o + 49), need (zeroAt b 50 14) (o + 50)]
    ++ (List.range 6).map (fun i => (need (zeroAt b (69 + 16 * i) 3) (o + 64 + 16 * i)).or
        (need (decide (fieldLE b (72 + 16 * i) 8 < 2 ^ 36)) (o + 72 + 16 * i)))
    ++ (List.range 5).map (fun i => (need (decide (byteAt b (160 + 4 * i) ≤ 3)) (o + 160 + 4 * i)).or
        ((need (byteAt b (161 + 4 * i) == 0) (o + 161 + 4 * i)).or (need (decide (fieldLE b (162 + 4 * i) 2 ≤ 4095)) (o + 162 + 4 * i))))
    ++ [need (zeroAt b 180 12) (o + 180)]
    ++ (List.range 8).map (fun i => timerFields ((b.drop (192 + 16 * i)).take 16) (o + 192 + 16 * i))
    ++ [need (decide (usedIds b).Nodup) (o + 192)])

/-- The field rules of one segment entry (R80, R356); `n` granules. -/
def segFields (t : List Byte) (o n : Nat) : Option Nat :=
  let g := parseSeg t
  firstFail [need (g.base % 4096 == 0) o, need (g.size % 4096 == 0 && (decide (g.size ≠ 0) || g.mode == 0)) (o + 8),
    need (g.target % 4096 == 0) (o + 16), need (decide (g.mode ≤ 3)) (o + 24), need (decide (g.perm ≤ 7)) (o + 25),
    need (zeroAt t 26 6) (o + 26), need (decide (g.base + g.size ≤ 2 ^ 48)) o,
    need (g.mode != 1 || (decide (g.size % (n * 4096) = 0) && decide (g.target < 2 ^ 44)
      && [0, 0x800, 0x810].contains (bitsOf g.target 32 12))) (o + 8),
    need (g.mode != 2 || decide (g.target < 2 ^ 31)) (o + 16), need (g.mode != 3 || decide (g.target < 2 ^ 52)) (o + 16)]

/-- Do two valid segments overlap (R80)? -/
def segsOverlap (a b : Seg) : Bool :=
  a.mode != 0 && b.mode != 0 && decide (a.base < b.base + b.size) && decide (b.base < a.base + a.size)

def segsFields (sg : List Byte) (o n : Nat) : Option Nat :=
  let l := (List.range 16).map (fun i => parseSeg ((sg.drop (32 * i)).take 32))
  firstFail ((List.range 16).map (fun i =>
    (segFields ((sg.drop (32 * i)).take 32) (o + 32 * i) n).or
      (need (!(l.take i).any (fun x => segsOverlap x ((l.drop i).headD {}))) (o + 32 * i))))

def decodeFields (b : List Byte) (o : Nat) : Option Nat := need (b.isEmpty || zeroAt b 2 14) (o + 2)

/-- FIELD of R87. -/
def checkFields (bs : List Byte) : Option Nat :=
  let l := plateSections bs
  let ps := partNums l
  let isPartial := bitOf (fieldLE bs 6 2) 0
  firstFail ((if isPartial then [] else [
      sysFields (bodyOf l 1 255) (offOf l 1 255 + 16), shtFields (bodyOf l 2 255) (offOf l 2 255 + 16),
      linksFields (bodyOf l 5 255) (offOf l 5 255 + 16) ps, protFields (bodyOf l 7 255) (offOf l 7 255 + 16)])
    ++ ps.map (fun p =>
      let b := bodyOf l 3 p
      (partFields b (offOf l 3 p + 16) p).or
        ((segsFields (bodyOf l 4 p) (offOf l 4 p + 16) (popcount 256 (fieldLE b 8 32))).or
          (decodeFields (bodyOf l 6 p) (offOf l 6 p + 16)))))

/-! ## TOPOLOGY, OVERLAP and SEGMENT -/

/-- TOPOLOGY of R87, for a full plate: device numbers, the source rule of R75, roles and EXPECT of R76. -/
def checkTopology (pl : Plate) (l : List Section) : Option Nat :=
  let o := offOf l 1 255 + 16
  let n := pl.sys.dimX * pl.sys.dimY * pl.sys.dimZ
  firstFail ([need (decide (pl.sys.deviceNum < n)) o, need (decide (pl.sys.tickMaster < n)) (o + 4),
    need ((pl.sht.source == 0) == (pl.sys.tickMaster == pl.sys.deviceNum)) (offOf l 2 255 + 16 + 4)]
    ++ (List.range 16).map (fun i =>
      need (((pl.links.roles.drop i).headD 0 != 0) == ((pl.sys.ports.drop i).headD {}).connected) (offOf l 5 255 + 16 + i)))

/-- The device slice of a port (R76): 64 units less the partition slices. -/
def partSliceSum (lk : LinksSec) (q : Nat) : Nat := ((lk.slices.drop (16 * q)).take 16).sum

/-- OVERLAP of R87: device slices of R76, clusters and inputs of R78. -/
def checkOverlap (pl : Plate) (l : List Section) (all : List PartSec) : Option Nat :=
  firstFail ((if pl.isPartial then [] else
      (List.range 16).map (fun q => need (decide (partSliceSum pl.links q + 8 ≤ 64)) (offOf l 5 255 + 16 + 32 + 16 * q)))
    ++ pl.parts.map (fun q => need (all.all (fun r => r.num == q.num || q.clusters &&& r.clusters == 0#256)) (offOf l 3 q.num + 16 + 8))
    ++ pl.parts.flatMap (fun q => (List.range 5).map (fun i =>
        need (((q.inputs.drop i).headD {}).edge == 0 || all.all (fun r => r.num == q.num || ((r.inputs.drop i).headD {}).edge == 0))
          (offOf l 3 q.num + 16 + 160 + 4 * i))))

/-- The end of granule `g`'s piece of a space (R358). -/
def State.pieceSize (s : State) (space g : Nat) : Nat :=
  if space = 0x800 then 2 ^ 21 else if space = 0x810 then 2 ^ 18 else if s.oneChan g then 2 ^ 31 else 2 ^ 32

/-- Does `[a, a + n)` lie in one piece of a granule the partition owns, in one of the three spaces (R358)? The pieces
of neighbouring owned granules in DRAM join. An excluded granule, whose partition is not created (R96), is judged whole. -/
def State.ownsRange (s : State) (q : PartSec) (a n : Nat) : Bool :=
  let piece := fun x => match regionOf x with
    | .dram g _ => q.owns g && (s.granExcluded g || s.backed x)
    | .tray g _ => q.owns g
    | .ks g _ => q.owns g
    | _ => false
  let step := if a < 0x10000000000 then 2 ^ 31 else 2 ^ 18
  -- every granule's piece is a multiple of `step` bytes, so testing each block it meets tests every byte
  (List.range (n / step + 2)).all (fun i =>
    let x := if i = 0 then a else (a / step + i) * step
    decide (a + n ≤ x) || piece x)

/-- Can segment `g` reach only bytes the partition owns (R80, R358)? `dev` is this device's number. -/
def State.segOwned (s : State) (q : PartSec) (g : Seg) (dev : Nat) : Bool :=
  if g.mode = 1 then
    let space := bitsOf g.target 32 12
    let slice := g.size / q.granules.length
    q.granules.all (fun x => decide (g.target % 2 ^ 32 + slice ≤ s.pieceSize space x))
  else if g.mode = 2 then
    let m := (q.granules.map (fun x => if s.granExcluded x then 2 else (s.chansOf x).length)).sum
    decide (m > 0) && decide (g.target % 2 ^ 31 + ceilDiv (g.size / 4096) m * 4096 ≤ 2 ^ 31)
  else if g.mode = 3 then
    let lo := dev * 2 ^ 44
    let a := max g.target lo
    let b := min (g.target + g.size) (lo + 2 ^ 44)
    decide (g.target + g.size ≤ 2 ^ 52) && (q.spanning || decide (lo ≤ g.target ∧ g.target + g.size ≤ lo + 2 ^ 44))
      && (decide (b ≤ a) || s.ownsRange q (a - lo) (b - a))
  else true

/-- SEGMENT of R87. -/
def State.checkSegments (s : State) (pl : Plate) (l : List Section) (dev : Nat) : Option Nat :=
  firstFail (pl.parts.flatMap (fun q => (List.range 16).map (fun i =>
    need (s.segOwned q ((q.segs.drop i).headD {}) dev) (offOf l 4 q.num + 16 + 32 * i))))

end Sys2Proof.Machine
end

