-- ==== Sys2Proof/Machine/Records.lean ====
section
/-!
DEFINITION. Which records pass the checks before admission (R263), class by class (R271 to R278, R302, R326, R327, R342),
and what a command is charged for (R39 to R43).
-/

namespace Sys2Proof.Machine

/-! ## Units and charges (R271) -/

/-- The executing units a command names (R271). -/
def State.unitsOf (s : State) (r : Line) : List Nat :=
  match recClass r with
  | 0 => launchCores r
  | 1 => [moverUnit (fld r 32 1)]
  | 2 => [fixerUnit (fld r 32 1)]
  | 3 => (rduTiles r).map tileUnit
  | 4 => [grainUnit (fld r 32 1)]
  | 5 => [linkUnit (s.routePort (fld r 32 1))]
  | _ => []

/-- How many units a command is charged for (R41, R271). -/
def unitCount (r : Line) : Nat :=
  match recClass r with
  | 0 => (fld r 37 1 + 1) * popcount 16 (fld r 38 2)
  | 3 => popcount 16 (fld r 56 2)
  | 6 => 0
  | _ => 1

/-! ## Check 3: fields, in ascending offset order -/

/-- Header fields (R261, R263, R278), and the rule that a LNK command needs SPANNING (R277), taken at CLASS. -/
def headerFields (r : Line) (spanning : Bool) : List (Option Nat) :=
  let syn := recClass r == 6
  let cev := bitOf (recFlags r) 4
  [need (decide (fld r 1 1 < 16) && (recClass r != 5 || spanning)) 1,
   need (decide (recFlags r < 2 ^ 9) && (!cev || recClass r == 1 || recClass r == 2 || recClass r == 4)) 2,
   need (!syn || recDeclNs r == 0) 8, need (!syn || recDeclBytes r == 0) 12,
   need (decide (recW0 r < 4096)) 18, need (decide (recW1 r < 4096)) 20, need (decide (recSig r < 4096)) 22]

/-- LAUNCH (R272). -/
def krnFields (r : Line) : List (Option Nat) :=
  [need (fld r 32 4 % 4 == 0 && decide (fld r 32 4 < 2 ^ 18)) 32, need (decide (fld r 36 1 + fld r 37 1 + 1 ≤ 256)) 37,
   need (decide (fld r 38 2 ≠ 0)) 38, need (decide (fld r 40 1 < 4)) 40, need (fld r 41 7 == 0) 41]

/-- The fields of a MOV record (R273). -/
def movAux (r : Line) : Nat := fld r 33 1
def movA (r : Line) : Nat := fld r 34 6
def movB (r : Line) : Nat := fld r 40 6
def movC (r : Line) : Nat := fld r 46 6
def movN (r : Line) : Nat := fld r 52 4
def movP (r : Line) : Nat := fld r 56 4
def movQ (r : Line) : Nat := fld r 60 4

/-- A field that must be 0. -/
def zeroFld (r : Line) (lo n : Nat) : Option Nat := need (fld r lo n == 0) lo

/-- MOV (R273, R326, R327). -/
def movFields (r : Line) : List (Option Nat) :=
  match recOpcode r with
  | 0 => [zeroFld r 33 1, zeroFld r 46 6, zeroFld r 56 4, zeroFld r 60 4]
  | 1 => [zeroFld r 33 1, need (decide (movC r < 2 ^ 32)) 46]
  | 2 => [need (decide (movAux r ≤ 6)) 33, zeroFld r 56 4, zeroFld r 60 4]
  | 3 => [need (decide (movAux r ≤ 6)) 33, zeroFld r 56 4, zeroFld r 60 4]
  | 4 => [zeroFld r 33 1, zeroFld r 34 6, zeroFld r 46 6]
  | 5 => [need (decide (movAux r ≤ 7)) 33, need (movA r % 16 == 0) 34, need (movB r % 16 == 0) 40, need (movC r % 4 == 0) 46,
          need (movN r % 16 == 0 && decide (16 ≤ movN r)) 52, zeroFld r 56 4, zeroFld r 60 4]
  | 6 => [zeroFld r 33 1, need (movA r % 16 == 0) 34, need (movB r % 16 == 0) 40, need (movC r % 4 == 0) 46,
          need (decide (1 ≤ movN r) && decide (movN r + movP r ≤ 2 ^ 32 - 1)) 52, need (decide (movP r ≤ 2 ^ 32 - 2)) 56, zeroFld r 60 4]
  | _ => [zeroFld r 33 1, need (movB r % 64 == 0 && decide (movB r < 2 ^ 18)) 40, zeroFld r 46 6,
          need (movN r % 64 == 0 && decide (movB r % 2 ^ 18 + movN r ≤ 2 ^ 18)) 52, zeroFld r 56 4, zeroFld r 60 4]

/-- FIX (R274, R288). -/
def fixFields (r : Line) : List (Option Nat) :=
  [zeroFld r 33 1, zeroFld r 36 4, need (fld r 40 6 % 64 == 0) 40, zeroFld r 46 2]

/-- May a reduction give OUT from IN (R302)? -/
def rfmtOk (op i o : Nat) : Bool :=
  decide (i ≤ 5) && decide (o ≤ 5) && (if op = 0 then (if i ≤ 3 then decide (o ≤ 1) else decide (4 ≤ o)) else o == i)

/-- RDU (R275, R301, R302, R305, R312). -/
def rduFields (q : PartSec) (r : Line) : List (Option Nat) :=
  let isOpen := recOpcode r == 0
  let op := fld r 40 1 % 16
  let topk := op == 3 || op == 4
  let i := fld r 41 1 % 16
  let scope := fld r 42 1
  let k := fld r 44 2
  let w := fld r 52 4
  let tiles := rduTiles r
  let shares := ((tiles.map q.tileShare).filter (· != 0)) ++ (if scope = 0 then [] else [q.rootShare])
  [need (!isOpen || decide (1 ≤ fld r 38 2)) 38, need (decide (op ≤ 4) && decide (fld r 40 1 < 64)) 40,
   need (rfmtOk op i (fld r 41 1 / 16)) 41, need (decide (scope ≤ 2) && (scope != 2 || q.spanning)) 42, zeroFld r 43 1,
   need (if topk then decide (1 ≤ k) && decide (k ≤ 1024) else k == 0) 44,
   need (if isOpen then fld r 46 6 % 16 == 0 else fld r 46 6 % rfmtSize i == 0) 46,
   need (!isOpen || (if topk then w == 1 else decide (1 ≤ w) && shares.all (fun x => decide (w ≤ x)))) 52,
   need (if isOpen then decide (tiles ≠ []) && (scope != 0 || tiles.length == 1) else tiles.length == 1) 56,
   zeroFld r 58 6]

/-- GRN fields (R276). -/
def grnStream (r : Line) : Nat := fld r 33 1
def grnDst (r : Line) : Nat := fld r 34 6
def grnSrc (r : Line) : Nat := fld r 40 6
def grnCount (r : Line) : Nat := fld r 46 4
def grnPa (r : Line) : Nat := fld r 50 4
def grnPb (r : Line) : Nat := fld r 54 4
def grnK (r : Line) : Nat := fld r 58 2

/-- Is an FP32 bit pattern +0 or a positive finite number? -/
def posFinite (v : Nat) : Bool := decide (v < 0x7F800000)
/-- Is it finite? -/
def finite32 (v : Nat) : Bool := decide (v % 2 ^ 31 < 0x7F800000)
/-- The value size of a GRN format code (R342). -/
def grnSize (k : Nat) : Nat :=
  match k with
  | 0 => 8 | 1 => 4 | _ => 2

/-- GRN (R276, R342). -/
def grnFields (r : Line) : List (Option Nat) :=
  let stream := need (decide (grnStream r ≤ 31)) 33
  let row := need (decide (1 ≤ grnCount r) && decide (grnCount r ≤ 262144)) 46
  let some_ := need (decide (1 ≤ grnCount r)) 46
  (match recOpcode r with
  | 0 =>
    let m := grnCount r
    [stream, need (if m = 2 then grnDst r % 16 == 0 else grnDst r == 0) 34, need (if m = 1 then grnSrc r % 16 == 0 else grnSrc r == 0) 40,
     need (decide (m ≤ 2)) 46, need (m == 0 || grnPa r == 0) 50, need (m == 0 || grnPb r == 0) 54, zeroFld r 58 2]
  | 1 => [stream, need (grnDst r % 8 == 0) 34, zeroFld r 40 6, some_, zeroFld r 50 4, zeroFld r 54 4, zeroFld r 58 2]
  | 2 => [stream, zeroFld r 40 6, some_, need (decide (grnPa r < 2 ^ 16)) 50, zeroFld r 54 4, zeroFld r 58 2]
  | 3 => [stream, need (grnDst r % grnSize (grnK r) == 0) 34, zeroFld r 40 6, some_, zeroFld r 50 4, zeroFld r 54 4, need (decide (grnK r ≤ 3)) 58]
  | 4 => [stream, need (grnDst r % grnSize (grnK r) == 0) 34, zeroFld r 40 6, some_, need (finite32 (grnPa r)) 50, need (posFinite (grnPb r)) 54,
          need (decide (grnK r ≤ 3)) 58]
  | 5 => [stream, need (grnDst r % 4 == 0) 34, need (grnSrc r % 4 == 0) 40, row, need (decide (1 ≤ grnPa r) && decide (grnPa r ≤ 1024)) 50,
          zeroFld r 54 4, zeroFld r 58 2]
  | 6 => [stream, need (grnDst r % 16 == 0) 34, need (grnSrc r % 4 == 0) 40, row, need (posFinite (grnPa r)) 50,
          need (decide (1 ≤ grnPb r) && decide (grnPb r ≤ 0x3F800000)) 54, need (decide (grnK r ≤ 1024)) 58]
  | _ => [zeroFld r 33 1, need (grnDst r % 16 == 0) 34, need (grnSrc r % 4 == 0) 40, row, zeroFld r 50 4, zeroFld r 54 4,
          need (decide (1 ≤ grnK r) && decide (grnK r ≤ 1024)) 58]) ++ [zeroFld r 60 4]

/-- LNK (R277); `dev` is this device's number. -/
def lnkFields (dev : Nat) (r : Line) : List (Option Nat) :=
  [need (fld r 32 1 != dev) 32, need (decide (fld r 33 1 < 2)) 33, need (decide (fld r 46 2 < 4096)) 46, zeroFld r 52 12]

/-- SYN (R277). -/
def synFields (r : Line) : List (Option Nat) :=
  match recOpcode r with
  | 0 => [zeroFld r 32 32]
  | 1 => [need (decide (fld r 32 2 < 4096)) 32, zeroFld r 34 2, zeroFld r 40 24]
  | 2 => [need (decide (fld r 32 2 < 4096)) 32, zeroFld r 34 6, zeroFld r 48 16]
  | 3 => [zeroFld r 38 26]
  | 4 => [zeroFld r 32 32]
  | 5 => [zeroFld r 34 30]
  | _ => [zeroFld r 33 1, need (decide (fld r 36 1 < 8)) 36, zeroFld r 37 27]

/-- Is OPCODE defined for the class (R271 to R277)? -/
def opcodeKnown (cls op : Nat) : Bool :=
  match cls with
  | 0 => op == 0 | 1 => decide (op ≤ 7) | 2 => op == 0 | 3 => decide (op ≤ 1) | 4 => decide (op ≤ 7) | 5 => decide (op ≤ 1)
  | _ => decide (op ≤ 6)

/-! ## Check 4: targets -/

/-- The offset of the field that names a unit the partition does not own (R263); `lane` is the granule of the core whose
FIXQ lane holds the record (R265). -/
def targetCheck (q : PartSec) (lane : Option Nat) (r : Line) : Option Nat :=
  match recClass r with
  | 0 => need ((List.range (fld r 37 1 + 1)).all (fun i => q.owns (fld r 36 1 + i))) 36
  | 3 => need ((rduTiles r).all (fun t => decide (q.tileShare t ≠ 0))) 56
  | 5 => none
  | 6 =>
    if recOpcode r = 5 then need (q.timers.any (fun t => t.kind == 1 && t.id == fld r 32 2)) 32
    else if recOpcode r = 6 then need (q.owns (fld r 32 1)) 32
    else none
  | _ => need (q.owns (fld r 32 1) && (match lane with | some g => g == fld r 32 1 | none => true)) 32

/-! ## Check 5: the four tests of R43 -/

/-- The first failing test, 1 to 4. An aperture of 0 in either part fails its test for every command of its class (R39). -/
def costTest (q : PartSec) (openNs : Nat) (r : Line) : Option Nat :=
  let c := recClass r
  let t := (q.aperTime.drop c).headD 0
  let b := (q.aperTraf.drop c).headD 0
  let syn := c == 6
  if !syn && (decide (timeCharge r (unitCount r) > t) || t == 0) then some 1
  else if !syn && (decide (trafCharge r > b) || b == 0) then some 2
  else if recDeclNs r > openNs then some 3
  else if !syn && recDeclNs r == 0 then some 4
  else none

/-- The fields of the record's class, in ascending offset order. -/
def classFields (q : PartSec) (dev : Nat) (r : Line) : List (Option Nat) :=
  match recClass r with
  | 0 => krnFields r
  | 1 => movFields r
  | 2 => fixFields r
  | 3 => rduFields q r
  | 4 => grnFields r
  | 5 => lnkFields dev r
  | _ => synFields r

/-- The nanoseconds of the open phase (R35). -/
def State.openNs (s : State) : Nat := 1000 * (s.sht.period - s.sht.guard)

/-- The checks of R263 in order. -/
def State.checkRecord (s : State) (p : Nat) (lane : Option Nat) (r : Line) : Verdict :=
  let q := s.psecD p
  if decide (recClass r > 6) || (lane.isSome && recClass r != 2) then .reject 4 0
  else if !opcodeKnown (recClass r) (recOpcode r) then .reject 5 0
  else match firstFail (headerFields r q.spanning ++ classFields q s.dev r) with
    | some o => .reject 6 o
    | none =>
      match targetCheck q lane r with
      | some o => .reject 7 o
      | none =>
        match costTest q s.openNs r with
        | some n => .reject 3 n
        | none => .pass

end Sys2Proof.Machine
end

