-- ==== Sys2Proof/Machine/Scheduler.lean ====
section
/-!
DEFINITION. The scheduler of a partition (R258 to R284): doorbells, record copies, duplicates, admission (R43 to R47) and
completion (R48, R267 to R270, R278).
-/

namespace Sys2Proof.Machine

/-! ## Queues, completion queues and the partition session -/

def State.sq (s : State) (p q : Nat) : SQ := NatMap.get {} (s.sch p).sq q
def State.modSq (s : State) (p q : Nat) (f : SQ → SQ) : State :=
  s.modSch p (fun x => { x with sq := NatMap.upd {} x.sq q f })
def State.cq (s : State) (p c : Nat) : CQ := NatMap.get {} (s.sch p).cq c
def State.modCq (s : State) (p c : Nat) (f : CQ → CQ) : State :=
  s.modSch p (fun x => { x with cq := NatMap.upd {} x.cq c f })

/-- The fields of Q_CFG and CQ_CFG (R283, R284). -/
def cfgLog (w : Word) : Nat := w.toNat % 32
def cfgSpace (w : Word) : Bool := w.getLsbD 5
def cfgCq (w : Word) : Nat := bitsOf w.toNat 6 5
def cfgVector (w : Word) : Nat := bitsOf w.toNat 6 6
def cfgOk (w : Word) : Bool := decide (4 ≤ cfgLog w) && decide (cfgLog w ≤ 16)

/-- The base of a ring. -/
def ringBase (lo hi : Word) : Nat := lo.toNat + 2 ^ 32 * hi.toNat

def State.sess (s : State) (p : Nat) : PSess := NatMap.get {} s.psess p
def State.modSess (s : State) (p : Nat) (f : PSess → PSess) : State := { s with psess := NatMap.upd {} s.psess p f }
def State.sessionOpen (s : State) (p : Nat) : Bool := (s.sess p).state == .opened

/-- An access to scheduler register `off` without a session (R260): dropped, counted, recorded. -/
def State.noSession (s : State) (p off : Nat) : State :=
  ((s.incReg (schKey p 0x18)).schEvent p 0).logErr { cls := 0, source := 4, code := 1, part := p, unit := p + 1, aux := 0x10000 + off }

/-- Carry out a write of a scheduler register under the session rule (R260). -/
def State.gated (s : State) (p off : Nat) (f : State → State) : State :=
  s.vfWrite p (fun s => if s.sessionOpen p then f s else s.noSession p off)

/-! ## Completion queues (R268, R269) -/

/-- Can a slot of the queue be reserved? -/
def CQ.hasRoom (c : CQ) : Bool := decide ((c.tail - c.head).toNat + c.reserved < 2 ^ cfgLog c.cfg)
def State.cqRoom (s : State) (p c : Nat) : Bool := (s.cq p c).en && (s.cq p c).hasRoom

def State.cqReserve (s : State) (p c : Nat) : State := s.modCq p c (fun q => { q with reserved := q.reserved + 1 })

/-- Is a slot reserved in run `run` of the queue still there? -/
def State.cqLive (s : State) (p c run : Nat) : Bool := (s.cq p c).en && (s.cq p c).run == run

/-- Give a reserved slot back. -/
def State.cqRelease (s : State) (p c run : Nat) : State :=
  if s.cqLive p c run then s.modCq p c (fun q => { q with reserved := q.reserved - 1 }) else s

/-- A completion record (R269) less PHASE. -/
def cqRecord (seq queue cls op status time frame detail unit : Nat) (late : Bool) : BitVec 256 :=
  BitVec.ofNat 256 (seq + queue * 2 ^ 32 + cls * 2 ^ 40 + op * 2 ^ 48 + status * 2 ^ 56 + (time % 2 ^ 64) * 2 ^ 64
    + (frame % 2 ^ 64) * 2 ^ 128 + (detail % 2 ^ 32) * 2 ^ 192 + unit * 2 ^ 224 + (if late then 2 ^ 250 else 0))

/-- RFLAGS.REPOST. -/
def repostBit : BitVec 256 := BitVec.twoPow 256 249

/-- Write 32 bytes of a completion queue's ring: to host memory, which needs the function's Bus Master Enable (R431), or at
a partition address. -/
def State.cqWrite (s : State) (p : Nat) (c : CQ) (a : Nat) (bs : List Byte) : Bool × State :=
  if cfgSpace c.cfg then
    match s.writePart p .engine a bs with
    | (.ok _, s) => (true, s)
    | (.error _, s) => (false, s)
  else if (s.fn (p + 1)).busMaster then (true, s.emit (.hostWrite (p + 1) a bs))
  else (false, s)

/-- Post a record in a slot that is reserved: its data, then the vector (R255, R269). A write that fails still counts
(R284). -/
def State.cqPost (s : State) (p c : Nat) (r : BitVec 256) (irq : Bool) : State :=
  let q := s.cq p c
  let n := cfgLog q.cfg
  let i := q.tail.toNat
  let phase := (i / 2 ^ n) % 2 == 0
  let r := if phase then r ||| BitVec.twoPow 256 248 else r
  let w := s.cqWrite p q (ringBase q.baseLo q.baseHi + 32 * (i % 2 ^ n)) (natLE 32 r.toNat)
  let s := if w.1 then w.2 else
    (w.2.modCq p c (fun q => { q with writeErr := true })).logErr { cls := 0, source := 4, code := 3, part := p, unit := c }
  let s := s.modCq p c (fun q => { q with tail := q.tail + 1#32, reserved := q.reserved - 1 })
  if (irq && q.irqEn.getLsbD 0) || q.irqEn.getLsbD 1 then s.requestMsix (p + 1) (cfgVector q.cfg) else s

/-- Post in a slot reserved in run `run`, unless that run of the queue is over. -/
def State.cqPostIn (s : State) (p c run : Nat) (r : BitVec 256) (irq : Bool) : State :=
  if s.cqLive p c run then s.cqPost p c r irq else s

/-! ## Doorbells and control writes -/

/-- Q_TAIL_WRITE (R259, R260): the doorbell. -/
def State.qTail (s : State) (p q : Nat) (x : Word) : State :=
  s.gated p (0x1000 + 64 * q + 0x1C) (fun s =>
    let k := s.sq p q
    if !k.en then s
    else if decide ((x - k.head).toNat ≤ 2 ^ cfgLog k.cfg) && decide ((x - k.tail).toNat < 2 ^ 31) then
      s.modSq p q (fun k => { k with tail := x })
    else (s.modSq p q (fun k => { k with tailBad := true })).schEvent p 2)

def execQTailWrite (p q : Nat) (x : Word) (s : State) : Host.Outcome State Fault Refusal := ok (s.qTail p q x)

/-- Keep what the queue will repeat of an accepted record (R262). -/
def State.keepDone (s : State) (p q seq : Nat) (r : BitVec 256) : State :=
  s.modSq p q (fun k => { k with accepted := k.accepted.map (fun a => if a.seq = seq then { a with done := some r } else a) })

/-- The record of a command or record of queue `q`, completed now. -/
def State.recordOf (s : State) (q : Nat) (r : Line) (status detail unit : Nat) (late : Bool) : BitVec 256 :=
  cqRecord (if q = 255 then 0 else recSeq r) q (recClass r) (recOpcode r) status s.now s.sht.frame.toNat detail unit late

/-- Signal a record's mark (R267). -/
def State.signal (s : State) (p : Nat) (r : Line) (status : Nat) : State :=
  if recSigAdd r ≠ 0 && (status == 0 || bitOf (recFlags r) 8) then s.addMark p (recSig r) (recSigAdd r) else s

/-- UNIT of a completion record (R269). -/
def Cmd.unitField (c : Cmd) (status : Nat) : Nat :=
  let r := c.image
  let ofCore := fun u : Nat => u / 16 + 256 * (u % 16)
  if c.queue = 255 then ofCore c.laneCore
  else match recClass r with
    | 0 =>
      if status = 0x0A then
        match c.units.find? (fun u => match NatMap.get .notStarted c.ends u with | .stopped _ => true | _ => false) with
        | some u => ofCore u
        | none => 0
      else ofCore (c.units.headD 0)
    | 3 => 16 * (rduTiles r).headD 0
    | 5 => 0
    | 6 => 0
    | _ => fld r 32 1

/-- A record copied and not admitted when its queue is disabled (R283): ABORTED, posted where a slot is free. -/
def State.abortCopied (s : State) (p q : Nat) (c : Copied) : State :=
  match c.verdict with
  | .dup => s
  | v =>
    let unit := if v = .pass then ({ queue := q, image := c.image, units := s.unitsOf c.image } : Cmd).unitField 2 else 0
    let r := s.recordOf q c.image 2 0 unit false
    let cq := cfgCq (s.sq p q).cfg
    let s := if s.cqRoom p cq then (s.cqReserve p cq).cqPost p cq r (bitOf (recFlags c.image) 3) else s
    let s := s.keepDone p q (recSeq c.image) r
    if v = .pass then s.signal p c.image 2 else s

/-- Disable queue `q` (R283). -/
def State.disableQueue (s : State) (p q : Nat) : State :=
  let s := (s.sq p q).copied.foldl (fun s c => s.abortCopied p q c) s
  s.modSq p q (fun k => { k with en := false, state := .off, wign := false, copied := [] })

/-- Give back the slots that duplicates of a queue still hold. -/
def State.dropWaiters (s : State) (p q : Nat) : State :=
  ((s.sq p q).accepted.flatMap Accepted.waiters).foldl (fun s w => s.cqRelease p w.2.1 w.1) s

/-- Enable queue `q`, or refuse its configuration (R259, R283). -/
def State.enableQueue (s : State) (p q : Nat) : State :=
  let k := s.sq p q
  if k.en then s
  else if cfgOk k.cfg && decide (k.baseLo.toNat % 64 = 0) then
    (s.dropWaiters p q).modSq p q (fun k =>
      { k with en := true, state := .active, tailBad := false, wign := false, cfgErr := false, tail := 0, head := 0,
               lastSeq := 0xFFFFFFFF, copied := [], accepted := [] })
  else s.modSq p q (fun k => { k with cfgErr := true })

/-- Q_CTRL_WRITE (R259, R283). -/
def State.qCtrl (s : State) (p q : Nat) (x : Word) : State :=
  s.gated p (0x1000 + 64 * q + 4) (fun s => if x.getLsbD 0 then s.enableQueue p q else s.disableQueue p q)

def execQCtrlWrite (p q : Nat) (x : Word) (s : State) : Host.Outcome State Fault Refusal := ok (s.qCtrl p q x)

/-- Enable completion queue `c`, with its counts at 0, or refuse its configuration (R284). -/
def State.enableCq (s : State) (p c : Nat) : State :=
  let k := s.cq p c
  if k.en then s
  else if cfgOk k.cfg && decide (k.baseLo.toNat % 32 = 0) then
    s.modCq p c (fun k => { k with en := true, wign := false, cfgErr := false, writeErr := false, tail := 0, head := 0,
                                   reserved := 0, run := k.run + 1 })
  else s.modCq p c (fun k => { k with cfgErr := true })

/-- CQ_CTRL_WRITE (R284). -/
def State.cqCtrl (s : State) (p c : Nat) (x : Word) : State :=
  s.gated p (0x1800 + 64 * c + 4) (fun s =>
    if x.getLsbD 0 then s.enableCq p c else s.modCq p c (fun k => { k with en := false, wign := false }))

def execCqCtrlWrite (p c : Nat) (x : Word) (s : State) : Host.Outcome State Fault Refusal := ok (s.cqCtrl p c x)

/-- CQ_HEAD_WRITE (R284): slots are freed. -/
def State.cqHead (s : State) (p c : Nat) (x : Word) : State :=
  s.gated p (0x1800 + 64 * c + 0x20) (fun s =>
    let k := s.cq p c
    if (k.tail - x).toNat ≤ 2 ^ cfgLog k.cfg then s.modCq p c (fun k => { k with head := x }) else s)

def execCqHeadWrite (p c : Nat) (x : Word) (s : State) : Host.Outcome State Fault Refusal := ok (s.cqHead p c x)

/-- MK_ADD (R267, R282): an amount of 0 is ignored. -/
def State.mkAdd (s : State) (p : Nat) (x : Word) : State :=
  s.gated p 0x1C (fun s => s.addMark p (x.toNat % 4096) (x.toNat / 65536))

def execMkAdd (p : Nat) (x : Word) (s : State) : Host.Outcome State Fault Refusal := ok (s.mkAdd p x)

/-! ## Copying records (R259, R262, R263) -/

/-- The read of a record fails: the queue stops (R259). -/
def State.fetchErr (s : State) (p q : Nat) : State :=
  ((s.modSq p q (fun k => { k with state := .fetchErr })).schEvent p 3).logErr
    { cls := 0, source := 4, code := 2, part := p, unit := q }

/-- The last 256 of a list. -/
def keepLast {α : Type} (n : Nat) (l : List α) : List α := l.drop (l.length - n)

/-- A copied record (R262): newer than LASTSEQ, it is accepted and checked; otherwise it is a duplicate. -/
def State.takeRecord (s : State) (p q : Nat) (img : Line) : State :=
  let d := (BitVec.ofNat 32 (recSeq img) - (s.sq p q).lastSeq).toNat
  if 1 ≤ d ∧ d < 2 ^ 31 then
    let v := s.checkRecord p none img
    s.modSq p q (fun k => { k with
      head := k.head + 1#32, lastSeq := BitVec.ofNat 32 (recSeq img), gaps := if d > 1 then satInc k.gaps else k.gaps,
      copied := k.copied ++ [{ image := img, verdict := v }],
      accepted := keepLast 256 (k.accepted ++ [{ seq := recSeq img }]) })
  else
    (s.modSq p q (fun k => { k with head := k.head + 1#32, copied := k.copied ++ [{ image := img, verdict := .dup }] })).schEvent p 1

/-- May the scheduler copy a record: its block is enabled (R282), the queue is active and not 8 records ahead? -/
def State.mayCopy (s : State) (p q : Nat) : Bool :=
  let k := s.sq p q
  ((s.part p).state == .running || (s.part p).state == .held) && k.en && k.state == .active && k.head != k.tail
    && decide (k.copied.length < 9)

/-- RECORD_COPY (R259): the record in slot HEAD, read from host memory as `host` says or at a partition address. -/
def State.recordCopy (s : State) (p q : Nat) (host : Option Line) : State :=
  if !s.mayCopy p q then s
  else
    let k := s.sq p q
    if cfgSpace k.cfg then
      match s.readPart p .read .engine (ringBase k.baseLo k.baseHi + 64 * (k.head.toNat % 2 ^ cfgLog k.cfg)) 64 with
      | (.ok b, s) => s.takeRecord p q (bytesLine b)
      | (.error _, s) => s.fetchErr p q
    else match host with
      | some img => if (s.fn (p + 1)).busMaster then s.takeRecord p q img else s.fetchErr p q
      | none => s.fetchErr p q

def execRecordCopy (p q : Nat) (host : Option Line) (s : State) : Host.Outcome State Fault Refusal := ok (s.recordCopy p q host)

/-! ## Completion -/

/-- Raise event bit `bit` of EVPEND on a core (R220). -/
def State.raiseEv (s : State) (c bit : Nat) : State := s.modCtl c (fun x => { x with evpend := x.evpend ||| 2 ^ bit })

/-- The active cores of cluster `g` (R20). -/
def activeCores (g : Nat) : List Nat := (List.range 16).map (fun k => 16 * g + k)

/-- Did the command exceed its declaration (R48)? `now` is in cycles. -/
def Cmd.over (c : Cmd) (now : Nat) : Bool :=
  let r := c.image
  let cls := recClass r
  let run := if cls = 0 ∨ (cls = 3 ∧ recOpcode r = 0) then c.busy else match c.began with | some b => now - b | none => 0
  cls != 6 && (decide (c.moved > recDeclBytes r) || decide (2 * run > nsThirds (recDeclNs r)))

/-- A FIXQ lane's completion that completion queue 0 does not take (R266). -/
def State.laneNoCq (s : State) (p core : Nat) : State :=
  (s.schEvent p 5).logErr { cls := 0, source := 4, code := 6, part := p, unit := 32 * (core / 16) + s.physCore (core / 16) (core % 16) }

/-- The records that duplicates of a completed record wait for are posted (R262). -/
def State.postWaiters (s : State) (p q seq : Nat) (r : BitVec 256) : State :=
  let ws := match (s.sq p q).accepted.find? (fun a => a.seq == seq) with | some a => a.waiters | none => []
  let s := ws.foldl (fun s w => s.cqPostIn p w.2.1 w.1 (r ||| repostBit) w.2.2) s
  s.modSq p q (fun k => { k with accepted := k.accepted.map (fun a => if a.seq = seq then { a with waiters := [] } else a) })

/-- Post a completed command's record or give its slot back (R268). -/
def State.postCmd (s : State) (p : Nat) (c : Cmd) (status : Nat) (r : BitVec 256) : State :=
  match c.cqSlot with
  | some run =>
    if c.queue = 255 && !s.cqLive p c.cq run then s.laneNoCq p c.laneCore
    else if status ≠ 0 || bitOf (recFlags c.image) 2 then s.cqPostIn p c.cq run r (bitOf (recFlags c.image) 3)
    else s.cqRelease p c.cq run
  | none => if c.queue = 255 then s.laneNoCq p c.laneCore else s

/-- The cluster event of a completed command (R278). -/
def State.raiseCev (s : State) (c : Cmd) : State :=
  let f := recFlags c.image
  if !bitOf f 4 then s
  else
    let bit := 1 + bitsOf f 5 3
    if c.queue = 255 then s.raiseEv c.laneCore bit
    else (activeCores (fld c.image 32 1)).foldl (fun s k => s.raiseEv k bit) s

/-- A command completes with a status (R46, R48, R262, R267 to R270, R278): its units are free, its record is posted, its
mark signalled and its event raised, in this order. -/
def State.completeCmd (s : State) (p id status detail : Nat) : State :=
  let s := s.settleCarry p id
  match (s.sch p).cmd? id with
  | none => s
  | some c =>
    let late := c.over s.now
    let s := if late then (s.incReg (schKey p 0x14)).schEvent p 4 else s
    let s := s.modSch p (fun x => { x with cmds := x.cmds.filter (fun m => m.id != id) })
    let left := c.units.filter (fun u => decide (4096 ≤ u) || NatMap.get .notStarted c.ends u == .aborted)
    let s := left.foldl (fun s u => s.recomputeEnd p u) s
    let s := if recClass c.image = 6 ∨ c.stopped then s else s.modPart p (fun x => { x with lastDone := some s.now })
    let r := s.recordOf c.queue c.image status detail (c.unitField status) late
    let s := s.postCmd p c status r
    let s := if c.queue = 255 then s else (s.keepDone p c.queue (recSeq c.image) r).postWaiters p c.queue (recSeq c.image) r
    (s.signal p c.image status).raiseCev c

/-- COMMAND_COMPLETE (R267): the command, whose unit has done its work, completes at device time `t`. -/
def State.commandComplete (s : State) (p id t : Nat) : State :=
  match (s.sch p).cmd? id with
  | none => s
  | some c =>
    match c.result with
    | none => s
    | some (st, d) => (s.advance t).completeCmd p id st d

def execCommandComplete (p id t : Nat) (s : State) : Host.Outcome State Fault Refusal := ok (s.commandComplete p id t)

/-! ## Admission -/

/-- The head of queue `q`, or of the FIXQ lane of a core. -/
def State.headRec (s : State) (p q core : Nat) : Option Copied :=
  if q = 255 then (NatMap.get [] (s.sch p).lanes core).head? else (s.sq p q).copied.head?

/-- The head leaves. -/
def State.popHead (s : State) (p q core : Nat) : State :=
  if q = 255 then s.modSch p (fun x => { x with lanes := NatMap.upd [] x.lanes core List.tail })
  else s.modSq p q (fun k => { k with copied := k.copied.tail })

/-- Mark or unmark the head as one that waits for its scaled aperture (R47). -/
def State.flagHead (s : State) (p q core : Nat) (b : Bool) : State :=
  let f := fun l : List Copied => match l with | [] => [] | c :: r => { c with apWait := b } :: r
  if q = 255 then s.modSch p (fun x => { x with lanes := NatMap.upd [] x.lanes core f })
  else s.modSq p q (fun k => { k with copied := f k.copied })

/-- The completion queue that a queue or a lane uses. -/
def State.cqOf (s : State) (p q : Nat) : Nat := if q = 255 then 0 else cfgCq (s.sq p q).cfg

/-- A record rejected under R263 reaches the head: it completes with its status. -/
def State.rejectHead (s : State) (p q core : Nat) (img : Line) (st d : Nat) : State :=
  let c := s.cqOf p q
  let r := s.recordOf q img st d 0 false
  if q = 255 && !(s.cq p c).en then (s.popHead p q core).laneNoCq p core
  else if !s.cqRoom p c then s
  else
    let s := ((s.popHead p q core).cqReserve p c).cqPost p c r (bitOf (recFlags img) 3)
    if q = 255 then s else s.keepDone p q (recSeq img) r

/-- A duplicate reaches the head (R262): it takes a slot, in which the original's record, or STALE, is posted. -/
def State.dupHead (s : State) (p q : Nat) (img : Line) : State :=
  let c := s.cqOf p q
  if !s.cqRoom p c then s
  else
    let irq := bitOf (recFlags img) 3
    let s := (s.popHead p q 0).cqReserve p c
    let run := (s.cq p c).run
    match (s.sq p q).accepted.find? (fun a => a.seq == recSeq img) with
    | none => s.cqPost p c (s.recordOf q img 0x0F 0 0 false) irq
    | some a =>
      match a.done with
      | some r => s.cqPost p c (r ||| repostBit) irq
      | none => s.modSq p q (fun k => { k with accepted := k.accepted.map (fun a =>
          if a.seq = recSeq img then { a with waiters := a.waiters ++ [(run, c, irq)] } else a) })

/-- An aperture at throttle level `l` (R42). -/
def scaled (v l : Nat) : Nat := v * (4 - l) / 4

/-- The end of the open phase (R35). -/
def State.openEnd (s : State) : Thirds := s.sht.lastTick + usThirds (s.sht.period - s.sht.guard)

/-- Is the frame in its open phase? -/
def State.isOpen (s : State) : Bool := s.sht.open_ && decide (s.nowThirds < s.openEnd)

/-- Are a record's wait-marks satisfied (R267)? -/
def State.marksReady (s : State) (p : Nat) (r : Line) : Bool :=
  (!bitOf (recFlags r) 0 || markReached (s.mark p (recW0 r)) (recW0Val r))
    && (!bitOf (recFlags r) 1 || markReached (s.mark p (recW1 r)) (recW1Val r))

/-- Would the record not fit under the whole scaled aperture (R47)? -/
def State.overScaled (s : State) (p : Nat) (r : Line) (units : Nat) : Bool :=
  let q := s.psecD p
  let l := (s.part p).throttle
  let c := recClass r
  c != 6 && (decide (timeCharge r units > scaled ((q.aperTime.drop c).headD 0) l)
    || decide (trafCharge r > scaled ((q.aperTraf.drop c).headD 0) l))

/-- Is an admitted KSLOAD into a cluster of the launch not yet complete (R264)? -/
def Sched.ksloadPending (x : Sched) (r : Line) : Bool :=
  x.cmds.any (fun c => recClass c.image == 1 && recOpcode c.image == 7
    && decide (fld r 36 1 ≤ fld c.image 32 1) && decide (fld c.image 32 1 ≤ fld r 36 1 + fld r 37 1))

/-- May an OPEN be admitted as far as slots go (R304)? A RID that is already open is not held for slots. -/
def State.openSlots (s : State) (p : Nat) (r : Line) : Bool :=
  (openUnits r).any (fun u => s.ridOpen p u (fld r 32 2))
    || (openUnits r).all (fun u => decide (s.slotsUsed p u + recSlots r ≤ (s.psecD p).unitShare u))

/-- Is the class's own condition met: KSLOAD before a launch, slots for an OPEN, and no OPEN of the same queue still to be
opened (R264, R304)? -/
def State.classReady (s : State) (p q : Nat) (r : Line) : Bool :=
  let x := s.sch p
  (recClass r != 0 || !x.ksloadPending r) && (!(recClass r == 3 && recOpcode r == 0) || s.openSlots p r)
    && !x.cmds.any (fun c => c.queue == q && recClass c.image == 3 && recOpcode c.image == 0 && c.began.isNone)

/-- Settle the carry of every carried command of the partition. -/
def State.settleAll (s : State) (p : Nat) : State :=
  (s.sch p).cmds.foldl (fun s c => s.settleCarry p c.id) s

/-- The start a command would have (R45). -/
def State.startOf (s : State) (p : Nat) (units : List Nat) : Thirds :=
  units.foldl (fun t u => max t (NatMap.get 0 (s.sch p).ends u)) s.nowThirds

/-- The tests of R45, and that no carried work occupies a unit (R50). -/
def State.fits (s : State) (p : Nat) (r : Line) (units : List Nat) : Bool :=
  let c := recClass r
  let n := unitCount r
  !(s.sch p).cmds.any (fun m => m.carriedTo.isSome && units.any m.occupies)
    && decide (s.startOf p units + nsThirds (recDeclNs r) ≤ s.openEnd)
    && (c == 6 || (decide (nsThirds (timeCharge r n) ≤ NatMap.get 0 (s.part p).remTime c)
      && decide (trafCharge r ≤ NatMap.get 0 (s.part p).remTraf c)))

/-- Is a completion slot to be had: for a queue always needed, for a lane while completion queue 0 is enabled (R264, R266)? -/
def State.slotReady (s : State) (p q : Nat) : Bool := s.cqRoom p (s.cqOf p q) || (q == 255 && !(s.cq p 0).en)

/-- Admit a record (R45): reserve its slot, commit its units, debit its charges. -/
def State.admitRecord (s : State) (p q core : Nat) (r : Line) (units : List Nat) : State :=
  let c := s.cqOf p q
  let start := s.startOf p units
  let slot := if (s.cq p c).en then some (s.cq p c).run else none
  let s := if slot.isSome then s.cqReserve p c else s
  let cls := recClass r
  let s := if cls = 6 then s else s.modPart p (fun x => { x with
    remTime := NatMap.upd 0 x.remTime cls (fun t => t - nsThirds (timeCharge r (unitCount r))),
    remTraf := NatMap.upd 0 x.remTraf cls (fun t => t - trafCharge r) })
  (s.popHead p q core).modSch p (fun x => { x with
    ends := units.foldl (fun e u => NatMap.set 0 e u (start + nsThirds (recDeclNs r))) x.ends,
    nextId := x.nextId + 1,
    cmds := x.cmds ++ [{ id := x.nextId, queue := q, laneCore := core, image := r, units := units,
                         admitFrame := s.sht.frame.toNat, start := start, cqSlot := slot, cq := c }] })

/-- A record that passed its checks stands at the head (R44, R45, R47, R264). -/
def State.tryAdmit (s : State) (p q core : Nat) (r : Line) : State :=
  if !((s.part p).state == .running && !(s.part p).admStopped && s.marksReady p r) then s
  else
    let units := s.unitsOf r
    let s := s.flagHead p q core (s.overScaled p r (unitCount r))
    let s := s.settleAll p
    if s.isOpen && s.classReady p q r && s.slotReady p q && s.fits p r units then s.admitRecord p q core r units else s

/-- COMMAND_ADMIT (R45): the head of queue `q` (255: the lane of `core`) is considered at device time `t`. -/
def State.commandAdmit (s : State) (p q core t : Nat) : State :=
  match s.headRec p q core with
  | none => s
  | some h =>
    let s := s.advance t
    match h.verdict with
    | .dup => s.dupHead p q h.image
    | .reject st d => s.rejectHead p q core h.image st d
    | .pass => s.tryAdmit p q core h.image

def execCommandAdmit (p q core t : Nat) (s : State) : Host.Outcome State Fault Refusal := ok (s.commandAdmit p q core t)

/-! ## What executing units share -/

/-- The command `id` of a class and opcode that its unit may work on now: admitted to a partition that is not stopped, not
yet done, first of those admitted to its unit (an OPEN waits for no other and keeps none waiting, R304). -/
def State.engineCmd (s : State) (p id cls op : Nat) : Option Cmd :=
  let st := (s.part p).state
  let isOpen := fun c : Cmd => recClass c.image == 3 && recOpcode c.image == 0
  match (s.sch p).cmd? id with
  | none => none
  | some c =>
    let ahead := ((s.sch p).cmds.takeWhile (fun m => m.id != id)).filter (fun m => m.result.isNone && !isOpen m)
    if (st == .running || st == .draining || st == .migrating) && !s.err.fatal && recClass c.image == cls && recOpcode c.image == op
      && c.result.isNone && !c.stopped && (isOpen c || c.units.all (fun u => ahead.all (fun m => !m.units.contains u)))
    then some c else none

/-- The unit has done its work: what it moved, and its status. -/
def State.finishCmd (s : State) (p id moved status detail : Nat) : State :=
  s.modCmd p id (fun c => { c with began := c.began.or (some s.now), moved := moved, result := some (status, detail) })

/-- ADDR_FAULT or DATA_ERROR of an access that failed after `moved` bytes (R270). -/
def MemErr.status (e : MemErr) (moved : Nat) : Nat × Nat :=
  let n := min (moved / 64) (2 ^ 28 - 1)
  match e with
  | .segment => (8, 1 * 2 ^ 28 + n)
  | .window => (8, 2 * 2 ^ 28 + n)
  | .poison => (9, 3 * 2 ^ 28 + n)
  | .bus => (9, 4 * 2 ^ 28 + n)

end Sys2Proof.Machine
end

