-- ==== Sys2Proof/Machine/MemCmds.lean ====
section
/-!
DEFINITION. The channel controllers' and SRAMs' own operations (R363, R367 to R374), and temperatures (R375 to R377, R554,
R569, R570).
-/

namespace Sys2Proof.Machine

/-! ## Channels -/

/-- The device-local address of line `l` of channel `ch` (R354, R383). -/
def State.chanLine (s : State) (ch l : Nat) : Nat := s.chanAddr ch (64 * l)

/-- Does the channel serve requests: it is enabled and its stack is not halted (R353, R377)? -/
def State.chanServes (s : State) (ch : Nat) : Bool := s.chanOn ch && !(s.stack (ch / 32)).halted

/-- Some bits of a stored code word change: 512 data bits and 64 check bits of a line, or the 72 bits of an SRAM word. -/
def State.flipUnit (s : State) (u f : Nat) : State :=
  { s with mem := { s.mem with flips := NatMap.upd 0 s.mem.flips u (· ^^^ f) } }

/-- The requester of a DETAIL code (R528). -/
def Requester.ofCode (c : Nat) : Requester :=
  match c with
  | 0 => .core | 1 => .engine | 2 => .host | 3 => .remote | 4 => .fill | _ => .flush

/-- A die of the channel reports an error its own code met (R372, R528). -/
def State.onDie (s : State) (ch die : Nat) : State :=
  let t := ch / 32
  ((s.incReg (stkKey t (0x4C + 16 * (ch % 32)))).stkEvent t 7).logErr
    { cls := 1, source := 1, code := 4, part := s.ownerByte (ch / 2), unit := ch, detail := die }

/-- CHANNEL_READ (R363, R371): line `l` of the channel, of whose stored code word the bits `flip` have changed, is read for a
requester; `die` is the core die whose own code reports. -/
def execChannelRead (ch l flip : Nat) (die : Option Nat) (req : Nat) (s : State) : Host.Outcome State Fault Refusal :=
  ok (if !s.chanServes ch then s
    else
      let u := s.chanLine ch l
      let s := ((s.flipUnit u (flip % 2 ^ 576)).readDramLine ch u (Requester.ofCode req)).2
      match die with
      | some d => s.onDie ch d
      | none => s)

/-- CHANNEL_WRITE (R367): a whole line. -/
def execChannelWrite (ch l : Nat) (data : Line) (s : State) : Host.Outcome State Fault Refusal :=
  ok (if s.chanServes ch then s.fullWrite ch (s.chanLine ch l) data else s)

/-- PARTIAL_WRITE (R367): the bytes `valid` of a line, written by an engine or by core `core`, which records the channel
(R368). -/
def execPartialWrite (ch l : Nat) (data : Line) (valid : BitVec 64) (core : Option Nat) (s : State) : Host.Outcome State Fault Refusal :=
  ok (if s.chanServes ch then
      let s := s.partialWrite ch (s.chanLine ch l) data valid (if core.isSome then .core else .engine) (core.getD 0)
      match core with
      | some c => s.noteChan c (s.chanLine ch l) 0
      | none => s
    else s)

/-- WC_AGE_FLUSH (R368): entries allocated 256 cycles ago or more. -/
def execWcAgeFlush (ch t : Nat) (s : State) : Host.Outcome State Fault Refusal :=
  ok (let s := s.advance t
    s.flushWhere ch (fun e => decide (e.alloc + 256 ≤ s.now)))

/-- WC_MARKER (R368): core `c`'s marker reaches a channel it has sent a partial write to. -/
def execWcMarker (c ch : Nat) (s : State) : Host.Outcome State Fault Refusal :=
  ok (if (s.core c).wcChans.contains ch then s.flushChan ch else s)

/-- SRAM_ACCESS (R373): word `i` of granule `g`'s tray (kind 0) or kernel store (kind 1), of which the bits `flip` have
changed, is read, or given the bytes `data` from byte `off` on. -/
def execSramAccess (g kind i flip off : Nat) (data : List Byte) (s : State) : Host.Outcome State Fault Refusal :=
  ok (let u := (if kind = 0 then trayBase g else ksBase g) + 8 * i
    if s.granExcluded g then s
    else
      let s := if flip = 0 then s else s.flipUnit u (flip % 2 ^ 72)
      if data.isEmpty then (s.readWord g kind u).2 else s.writeWord g kind u (u + off % 8) (data.take (8 - off % 8)))

/-- REFRESH (R374): contents stay. -/
def execRefresh (t : Nat) (s : State) : Host.Outcome State Fault Refusal := ok (s.advance t)

/-! ## Halting a stack (R31, R377) -/

/-- The partitions that own granules of a tile. -/
def State.tileParts (s : State) (t : Nat) : List Nat :=
  match s.plate.installed with
  | some pl => (pl.parts.filter (fun q => q.tiles.contains t)).map PartSec.num
  | none => []

/-- The granule of an engine's unit: mover, Fixer or Grain; none for other units. -/
def engineGran (u : Nat) : Option Nat := if 4096 ≤ u ∧ u < 4864 then some ((u - 4096) % 256) else none

/-- The engines of a tile's clusters stop at their next element boundary. -/
def State.stopTileCmds (s : State) (t : Nat) : State :=
  { s with sched := s.sched.map (fun e => (e.1, { e.2 with cmds := e.2.cmds.map (fun c =>
      if c.result.isNone && c.units.any (fun u => match engineGran u with | some g => g / 16 == t | none => false)
      then { c with stopped := true } else c) })) }

/-- The records of a halt: CONTAINED for every partition of the tile, or one NOTICE. -/
def State.haltRecords (s : State) (t code : Nat) : State :=
  match s.tileParts t with
  | [] => s.logErr { cls := 0, source := 6, code := code, unit := t }
  | l => l.foldl (fun s p => s.logErr { cls := 2, source := 6, code := code, part := p, unit := t }) s

/-- The Agitators of a tile stop with a reason (R382). -/
def Agit.stop (a : Agit) (reason : Nat) : Agit :=
  if a.state = .running then { a with ending := a.ending.or (some reason) } else a
def State.modAgit (s : State) (ch : Nat) (f : Agit → Agit) : State := { s with agits := NatMap.upd {} s.agits ch f }

/-- The stack halts, with THERMAL `code` (R377): its buffers are flushed, its engines stop, and its partitions are told. -/
def State.haltStack (s : State) (t code : Nat) : State :=
  if (s.stack t).halted then s
  else
    let s := (List.range 32).foldl (fun s n => (s.flushChan (32 * t + n)).modAgit (32 * t + n) (·.stop 5)) s
    (((s.modStack t (fun x => { x with halted := true, hotAt := s.now })).stkEvent t 2).stopTileCmds t).haltRecords t code

/-! ## Readings -/

/-- THERM_TRIP_N (R554). -/
def State.trip (s : State) (unit : Nat) : State :=
  if s.env.trip then s
  else ({ s with env := { s.env with trip := true } }).logErr { cls := 3, source := 6, code := 4, unit := unit }

/-- The warning threshold of the held COOLANT_CLASS (R569, R570). -/
def State.warnAt (s : State) : Int :=
  match s.plate.installed with
  | some pl => if pl.sys.coolant = 2 then 83 else 80
  | none => 80

/-- The warning as a temperature leaves it. -/
def State.judgeWarning (s : State) (temp : Int) : State :=
  { s with env := { s.env with
      warning := s.env.warning || decide (temp ≥ s.warnAt), warmAt := if temp > s.warnAt - 3 then s.now else s.env.warmAt } }

/-- A stack reading (R374 to R377, R554, R570). -/
def State.thermal (s : State) (t : Nat) (temp : Int) : State :=
  if !(s.stack t).enabled then s
  else
    let s := s.modStack t (fun x => { x with
      temp := temp, reads := temp :: x.reads, lastRead := some s.now,
      refresh2x := if temp ≥ 85 then true else if temp ≤ 82 then false else x.refresh2x,
      hotAt := if temp ≥ 95 then s.now else x.hotAt })
    let s := s.judgeWarning temp
    let s := if temp ≥ 105 then s.haltStack t 1 else s
    if temp ≥ 110 then s.trip t else s

/-- THERMAL_READING (R375). -/
def execThermalReading (tile : Nat) (temp : Int) (t : Nat) (s : State) : Host.Outcome State Fault Refusal :=
  ok ((s.advance t).thermal tile temp)

/-- SENSOR_SILENCE (R376): 100 µs without a reading halt the stack. -/
def execSensorSilence (tile t : Nat) (s : State) : Host.Outcome State Fault Refusal :=
  ok (let s := s.advance t
    let x := s.stack tile
    if x.enabled && decide (x.lastRead.getD 0 + 100 * cyclesPerMicro ≤ s.now) then s.haltStack tile 3 else s)

/-- WARNING_CLEAR (R570): every stack has stayed at or below the threshold minus 3 °C for 100 ms. -/
def execWarningClear (t : Nat) (s : State) : Host.Outcome State Fault Refusal :=
  ok (let s := s.advance t
    if s.env.warmAt + 100000 * cyclesPerMicro ≤ s.now then { s with env := { s.env with warning := false } } else s)

/-- An I/O die's junction reading (R554, R555). -/
def State.junction (s : State) (die : Nat) (temp : Int) : State :=
  let hot := s.env.junctionHot.filter (· != die)
  let s := { s with env := { s.env with
    junction := NatMap.set 0 s.env.junction die temp,
    junctionHot := if temp ≥ 105 ∨ (temp ≥ 102 ∧ s.env.junctionHot.contains die) then hot ++ [die] else hot } }
  if temp ≥ 115 then s.trip (17 + die) else s

/-- IODIE_JUNCTION_READING (R554). -/
def execIodieJunctionReading (die : Nat) (temp : Int) (t : Nat) (s : State) : Host.Outcome State Fault Refusal :=
  ok ((s.advance t).junction die temp)

/-! ## Throttle (R376) -/

/-- The temperature from which a level applies. -/
def levelFrom (l : Nat) : Int := match l with | 0 => -1000 | 1 => 85 | 2 => 95 | _ => 100

/-- The level of a stack for the new frame, from its level and the readings since the previous tick. -/
def nextLevel (level : Nat) (reads : List Int) : Nat :=
  match reads with
  | [] => level
  | r :: l =>
    let top := l.foldl max r
    let up := if top ≥ 100 then 3 else if top ≥ 95 then 2 else if top ≥ 85 then 1 else 0
    if up > level then up
    else if level > 0 ∧ top ≤ levelFrom level - 3 then level - 1
    else level

/-- Step 6 of R58 for one stack: a halted stack may resume, at level 3 (R377). -/
def State.throttleStack (s : State) (t : Nat) : State :=
  let x := s.stack t
  if !x.enabled then s
  else
    let cool := x.halted && decide (x.hotAt + 100000 * cyclesPerMicro ≤ s.now) && decide (x.hotAt < x.lastRead.getD 0)
    let l := if cool then 3 else nextLevel x.level x.reads
    let s := s.modStack t (fun y => { y with
      level := l, halted := y.halted && !cool, tmaxLast := match x.reads with | [] => y.tmaxLast | r :: m => m.foldl max r, reads := [] })
    let s := if l > x.level then s.stkEvent t 0 else if l < x.level then s.stkEvent t 1 else s
    if cool then (s.stkEvent t 3).logErr { cls := 0, source := 6, code := 2, part := 255, unit := t } else s

/-- A partition's level (R42). -/
def State.partLevel (s : State) (q : PartSec) : Nat := (q.tiles.map (fun t => (s.stack t).level)).foldl max 0

/-- Step 6 of R58. -/
def State.applyThrottle (s : State) : State :=
  let s := (List.range 16).foldl (fun s t => s.throttleStack t) s
  match s.plate.installed with
  | none => s
  | some pl => pl.parts.foldl (fun s q => s.modPart q.num (fun x => { x with throttle := s.partLevel q })) s

end Sys2Proof.Machine
end

