-- ==== Sys2Proof/Machine/Agitator.lean ====
section
/-!
DEFINITION. The Agitator and Proof of a channel (R381 to R390).
-/

namespace Sys2Proof.Machine

def State.agit (s : State) (ch : Nat) : Agit := NatMap.get {} s.agits ch

/-! ## Configuration (R383 to R385, R389) -/

/-- The reset values of the configuration registers (R388, R389). -/
def agReset (o : Nat) : Word := if o = 0x10 then 0x4000#32 else if o = 0x18 ∨ o = 0x1C ∨ o = 0x20 then 1#32 else 0#32

/-- A configuration register: it is kept as its difference from its reset value. -/
def State.agReg (s : State) (ch o : Nat) : Nat := (s.reg (atpKey ch o) ^^^ agReset o).toNat

/-- The configuration of a run. -/
structure AgCfg where
  apat : Nat
  opmode : Nat
  dpat : Nat
  invert : Bool
  altInv : Bool
  wpart : Bool
  stopErr : Bool
  eccOff : Bool
  logCount : Nat
  nwr : Nat
  nrd : Nat
  start : Nat
  stride : Nat
  seed : Nat
  passes : Nat
  interval : Nat

def State.agCfg (s : State) (ch : Nat) : AgCfg :=
  let c := s.agReg ch 0x10
  { apat := c % 4, opmode := bitsOf c 2 2, dpat := bitsOf c 4 3, invert := bitOf c 7, altInv := bitOf c 8, wpart := bitOf c 9,
    stopErr := bitOf c 10, eccOff := bitOf c 11, logCount := bitsOf c 12 5, nwr := bitsOf c 17 4, nrd := bitsOf c 21 4,
    start := s.agReg ch 0x14 % 2 ^ 25, stride := s.agReg ch 0x18 % 2 ^ 25, seed := s.agReg ch 0x1C % 2 ^ 31,
    passes := s.agReg ch 0x20, interval := s.agReg ch 0x24 % 2 ^ 16 }

def AgCfg.count (c : AgCfg) : Nat := 2 ^ c.logCount

/-- Is the configuration one that START accepts (R390)? -/
def AgCfg.sound (c : AgCfg) : Bool :=
  decide (c.apat ≤ 2) && decide (c.dpat ≤ 6) && decide (4 ≤ c.logCount) && decide (c.logCount ≤ 25)
    && (c.opmode != 3 || (decide (1 ≤ c.nwr + c.nrd) && !c.altInv)) && (c.apat != 1 || c.stride % 2 == 1)
    && decide (c.start + c.count ≤ 2 ^ 25)

/-- The taps of the LFSR by its width (R383). -/
def lfsrTaps (w : Nat) : List Nat :=
  match w with
  | 4 => [4, 3] | 5 => [5, 3] | 6 => [6, 5] | 7 => [7, 6] | 8 => [8, 6, 5, 4] | 9 => [9, 5] | 10 => [10, 7] | 11 => [11, 9]
  | 12 => [12, 6, 4, 1] | 13 => [13, 4, 3, 1] | 14 => [14, 5, 3, 1] | 15 => [15, 14] | 16 => [16, 15, 13, 4] | 17 => [17, 14]
  | 18 => [18, 11] | 19 => [19, 6, 2, 1] | 20 => [20, 17] | 21 => [21, 19] | 22 => [22, 21] | 23 => [23, 18]
  | 24 => [24, 23, 22, 17] | _ => [25, 22]

/-- One step of the LFSR. -/
def lfsrStep (w state : Nat) : Nat :=
  let f := (lfsrTaps w).foldl (fun b t => xor b (bitOf state (t - 1))) false
  (2 * state + (if f then 1 else 0)) % 2 ^ w

def lfsrIter (w : Nat) : Nat → Nat → Nat
  | 0, x => x
  | n + 1, x => lfsrIter w n (lfsrStep w x)

/-- The offset of place `i` of a sequence (R383). -/
def AgCfg.seq (c : AgCfg) (i : Nat) : Nat :=
  match c.apat with
  | 0 => i
  | 1 => i * c.stride % c.count
  | _ => if i = 0 then 0 else lfsrIter c.logCount (i - 1) 1

/-- How many requests a pass makes (R384). -/
def AgCfg.requests (c : AgCfg) : Nat := if c.opmode = 2 then 2 * c.count else c.count

/-- Is request `i` of a pass a write, and which place of the sequence does it visit? -/
def AgCfg.isWrite (c : AgCfg) (i : Nat) : Bool :=
  match c.opmode with
  | 0 => true
  | 1 => false
  | 2 => decide (i < c.count)
  | _ => decide (i % (c.nwr + c.nrd) < c.nwr)
def AgCfg.lineOf (c : AgCfg) (i : Nat) : Nat := c.start + c.seq (i % c.count)

/-! ## Data (R385) -/

/-- `n` steps of PRBS31 from `r`: the bits of a line, from bit `t` on. -/
def prbsBits : Nat → Nat → Nat → Nat → Nat
  | 0, _, _, acc => acc
  | n + 1, r, t, acc =>
    let b := if xor (bitOf r 30) (bitOf r 27) then 1 else 0
    prbsBits n ((2 * r + b) % 2 ^ 31) (t + 1) (acc + b * 2 ^ t)

/-- Sixteen 32-bit beatLine as a line. -/
def beatLine (f : Nat → Nat) : Nat := ((List.range 16).map (fun b => f b * 2 ^ (32 * b))).sum

/-- The data of a line before inversion; `addr` is the device-local address of its first byte. -/
def AgCfg.pattern (c : AgCfg) (l addr : Nat) : Nat :=
  match c.dpat with
  | 0 => 0
  | 1 => 2 ^ 512 - 1
  | 2 => beatLine (fun b => if (l + b) % 2 = 0 then 0x55555555 else 0xAAAAAAAA)
  | 3 => beatLine (fun b => 2 ^ ((16 * l + b) % 32))
  | 4 => beatLine (fun b => 2 ^ 32 - 1 - 2 ^ ((16 * l + b) % 32))
  | 5 => ((List.range 8).map (fun k => (addr + 8 * k) * 2 ^ (64 * k))).sum
  | _ =>
    let r := c.seed ^^^ (l * 0x2545F491 % 2 ^ 31)
    prbsBits 512 (if r = 0 then 1 else r) 0 0

/-- The data of a line in a pass. -/
def AgCfg.data (c : AgCfg) (l addr pass : Nat) : Line :=
  let d := BitVec.ofNat 512 (c.pattern l addr)
  if xor c.invert (c.altInv && pass % 2 == 1) then ~~~ d else d

/-! ## Commands (R388, R390) -/

/-- Is the channel in test state (R381)? -/
def State.testState (s : State) (ch : Nat) : Bool :=
  match s.owner (ch / 2) with
  | none => true
  | some p => (s.psecD p).test

/-- Was the channel trained? -/
def State.trained (s : State) (ch : Nat) : Bool := (s.stack (ch / 32)).enabled && !NatMap.get false s.units.untrained ch

/-- The channel a repair request names, if it names one. -/
def repairChan (r : List Byte) : Option Nat :=
  if byteAt r 0 ≤ 4 then some (32 * byteAt r 1 + byteAt r 2) else none

/-- Is a repair operation on the channel in progress? -/
def State.repairOn (s : State) (ch : Nat) : Bool :=
  match s.repair.op with
  | some o => repairChan o.request == some ch
  | none => false

/-- A command of AG_CMD arrives: ignored while EN is 0. -/
def State.agCmd (s : State) (ch : Nat) (f : State → State) : State := s.pfWrite 2 (fun s => if (s.agit ch).en then f s else s)

/-- START (R390). -/
def State.agStart (s : State) (ch : Nat) : State :=
  let no := fun (r : Nat) => s.modAgit ch (fun a => { a with cfgErr := false, badCmd := false, state := .idle, reason := r })
  if (s.agit ch).state = .running then s.modAgit ch (fun a => { a with badCmd := true })
  else if !(s.agCfg ch).sound then s.modAgit ch (fun a => { a with cfgErr := true, badCmd := false })
  else if !s.trained ch then no 7
  else if !s.testState ch || s.repairOn ch || (s.stack (ch / 32)).halted then no 6
  else s.modAgit ch (fun a => { a with
    cfgErr := false, badCmd := false, state := .running, reason := 0, runPass := 0, index := 0, startedAt := s.now, lastIssue := none,
    reads := [], ending := none })

def execAgStart (ch : Nat) (s : State) : Host.Outcome State Fault Refusal := ok (s.agCmd ch (fun s => s.agStart ch))

/-- STOP (R390). -/
def State.agStop (s : State) (ch : Nat) : State := s.modAgit ch (fun a => ({ a with badCmd := false } : Agit).stop 2)

def execAgStop (ch : Nat) (s : State) : Host.Outcome State Fault Refusal := ok (s.agCmd ch (fun s => s.agStop ch))

/-- CLEAR (R388): every counter, the lanes and the first error; refused while the Agitator runs. -/
def Agit.clear (a : Agit) : Agit :=
  if a.state = .running then { a with badCmd := true }
  else
    { en := a.en, wign := a.wign, cfgErr := a.cfgErr, state := a.state, reason := a.reason, runPass := a.runPass, index := a.index,
      startedAt := a.startedAt, lastIssue := a.lastIssue, reads := a.reads, ending := a.ending }

def execAgClear (ch : Nat) (s : State) : Host.Outcome State Fault Refusal := ok (s.agCmd ch (fun s => s.modAgit ch Agit.clear))

/-- ATP_CTRL_WRITE (R388): writing EN = 0 stops a run. -/
def State.atpCtrl (s : State) (ch : Nat) (x : Word) : State :=
  s.modAgit ch (fun a => if x.getLsbD 0 then { a with en := true } else { a.stop 2 with en := false, wign := false })

def execAtpCtrlWrite (ch : Nat) (x : Word) (s : State) : Host.Outcome State Fault Refusal := ok (s.pfWrite 2 (fun s => s.atpCtrl ch x))

/-! ## Requests and checks (R386, R387) -/

/-- Raise an event of the channel's block. -/
def State.atpEvent (s : State) (ch bit : Nat) : State := s.raise 0 (atpKey ch 0x7C) (atpKey ch 0x0C) bit (64 + ch)

/-- Once every request of a pass is issued and checked, the pass is complete (R386). -/
def Agit.settle (a : Agit) (c : AgCfg) : Agit :=
  if a.index < c.requests ∨ a.reads ≠ [] ∨ a.ending.isSome then a
  else { a with runPass := a.runPass + 1, pass := a.pass + 1#32, index := 0,
                ending := if c.passes ≠ 0 ∧ a.runPass + 1 ≥ c.passes then some 1 else none }

/-- What a read observes: the line with its write-combining entry over it, through the line code or as stored. -/
def State.agRead (s : State) (ch l pass i : Nat) (raw : Bool) : AgRead × State :=
  let u := s.chanLine ch l
  let w := s.storedLine u
  let merged := fun d : Line => match (s.wcOf ch).find? (fun e => e.line == u) with
    | some e => mergeLine d e.data e.valid
    | none => d
  let r : AgRead := { line := l, pass := pass, index := i, data := merged w.1, chk := w.2 }
  let t := ch / 32
  if raw then (r, s)
  else match classify w.1 w.2 with
    | .clean => (r, s)
    | .corrected e x =>
      let d := fixSymbol w.1 e x
      ({ r with data := merged d, ce := true }, ((s.rawWrite u (lineBytes d)).setUnit u false).incReg (stkKey t (0x40 + 16 * (ch % 32))))
    | _ => ({ r with ue := true }, s.incReg (stkKey t (0x44 + 16 * (ch % 32))))

/-- Write a line: whole, or as eight partial writes in ascending order (R384). -/
def State.agWrite (s : State) (ch l : Nat) (d : Line) (parts : Bool) : State :=
  let u := s.chanLine ch l
  if parts then
    (List.range 8).foldl (fun s k => s.partialWrite ch u d (0xFF#64 <<< (8 * k)) .engine 0) s
  else s.fullWrite ch u d

/-- AGITATOR_ISSUE (R386): the next request, if the interval has passed and a credit of its pseudo-channel is free. -/
def State.agIssue (s : State) (ch : Nat) : State :=
  let a := s.agit ch
  let c := s.agCfg ch
  let due := match a.lastIssue with | some t => decide (t + max 1 c.interval ≤ s.now) | none => true
  if a.state ≠ .running ∨ a.ending.isSome ∨ !due ∨ c.requests ≤ a.index then s
  else
    let l := c.lineOf a.index
    let d := c.data l (s.chanLine ch l) a.runPass
    let issued := fun b : Agit => { b with index := b.index + 1, lastIssue := some s.now, reqs := b.reqs + 1 }
    if c.isWrite a.index then (s.agWrite ch l d c.wpart).modAgit ch (fun b => (issued b).settle c)
    else if (a.reads.filter (fun r => r.line / 4 % 2 == l / 4 % 2)).length ≥ 8 then s
    else
      let r := s.agRead ch l a.runPass a.index c.eccOff
      r.2.modAgit ch (fun b => { issued b with reads := b.reads ++ [r.1] })

def execAgitatorIssue (ch t : Nat) (s : State) : Host.Outcome State Fault Refusal := ok ((s.advance t).agIssue ch)

/-- The failed lanes of a pseudo-channel that the differing bits of a line name (R387). -/
def laneBits (x : Line) : Nat := (List.range 16).foldl (fun n b => n ||| bitsOf x.toNat (32 * b) 32) 0

/-- The first error fills the capture (R387). -/
def Agit.capture (a : Agit) (c : AgCfg) (r : AgRead) (x : Line) : Agit :=
  let a := { a with err := true, ending := if c.stopErr then a.ending.or (some 3) else a.ending }
  if a.feAddr.getLsbD 31 then a
  else { a with
    feAddr := BitVec.ofNat 32 (r.line + (if r.ue then 2 ^ 30 else 0) + 2 ^ 31), fePass := BitVec.ofNat 32 r.pass,
    feIndex := BitVec.ofNat 32 r.index, feChk := if c.eccOff then r.chk else 0, feXor := x }

/-- Proof judges a read against the data expected (R387). -/
def Agit.judge (a : Agit) (c : AgCfg) (r : AgRead) (want : Line) : Agit :=
  let x := r.data ^^^ want
  let a := { a with checked := a.checked + 1, ceCount := if r.ce then satInc a.ceCount else a.ceCount }
  if r.ue then ({ a with ueCount := satInc a.ueCount } : Agit).capture c r x
  else
    let a := if c.eccOff && r.chk != checkBits want then { a with chkMis := satInc a.chkMis } else a
    if x = 0 then a
    else
      let lanes := BitVec.ofNat 32 (laneBits x)
      let a := { a with
        mismatch := satInc a.mismatch, bits := satAdd a.bits (popcount 512 x.toNat),
        lanes0 := if r.line / 4 % 2 = 0 then a.lanes0 ||| lanes else a.lanes0,
        lanes1 := if r.line / 4 % 2 = 1 then a.lanes1 ||| lanes else a.lanes1 }
      a.capture c r x

/-- PROOF_CHECK (R387): the oldest read returns. -/
def State.proofCheck (s : State) (ch : Nat) : State :=
  let a := s.agit ch
  match a.reads with
  | [] => s
  | r :: l =>
    let c := s.agCfg ch
    let b := (({ a with reads := l } : Agit).judge c r (c.data r.line (s.chanLine ch r.line) r.pass)).settle c
    let s := s.modAgit ch (fun _ => b)
    if b.feAddr.getLsbD 31 && !a.feAddr.getLsbD 31 then s.atpEvent ch 1 else s

def execProofCheck (ch : Nat) (s : State) : Host.Outcome State Fault Refusal := ok (s.proofCheck ch)

/-- AGITATOR_RUN_END (R390): every outstanding request has completed. -/
def State.agEnd (s : State) (ch : Nat) : State :=
  let a := s.agit ch
  match a.ending with
  | none => s
  | some r =>
    if a.state ≠ .running ∨ a.reads ≠ [] then s
    else (s.modAgit ch (fun a => { a with
      state := if r = 1 then .done else .stopped, reason := r, ending := none, cycles := BitVec.ofNat 64 (s.now - a.startedAt) })).atpEvent
        ch (if r = 1 then 0 else 2)

def execAgitatorRunEnd (ch t : Nat) (s : State) : Host.Outcome State Fault Refusal := ok ((s.advance t).agEnd ch)

/-- At an installation, Agitators of channels that leave test state stop (R382). -/
def State.agOwnership (s : State) : State :=
  { s with agits := s.agits.map (fun e => (e.1, if s.testState e.1 then e.2 else e.2.stop 4)) }

end Sys2Proof.Machine
end

