-- ==== Sys2Proof/Machine/Assent.lean ====
section
/-!
DEFINITION. The settings archive as it is held and written (R456, R505, R516), and two-party assent (R463 to R465).
-/

namespace Sys2Proof.Machine

/-! ## Selector and archive -/

/-- The selector record in force (R505): the valid copy with the higher SEQ. -/
def State.selector (s : State) : Option Selector :=
  match s.nv.sel0, s.nv.sel1 with
  | some a, some b => if b.seq > a.seq then some b else some a
  | some a, none => some a
  | none, b => b

/-- Is the selector in force TRIAL? -/
def State.trial (s : State) : Bool := match s.selector with | some x => x.trial | none => false

def State.held (s : State) : Archive := s.mgmt.held

def State.half (s : State) (h : Nat) : Option Archive := if h = 0 then s.nv.half0 else s.nv.half1

/-- The half that a write goes to (R516): the one not in force, unless a trial keeps that one. -/
def State.writeHalf (s : State) : Nat :=
  let other := 1 - s.mgmt.half
  match s.half other with
  | some a => if s.trial && decide (a.setver < s.boot.setver) then s.mgmt.half else other
  | none => other

/-- Write the archive with a change: none where both writes fail (R462), and then nothing changes. -/
def State.writeArchive (s : State) (okay : Bool) (f : Archive → Archive) : Option State :=
  if !okay then none
  else
    let a := { f s.held with gen := s.held.gen + 1, setver := s.boot.setver }
    let h := s.writeHalf
    some { s with
      mgmt := { s.mgmt with held := a, half := h },
      nv := if h = 0 then { s.nv with half0 := some a } else { s.nv with half1 := some a } }

/-- Write the archive where the spec names no outcome of a failure: the write succeeds. -/
def State.keepArchive (s : State) (f : Archive → Archive) : State := (s.writeArchive true f).getD s

/-! ## Assent (R463 to R465) -/

def State.sesEvent (s : State) (bit : Nat) : State := s.raise 0 (sesKey 0x10) (sesKey 0x0C) bit 6

def cyclesPerSecond : Nat := 1500000000

/-- The ASCII bytes of a name. -/
def ascii (t : String) : List Byte := t.toList.map (fun c => BitVec.ofNat 8 c.toNat)

/-- D(k, body) of R463. -/
def State.assentDigest (s : State) (k : Nat) (body : List Byte) : BitVec 384 :=
  Config.sha384 (ascii "DXV-ASSENT" ++ natLE 1 k ++ natLE 4 s.held.assentSeq.toNat
    ++ (natLE 48 (Config.sha384 Config.deviceIdKey).toNat).reverse ++ body)

def State.assent (s : State) (n : Nat) : Option Assent := NatMap.get none s.mgmt.assents n
def State.setAssent (s : State) (n : Nat) (a : Option Assent) : State :=
  { s with mgmt := { s.mgmt with assents := NatMap.set none s.mgmt.assents n a } }

/-- Is the record past its deadline? An assent exactly at the deadline still counts (R464). -/
def Assent.late (a : Assent) (now : Nat) : Bool := a.state != .reserved && decide (a.deadline < now)

/-- Records past their deadlines are removed (R464). -/
def State.expireAssents (s : State) : State :=
  (List.range 8).foldl (fun s n => match s.assent n with
    | some a => if a.late s.now then (s.setAssent n none).sesEvent 4 else s
    | none => s) s

/-- The position of the record of a kind and digest. -/
def State.findAssent (s : State) (kind : Nat) (d : BitVec 384) : Option Nat :=
  (List.range 8).find? (fun n => match s.assent n with | some a => a.kind == kind && decide (a.digest = d) | none => false)

/-- The position of the COMPLETE record of a kind and digest. -/
def State.completeAssent (s : State) (kind : Nat) (d : BitVec 384) : Option Nat :=
  (List.range 8).find? (fun n => match s.assent n with
    | some a => a.kind == kind && decide (a.digest = d) && a.state == .complete && !a.late s.now | none => false)

/-- A COMPLETE or RESERVED record is used up. -/
def State.useAssent (s : State) (n : Nat) : State := (s.setAssent n none).sesEvent 5

/-- A COMPLETE record is reserved. -/
def State.reserveAssent (s : State) (n : Nat) : State :=
  match s.assent n with
  | some a => s.setAssent n (some { a with state := .reserved })
  | none => s

/-- A reserved record returns to COMPLETE with its old deadline, or is removed where that has passed (R465). -/
def State.returnAssent (s : State) (n : Option Nat) : State :=
  match n with
  | none => s
  | some n =>
    match s.assent n with
    | some a =>
      let b := { a with state := .complete }
      if b.late s.now then (s.setAssent n none).sesEvent 4 else s.setAssent n (some b)
    | none => s

/-- An ASSENT by OWNER or CUSTODIAN (R464): its RESULT and the records after it. -/
def State.giveAssent (s : State) (owner : Bool) (kind : Nat) (d : BitVec 384) : Nat × State :=
  let s := s.expireAssents
  let mine : AssentState := if owner then .owner else .custodian
  match s.findAssent kind d with
  | some n =>
    match s.assent n with
    | none => (0, s)
    | some a =>
      if a.state = .complete ∨ a.state = .reserved then (0, s)
      else if a.state = mine then (6, s)
      else
        let b := { a with state := .complete, deadline := s.now + a.window * cyclesPerSecond }
        (0, (s.setAssent n (some b)).sesEvent 3)
  | none =>
    match (List.range 8).find? (fun n => (s.assent n).isNone) with
    | none => (7, s)
    | some n =>
      let b : Assent := ⟨mine, kind, d, s.held.window, s.now + s.held.window * cyclesPerSecond⟩
      (6, (s.setAssent n (some b)).sesEvent 2)

/-- ASSENT_EXPIRY (R464). -/
def execAssentExpiry (t : Nat) (s : State) : Host.Outcome State Fault Refusal := ok ((s.advance t).expireAssents)

/-! ## Role keys (R84, R85) -/

/-- The hash held for a role code of R82; `p` is the partition of an OPERATOR. -/
def Archive.hash (a : Archive) (role p : Nat) : Option (BitVec 384) :=
  if role = 1 then a.ownerHash else if role = 2 then a.custodianHash else NatMap.get none a.operatorHash p

/-- What the device holds of a plate's PROTECTION section once it is installed (R84, R85). An OPERATOR hash of zeros is none. -/
def Archive.withProt (a : Archive) (q : ProtSec) : Archive :=
  { a with
    ownerHash := some q.ownerHash, custodianHash := some q.custodianHash,
    operatorHash := (List.range 16).foldl (fun m p =>
      let h := (q.operatorHash.drop p).headD 0
      NatMap.set none m p (if h = 0 then none else some h)) [],
    lock := q.ownerLock == 1, window := q.window, debugPolicy := q.debugPolicy, updatePolicy := q.updatePolicy }

end Sys2Proof.Machine
end

