-- ==== Sys2Proof/Machine/FlitOps.lean ====
section
/-!
DEFINITION. The wire of an MBX port (R400 to R405): the block code, flits, acknowledgement, credits and violations.
-/

namespace Sys2Proof.Machine

/-! ## The block code (R400): two interleaved RS(136,128) codes over GF(2^8) -/

/-- Multiply by α in GF(2^8) with field polynomial x^8 + x^4 + x^3 + x^2 + 1. -/
def g8X (a : Byte) : Byte := if a.getLsbD 7 then (a <<< 1) ^^^ 0x1D#8 else a <<< 1

def g8MulFrom (a b : Byte) : Nat → Byte → Byte
  | 0, acc => acc
  | n + 1, acc => g8MulFrom a b n (g8X acc ^^^ (if b.getLsbD n then a else 0#8))

/-- The product in GF(2^8). -/
def g8Mul (a b : Byte) : Byte := g8MulFrom a b 8 0#8

/-- α to the power `n`. -/
def g8Pow : Nat → Byte
  | 0 => 1#8
  | n + 1 => g8X (g8Pow n)

/-- The inverse of a non-zero element: its 254th power. -/
def g8Inv (a : Byte) : Byte := (List.range 253).foldl (fun x _ => g8Mul x a) a

/-- The generator polynomial, roots α^0 to α^7, its coefficients below x^8, highest first. -/
def rsGen : List Byte :=
  ((List.range 8).foldl (fun g i => List.zipWith (· ^^^ ·) (g ++ [0#8]) (0#8 :: g.map (g8Mul (g8Pow i)))) [1#8]).drop 1

/-- The eight parity bytes of 128 data bytes; the first byte is the coefficient of the highest power. -/
def rsParity (d : List Byte) : List Byte :=
  d.foldl (fun r b =>
    let f := b ^^^ r.headD 0#8
    List.zipWith (· ^^^ ·) (r.drop 1 ++ [0#8]) (rsGen.map (g8Mul f))) (List.replicate 8 0#8)

/-- The value of a code word, highest power first, at a point. -/
def rsEval (c : List Byte) (x : Byte) : Byte := c.foldl (fun acc b => g8Mul acc x ^^^ b) 0#8

def rsSyndromes (c : List Byte) : List Byte := (List.range 8).map (fun i => rsEval c (g8Pow i))

/-- The value of a polynomial, lowest power first, at a point. -/
def polyAt (p : List Byte) (x : Byte) : Byte := p.foldr (fun a acc => g8Mul acc x ^^^ a) 0#8

/-- Polynomials added, lowest power first. -/
def polyAdd : List Byte → List Byte → List Byte
  | [], l => l
  | l, [] => l
  | a :: l, b :: m => (a ^^^ b) :: polyAdd l m

/-- The state of the search for the error locator. -/
structure Locator where
  c : List Byte := [1#8]
  b : List Byte := [1#8]
  len : Nat := 0
  gap : Nat := 1
  last : Byte := 1#8

/-- One step of the search. -/
def Locator.step (l : Locator) (syn : List Byte) (n : Nat) : Locator :=
  let d := (List.range (l.len + 1)).foldl (fun a i => a ^^^ g8Mul ((l.c.drop i).headD 0#8) ((syn.drop (n - i)).headD 0#8)) 0#8
  if d = 0#8 then { l with gap := l.gap + 1 }
  else
    let f := g8Mul d (g8Inv l.last)
    let c := polyAdd l.c (List.replicate l.gap 0#8 ++ l.b.map (g8Mul f))
    if 2 * l.len ≤ n then { c := c, b := l.c, len := n + 1 - l.len, gap := 1, last := d }
    else { l with c := c, gap := l.gap + 1 }

/-- Correct a word of one code: the word, and whether it was changed; none where it has more errors than the code corrects. -/
def rsDecode (w : List Byte) : Option (List Byte × Bool) :=
  let syn := rsSyndromes w
  if syn.all (· = 0#8) then some (w, false)
  else
    let l := (List.range 8).foldl (fun l n => l.step syn n) ({} : Locator)
    let n := w.length
    -- byte i is the coefficient of x^(n − 1 − i)
    let at_ := (List.range n).filter (fun i => polyAt l.c (g8Inv (g8Pow (n - 1 - i))) = 0#8)
    let omega := ((List.range 8).map (fun k =>
      (List.range (k + 1)).foldl (fun a i => a ^^^ g8Mul ((l.c.drop i).headD 0#8) ((syn.drop (k - i)).headD 0#8)) 0#8))
    -- the formal derivative keeps the odd coefficients
    let deriv := (List.range l.c.length).map (fun i => if i % 2 = 0 then (l.c.drop (i + 1)).headD 0#8 else 0#8)
    let fixed := (w.zip (List.range n)).map (fun x =>
      if at_.contains x.2 then
        let xk := g8Pow (n - 1 - x.2)
        let y := g8Inv xk
        x.1 ^^^ g8Mul xk (g8Mul (polyAt omega y) (g8Inv (polyAt deriv y)))
      else x.1)
    if l.len ≤ 4 ∧ at_.length = l.len ∧ (rsSyndromes fixed).all (· = 0#8) then some (fixed, true) else none

/-- Every other byte of a list. -/
def evens {α : Type} : List α → List α
  | a :: _ :: l => a :: evens l
  | [a] => [a]
  | [] => []

def interleave : List Byte → List Byte → List Byte
  | a :: l, b :: m => a :: b :: interleave l m
  | _, _ => []

/-- A wire block of a flit. -/
def blockOf (flit : List Byte) : List Byte :=
  flit ++ interleave (rsParity (evens flit)) (rsParity (evens (flit.drop 1)))

/-- The flit of a wire block, and whether it was corrected. -/
def unblock (b : List Byte) : Option (List Byte × Bool) :=
  if b.length ≠ 272 then none
  else match rsDecode (evens b), rsDecode (evens (b.drop 1)) with
    | some x, some y => some ((interleave x.1 y.1).take 256, x.2 || y.2)
    | _, _ => none

/-! ## Flits (R401, R402) -/

/-- The CRC of a flit (R402). -/
def flitCrc (b : List Byte) : Nat := (crc32With 0xEDB88320#32 b).toNat

def flitSeq (f : List Byte) : Nat := fieldLE f 0 2 % 4096
def flitKind (f : List Byte) : Nat := fieldLE f 0 2 / 4096
def flitAck (f : List Byte) : Nat := fieldLE f 2 2 % 4096
def flitAckV (f : List Byte) : Bool := bitOf (fieldLE f 2 2) 12
def flitTag (f : List Byte) : Nat := byteAt f 8
def flitNmsg (f : List Byte) : Nat := byteAt f 9

/-- A credit return as written: slice, class, virtual channel and flits. -/
def creditKey (c : Nat) : Nat := 8 * (c % 32) + 2 * bitsOf c 5 2 + bitsOf c 7 1
def creditField (key n : Nat) : Nat := key / 8 + key / 2 % 4 * 2 ^ 5 + key % 2 * 2 ^ 7 + n * 2 ^ 8
/-- The credit key of a DATA flit's TAG byte. -/
def tagKey (t : Nat) : Nat := creditKey t
def tagOf (key : Nat) : Nat := creditField key 0

/-- Is a non-zero reserved field, or a slice code of 17 to 31, in the flit (R401, R403, R426)? -/
def flitFieldBad (f : List Byte) : Bool :=
  let k := flitKind f
  decide (fieldLE f 2 2 ≥ 2 ^ 13) || decide (byteAt f 4 % 32 ≥ 17) || decide (byteAt f 6 % 32 ≥ 17) || fieldLE f 10 2 != 0
    || (if k = 1 then decide (flitTag f % 32 ≥ 17) else flitTag f != 0 || flitNmsg f != 0)
    || ((k == 0 || k == 3 || k == 4) && flitSeq f != 0) || (k == 3 && decide (byteAt f 27 ≥ 2))

/-- A flit's bytes. -/
def flitBytes (kind seq ack : Nat) (ackv : Bool) (cr0 cr1 tag nmsg : Nat) (payload : List Byte) : List Byte :=
  let b := natLE 2 (seq + 4096 * kind) ++ natLE 2 (if ackv then ack + 4096 else 0) ++ natLE 2 cr0 ++ natLE 2 cr1 ++ natLE 1 tag
    ++ natLE 1 nmsg ++ [0#8, 0#8] ++ payload ++ List.replicate (240 - payload.length) 0#8
  b ++ natLE 4 (flitCrc b)

/-! ## Credits (R408, R409) -/

/-- A slice of this device's receive buffer of a port, in flits (R76, R408). -/
def LinksSec.sliceFlits (l : LinksSec) (q slice : Nat) : Nat :=
  let row := (l.slices.drop (16 * q)).take 16
  if slice < 16 then 16 * (row.drop slice).headD 0 else 16 * (64 - row.sum)

/-- The reserve of a class in a slice of `f` flits. -/
def reserveOf (f cmin : Nat) : Nat := if f = 0 then 0 else 2 + (f - 16) * cmin / 128

/-- What the pool of a slice holds, given the reserves of its classes. -/
def poolOf (f : Nat) (cmin : List Nat) : Nat := f - ((List.range 4).map (fun c => 2 * reserveOf f ((cmin.drop c).headD 0))).sum

/-- The flits of a slice that the shared pool holds. -/
def poolUsed (m : NatMap Nat) (slice : Nat) : Nat := ((List.range 8).map (fun k => NatMap.get 0 m (8 * slice + k))).sum

/-- Has the sender a credit for a key: a reserved one, or a shared one? -/
def Port.reservedFree (q : Port) (key : Nat) : Bool :=
  decide (NatMap.get 0 q.usedRes key < reserveOf (q.mirrorSlice (key / 8)) ((q.mirrorMin.drop (key / 2 % 4)).headD 0))
def Port.sharedFree (q : Port) (key : Nat) : Bool :=
  decide (poolUsed q.usedShared (key / 8) < poolOf (q.mirrorSlice (key / 8)) q.mirrorMin)
def Port.hasCredit (q : Port) (key : Nat) : Bool := q.reservedFree key || q.sharedFree key

/-- Take a credit, a reserved one first. -/
def Port.takeCredit (q : Port) (key : Nat) : Port :=
  if q.reservedFree key then { q with usedRes := NatMap.upd 0 q.usedRes key (· + 1) }
  else { q with usedShared := NatMap.upd 0 q.usedShared key (· + 1) }

/-- The partner returned `n` credits of a key: the reserve is refilled first. -/
def Port.gotCredits (q : Port) (key n : Nat) : Port :=
  let r := min n (NatMap.get 0 q.usedRes key)
  { q with usedRes := NatMap.upd 0 q.usedRes key (· - r), usedShared := NatMap.upd 0 q.usedShared key (· - (n - r)) }

/-- May the port's own buffer take a flit of a key by the same rule? -/
def State.rxReserved (s : State) (q key : Nat) : Bool :=
  let l := s.plate.linksInForce
  decide (NatMap.get 0 (s.port q).heldRes key < reserveOf (l.sliceFlits q (key / 8)) ((l.classMin.drop (key / 2 % 4)).headD 0))
def State.rxShared (s : State) (q key : Nat) : Bool :=
  let l := s.plate.linksInForce
  decide (poolUsed (s.port q).held (key / 8) < poolOf (l.sliceFlits q (key / 8)) l.classMin)

/-- A flit takes a place of the port's buffer: `heldRes` counts reserved places and `held` those of the pool. -/
def State.rxTake (s : State) (q key : Nat) : State :=
  if s.rxReserved q key then s.modPort q (fun p => { p with heldRes := NatMap.upd 0 p.heldRes key (· + 1) })
  else s.modPort q (fun p => { p with held := NatMap.upd 0 p.held key (· + 1) })

/-- The credit returns a flit carries, at most two, each of at most 255 flits; they free the places they name. -/
def Port.takeReturns (q : Port) : List (Nat × Nat) × Port :=
  let l := (q.returns.take 2).map (fun e => (e.1, min 255 e.2))
  (l, l.foldl (fun q e =>
    let r := min e.2 (NatMap.get 0 q.heldRes e.1)
    { q with
      returns := NatMap.upd 0 q.returns e.1 (· - e.2), heldRes := NatMap.upd 0 q.heldRes e.1 (· - r),
      held := NatMap.upd 0 q.held e.1 (· - (e.2 - r)) }) q)

/-- Is a message of a flit's slot still here? -/
def Links.holds (l : Links) (x : RxSlot) : Bool := l.inbox.any (fun m => m.slot == some x) || l.outbox.any (fun m => m.slot == some x)

/-- A message of a slot is gone: once all are, the flit's credit goes back. -/
def State.freeSlot (s : State) (x : Option RxSlot) : State :=
  match x with
  | none => s
  | some x => if s.links.holds x then s else s.modPort x.port (fun q => { q with returns := NatMap.upd 0 q.returns x.key (· + 1) })

/-! ## Sending -/

/-- The ACK every flit carries: the last DATA flit received in order (R404). -/
def Port.ackNow (q : Port) : Nat := (q.expected + 4095) % 4096

/-- Send a flit on a port: it carries the current ACK and up to two credit returns. -/
def State.sendFlit (s : State) (q kind seq tag nmsg : Nat) (payload : List Byte) : State :=
  let p := s.port q
  let r := p.takeReturns
  let cr := fun i => match (r.1.drop i).head? with | some e => creditField e.1 e.2 | none => 0
  (s.modPort q (fun _ => r.2)).emit (.flit q kind seq (blockOf (flitBytes kind seq p.ackNow p.gotAny (cr 0) (cr 1) tag nmsg payload)))

/-- Send a NAK, unless one is outstanding (R404). -/
def State.sendNak (s : State) (q : Nat) : State :=
  let p := s.port q
  let waiting := match p.nakAt with | some t => decide (s.now < t + cyclesPerMicro) | none => false
  if waiting then s else (s.modPort q (fun p => { p with nakAt := some s.now })).sendFlit q 2 p.expected 0 0 []

/-- Raise an event of a port's block. -/
def mbxVec (q : Nat) : Nat := 16 + q
def State.mbxEvent (s : State) (q bit : Nat) : State := s.raise 0 (mbxKey q 0x10) (mbxKey q 0x0C) bit (mbxVec q)

/-- The times of the last `d` cycles, with this one. -/
def stamp (now d : Nat) (l : List Nat) : List Nat := now :: l.filter (fun t => decide (now < t + d))

/-! ## Port states (R406, R411, R427) -/

/-- A port goes DARK, or DARK_HELD, with a reason: an error record says so (R528). -/
def State.portDown (s : State) (q : Nat) (st : PortState) (reason : Nat) : State :=
  let was := (s.port q).state
  let s := s.modPort q (fun p => { p with state := st, reason := reason, phase := 0 })
  let s := if st = .darkHeld then s.mbxEvent q 5 else s
  if was = .dark ∨ was = .darkHeld then s
  else (s.mbxEvent q 1).logErr { cls := 0, source := 8, code := 3, unit := q, detail := reason }

/-- Both buffers of a port are discarded, and its sequences and credits start anew (R404, R406). -/
def State.clearPort (s : State) (q : Nat) : State :=
  let mine := fun x : Option RxSlot => match x with | some y => y.port == q | none => false
  (s.modPort q (fun p => { p with
      expected := 0, gotAny := false, nakAt := none, sent := 0, retry := [], replay := [], nakRun := 0, usedRes := [], usedShared := [], held := [], heldRes := [], returns := [], knownPartner := none })).modLinks
    (fun l => { l with inbox := l.inbox.filter (fun m => !mine m.slot), outbox := l.outbox.filter (fun m => !mine m.slot) })

/-- A port starts training (R411). -/
def State.startTraining (s : State) (q : Nat) : State :=
  s.modPort q (fun p => { p with state := .training, reason := 0, since := s.now, phase := 0, echoes := 0, minTrip := 0 })

/-- A port leaves UP to retrain and keeps its sequences (R406); the fourth retrain within 1 s leaves it DARK_HELD. -/
def State.portRetrain (s : State) (q : Nat) (dest : PortState) : State :=
  let p := s.port q
  if p.state ≠ .up then s
  else
    let ts := stamp s.now (1000000 * cyclesPerMicro) p.retrains
    let s := ((s.incReg (mbxKey q 0x40)).mbxEvent q 2).modPort q (fun p => { p with
      retrains := ts, knownPartner := some (p.partner.toNat % 256, p.partner.toNat / 256 % 16) })
    if ts.length ≥ 4 then (s.portDown q .darkHeld 6).clearPort q
    else (s.startTraining q).modPort q (fun p => { p with state := dest })

/-- A violation by the partner (R426): a record, a count, the register, a notice to the partner; sixteen within 1 ms send
the port to DARK and then to training, and the third such retrain within 10 s leaves it DARK_HELD (R427). -/
def State.violation (s : State) (q code seq : Nat) : State :=
  let p := s.port q
  let vs := stamp s.now (1000 * cyclesPerMicro) p.viols
  let s := (((s.incReg (mbxKey q 0x44)).mbxEvent q 4).logErr { cls := 0, source := 8, code := 1, unit := q, detail := code }).modPort q
    (fun p => { p with lastViol := BitVec.ofNat 32 (code + 256 * seq), viols := vs })
  let s := if p.partner.getLsbD 31 then s.sendMsg { op := 0x20, src := s.dev, dst := p.partner.toNat % 256, addr := seq, aux := code } else s
  if vs.length < 16 then s
  else
    let rs := stamp s.now (10000000 * cyclesPerMicro) p.violRetrains
    let s := s.modPort q (fun p => { p with viols := [], violRetrains := rs })
    if rs.length ≥ 3 then (s.portDown q .darkHeld 4).clearPort q
    else
      let s := s.portRetrain q .training
      if (s.port q).state = .training then (s.mbxEvent q 1).logErr { cls := 0, source := 8, code := 3, unit := q, detail := 4 } else s

/-! ## Messages in a flit (R418) -/

/-- Does ADDR give the address of the first byte (R419)? -/
def addrOp (op : Nat) : Bool := [1, 2, 3, 4, 6, 0x82].contains op

/-- The bytes of data a message carries: a read carries none. -/
def msgDataLen (op dlen : Nat) : Nat := if op = 2 ∨ op = 4 then 0 else 16 * dlen

/-- The message at the start of a payload. -/
def msgOf (b : List Byte) : Msg :=
  let op := byteAt b 0
  let span := fieldLE b 6 2
  { op := op, dlen := byteAt b 1, src := byteAt b 2, dst := byteAt b 3, tag := fieldLE b 4 2, part := span % 16,
    skip := bitsOf span 4 4, trim := bitsOf span 8 4, addr := fieldLE b 8 6, aux := fieldLE b 14 2,
    data := (b.drop 16).take (msgDataLen op (byteAt b 1)) }

/-- The bytes of a message. -/
def Msg.bytes (m : Msg) : List Byte :=
  natLE 1 m.op ++ natLE 1 m.dlen ++ natLE 1 m.src ++ natLE 1 m.dst ++ natLE 2 m.tag
    ++ natLE 2 (m.part + 16 * m.skip + 256 * m.trim) ++ natLE 6 m.addr ++ natLE 2 m.aux ++ m.data

/-- The length of a message in a flit. -/
def Msg.size (m : Msg) : Nat := 16 + msgDataLen m.op m.dlen

/-- Cut `n` messages out of a payload, or the violation code of the first that breaks R426. -/
def cutMsgs : Nat → List Byte → Except Nat (List Msg)
  | 0, _ => .ok []
  | n + 1, b =>
    let m := msgOf b
    if b.length < 16 then .error 6
    else if !msgOpKnown m.op then .error 7
    else if m.dlen > 14 ∨ m.size > b.length ∨ (addrOp m.op ∧ m.skip ≠ m.addr % 16) then .error 6
    else if fieldLE b 6 2 ≥ 2 ^ 12 then .error 2
    else match cutMsgs n (b.drop m.size) with
      | .ok l => .ok (m :: l)
      | .error e => .error e

/-- The messages of a DATA flit. -/
def flitMsgs (f : List Byte) : Except Nat (List Msg) :=
  if flitNmsg f = 0 ∨ flitNmsg f > 15 then .error 6 else cutMsgs (flitNmsg f) ((f.drop 12).take 240)

end Sys2Proof.Machine
end

