-- ==== Sys2Proof/Machine/Engine.lean ====
section
/-!
DEFINITION. What the engines share (R270): accesses at partition addresses that stop at the first failure, the bytes moved
so far, and the bound R273 sets on reads of bytes that the same command wrote.
-/

namespace Sys2Proof.Machine

/-- A command at work: the device, the bytes it has moved, how it failed, and, by device-local address, what a byte it has
written held before and has been given since, oldest first. -/
structure Eng where
  s : State
  p : Nat
  moved : Nat := 0
  err : Option MemErr := none
  written : NatMap (List Byte) := []

/-- An address of the 48-bit space from an integer: one outside it lies in no segment. -/
def addrOf (x : Int) : Nat := if x < 0 then 2 ^ 48 else x.toNat

/-- Read `n` bytes at partition address `pa`; after a failure nothing more is done. -/
def Eng.read (e : Eng) (acc : Access) (pa n : Nat) : List Byte × Eng :=
  if e.err.isSome then ([], e)
  else match e.s.readPart e.p acc .engine pa n with
    | (.ok b, s) => (b, { e with s := s, moved := e.moved + n })
    | (.error (x, done), s) => ([], { e with s := s, moved := e.moved + done, err := some x })

/-- Write bytes at partition address `pa`. -/
def Eng.write (e : Eng) (pa : Nat) (bs : List Byte) : Eng :=
  if e.err.isSome then e
  else match e.s.writePart e.p .engine pa bs with
    | (.ok _, s) => { e with s := s, moved := e.moved + bs.length }
    | (.error (x, done), s) => { e with s := s, moved := e.moved + done, err := some x }

/-- Write bytes at a device-local address of the engine's own cluster. -/
def Eng.writeLocal (e : Eng) (a : Nat) (bs : List Byte) : Eng :=
  if e.err.isSome then e
  else match e.s.writeDev a bs .engine 0 with
    | (.ok _, s) => { e with s := s, moved := e.moved + bs.length }
    | (.error (x, done), s) => { e with s := s, moved := e.moved + done, err := some x }

/-- Write all of it or nothing: what a failed write had put down is undone (R328). -/
def Eng.writeWhole (e : Eng) (pa : Nat) (bs : List Byte) : Eng :=
  let f := e.write pa bs
  if e.err.isNone && f.err.isSome then { e with err := f.err } else f

/-- The device-local address of the byte at `pa`, where it is on this device. -/
def Eng.localAddr (e : Eng) (acc : Access) (pa : Nat) : Option Nat :=
  match e.s.translate e.p 0xFFFF acc pa with
  | .ok (.here a) => some a
  | _ => none

/-- One byte read that the command itself may have written: which of its values is read is open (R273). -/
def Eng.pick (e : Eng) (a : Option Nat) (b : Byte) : Byte × Eng :=
  match a with
  | none => (b, e)
  | some a =>
    match NatMap.get [] e.written a with
    | [] => (b, e)
    | l =>
      let d := e.s.draw
      ((l.drop ((Config.freeDword d.1).toNat % l.length)).headD b, { e with s := d.2 })

/-- Note that a byte is to be given a value; `old` is what it holds. -/
def Eng.note (e : Eng) (a : Option Nat) (old b : Byte) : Eng :=
  match a with
  | none => e
  | some a =>
    let l := NatMap.get [] e.written a
    { e with written := NatMap.set [] e.written a (if l.isEmpty then [old, b] else l ++ [b]) }

/-- Read bytes under the bound of R273. -/
def Eng.readOpen (e : Eng) (pa n : Nat) : List Byte × Eng :=
  let r := e.read .read pa n
  if r.2.err.isSome then r
  else ((r.1.zip (List.range n)).foldl (fun (acc : List Byte × Eng) x =>
      let q := acc.2.pick (acc.2.localAddr .read (pa + x.2)) x.1
      (acc.1 ++ [q.1], q.2)) ([], r.2))

/-- The byte an address of this device holds for the command's own bookkeeping: memory with the write-combining entry of
its line over it. -/
def State.peekByte (s : State) (a : Nat) : Byte :=
  match regionOf a with
  | .dram g o =>
    match (s.wcOf (s.chanOf g o)).find? (fun e => e.line == a / 64 * 64 && e.valid.getLsbD (a % 64)) with
    | some e => BitVec.ofNat 8 (bytesOf e.data.toNat (a % 64) 1)
    | none => s.byteAt a
  | _ => s.byteAt a

/-- Move bytes that were read to `dst`, noting what is overwritten. -/
def Eng.writeNoted (e : Eng) (dst : Nat) (bs : List Byte) : Eng :=
  if e.err.isSome then e
  else
    let n := (bs.zip (List.range bs.length)).foldl (fun (f : Eng) x =>
      let a := f.localAddr .write (dst + x.2)
      f.note a ((a.map f.s.peekByte).getD 0) x.1) e
    n.write dst bs

/-- The bytes of a run as they are moved: a byte whose source is a destination of an earlier byte of the same run may take
either value (R273). -/
def Eng.mixRun (e : Eng) (src dst : Nat) : List (Byte × Nat) → List Byte → List Byte × Eng
  | [], out => (out, e)
  | (b, j) :: l, out =>
    let sa := e.localAddr .read (src + j)
    let back := match sa with
      | none => none
      | some a => (List.range j).find? (fun i => e.localAddr .write (dst + i) == some a)
    match back with
    | none => Eng.mixRun e src dst l (out ++ [b])
    | some i =>
      let d := e.s.draw
      Eng.mixRun { e with s := d.2 } src dst l (out ++ [if Config.freeBool d.1 then b else (out.drop i).headD b])

/-- Copy `n` bytes that lie in one 64-byte line of the source. -/
def Eng.copyRun (e : Eng) (src dst n : Nat) : Eng :=
  let r := e.readOpen src n
  let m := r.2.mixRun src dst (r.1.zip (List.range r.1.length)) []
  m.2.writeNoted dst m.1

/-- Copy `n` bytes in ascending order. -/
def Eng.copy (e : Eng) (src dst n : Nat) : Eng :=
  (chunks 64 src n).foldl (fun e c => e.copyRun c.1 (dst + (c.1 - src)) c.2) e

/-- Put the outcome into the command: its failure, or the status given. -/
def Eng.finish (e : Eng) (id : Nat) (status : Nat × Nat) : State :=
  let st := match e.err with
    | some x => x.status e.moved
    | none => status
  e.s.finishCmd e.p id e.moved st.1 st.2

/-- Start work on command `id` of a class and opcode, where its unit may. -/
def State.runEngine (s : State) (p id cls op : Nat) (f : Line → Eng → State) : State :=
  match s.engineCmd p id cls op with
  | none => s
  | some c => f c.image { s := s, p := p }

end Sys2Proof.Machine
end

