-- ==== Sys2Proof/Machine/Lnk.lean ====
section
/-!
DEFINITION. LNK commands (R277, R420): how a link engine divides them into messages and when they are done.
-/

namespace Sys2Proof.Machine

/-- The fields of a LNK record (R277). -/
def lnkDev (r : Line) : Nat := fld r 32 1
def lnkMarks (r : Line) : Bool := bitOf (fld r 33 1) 0
def lnkLocal (r : Line) : Nat := fld r 34 6
def lnkRemote (r : Line) : Nat := fld r 40 6
def lnkMark (r : Line) : Nat := fld r 46 2
def lnkLen (r : Line) : Nat := fld r 48 4

def lnkKey (p id : Nat) : Nat := 16 * id + p
def State.lnkProg (s : State) (p id : Nat) : LnkProg := NatMap.get {} s.links.lnk (lnkKey p id)
def State.modLnk (s : State) (p id : Nat) (f : LnkProg → LnkProg) : State :=
  s.modLinks (fun l => { l with lnk := NatMap.upd {} l.lnk (lnkKey p id) f })

/-- How many bytes the message at offset `o` of a LNK command covers: at most 224 bytes of data with the first skip. -/
def lnkPiece (r : Line) (o : Nat) : Nat := min (lnkLen r - o) (224 - (lnkRemote r + o) % 16)

/-- The bytes a link engine has asked for and not yet received, which its 64 KiB response buffer holds room for. -/
def State.lnkAsked (s : State) (port : Nat) : Nat :=
  (s.links.txns.map (fun t => match t.kind with | .lnkRead _ _ _ n => if t.port = port then n else 0 | _ => 0)).sum

/-- A LNK command ends. -/
def State.lnkFinish (s : State) (p id status detail : Nat) : State :=
  match (s.sch p).cmd? id with
  | none => s
  | some c => if c.result.isSome then s else (s.modLnk p id (fun _ => {})).finishCmd p id c.moved status detail

/-- A LNK command all of whose responses have come is done. -/
def State.lnkDone (s : State) (p id : Nat) : State :=
  match (s.sch p).cmd? id with
  | none => s
  | some c =>
    let g := s.lnkProg p id
    if recClass c.image = 5 ∧ c.began.isSome ∧ g.answered = lnkLen c.image ∧ (!lnkMarks c.image ∨ g.markDone) then s.lnkFinish p id 0 0
    else s

/-- The next WRITE of a PUT: its data are read first. -/
def State.lnkWrite (s : State) (p : Nat) (c : Cmd) (tag : Nat) : State :=
  let r := c.image
  let o := (s.lnkProg p c.id).issued
  let n := lnkPiece r o
  let b := ({ s := s, p := p, moved := c.moved } : Eng).read .read (lnkLocal r + o) n
  if b.2.err.isSome then b.2.finish c.id (0, 0)
  else
    ((b.2.s.modCmd p c.id (fun x => { x with moved := x.moved + 2 * n })).modLnk p c.id (fun g => { g with issued := o + n })).request
      (spanMsg 1 s.dev (lnkDev r) tag p (lnkRemote r + o) n 0 b.1) (.lnkWrite p c.id n)

/-- The next READ of a GET. -/
def State.lnkRead (s : State) (p : Nat) (c : Cmd) (tag : Nat) : State :=
  let r := c.image
  let o := (s.lnkProg p c.id).issued
  let n := lnkPiece r o
  (s.modLnk p c.id (fun g => { g with issued := o + n })).request
    (spanMsg 2 s.dev (lnkDev r) tag p (lnkRemote r + o) n 0 []) (.lnkRead p c.id o n)

/-- The next message of a LNK command, where there is one to send: a tag must be free (R424), and room for what a READ asks. -/
def State.lnkNext (s : State) (p id op : Nat) : Option State :=
  match s.engineCmd p id 5 op with
  | none => none
  | some c =>
    let r := c.image
    let g := s.lnkProg p id
    match s.freeTag (lnkDev r) with
    | none => none
    | some tag =>
      if g.issued < lnkLen r then
        if op = 0 then some (s.lnkWrite p c tag)
        else if s.lnkAsked (s.routePort (lnkDev r)) + lnkPiece r g.issued ≤ 65536 then some (s.lnkRead p c tag)
        else none
      else if lnkMarks r ∧ !g.marked ∧ g.answered = lnkLen r then
        some ((s.modLnk p id (fun g => { g with marked := true })).request
          { op := 5, src := s.dev, dst := lnkDev r, tag := tag, part := p, aux := lnkMark r } (.lnkMark p id))
      else none

/-- Send what may be sent; the fuel is at least the number of messages. -/
def State.lnkSend (s : State) (p id op : Nat) : Nat → State
  | 0 => s
  | n + 1 => match s.lnkNext p id op with
    | none => s
    | some t => State.lnkSend t p id op n

/-- A link engine works on command `id` (R420). -/
def State.lnkPump (s : State) (p id : Nat) : State :=
  match (s.sch p).cmd? id with
  | none => s
  | some c =>
    let op := recOpcode c.image
    match s.engineCmd p id 5 op with
    | none => s.lnkDone p id
    | some _ =>
      ((s.modCmd p id (fun c => { c with began := c.began.or (some s.now) })).lnkSend p id op (lnkLen c.image / 208 + 3)).lnkDone p id

/-- Start or go on with a command of an opcode. -/
def State.lnkRun (s : State) (p id op : Nat) : State :=
  match s.engineCmd p id 5 op with
  | none => s
  | some _ => s.lnkPump p id

/-- LNK_PUT (R420). -/
def execLnkPut (p id : Nat) (s : State) : Host.Outcome State Fault Refusal := ok (s.lnkRun p id 0)

/-- LNK_GET (R420). -/
def execLnkGet (p id : Nat) (s : State) : Host.Outcome State Fault Refusal := ok (s.lnkRun p id 1)

/-- READ_DATA for a GET (R420): the bytes are written at LOCAL as they arrive, whatever has become of the partition. -/
def State.lnkData (s : State) (p id off n : Nat) (poison : Bool) (b : List Byte) : State :=
  match (s.sch p).cmd? id with
  | none => s
  | some c =>
    if c.result.isSome then s
    else if poison then s.lnkFinish p id 9 (3 * 2 ^ 28 + min (c.moved / 64) (2 ^ 28 - 1))
    else
      let e := ({ s := s, p := p, moved := c.moved } : Eng).write (lnkLocal c.image + off) b
      if e.err.isSome then e.finish id (0, 0)
      else (((e.s.modCmd p id (fun c => { c with moved := c.moved + 2 * n })).modLnk p id (fun g => { g with answered := g.answered + n })).lnkPump p id)

/-- WRITE_ACK for a PUT. -/
def State.lnkAck (s : State) (p id n : Nat) : State :=
  match (s.sch p).cmd? id with
  | none => s
  | some c => if c.result.isSome then s else (s.modLnk p id (fun g => { g with answered := g.answered + n })).lnkPump p id

/-- MARK_ACK for a LNK command. -/
def State.lnkMarked (s : State) (p id : Nat) : State :=
  match (s.sch p).cmd? id with
  | none => s
  | some c => if c.result.isSome then s else (s.modLnk p id (fun g => { g with markDone := true })).lnkDone p id

end Sys2Proof.Machine
end

