-- ==== Sys2Proof/Machine/Migration.lean ====
section
/-!
DEFINITION. Migration streams (R100, R423): what the source sends, one message at a time, and what the target does with it.
The layout of the stream beyond the granule rank and the offset is this model's own.
-/

namespace Sys2Proof.Machine

def State.migProg (s : State) (p : Nat) : MigProg := NatMap.get {} s.links.mig p
def State.modMig (s : State) (p : Nat) (f : MigProg → MigProg) : State :=
  s.modLinks (fun l => { l with mig := NatMap.upd {} l.mig p f })

/-! ## The stream -/

/-- The spaces a migration sends of each granule (R100): DRAM, tray, kernel store. -/
def migBase (space g : Nat) : Nat := if space = 0 then dramBase g else if space = 1 then trayBase g else ksBase g
def migSize (space dram : Nat) : Nat := if space = 0 then dram else if space = 1 then 2 ^ 21 else 2 ^ 18

/-- What is sent of memory, in order: granule rank, space and bytes. -/
def State.migSpaces (s : State) (q : PartSec) : List (Nat × Nat × Nat) :=
  (q.granules.zip (List.range q.granules.length)).flatMap (fun x =>
    (List.range 3).map (fun sp => (x.2, sp, migSize sp (s.pieceSize 0 x.1))))

/-- The message that starts at position `pos` of the memory sent: rank, space, offset and length. -/
def migPiece : List (Nat × Nat × Nat) → Nat → Option (Nat × Nat × Nat × Nat)
  | [], _ => none
  | (r, sp, size) :: l, pos => if pos < size then some (r, sp, pos, min 224 (size - pos)) else migPiece l (pos - size)

def migTotal (l : List (Nat × Nat × Nat)) : Nat := (l.map (fun x => x.2.2)).sum

/-- Which granules have both channels, by rank. -/
def State.migWide (s : State) (q : PartSec) : Nat :=
  ((q.granules.zip (List.range q.granules.length)).map (fun x => if s.oneChan x.1 then 0 else 2 ^ x.2)).sum

/-- What is kept of a submission queue and of a completion queue. -/
def SQ.image (k : SQ) : List Byte :=
  natLE 4 (if k.en then 1 else 0) ++ natLE 4 k.baseLo.toNat ++ natLE 4 k.baseHi.toNat ++ natLE 4 k.cfg.toNat ++ natLE 4 k.tail.toNat
    ++ natLE 4 k.head.toNat ++ natLE 4 k.lastSeq.toNat ++ natLE 4 k.gaps.toNat
def CQ.image (k : CQ) : List Byte :=
  natLE 4 (if k.en then 1 else 0) ++ natLE 4 k.baseLo.toNat ++ natLE 4 k.baseHi.toNat ++ natLE 4 k.cfg.toNat ++ natLE 4 k.tail.toNat
    ++ natLE 4 k.head.toNat ++ natLE 4 k.irqEn.toNat ++ natLE 4 0
def Timer.image (t : Timer) : List Byte := natLE 4 t.cfg.id ++ natLE 4 (if t.active then 1 else 0) ++ natLE 8 t.left

def wordAt (b : List Byte) (o : Nat) : Word := BitVec.ofNat 32 (fieldLE b o 4)

def SQ.ofImage (b : List Byte) : SQ :=
  let en := fieldLE b 0 4 == 1
  { en := en, state := if en then .active else .off, baseLo := wordAt b 4, baseHi := wordAt b 8, cfg := wordAt b 12, tail := wordAt b 16,
    head := wordAt b 20, lastSeq := wordAt b 24, gaps := wordAt b 28 }
def CQ.ofImage (b : List Byte) : CQ :=
  { en := fieldLE b 0 4 == 1, baseLo := wordAt b 4, baseHi := wordAt b 8, cfg := wordAt b 12, tail := wordAt b 16, head := wordAt b 20,
    irqEn := wordAt b 24, run := 1 }

/-- The state sent after memory: marks, queue and completion-queue pointers, and timer remaining counts. -/
def State.migState (s : State) (p : Nat) : List Byte :=
  let x := s.sch p
  (List.range 4096).flatMap (fun m => natLE 8 (NatMap.get 0 x.marks m).toNat)
    ++ (List.range 32).flatMap (fun q => (NatMap.get {} x.sq q).image) ++ (List.range 32).flatMap (fun c => (NatMap.get {} x.cq c).image)
    ++ (List.range 8).flatMap (fun i => (((s.part p).timers.drop i).headD {}).image)

/-- Its length, and how many messages of 224 bytes carry it. -/
def migStateBytes : Nat := 32768 + 1024 + 1024 + 128
def migSteps : Nat := migStateBytes / 224

/-- The step number with which a source gives a stream up. -/
def migAbortStep : Nat := 2 ^ 48 - 1

/-- The state that arrived, put in place: timers are matched by ID, and one the source did not have has its full period. -/
def State.migLoad (s : State) (p : Nat) (b : List Byte) : State :=
  let ts := (List.range 8).map (fun i => b.drop (34816 + 16 * i))
  let timers := ((s.psecD p).timers.filter (fun t => t.kind != 0)).map (fun t =>
    match ts.find? (fun x => fieldLE x 0 4 == t.id) with
    | some x => ({ cfg := t, active := fieldLE x 4 4 == 1, left := fieldLE x 8 8 } : Timer)
    | none => { cfg := t, active := true, left := cyclesPerMicro * t.period })
  (s.modSch p (fun x => { x with
    marks := (List.range 4096).foldl (fun m i => NatMap.set 0 m i (BitVec.ofNat 64 (fieldLE b (8 * i) 8))) [],
    sq := (List.range 32).foldl (fun m i => NatMap.set {} m i (SQ.ofImage (b.drop (32768 + 32 * i)))) [],
    cq := (List.range 32).foldl (fun m i => NatMap.set {} m i (CQ.ofImage (b.drop (33792 + 32 * i)))) [] })).modPart p
    (fun q => { q with timers := timers })

/-! ## The source -/

/-- Has the partition no command left (R100)? -/
def State.quiet (s : State) (p : Nat) : Bool := (s.sch p).cmds.isEmpty

/-- A migration control message. -/
def State.migCtl (s : State) (p tag step : Nat) (b : List Byte) : Msg :=
  let g := s.migProg p
  { op := 7, dlen := b.length / 16, src := s.dev, dst := g.peerDev, tag := tag, part := p, addr := step, aux := g.peerPart, data := b }

/-- A source's stream fails (R100): a CONTAINED record says so, and the target is told. -/
def State.migFail (s : State) (p detail : Nat) : State :=
  if (s.part p).state ≠ .migrating ∨ (s.part p).migFailed then s
  else
    let s := (s.modPart p (fun q => { q with migFailed := true })).logErr
      { cls := 2, source := 0x0B, code := 3, part := p, unit := 0, detail := detail }
    match s.freeTag (s.migProg p).peerDev with
    | none => s
    | some t => if (s.migProg p).next = 0 then s else s.request (s.migCtl p t migAbortStep []) (.migCtl p migAbortStep)

/-- Send the message at position `pos` of memory. -/
def State.migSendMem (s : State) (p tag : Nat) (x : Nat × Nat × Nat × Nat) : State :=
  let g := (((s.psecD p).granules).drop x.1).headD 0
  match s.readDev (migBase x.2.1 g + x.2.2.1) x.2.2.2 .engine with
  | (.error e, s) => s.migFail p (match e.1 with | .poison => 2 | _ => 1)
  | (.ok b, s) =>
    let m := s.migProg p
    (s.modMig p (fun g => { g with next := g.next + x.2.2.2, waiting := true })).request
      (spanMsg 6 s.dev m.peerDev tag p (x.1 * 2 ^ 40 + x.2.1 * 2 ^ 32 + x.2.2.1) x.2.2.2 m.peerPart b) (.migData p)

/-- Send the next message of the stream, once the work is done and the last message is answered. -/
def State.migPump (s : State) (p : Nat) : State :=
  let q := s.psecD p
  let g := s.migProg p
  if (s.part p).state ≠ .migrating ∨ (s.part p).migFailed ∨ !s.quiet p ∨ g.waiting ∨ g.finished then s
  else match s.freeTag g.peerDev with
    | none => s
    | some tag =>
      if g.next = 0 then
        (s.modMig p (fun g => { g with next := 1, waiting := true })).request
          (s.migCtl p tag 0 (natLE 16 q.granules.length ++ natLE 32 (s.migWide q))) (.migCtl p 0)
      else
        let sp := s.migSpaces q
        match migPiece sp (g.next - 1) with
        | some x => s.migSendMem p tag x
        | none =>
          let k := g.next - 1 - migTotal sp
          (s.modMig p (fun g => { g with next := g.next + 1, waiting := true })).request
            (s.migCtl p tag (k + 1) (((s.migState p).drop (224 * k)).take 224)) (.migCtl p (k + 1))

/-- An answer that accepts a message of the stream. -/
def State.migAck (s : State) (p step : Nat) : State :=
  if step = migAbortStep then s
  else (s.modMig p (fun g => { g with waiting := false, finished := step == migSteps })).migPump p

/-! ## The target -/

/-- May the partition take the stream whose first message says `n` granules and `wide` (R100)? -/
def State.migFits (s : State) (p n wide : Nat) : Bool :=
  let x := s.part p
  let q := s.psecD p
  decide (p < 16) && s.created p && x.state == .off && q.migrateIn && x.request.isNone && x.migPeer.isNone && q.granules.length == n
    && (q.granules.zip (List.range n)).all (fun g => !bitOf wide g.2 || !s.oneChan g.1)

/-- Is a message part of the stream the partition takes in? Its memory is stopped mid-way, and the state it is in, OFF before
the tick and LOADING after it, is the one the stream put it in. -/
def State.migMatches (s : State) (p : Nat) (m : Msg) : Bool :=
  let x := s.part p
  (x.state == .off || x.state == .loading) && x.migPeer == some (m.src, m.part) && !x.migSource && !x.migFailed && !x.loadDone

/-- The stream fails at the target. -/
def State.migBreak (s : State) (p : Nat) : State := s.modPart p (fun x => { x with migFailed := true })

/-- The first message is accepted: the partition enters LOADING at the next tick. -/
def State.migBegin (s : State) (p : Nat) (m : Msg) : State :=
  (s.modPart p (fun x => { x with request := some .migrateIn, migPeer := some (m.src, m.part), migSource := false })).modMig p
    (fun _ => { peerDev := m.src, peerPart := m.part, next := 1, wide := fieldLE m.data 16 32 })

/-- The DRAM of target granules beyond what their source granules hold is cleared (R97). -/
def State.migClearRest (s : State) (p : Nat) : State :=
  let w := (s.migProg p).wide
  (((s.psecD p).granules).zip (List.range 256)).foldl (fun s x =>
    if bitOf w x.2 ∨ s.oneChan x.1 then s else s.zeroRange (dramBase x.1 + 2 ^ 31) (dramBase x.1 + 2 ^ 32)) s

/-- A step of the state arrives in order; the last one completes the stream. -/
def State.migState? (s : State) (p : Nat) (m : Msg) : Option State :=
  let g := s.migProg p
  if m.data.length ≠ 224 ∨ m.addr ≠ g.ctlBytes.length / 224 + 1 then none
  else
    let b := g.ctlBytes ++ m.data
    if m.addr = migSteps then
      some (((s.migLoad p b).migClearRest p).modMig p (fun g => { g with ctlBytes := [], finished := true }) |>.modPart p
        (fun x => { x with loadDone := true }))
    else some (s.modMig p (fun g => { g with ctlBytes := b }))

/-- A MIG_CTL message (R100, R423): its effect, or none where it is refused with MIGRATION. -/
def State.migCtlIn (s : State) (m : Msg) : Option State × State :=
  let p := m.aux
  if m.addr = 0 then
    if m.data.length = 48 ∧ s.migFits p (fieldLE m.data 0 16) (fieldLE m.data 16 32) then (some (s.migBegin p m), s) else (none, s)
  else if !s.migMatches p m then (none, s)
  else if m.addr = migAbortStep then (some (s.migBreak p), s)
  else match s.migState? p m with
    | some t => (some t, s)
    | none => (none, s.migBreak p)

/-- A MIG_WRITE message (R100, R423). -/
def State.migWriteIn (s : State) (m : Msg) : Bool × State :=
  let p := m.aux
  let q := s.psecD p
  let rank := bitsOf m.addr 40 8
  let sp := bitsOf m.addr 32 8
  let off := m.addr % 2 ^ 32
  if !s.migMatches p m then (false, s)
  else match (q.granules.drop rank).head? with
    | none => (false, s.migBreak p)
    | some g =>
      if sp > 2 ∨ off + m.count > migSize sp (s.pieceSize 0 g) then (false, s.migBreak p)
      else match s.writeDev (migBase sp g + off) m.payload .remote 0 with
        | (.ok _, s) => (true, s)
        | (.error _, s) => (false, s.migBreak p)

end Sys2Proof.Machine
end

