-- ==== Sys2Proof/Machine/RduCmds.lean ====
section
/-!
DEFINITION. RDU commands (R275, R304, R305) and the forwarding of deltas (R310).
-/

namespace Sys2Proof.Machine

/-! ## OPEN -/

/-- The parameters of an RDU record. -/
def openOf (r : Line) : ROpen :=
  { rid := fld r 32 2, epoch := fld r 34 4, declared := fld r 38 2, rop := fld r 40 1, rfmt := fld r 41 1, scope := fld r 42 1,
    k := fld r 44 2, addr := fld r 46 6, w := fld r 52 4, tiles := fld r 56 2 }

/-- Send what a root has for its home device (R310): an announcement, or what was merged since the last delta. -/
def State.sendDelta (s : State) (x : RUnit) (b : List Byte) (what : RPart) : State :=
  let home := s.redHome x.op.rid
  match s.freeTag home with
  | none => s
  | some t =>
    (s.modRed x.part 16 x.op.rid (fun y => { y with inflight := some what, retryAt := none, announce := false, acc := if x.announce then y.acc else {} })).sendRed
      0x10 home t x.part x.op.rid x.op.epoch b (.delta x.part x.op.rid)

/-- Send a root's announcement (R310): an empty delta. -/
def State.announceRed (s : State) (p rid : Nat) : State :=
  match s.redUnit p 16 rid with
  | some x => if x.announce && x.inflight.isNone then s.sendDelta x [] {} else s
  | none => s

/-- RDU OPEN (R304, R306): a RID already open is refused; otherwise the reduction is open at every unit it uses. -/
def State.rduOpen (s : State) (p id : Nat) : State :=
  match s.engineCmd p id 3 0 with
  | none => s
  | some c =>
    if c.began.isSome then s
    else
      let o := openOf c.image
      let us := openUnits c.image
      match us.find? (fun u => s.ridOpen p u o.rid) with
      | some u => (s.finishCmd p id 0 0x0E 6).redRecord p u 6 o.rid o.epoch 0xFFFF
      | none =>
        let far := o.scope == 2 && s.redHome o.rid != s.dev
        let s := s.modCmd p id (fun c => { c with began := some s.now })
        ({ s with rdu := { s.rdu with units := s.rdu.units ++ us.map (fun u =>
            ({ unit := u, part := p, cmd := id, op := o, announce := far && u == 16 } : RUnit)) } }).announceRed p o.rid

def execRduOpen (p id : Nat) (s : State) : Host.Outcome State Fault Refusal := ok (s.rduOpen p id)

/-! ## CONTRIBUTE -/

/-- The packed values of a CONTRIBUTE. -/
def valuesOf (n : Nat) (b : List Byte) : List Nat :=
  (List.range (b.length / n)).map (fun i => fieldLE b (n * i) n)

/-- RDU CONTRIBUTE (R305): the tag is checked, the values are read, and the contribution is merged. -/
def runContribute (id : Nat) (r : Line) (e : Eng) : State :=
  let o := openOf r
  let u := (rduTiles r).headD 0
  let p := e.p
  let same := fun x : ROpen => x.rop == o.rop && x.rfmt == o.rfmt && x.scope == o.scope && x.k == o.k
  let verdict := fun s : State => s.redVerdict p u o.rid o.epoch o.declared true same
  match verdict e.s with
  | .duplicate => { e with s := e.s.redDuplicate p u o.rid }.finish id (0, 0)
  | .refuse code => { e with s := e.s.redRefuse p u code o.rid o.epoch o.declared }.finish id (0x0E, code)
  | .accept =>
    let n := rfmtSize o.inFmt
    let b := e.read .read o.addr (n * o.w)
    if b.2.err.isSome then b.2.finish id (0, 0)
    else (b.2.finish id (0, 0)).redMerge p u o.rid o.declared (valuesOf n b.1)

def execRduContribute (p id : Nat) (s : State) : Host.Outcome State Fault Refusal := ok (s.runEngine p id 3 1 (runContribute id))

/-! ## Deltas (R310) -/

/-- Has a partial state anything to send? -/
def RPart.any (r : RPart) : Bool := r.contributors != 0 || r.refused != 0

/-- A tile unit forwards what it merged to the root of its device. -/
def State.tileDelta (s : State) (p rid u : Nat) (x : RUnit) : State :=
  if x.op.scope = 0 ∨ !x.acc.any then s
  else
    ((s.modRed p u rid (fun y => { y with acc := {} })).modRed p 16 rid
      (fun y => { y with acc := y.acc.merge x.op x.acc })).redCheck p 16 rid

/-- A unit that is not the final stage sends a delta (R310), one at a time; a root whose result some announced devices
still await sends it to them (R311). -/
def State.deltaSend (s : State) (p rid u : Nat) : State :=
  match s.redUnit p u rid with
  | some x =>
    if u ≠ 16 then s.tileDelta p rid u x
    else if s.finalStage x.op 16 || x.inflight.isSome then s
    else if x.announce then s.announceRed p rid
    else if x.acc.any then s.sendDelta x (x.op.deltaBytes x.acc) x.acc
    else s
  | none =>
    match s.rdu.units.find? (fun x => x.unit == u && x.part == p && x.closed && x.op.rid == rid) with
    | none => s
    | some x =>
      let r := s.sendResults x
      let rest := r.2.rdu.units.filter (fun y => !(y.unit == u && y.part == p && y.closed && y.op.rid == rid))
      { r.2 with rdu := { r.2.rdu with units := rest ++ (if r.1.isEmpty then [] else [{ x with announced := r.1 }]) } }

def execDeltaSend (p rid u : Nat) (s : State) : Host.Outcome State Fault Refusal := ok (s.deltaSend p rid u)

/-- A delta answered NOT_OPEN is sent again 2 µs later (R310). -/
def State.deltaRetry (s : State) (p rid : Nat) : State :=
  match s.redUnit p 16 rid with
  | none => s
  | some x =>
    match x.inflight, x.retryAt with
    | some d, some t =>
      let home := s.redHome rid
      match s.freeTag home with
      | none => s
      | some tag =>
        ((s.advance t).modRed p 16 rid (fun y => { y with retryAt := none })).sendRed 0x10 home tag p rid x.op.epoch
          (if d.any then x.op.deltaBytes d else []) (.delta p rid)
    | _, _ => s

def execDeltaRetry (p rid : Nat) (s : State) : Host.Outcome State Fault Refusal := ok (s.deltaRetry p rid)

end Sys2Proof.Machine
end

