-- ==== Sys2Proof/Machine/Messages.lean ====
section
/-!
DEFINITION. What the device does with the messages it receives (R419 to R424): requests are performed or refused, responses
end the transactions they answer, deltas and results reach the root combiner.
-/

namespace Sys2Proof.Machine

/-! ## Taking a message -/

/-- The port a message came by. -/
def InMsg.port (x : InMsg) : Nat := match x.slot with | some y => y.port | none => 0

/-- Take message `i` of those received, if its operation is `op`: its buffer is freed, and `f` acts on it. -/
def State.takeIn (s : State) (i op : Nat) (f : InMsg → State → State) : State :=
  match s.links.inbox[i]? with
  | none => s
  | some x =>
    if x.msg.op ≠ op then s
    else f x ((s.modLinks (fun l => { l with inbox := l.inbox.eraseIdx i })).freeSlot x.slot)

/-- The response to a message, with ADDR echoed. -/
def Msg.response (m : Msg) (op aux : Nat) : Msg :=
  { op := op, src := m.dst, dst := m.src, tag := m.tag, part := m.part, skip := if op = 0x82 then m.skip else 0, addr := m.addr, aux := aux }

/-- Refuse a message (R421): nothing is performed, and the record says why. -/
def State.refuse (s : State) (x : InMsg) (code : Nat) : State := (s.refuseRec x.msg x.port code).sendMsg (x.msg.refusal code)

/-! ## Memory requests (R420 to R422) -/

/-- The first reason of R421 to refuse a message for a partition, before its address is looked at. -/
def State.refusePart (s : State) (p : Nat) : Option Nat :=
  match s.psec p with
  | none => some 1
  | some q => if !q.spanning || !s.created p then some 1 else if (s.part p).state ≠ .running then some 2 else none

/-- Does the access at a partition address translate, with PERM, to this device? -/
def State.paOk (s : State) (p : Nat) (acc : Access) (a n : Nat) : Bool :=
  (chunks 64 a n).all (fun c => match s.translate p 0xFFFF acc c.1 with | .ok (.here _) => true | _ => false)

/-- The device-local addresses of a partition access, piece by piece. -/
def State.paPieces (s : State) (p : Nat) (acc : Access) (a n : Nat) : List Nat :=
  (chunks 64 a n).filterMap (fun c => match s.translate p 0xFFFF acc c.1 with | .ok (.here x) => some x | _ => none)

/-- Do the bytes lie in DRAM or trays of the partition's granules (R421)? -/
def State.sysOwned (s : State) (p a n : Nat) : Bool :=
  (chunks 64 a n).all (fun c => match regionOf c.1 with
    | .dram g _ => (s.psecD p).owns g && s.backed c.1
    | .tray g _ => (s.psecD p).owns g && s.backed c.1
    | _ => false)

/-- Is one of the addresses in the DRAM of a halted stack (R377, R539)? -/
def State.anyHalted (s : State) (l : List Nat) : Bool :=
  l.any (fun a => match regionOf a with | .dram g _ => s.haltedAt g | _ => false)

/-- The code with which a memory request is refused (R421), if it is: `acc` is none for the device-local forms. -/
def State.refuseMem (s : State) (m : Msg) (acc : Option Access) : Option Nat :=
  match s.refusePart m.part with
  | some c => some c
  | none =>
    match acc with
    | some a =>
      if !s.paOk m.part a m.addr m.count then some 3
      else if s.anyHalted (s.paPieces m.part a m.addr m.count) then some 2 else none
    | none =>
      if !s.sysOwned m.part m.addr m.count then some 4
      else if s.anyHalted ((chunks 64 m.addr m.count).map Prod.fst) then some 2 else none

/-- The data a read returns: its bytes in place, the skip and the trim filled with zeros. -/
def Msg.readData (m : Msg) (b : List Byte) : Msg :=
  { m.response 0x82 0 with
    dlen := m.dlen, trim := m.trim, data := List.replicate m.skip 0#8 ++ b ++ List.replicate m.trim 0#8 }

/-- A read that meets poison has no valid data. -/
def State.answerRead (s : State) (m : Msg) (r : Except (MemErr × Nat) (List Byte)) : State :=
  match r with
  | .ok b => s.sendMsg (m.readData b)
  | .error _ => s.sendMsg (m.response 0x82 1)

/-- WRITE (R421). -/
def State.msgWrite (s : State) (x : InMsg) : State :=
  let m := x.msg
  match s.refuseMem m (some .write) with
  | some c => s.refuse x c
  | none => (s.writePart m.part .remote m.addr m.payload).2.sendMsg (m.response 0x81 0)

/-- READ (R421). -/
def State.msgRead (s : State) (x : InMsg) : State :=
  let m := x.msg
  match s.refuseMem m (some .read) with
  | some c => s.refuse x c
  | none =>
    let r := s.readPart m.part .read .remote m.addr m.count
    r.2.answerRead m r.1

/-- WRITE_SYS (R422). -/
def State.msgWriteSys (s : State) (x : InMsg) : State :=
  let m := x.msg
  match s.refuseMem m none with
  | some c => s.refuse x c
  | none => (s.writeDev m.addr m.payload .remote 0).2.sendMsg (m.response 0x81 0)

/-- READ_SYS (R422). -/
def State.msgReadSys (s : State) (x : InMsg) : State :=
  let m := x.msg
  match s.refuseMem m none with
  | some c => s.refuse x c
  | none =>
    let r := s.readDev m.addr m.count .remote
    r.2.answerRead m r.1

/-- MARK_ADD (R420, R421): what came before it is performed. -/
def State.msgMarkAdd (s : State) (x : InMsg) : State :=
  let m := x.msg
  match s.refusePart m.part with
  | some c => s.refuse x c
  | none => (s.addMark m.part (m.aux % 4096) 1).sendMsg (m.response 0x85 0)

def execMsgWrite (i : Nat) (s : State) : Host.Outcome State Fault Refusal := ok (s.takeIn i 1 (fun x s => s.msgWrite x))
def execMsgRead (i : Nat) (s : State) : Host.Outcome State Fault Refusal := ok (s.takeIn i 2 (fun x s => s.msgRead x))
def execMsgWriteSys (i : Nat) (s : State) : Host.Outcome State Fault Refusal := ok (s.takeIn i 3 (fun x s => s.msgWriteSys x))
def execMsgReadSys (i : Nat) (s : State) : Host.Outcome State Fault Refusal := ok (s.takeIn i 4 (fun x s => s.msgReadSys x))
def execMsgMarkAdd (i : Nat) (s : State) : Host.Outcome State Fault Refusal := ok (s.takeIn i 5 (fun x s => s.msgMarkAdd x))

/-! ## Migration (R100, R423) -/

/-- MIG_WRITE. -/
def State.msgMigWrite (s : State) (x : InMsg) : State :=
  match s.migWriteIn x.msg with
  | (true, s) => s.sendMsg (x.msg.response 0x81 0)
  | (false, s) => s.refuse x 6

/-- MIG_CTL. -/
def State.msgMigCtl (s : State) (x : InMsg) : State :=
  match s.migCtlIn x.msg with
  | (some t, _) => t.sendMsg (x.msg.response 0x85 0)
  | (none, s) => s.refuse x 6

def execMsgMigWrite (i : Nat) (s : State) : Host.Outcome State Fault Refusal := ok (s.takeIn i 6 (fun x s => s.msgMigWrite x))
def execMsgMigCtl (i : Nat) (s : State) : Host.Outcome State Fault Refusal := ok (s.takeIn i 7 (fun x s => s.msgMigCtl x))

/-! ## Reductions (R310, R311, R423) -/

/-- The pieces kept of a delta or result. -/
def State.piecesOf (s : State) (m : Msg) : RedPieces :=
  ((s.rdu.pieces.find? (fun x => x.src == m.src && x.tag == m.tag && x.op == m.op)).getD { src := m.src, tag := m.tag, op := m.op })

def State.setPieces (s : State) (m : Msg) (x : Option RedPieces) : State :=
  let rest := s.rdu.pieces.filter (fun y => !(y.src == m.src && y.tag == m.tag && y.op == m.op))
  { s with rdu := { s.rdu with pieces := match x with | some y => rest ++ [y] | none => rest } }

/-- A piece arrives: once every piece has, `f` has the whole. -/
def State.takePiece (s : State) (m : Msg) (f : State → List Byte → State) : State :=
  let x := s.piecesOf m
  let n := m.aux % 2 ^ 15
  -- a piece is kept with one byte before it, so that an empty piece counts as arrived
  let x := { x with pieces := NatMap.set [] x.pieces n (0#8 :: m.data), last := if bitOf m.aux 15 then some n else x.last }
  match x.last with
  | none => s.setPieces m (some x)
  | some k =>
    let l := (List.range (k + 1)).map (fun i => NatMap.get [] x.pieces i)
    if l.all (fun b => !b.isEmpty) then f (s.setPieces m none) (l.flatMap (fun b => b.drop 1)) else s.setPieces m (some x)

/-- The tag of a reduction message: RID and EPOCH. -/
def Msg.rid (m : Msg) : Nat := m.addr % 2 ^ 16
def Msg.epoch (m : Msg) : Nat := bitsOf m.addr 16 32

def Msg.redAck (m : Msg) (code : Nat) : Msg := m.response 0x90 code

/-- A whole delta at its home (R310): merged, or answered with a code of R306. -/
def State.takeDelta (s : State) (m : Msg) (b : List Byte) : State :=
  let p := m.part
  if !(s.psecD p).spanning then s.sendMsg (m.redAck 7)
  else match s.redUnit p 16 m.rid with
    | some x =>
      if x.op.epoch ≠ m.epoch ∨ x.op.scope ≠ 2 ∨ !s.finalStage x.op 16 then s.sendMsg (m.redAck 1)
      else
        ((s.modRed p 16 m.rid (fun y => { y with
          announced := if y.announced.contains m.src then y.announced else y.announced ++ [m.src],
          acc := y.acc.merge y.op (y.op.ofDelta b) })).sendMsg (m.redAck 0)).redCheck p 16 m.rid
    | none =>
      if (s.recentAt p 16).contains (m.rid, m.epoch) then s.sendMsg (m.redAck (if b.isEmpty then 8 else 0)) else s.sendMsg (m.redAck 1)

/-- A whole result at a device that announced (R311): its root writes it. -/
def State.takeResult (s : State) (m : Msg) (b : List Byte) : State :=
  match s.redUnit m.part 16 m.rid with
  | some x =>
    if x.op.epoch ≠ m.epoch ∨ x.op.scope ≠ 2 then s.sendMsg (m.redAck 1)
    else ((s.writeResult x (x.op.ofDelta b)).closeRed m.part m.rid m.epoch).sendMsg (m.redAck 0)
  | none => s.sendMsg (m.redAck 1)

def execMsgRedDelta (i : Nat) (s : State) : Host.Outcome State Fault Refusal :=
  ok (s.takeIn i 0x10 (fun x s => s.takePiece x.msg (fun s b => s.takeDelta x.msg b)))
def execMsgRedResult (i : Nat) (s : State) : Host.Outcome State Fault Refusal :=
  ok (s.takeIn i 0x11 (fun x s => s.takePiece x.msg (fun s b => s.takeResult x.msg b)))

/-! ## Notices and management (R407, R426) -/

/-- A partner's notice of a violation (R426). -/
def State.msgViolation (s : State) (x : InMsg) : State :=
  (s.modPort x.port (fun p => { p with
    lastViol := BitVec.ofNat 32 (x.msg.aux % 256 + 256 * (x.msg.addr % 4096)) ||| 0x80000000#32 })).logErr
    { cls := 0, source := 8, code := 2, unit := x.port, detail := x.msg.aux }

def execMsgViolation (i : Nat) (s : State) : Host.Outcome State Fault Refusal := ok (s.takeIn i 0x20 (fun x s => s.msgViolation x))

/-- A message between management controllers: it is handed to this device's. -/
def execMsgMgmt (i : Nat) (s : State) : Host.Outcome State Fault Refusal :=
  ok (s.takeIn i 0x21 (fun x s => s.emit (.wire x.port 3 (x.msg.src :: (x.msg.data.take x.msg.aux).map BitVec.toNat))))

/-! ## Responses (R420, R422, R424) -/

/-- A core's store to another device is answered (R422): `late` is the LATEBUS subcode it reports. -/
def State.storeAnswer (s : State) (c dst tag : Nat) (late : Option Nat) : State :=
  match (s.core c).sb.findIdx? (fun e => match e.sent with | some l => l.contains (dst, tag) | none => false) with
  | none => s
  | some i =>
    let live := (s.core c).run == .running
    let s := s.modCore c (fun k => { k with sb := k.sb.modify i (fun e => { e with
      sent := e.sent.map (fun l => l.erase (dst, tag)), late := if live then e.late.or late else e.late }) })
    match (s.core c).sb[i]? with
    | some e => if e.sent = some [] ∧ e.late.isNone then s.dropSb c i else s
    | none => s

/-- A core's read of another device is answered: the data, or the BUSERR subcode. -/
def State.loadAnswer (s : State) (c dst tag : Nat) (a : List Byte ⊕ Nat) : State :=
  s.modCore c (fun k => { k with remote := k.remote.map (fun r =>
    if r.dev = dst ∧ r.tag = tag ∧ r.answer.isNone then { r with answer := some a } else r) })

/-- A transaction ends without what it asked for: a LNK command has `st` and `detail`, a store reports `late`, a load `sub`. -/
def State.txnFail (s : State) (t : Txn) (st detail late sub : Nat) : State :=
  match t.kind with
  | .lnkWrite p id _ => s.lnkFinish p id st detail
  | .lnkRead p id _ _ => s.lnkFinish p id st detail
  | .lnkMark p id => s.lnkFinish p id st detail
  | .store c => s.storeAnswer c t.dst t.tag (some late)
  | .load c => s.loadAnswer c t.dst t.tag (.inr sub)
  | .delta _ _ => s
  | .result _ _ => s
  | .migData p => s.migFail p 1
  | .migCtl p k => if k = migAbortStep then s else s.migFail p 1

/-- A transaction with no response, or whose messages are lost, ends ROUTE_DOWN (R424). BUSERR and LATEBUS subcode BUS are 4
and 2 (R222). -/
def State.routeDown (s : State) (t : Txn) : State := (s.endTxn t.dst t.tag).txnFail t 0x0D t.port 2 4

/-- A response (R424): it is matched by its source and tag; one that matches nothing is counted as late. `fits` says which
transactions it answers. -/
def State.response (s : State) (x : InMsg) (fits : TxnKind → Bool) (f : State → Txn → State) : State :=
  let m := x.msg
  match s.links.txns.find? (fun t => t.dst == m.src && t.tag == m.tag && fits t.kind) with
  | some t => f (s.endTxn t.dst t.tag) t
  | none => match x.slot with
    | some y => s.incReg (mbxKey y.port 0x48)
    | none => s

/-- WRITE_ACK. -/
def State.writeAck (s : State) (x : InMsg) : State :=
  s.response x (fun k => match k with | .lnkWrite _ _ _ => true | .store _ => true | .migData _ => true | _ => false) (fun s t =>
    match t.kind with
    | .lnkWrite p id n => s.lnkAck p id n
    | .store c => s.storeAnswer c t.dst t.tag none
    | .migData p => s.migAck p 0
    | _ => s)

/-- READ_DATA. -/
def State.readData (s : State) (x : InMsg) : State :=
  let poison := bitOf x.msg.aux 0
  s.response x (fun k => match k with | .lnkRead _ _ _ _ => true | .load _ => true | _ => false) (fun s t =>
    match t.kind with
    | .lnkRead p id o n => s.lnkData p id o n poison x.msg.payload
    | .load c => s.loadAnswer c t.dst t.tag (if poison then .inr 3 else .inl x.msg.payload)
    | _ => s)

/-- MARK_ACK. -/
def State.markAck (s : State) (x : InMsg) : State :=
  s.response x (fun k => match k with | .lnkMark _ _ => true | .migCtl _ _ => true | _ => false) (fun s t =>
    match t.kind with
    | .lnkMark p id => s.lnkMarked p id
    | .migCtl p k => s.migAck p k
    | _ => s)

/-- REFUSE (R420, R422): LATEBUS subcode REMOTE is 3. -/
def State.refused (s : State) (x : InMsg) : State :=
  s.response x (fun _ => true) (fun s t => s.txnFail t 0x0C t.dst 3 4)

/-- The announcing device's OPEN is refused (R306). -/
def State.openRefused (s : State) (p rid code : Nat) : State :=
  match s.redUnit p 16 rid with
  | none => s
  | some x =>
    let s := (s.redRecord p 16 code rid x.op.epoch 0xFFFF).modCmd p x.cmd (fun c => { c with result := some (0x0E, code) })
    { s with rdu := { s.rdu with units := s.rdu.units.filter (fun y => !(y.part == p && y.op.rid == rid && !y.closed)) } }

/-- RED_ACK (R306, R310). -/
def State.redAck (s : State) (x : InMsg) : State :=
  let code := x.msg.aux
  s.response x (fun k => match k with | .delta _ _ => true | .result _ _ => true | _ => false) (fun s t =>
    match t.kind with
    | .delta p rid =>
      if code = 0 then s.modRed p 16 rid (fun y => { y with inflight := none })
      else if code = 1 then s.modRed p 16 rid (fun y => { y with retryAt := some (s.now + 2 * cyclesPerMicro) })
      else s.openRefused p rid code
    | _ => s)

def execMsgWriteAck (i : Nat) (s : State) : Host.Outcome State Fault Refusal := ok (s.takeIn i 0x81 (fun x s => s.writeAck x))
def execMsgReadData (i : Nat) (s : State) : Host.Outcome State Fault Refusal := ok (s.takeIn i 0x82 (fun x s => s.readData x))
def execMsgMarkAck (i : Nat) (s : State) : Host.Outcome State Fault Refusal := ok (s.takeIn i 0x85 (fun x s => s.markAck x))
def execMsgRefuse (i : Nat) (s : State) : Host.Outcome State Fault Refusal := ok (s.takeIn i 0x8F (fun x s => s.refused x))
def execMsgRedAck (i : Nat) (s : State) : Host.Outcome State Fault Refusal := ok (s.takeIn i 0x90 (fun x s => s.redAck x))

/-! ## Timeouts and tags (R424) -/

/-- A transaction without a response 1,000 µs after its last message: what of it still waits to leave is dropped. -/
def State.txnTimeout (s : State) (dst tag : Nat) : State :=
  match s.links.txns.find? (fun t => t.dst == dst && t.tag == tag) with
  | none => s
  | some t =>
    if t.sentAt + 1000 * cyclesPerMicro ≤ s.now then
      (s.modLinks (fun l => { l with outbox := l.outbox.filter (fun m =>
        !(m.msg.src == s.dev && m.msg.dst == dst && m.msg.tag == tag && decide (m.msg.op < 0x80))) })).routeDown t
    else s

def execTransactionTimeout (dst tag t : Nat) (s : State) : Host.Outcome State Fault Refusal := ok ((s.advance t).txnTimeout dst tag)

/-- TAG_QUARANTINE_END (R424): 10 ms after a tag was freed. -/
def State.tagQuarantineEnd (s : State) (dst tag : Nat) : State :=
  s.modLinks (fun l => { l with quarantine := l.quarantine.filter (fun x =>
    !(x.1 == dst && x.2.1 == tag && decide (x.2.2 + 10000 * cyclesPerMicro ≤ s.now))) })

def execTagQuarantineEnd (dst tag t : Nat) (s : State) : Host.Outcome State Fault Refusal := ok ((s.advance t).tagQuarantineEnd dst tag)

end Sys2Proof.Machine
end

