-- ==== Sys2Proof/Machine/Flits.lean ====
section
/-!
DEFINITION. What a port does with wire blocks and flits (R404 to R409), its retries, and its bring-up (R411 to R414).
-/

namespace Sys2Proof.Machine

/-! ## Receiving -/

/-- A block that fails its code or its CRC (R404, R406, R425): discarded, counted and NAKed. -/
def State.badBlock (s : State) (q : Nat) (tick : Bool) : State :=
  if (s.port q).state ≠ .up then s
  else
    let s := if tick then (s.incReg (mbxKey q 0x4C)).mbxEvent q 6 else s
    let ds := stamp s.now (1000 * cyclesPerMicro) (s.port q).discards
    let s := ((s.incReg (mbxKey q 0x34)).modPort q (fun p => { p with discards := ds })).sendNak q
    if ds.length > 64 then (s.modPort q (fun p => { p with discards := [] })).portRetrain q .retrain else s

/-- BAD_BLOCK (R404). -/
def execBadBlock (q : Nat) (tick : Bool) (t : Nat) (s : State) : Host.Outcome State Fault Refusal := ok ((s.advance t).badBlock q tick)

/-- The ACK a flit carries (R404, R405): acknowledged flits leave the retry buffer; the ACK of a number not sent is a
violation, and is ignored. -/
def State.takeAck (s : State) (q n : Nat) : State :=
  let p := s.port q
  let d := (p.sent + 4095 - n) % 4096
  if d ≥ min p.sent 2048 then s.violation q 5 n
  else
    let left := fun f : SentFlit => decide ((n + 4096 - f.seq) % 4096 ≥ 2048)
    s.modPort q (fun p => { p with
      retry := p.retry.filter left, replay := p.replay.filter left,
      progressAt := if p.retry.all left then p.progressAt else s.now,
      nakRun := if (n + 4096 - p.nakSeq) % 4096 < 2048 then 0 else p.nakRun })

/-- The ACK and the credits of a sound flit. -/
def State.takeHeader (s : State) (q : Nat) (f : List Byte) : State :=
  let s := if flitAckV f then s.takeAck q (flitAck f) else s
  [fieldLE f 4 2, fieldLE f 6 2].foldl (fun s c =>
    if c / 256 = 0 then s else s.modPort q (fun p => p.gotCredits (creditKey c) (c / 256))) s

/-- The direction in which a message that came by a port of a role has moved. -/
def inDirOf (role : Nat) : Nat := if role % 2 = 1 then role + 1 else role - 1

/-- A message of an accepted flit: kept for this device, or forwarded (R415 to R417). -/
def State.takeMsg (s : State) (q : Nat) (slot : RxSlot) (m : Msg) : State :=
  match s.routeDir m.dst with
  | none => s.toInbox m (some slot)
  | some dir =>
    if s.noSlice m dir then (if m.asks then (s.refuseRec m q 5).sendMsg (m.refusal 5) else s)
    else s.queueMsg m dir (inDirOf ((s.plate.linksInForce.roles.drop q).headD 0)) (slot.key % 2) (some slot)

/-- A DATA flit in sequence (R404, R409, R426). -/
def State.acceptData (s : State) (q : Nat) (f : List Byte) : State :=
  let key := tagKey (flitTag f)
  let refuse := fun code : Nat => (s.violation q code (flitSeq f)).sendNak q
  if s.plate.linksInForce.sliceFlits q (key / 8) = 0 then refuse 3
  else if !(s.rxReserved q key || s.rxShared q key) then refuse 4
  else match flitMsgs f with
    | .error e => refuse e
    | .ok ms =>
      let slot : RxSlot := { port := q, key := key, fid := (s.port q).nextFid }
      let s := ((s.rxTake q key).inc64 (mbxKey q 0x2C)).modPort q (fun p => { p with
        expected := (p.expected + 1) % 4096, gotAny := true, nakAt := none, nextFid := p.nextFid + 1 })
      (ms.foldl (fun s m => s.takeMsg q slot m) s).freeSlot (some slot)

/-- A DATA flit (R404). -/
def State.dataFlit (s : State) (q : Nat) (f : List Byte) : State :=
  let behind := ((s.port q).expected + 4096 - flitSeq f) % 4096
  if behind = 0 then s.acceptData q f
  else if behind < 2048 then s
  else s.sendNak q

/-- A NAK (R405, R406): what is not acknowledged is sent again from its number on; eight for one number retrain the port. -/
def State.nakFlit (s : State) (q : Nat) (f : List Byte) : State :=
  let n := flitSeq f
  let p := s.port q
  let run := if p.nakRun ≠ 0 ∧ p.nakSeq = n then p.nakRun + 1 else 1
  let s := (s.incReg (mbxKey q 0x3C)).modPort q (fun p => { p with
    nakSeq := n, nakRun := run, replay := p.retry.filter (fun x => decide ((x.seq + 4096 - n) % 4096 < 2048)) })
  if run ≥ 8 then (s.modPort q (fun p => { p with nakRun := 0 })).portRetrain q .retrain else s

/-- A wire block reaches a port: its flit is decoded and judged, its ACK and credits are taken, and `f` has the flit if it
is of kind `kind`. Flits count only while the port is UP (R411): where the violation of its ACK takes the port down, the rest
of the flit does not count, and the partner sends it again. -/
def State.receive (s : State) (q kind : Nat) (block : List Byte) (f : State → List Byte → State) : State :=
  if (s.port q).state ≠ .up then s
  else match unblock block with
    | none => s.badBlock q false
    | some (b, fixed) =>
      if fieldLE b 252 4 ≠ flitCrc (b.take 252) then s.badBlock q false
      else
        let s := if fixed then s.incReg (mbxKey q 0x38) else s
        if flitKind b ≥ 5 then s.violation q 1 (flitSeq b)
        else if flitKind b ≠ kind then s
        else if flitFieldBad b then
          let s := s.violation q 2 (flitSeq b)
          if kind = 1 then s.sendNak q else s
        else
          let s := s.takeHeader q b
          if (s.port q).state ≠ .up then s else f s b

/-- DATA_FLIT (R404). -/
def execDataFlit (q : Nat) (block : List Byte) (t : Nat) (s : State) : Host.Outcome State Fault Refusal :=
  ok ((s.advance t).receive q 1 block (fun s f => s.dataFlit q f))

/-- NULL_FLIT (R403): only its ACK and credits count. -/
def execNullFlit (q : Nat) (block : List Byte) (t : Nat) (s : State) : Host.Outcome State Fault Refusal :=
  ok ((s.advance t).receive q 0 block (fun s _ => s))

/-- NAK_FLIT (R405). -/
def execNakFlit (q : Nat) (block : List Byte) (t : Nat) (s : State) : Host.Outcome State Fault Refusal :=
  ok ((s.advance t).receive q 2 block (fun s f => s.nakFlit q f))

/-! ## Transmitting (R405, R409, R417) -/

def TxMsg.key (m : TxMsg) : Nat := 8 * m.slice + 2 * m.cls + m.vc

/-- May the port send a new DATA flit of a key? -/
def Port.canSend (p : Port) (key : Nat) : Bool := p.hasCredit key && decide (p.retry.length < 512) && p.replay.isEmpty

/-- The port whose turn it is to send a flit of a key in a direction (R417). -/
def State.turnPort (s : State) (dir key : Nat) : Option Nat :=
  let l := s.dirUp dir
  let last := NatMap.get 0 s.links.turn dir
  ((l.filter (fun q => decide (last < q))) ++ l.filter (fun q => decide (q ≤ last))).find? (fun q => (s.port q).canSend key)

/-- The messages of one flit: in order, while they fit in 240 bytes and are at most 15. -/
def packMsgs : Nat → Nat → List TxMsg → List TxMsg
  | _, _, [] => []
  | n, room, m :: l => if n = 0 ∨ room < m.msg.size then [] else m :: packMsgs (n - 1) (room - m.msg.size) l

/-- Remove the first occurrence of each. -/
def removeAll (l : List TxMsg) (xs : List TxMsg) : List TxMsg := xs.foldl (fun l x => l.erase x) l

/-- A request of this device has been sent: its transaction's time counts from now (R424). -/
def State.noteSent (s : State) (m : Msg) : State :=
  if m.src = s.dev ∧ m.op < 0x80 then
    s.modLinks (fun l => { l with txns := l.txns.map (fun t => if t.dst = m.dst ∧ t.tag = m.tag then { t with sentAt := s.now } else t) })
  else s

/-- Send a new DATA flit of these messages. -/
def State.sendData (s : State) (q dir key : Nat) (ms : List TxMsg) : State :=
  let p := s.port q
  let payload := (ms.map (fun m => m.msg.bytes)).flatten
  let f : SentFlit := { seq := p.sent % 4096, tagByte := tagOf key, nmsg := ms.length, payload := payload }
  let s := (s.modPort q (fun p => { p.takeCredit key with
    sent := p.sent + 1, retry := p.retry ++ [f], progressAt := if p.retry.isEmpty then s.now else p.progressAt })).inc64 (mbxKey q 0x24)
  let s := s.modLinks (fun l => { l with outbox := removeAll l.outbox ms, turn := NatMap.set 0 l.turn dir q })
  let s := ms.foldl (fun s m => (s.noteSent m.msg).freeSlot m.slot) s
  s.sendFlit q 1 f.seq f.tagByte f.nmsg f.payload

/-- The next block of a port: a flit to send again, a new DATA flit by class order (R407), or a NULL. -/
def State.transmit (s : State) (q : Nat) : State :=
  let p := s.port q
  if p.state ≠ .up then s
  else match p.replay with
    | f :: l => (s.modPort q (fun p => { p with replay := l })).sendFlit q 1 f.seq f.tagByte f.nmsg f.payload
    | [] =>
      let dir := (s.plate.linksInForce.roles.drop q).headD 0
      let out := s.links.outbox.filter (fun m => m.dir == dir)
      match ((List.range 4).flatMap (fun c => out.filter (fun m => m.cls == c))).find? (fun m => s.turnPort dir m.key == some q) with
      | some m => s.sendData q dir m.key (packMsgs 15 240 (out.filter (fun x => x.key == m.key)))
      | none => s.sendFlit q 0 0 0 0 []

/-- FLIT_TRANSMIT (R409). -/
def execFlitTransmit (q t : Nat) (s : State) : Host.Outcome State Fault Refusal := ok ((s.advance t).transmit q)

/-- RETRY_TIMEOUT (R405): 10 µs without progress. -/
def State.retryTimeout (s : State) (q : Nat) : State :=
  let p := s.port q
  if p.state = .up ∧ p.retry ≠ [] ∧ p.progressAt + 10 * cyclesPerMicro ≤ s.now then
    s.modPort q (fun p => { p with replay := p.retry, progressAt := s.now })
  else s

def execRetryTimeout (q t : Nat) (s : State) : Host.Outcome State Fault Refusal := ok ((s.advance t).retryTimeout q)

/-! ## Bring-up (R411 to R414) -/

/-- Training succeeded: the port measures its delay with five timestamp messages (R412). -/
def State.trainingComplete (s : State) (q : Nat) : State :=
  let go := fun s : State => (List.range 5).foldl (fun s _ => s.emit (.wire q 0 [s.now])) s
  match (s.port q).state with
  | .training => if s.now < (s.port q).since then s
      else go (s.modPort q (fun p => { p with state := .measure, reason := 0, echoes := 0, minTrip := 0 }))
  | .retrain => if (s.port q).phase ≠ 0 then s else go (s.modPort q (fun p => { p with phase := 1, echoes := 0, minTrip := 0 }))
  | _ => s

/-- TRAINING_COMPLETE (R411). -/
def execTrainingComplete (q t : Nat) (s : State) : Host.Outcome State Fault Refusal := ok ((s.advance t).trainingComplete q)

/-- TRAINING_FAIL (R411): another try follows 1 s later. -/
def execTrainingFail (q t : Nat) (s : State) : Host.Outcome State Fault Refusal :=
  ok (let s := s.advance t
    if (s.port q).state = .training then s.modPort q (fun p => { p with reason := 5, since := s.now + 1000000 * cyclesPerMicro }) else s)

/-- A port discards its buffers, and the transactions whose messages they held end (R406, R424). -/
def State.dropBuffers (s : State) (q : Nat) : State :=
  let sent := ((s.port q).retry.map (fun f => match cutMsgs f.nmsg (f.payload ++ List.replicate 16 0#8) with
    | .ok l => l | .error _ => [])).flatten
  let got := (s.links.inbox.filter (fun m => match m.slot with | some y => y.port == q | none => false)).map InMsg.msg
  let lost := fun t : Txn => sent.any (fun m => m.src == s.dev && decide (m.op < 0x80) && m.dst == t.dst && m.tag == t.tag)
    || got.any (fun m => m.dst == s.dev && decide (m.op ≥ 0x80) && m.src == t.dst && m.tag == t.tag)
  (s.links.txns.filter lost).foldl (fun s t => s.routeDown t) (s.clearPort q)

/-- RETRAIN_DEADLINE (R406): a retrain that is not done in 100 ms. -/
def State.retrainDeadline (s : State) (q : Nat) : State :=
  let p := s.port q
  let busy := p.state == .retrain || ((p.state == .training || p.state == .measure || p.state == .ident) && p.knownPartner.isSome)
  if busy ∧ p.since + 100000 * cyclesPerMicro ≤ s.now then (s.portDown q .dark 5).dropBuffers q else s

def execRetrainDeadline (q t : Nat) (s : State) : Host.Outcome State Fault Refusal := ok ((s.advance t).retrainDeadline q)

/-- Is the port to be connected (R411, R414)? -/
def State.connected (s : State) (q : Nat) : Bool :=
  ((s.plate.sysInForce.ports.drop q).headD {}).connected && (s.plate.linksInForce.roles.drop q).headD 0 != 0

/-- MBX_CMD RETRAIN (R411, R428). -/
def State.mbxRetrain (s : State) (q : Nat) : State :=
  let s := s.modPort q (fun p => { p with badCmd := false })
  match (s.port q).state with
  | .up => s.portRetrain q .training
  | .dark => if s.connected q then s.startTraining q else s
  | .darkHeld => if s.connected q then s.startTraining q else s
  | _ => s

/-- MBX_RETRAIN (R428). -/
def execMbxRetrain (q : Nat) (s : State) : Host.Outcome State Fault Refusal := ok (s.pfWrite 2 (fun s => s.mbxRetrain q))

/-- MBX_DARK (R428): any port goes DARK with reason HOST. -/
def State.mbxDark (s : State) (q : Nat) : State :=
  ((s.modPort q (fun p => { p with badCmd := false })).portDown q .dark 8).dropBuffers q

def execMbxDark (q : Nat) (s : State) : Host.Outcome State Fault Refusal := ok (s.pfWrite 2 (fun s => s.mbxDark q))

/-- The identity message of a port (R413). -/
def State.identity (s : State) (q : Nat) : List Byte :=
  let y := s.plate.sysInForce
  let l := s.plate.linksInForce
  let e := (y.ports.drop q).headD {}
  natLE 1 1 ++ natLE 1 y.deviceNum ++ natLE 1 q ++ natLE 1 ((l.roles.drop q).headD 0) ++ natLE 1 y.dimX ++ natLE 1 y.dimY
    ++ natLE 1 y.dimZ ++ natLE 1 y.tickMaster ++ natLE 1 e.neighDev ++ natLE 1 e.neighPort
    ++ (List.range 4).flatMap (fun c => natLE 1 ((l.classMin.drop c).headD 0)) ++ natLE 2 0
    ++ (List.range 17).flatMap (fun i => natLE 2 (l.sliceFlits q i)) ++ natLE 14 0

/-- An echo of one of the five timestamps came back (R412): the fifth ends the measurement. -/
def State.echo (s : State) (q sentAt turn : Nat) : State :=
  let p := s.port q
  let trip := s.now - sentAt - turn
  let best := if p.echoes = 0 then trip else min p.minTrip trip
  let rtt := (2 * best + 1) / 3
  let measuring := p.state == .measure || (p.state == .retrain && p.phase == 1)
  if !measuring then s
  else if p.echoes + 1 < 5 then s.modPort q (fun p => { p with echoes := p.echoes + 1, minTrip := best })
  else
    (s.modPort q (fun p => { p with
      echoes := 5, minTrip := best, rtt := rtt, delay := (rtt + 1) / 2, phase := if p.state = .retrain then 2 else 0,
      state := if p.state = .retrain then .retrain else .ident })).emit (.wire q 2 ((s.identity q).map BitVec.toNat))

/-- Does the partner's identity fit this port (R414)? -/
def State.identityOk (s : State) (q : Nat) (b : List Byte) : Bool :=
  let y := s.plate.sysInForce
  let e := (y.ports.drop q).headD {}
  let role := (s.plate.linksInForce.roles.drop q).headD 0
  let d := (role - 1) / 2
  let mine := y.coords y.deviceNum
  let want := (List.range 3).map (fun i =>
    let a := (mine.drop i).headD 0
    let n := (y.dims.drop i).headD 1
    if i = d then (if role % 2 = 1 then (a + 1) % n else (a + n - 1) % n) else a)
  role != 0 && Sys2Proof.byteAt b 0 == 1 && Sys2Proof.byteAt b 1 == e.neighDev && Sys2Proof.byteAt b 2 == e.neighPort && Sys2Proof.byteAt b 8 == y.deviceNum && Sys2Proof.byteAt b 9 == q
    && Sys2Proof.byteAt b 4 == y.dimX && Sys2Proof.byteAt b 5 == y.dimY && Sys2Proof.byteAt b 6 == y.dimZ && Sys2Proof.byteAt b 7 == y.tickMaster
    && Sys2Proof.byteAt b 3 == inDirOf role && y.coords (Sys2Proof.byteAt b 1) == want

/-- The identity message of the partner (R413, R414): the port becomes UP with the partner's credits, or is held dark. -/
def State.identMsg (s : State) (q : Nat) (b : List Byte) : State :=
  let p := s.port q
  let busy := p.state == .ident || (p.state == .retrain && p.phase == 2)
  if !busy ∨ b.length ≠ 64 then s
  else
    let who := (Sys2Proof.byteAt b 1, Sys2Proof.byteAt b 2)
    let s := s.modPort q (fun p => { p with
      partner := BitVec.ofNat 32 (who.1 + who.2 % 16 * 2 ^ 8 + Sys2Proof.byteAt b 3 % 8 * 2 ^ 12) ||| 0x80000000#32 })
    if !s.identityOk q b then
      ((((s.portDown q .darkHeld 3).dropBuffers q).mbxEvent q 3).pltEvent 6).logErr { cls := 0, source := 0x0B, code := 1, unit := q, detail := 1 }
    else
      let kept := p.knownPartner == some who
      let s := if kept then s else s.dropBuffers q
      (s.modPort q (fun p => { p with
        state := .up, reason := 0, phase := 0, knownPartner := none,
        mirror := (List.range 17).map (fun i => fieldLE b (16 + 2 * i) 2), mirrorMin := (List.range 4).map (fun i => Sys2Proof.byteAt b (10 + i)),
        replay := p.retry, progressAt := s.now, nakAt := none })).mbxEvent q 0

/-- A TRAIN flit (R412, R413): a timestamp to echo, an echo with the partner's turnaround, or an identity. While the port is
UP it is a violation (R426). -/
def State.trainFlit (s : State) (q : Nat) (m : TrainMsg) : State :=
  let p := s.port q
  if p.state = .up then s.violation q 8 0
  else match m with
    | .stamp t => if p.state = .dark ∨ p.state = .darkHeld then s else s.emit (.wire q 1 [t, 0])
    | .echo t turn => s.echo q t turn
    | .ident b => s.identMsg q b

/-- TRAIN_FLIT (R413). -/
def execTrainFlit (q : Nat) (m : TrainMsg) (t : Nat) (s : State) : Host.Outcome State Fault Refusal := ok ((s.advance t).trainFlit q m)

/-- BLOCK_LOCK_LOSS (R406). -/
def execBlockLockLoss (q t : Nat) (s : State) : Host.Outcome State Fault Refusal := ok ((s.advance t).portRetrain q .retrain)

/-- SIGNAL_ON_DARK_PORT (R101): ignored, but recorded. -/
def execSignalOnDarkPort (q : Nat) (s : State) : Host.Outcome State Fault Refusal :=
  ok (if s.connected q then s
    else (s.pltEvent 6).logErr { cls := 0, source := 0x0B, code := 1, unit := q, detail := 2 })

end Sys2Proof.Machine
end

