-- ==== Sys2Proof/Machine/GrainOps.lean ====
section
/-!
DEFINITION. The Grain's generator and its draws (R334 to R340).
-/

namespace Sys2Proof.Machine

/-- The output of a lane (R334). -/
def Lane.out (x : Lane) : Dword := ((x.s1 * 5).rotateLeft 7) * 9

/-- One step of a lane (R334). -/
def Lane.step (x : Lane) : Lane :=
  let t := x.s1 <<< 17
  let s2 := x.s2 ^^^ x.s0
  let s3 := x.s3 ^^^ x.s1
  let s1 := x.s1 ^^^ s2
  let s0 := x.s0 ^^^ s3
  { s0 := s0, s1 := s1, s2 := s2 ^^^ t, s3 := s3.rotateLeft 45 }

def Lane.xor (x y : Lane) : Lane := { s0 := x.s0 ^^^ y.s0, s1 := x.s1 ^^^ y.s1, s2 := x.s2 ^^^ y.s2, s3 := x.s3 ^^^ y.s3 }

/-- A jump by a polynomial, given as its 256 bits (R335). -/
def Lane.jump (j : Nat) (x : Lane) : Lane :=
  ((List.range 256).foldl (fun (a : Lane × Lane) b => (if bitOf j b then a.1.xor a.2 else a.1, a.2.step)) ({}, x)).1

def jumpPoly : Nat :=
  0x180EC6D33CFD0ABA + 0xD5A61266F0C9392C * 2 ^ 64 + 0xA9582618E03FC9AA * 2 ^ 128 + 0x39ABDC4529B1661C * 2 ^ 192
def longJumpPoly : Nat :=
  0x76E15D3EFEFDCBBF + 0xC5004E441C522FB3 * 2 ^ 64 + 0x77710069854EE241 * 2 ^ 128 + 0x39109BB02ACBE635 * 2 ^ 192

/-- One call of SplitMix64 on the state `x`, already advanced (R336). -/
def splitmix (x : Dword) : Dword :=
  let z := (x ^^^ (x >>> 30)) * 0xBF58476D1CE4E5B9#64
  let z := (z ^^^ (z >>> 27)) * 0x94D049BB133111EB#64
  z ^^^ (z >>> 31)

/-- An all-zero lane is given s0 = 1 (R336, R343). -/
def Lane.fix (x : Lane) : Lane := if x = {} then { x with s0 := 1 } else x

/-- The base state of a 64-bit seed (R336). -/
def seedLane (x : Dword) : Lane :=
  let k := 0x9E3779B97F4A7C15#64
  Lane.fix { s0 := splitmix (x + k), s1 := splitmix (x + 2 * k), s2 := splitmix (x + 3 * k), s3 := splitmix (x + 4 * k) }

/-- `n` further lanes, each one JUMP after the one before it (R337). -/
def lanesFrom : Nat → Lane → List Lane
  | 0, _ => []
  | n + 1, x => x :: lanesFrom n (x.jump jumpPoly)

/-- Stream `n` seeded with `x` (R337). -/
def seedStream (n : Nat) (x : Dword) : GStream :=
  { rounds := 0, lanes := lanesFrom 64 ((List.range n).foldl (fun l _ => l.jump longJumpPoly) (seedLane x)) }

def State.grain (s : State) (g n : Nat) : GStream := NatMap.get {} s.grains (32 * g + n)
def State.setGrain (s : State) (g n : Nat) (x : GStream) : State :=
  { s with grains := NatMap.set {} s.grains (32 * g + n) x }

/-- The 64 lanes of a stream. -/
def GStream.all (x : GStream) : List Lane := (List.range 64).map (fun i => (x.lanes.drop i).headD {})

/-- The outputs of `r` rounds and the stream after them (R338). -/
def GStream.run (x : GStream) : Nat → List (List Dword) × GStream
  | 0 => ([], x)
  | r + 1 =>
    let l := x.all
    let y := GStream.run { rounds := x.rounds + 1, lanes := l.map Lane.step } r
    (l.map Lane.out :: y.1, y.2)

/-- Reserve `r` rounds of a stream (R338). -/
def State.reserve (s : State) (g n r : Nat) : List (List Dword) × State :=
  let y := (s.grain g n).run r
  (y.1, s.setGrain g n y.2)

/-- The output of lane `l` in reserved round `r`. -/
def outAt (o : List (List Dword)) (r l : Nat) : Dword := ((o.drop r).headD []).drop l |>.headD 0

/-- Draws of the three kinds (R339). -/
def draw64 (o : List (List Dword)) (d : Nat) : Dword := outAt o (d / 64) (d % 64)
def drawPair (o : List (List Dword)) (d : Nat) : Dword × Dword :=
  (outAt o (2 * (d / 64)) (d % 64), outAt o (2 * (d / 64) + 1) (d % 64))
def draw16 (o : List (List Dword)) (d : Nat) : Nat := bitsOf (outAt o (d / 256) (d % 64)).toNat (16 * ((d / 64) % 4)) 16

/-- The stochastic-rounding supply of a core (R340): the rounds for `n` draws, when they are wanted. -/
def State.reserveSr (s : State) (c : Nat) (wanted : Bool) (n : Nat) : List (List Dword) × State :=
  if wanted then s.reserve (c / 16) (c % 16) (ceilDiv n 256) else ([], s)

end Sys2Proof.Machine
end

