-- ==== Sys2Proof/Machine/Encoding.lean ====
section
/-!
DEFINITION. Which encodings of the arithmetic, memory, vector and matrix majors are reserved (R112), judged on the
fields that are known, and micro-ops: their fields (R209), their legality (R211) and their substitution (R212).
-/

namespace Sys2Proof.Machine

/-- Which of the fields [25:21], [20:16], [15:11] and [10:6] of a word stand as written. -/
structure Known where
  f1 : Bool := true
  f2 : Bool := true
  f3 : Bool := true
  f4 : Bool := true
  deriving DecidableEq, Repr

/-- A condition on a field binds only where the field is known. -/
def binds (known cond : Bool) : Bool := !known || cond

/-- MEN, MSEL and MZ of the V and VM formats (R156). -/
def fMen (w : Word) : Bool := w.getLsbD 10
def fMsel (w : Word) : Nat := (w.extractLsb' 7 3).toNat
def fMz (w : Word) : Bool := w.getLsbD 6
/-- With MEN = 0, MSEL and MZ must be 0 (R154). -/
def maskFieldOk (w : Word) : Bool := fMen w || (fMsel w == 0 && !fMz w)
/-- AMODE and SCALE of the VM format (R156). -/
def fAmode (w : Word) : Nat := (w.extractLsb' 3 3).toNat
def fScale (w : Word) : Nat := (w.extractLsb' 1 2).toNat
/-- DFMT and KIND of VCVT (R156). -/
def fDfmt (w : Word) : Nat := (w.extractLsb' 2 4).toNat
def fKind (w : Word) : Nat := (w.extractLsb' 0 2).toNat
/-- MFMT and OP of MOP (R181). -/
def fMfmt (w : Word) : Nat := (w.extractLsb' 7 4).toNat
def fMop (w : Word) : Nat := (w.extractLsb' 5 2).toNat

def aluEnc (k : Known) (w : Word) : Bool :=
  let f := fFunc w
  binds k.f4 (fRc w == 0) && decide (f ≤ 0x1F) && f != 0x17 && (decide (f < 0x18) || binds k.f3 (fRb w == 0))

def mulDivEnc (k : Known) (w : Word) : Bool :=
  let f := fFunc w
  binds k.f4 (fRc w == 0) && (decide (f ≤ 4) || (decide (8 ≤ f) && decide (f ≤ 0x0F)))

def fpEnc (k : Known) (w : Word) : Bool :=
  let op := fFunc w % 32
  binds k.f4 (fRc w == 0) && decide (op ≤ 12) && (!(op == 4 || op == 9 || op == 10) || binds k.f3 (fRb w == 0))

def fpxEnc (k : Known) (w : Word) : Bool :=
  let f := fFunc w
  binds k.f4 (fRc w == 0) &&
    (if f = 3 ∨ f = 7 then binds k.f3 (fRb w == 0)
     else decide (f ≤ 9) || (decide (0x10 ≤ f) && decide (f ≤ 0x27)) || f == 0x30 || f == 0x31)

/-- VFP (R158). -/
def vfpEnc (k : Known) (w : Word) : Bool :=
  let op := fFunc w % 32
  binds k.f4 (maskFieldOk w) && decide (op ≤ 12) && (op != 4 || (decide (fFunc w < 32) && binds k.f3 (fRb w == 0)))

/-- VLD and VST (R162). -/
def vmemEnc (k : Known) (w : Word) (store : Bool) : Bool :=
  let m := fAmode w
  !w.getLsbD 0 && decide (m ≤ 5) && (m == 2 || m == 3 || fScale w == 0) && binds k.f4 (maskFieldOk w)
    && (!store || (m != 4 && binds k.f4 (!fMz w))) && (m != 5 || (binds k.f4 (!fMen w) && binds k.f1 (decide (fRd w ≤ 7))))

/-- VCVT (R169). -/
def vcvtEnc (k : Known) (w : Word) : Bool :=
  binds k.f4 (maskFieldOk w) && decide (fDfmt w ≤ 0xC) &&
    (decide (fKind w ≥ 2) || binds k.f3 (if fDfmt w = 0 then decide (fRb w < 4) else fRb w == 0))

/-- VMASK (R159). -/
def vmaskEnc (k : Known) (w : Word) : Bool :=
  let f := fFunc w
  let lo := f % 32
  binds k.f4 (maskFieldOk w) &&
    (if lo ≤ 9 then binds k.f1 (decide (fRd w ≤ 7))
     else if 16 ≤ f ∧ f ≤ 20 then
       binds k.f1 (decide (fRd w ≤ 7)) && binds k.f2 (decide (fRa w ≤ 7)) &&
         binds k.f3 (if f = 20 then fRb w == 0 else decide (fRb w ≤ 7))
     else if f = 21 ∨ f = 22 then binds k.f2 (decide (fRa w ≤ 7))
     else f == 23 && binds k.f1 (decide (fRd w ≤ 7)))

/-- VMISC (R160). -/
def vmiscEnc (k : Known) (w : Word) : Bool :=
  let f := fFunc w
  decide (f ≤ 14) && binds k.f4 (maskFieldOk w) &&
    (match f with
     | 0 => binds k.f3 (fRb w == 0) && binds k.f4 (!fMen w)
     | 2 => binds k.f2 (fRa w == 0)
     | 3 => binds k.f2 (fRa w == 0)
     | 4 => binds k.f4 (!fMen w)
     | 5 => binds k.f4 (!fMen w)
     | 9 => binds k.f4 (fMen w && !fMz w)
     | _ => true)

/-- Short vectors (R144). -/
def svEnc (k : Known) (w : Word) : Bool :=
  let op := fFunc w % 8
  decide (fFunc w / 8 ≤ 5) && binds k.f1 (decide (fRd w ≤ 15)) && binds k.f2 (decide (fRa w ≤ 15))
    && binds k.f3 (if op = 6 then fRb w == 0 else decide (fRb w ≤ 15))
    && binds k.f4 (if op = 3 then decide (fRc w ≤ 15) else if op = 6 then decide (fRc w ≤ 5) else fRc w == 0)

/-- MOP (R181). -/
def mopEnc (k : Known) (w : Word) : Bool :=
  let m := fMfmt w
  let dbl := k.f4 && m == 0
  w.extractLsb' 0 5 == 0#5 && binds k.f4 (decide (m ≤ 12)) && binds k.f1 (decide (fRd w ≤ 3)) && binds k.f2 (decide (fRa w ≤ 7))
    && binds k.f3 (decide (fRb w ≤ 7)) && binds k.f1 (!dbl || fRd w % 2 == 0) && binds k.f3 (!dbl || fRb w % 2 == 0)

/-- MXFER (R186, R189). -/
def mxferEnc (k : Known) (w : Word) : Bool :=
  let f := fFunc w
  let x := fRd w
  let sub0 := binds k.f4 (fRc w == 0)
  let rb0 := binds k.f3 (fRb w == 0)
  match f with
  | 0x00 => sub0 && binds k.f1 (decide (x ≤ 7))
  | 0x01 => sub0 && binds k.f1 (decide (x ≤ 7))
  | 0x02 => sub0 && binds k.f1 (decide (x ≤ 7))
  | 0x03 => sub0 && binds k.f1 (decide (x ≤ 7))
  | 0x04 => sub0 && rb0 && binds k.f1 (decide (x ≤ 7))
  | 0x05 => sub0 && rb0 && binds k.f1 (decide (x ≤ 7))
  | 0x08 => sub0 && rb0 && binds k.f2 (decide (fRa w ≤ 7))
  | 0x09 => sub0 && rb0 && binds k.f1 (decide (x ≤ 7))
  | 0x0A => sub0 && rb0 && binds k.f2 (decide (fRa w ≤ 3))
  | 0x0B => sub0 && rb0 && binds k.f1 (decide (x ≤ 3))
  | 0x0C => sub0 && rb0 && binds k.f2 (decide (fRa w ≤ 7))
  | 0x0D => sub0 && rb0 && binds k.f1 (decide (x ≤ 7))
  | 0x10 => sub0 && rb0 && binds k.f1 (decide (x ≤ 3)) && binds k.f2 (fRa w == 0)
  | 0x11 => binds k.f1 (decide (x ≤ 3)) && binds k.f4 (decide (fRc w ≤ 2)) &&
      binds (k.f1 && k.f4) (fRc w != 1 || x % 2 == 0)
  | _ => false

/-- Is the word, as far as its fields are known, no reserved encoding? It covers the majors a micro-op may hold. -/
def encOk (k : Known) (w : Word) : Bool :=
  match major w with
  | 0x01 => aluEnc k w
  | 0x02 => mulDivEnc k w
  | 0x09 => binds k.f3 (w.extractLsb' 11 5 == 0#5) && binds k.f4 (w.extractLsb' 8 3 == 0#3)
  | 0x0A => binds k.f2 (fRa w == 0)
  | 0x0B => binds k.f2 (fRa w == 0)
  | 0x2D => fpEnc k w
  | 0x2E => fFunc w / 4 % 8 == 0
  | 0x2F => fpxEnc k w
  | 0x30 => decide (fFunc w % 32 ≤ 16) && binds k.f4 (maskFieldOk w)
  | 0x31 => vfpEnc k w
  | 0x32 => vmemEnc k w false
  | 0x33 => vmemEnc k w true
  | 0x34 => vcvtEnc k w
  | 0x35 => vmaskEnc k w
  | 0x36 => vmiscEnc k w
  | 0x37 => svEnc k w
  | 0x38 => mopEnc k w
  | 0x39 => mxferEnc k w
  | m => (decide (0x03 ≤ m) && decide (m ≤ 0x0C)) || (decide (0x10 ≤ m) && decide (m ≤ 0x1F) && m != 0x17)

/-! ## Micro-ops (R209) -/

abbrev MicroOp := BitVec 64

def MicroOp.insn (u : MicroOp) : Word := u.extractLsb' 0 32
def MicroOp.map (u : MicroOp) (i : Nat) : Nat := (u.extractLsb' (32 + 2 * (i - 1)) 2).toNat
def MicroOp.isub (u : MicroOp) : Bool := u.getLsbD 40
def MicroOp.cond (u : MicroOp) : Nat := (u.extractLsb' 41 3).toNat
def MicroOp.tgt (u : MicroOp) : Nat := (u.extractLsb' 44 5).toNat
def MicroOp.tsel (u : MicroOp) : Nat := (u.extractLsb' 49 2).toNat
def MicroOp.treg (u : MicroOp) : Nat := (u.extractLsb' 51 5).toNat

/-- Is the micro-op's MAP1 to MAP4 and ISUB all 0? -/
def MicroOp.asWritten (u : MicroOp) : Bool := u.extractLsb' 32 9 == 0#9

/-- The micro-op with no operation. -/
def MicroOp.isNop (u : MicroOp) : Bool := u.insn == 0#32 && u.asWritten

/-- Majors no micro-op may hold (R211). -/
def uopBadMajor (m : Nat) : Bool :=
  (decide (0x0D ≤ m) && decide (m ≤ 0x0F)) || m == 0x17 || (decide (0x20 ≤ m) && decide (m ≤ 0x2C)) || decide (m ≥ 0x3A)

/-- Is the micro-op at index `j` of an entry legal (R211)? -/
def uopLegal (j : Nat) (u : MicroOp) : Bool :=
  let w := u.insn
  let m := major w
  let known : Known := { f1 := u.map 1 == 0, f2 := u.map 2 == 0, f3 := u.map 3 == 0 && !u.isub, f4 := u.map 4 == 0 && !u.isub }
  let insnOk :=
    if m = 0 then u.isNop
    else !uopBadMajor m && !(m == 0x36 && fFunc w == 0) && !(m == 0x32 && fAmode w == 4) && encOk known w
  let isubOk := !u.isub ||
    (((decide (0x03 ≤ m) && decide (m ≤ 0x0C)) || (decide (0x10 ≤ m) && decide (m ≤ 0x1F))) && u.map 3 == 0 && u.map 4 == 0)
  let condOk := match u.cond with
    | 2 => decide (u.tgt > j)
    | 3 => decide (u.tgt > j)
    | 4 => decide (u.tgt > j)
    | 7 => false
    | _ => u.tgt == 0
  insnOk && isubOk && condOk && (u.tsel == 0 || u.treg == 0) && u.extractLsb' 56 8 == 0#8

/-- The 32 micro-ops of entry `e` of a decode image (R81). -/
def entryUops (uops : List MicroOp) (e : Nat) : List MicroOp := (uops.drop (32 * e)).take 32

/-- Are all micro-ops of every valid entry legal? -/
def decodeLegal (valid : Nat) (uops : List MicroOp) : Bool :=
  (onesOf 16 valid).all (fun e => (List.range 32).all (fun j => uopLegal j (((entryUops uops e).drop j).headD 0#64)))

/-- The custom instruction's register field that a MAP or TSEL code names: 1 rd, 2 ra, 3 rb. -/
def custField (w : Word) (code : Nat) : Nat := if code = 1 then fRd w else if code = 2 then fRa w else fRb w

/-- Put `v` into the five-bit field at `lo`. -/
def putField (w : Word) (lo v : Nat) : Word :=
  (w &&& ~~~ (31#32 <<< lo)) ||| ((BitVec.ofNat 32 (v % 32)) <<< lo)

/-- The instruction word a micro-op gives under the custom instruction `w` (R209, R212). -/
def MicroOp.substitute (u : MicroOp) (w : Word) : Word :=
  let put := fun (x : Word) (i lo : Nat) => if u.map i = 0 then x else putField x lo (custField w (u.map i))
  let x := put (put (put (put u.insn 1 21) 2 16) 3 11) 4 6
  if u.isub then (x &&& 0xFFFF0000#32) ||| (((custImm w).signExtend 16).setWidth 32) else x

end Sys2Proof.Machine
end

