-- ==== Sys2Proof/Machine/Flags.lean ====
section
/-!
DEFINITION. The floating-point flags and traps of a core (R107, R108, R138): MODE as it is in force, and how an
instruction that raises flags ends.
-/

namespace Sys2Proof.Machine

/-- The rounding and flushing in force (R107): what MODE held for this instruction. -/
def CoreCtl.rm (k : CoreCtl) : Rounding := Rounding.ofCode k.modeEff
def CoreCtl.ftz (k : CoreCtl) : Bool := bitOf k.modeEff 2
def CoreCtl.sr (k : CoreCtl) : Bool := bitOf k.modeEff 3
/-- The trap enables, in the bit order of FFLAGS (R107, R108). -/
def CoreCtl.traps (k : CoreCtl) : Nat := bitsOf k.modeEff 4 5

/-- Set the flags an instruction raised (R108); bit 5 of `fl` sets VSTAT.SAT (R145, R151). -/
def State.fpEnd (s : State) (c fl : Nat) : State :=
  s.modCtl c (fun x =>
    { x with fflags := x.fflags ||| (fl % 32), vstat := if bitOf fl 5 then x.vstat ||| 1 else x.vstat })

/-- Finish an instruction that raises flags (R138): a raised flag whose trap is enabled traps it, and nothing is
written; otherwise the flags are set and `wr` writes the result. -/
def State.fpFinish (s : State) (c fl : Nat) (wr : State → State) : Res :=
  let k := (s.core c).ctl
  if (fl % 32) &&& k.traps ≠ 0 then .fault { cause := 5, sub := fl % 32 } s
  else .ok (wr (s.fpEnd c fl))

end Sys2Proof.Machine
end

