-- ==== Sys2Proof/Machine/Integer.lean ====
section
/-!
DEFINITION. The integer instructions: immediates (R114), ALU (R115) and MULDIV (R116).
-/

namespace Sys2Proof.Machine

/-- Sign-extend the low 32 bits. -/
def sext32 (x : Dword) : Dword := (x.extractLsb' 0 32).signExtend 64
/-- A truth value as 1 or 0. -/
def bit64 (b : Bool) : Dword := if b then 1 else 0

/-- Leading zeros, counted from bit 63 down; 64 for 0. -/
def clz64 (x : Dword) : Nat :=
  ((List.range 64).find? (fun i => x.getLsbD (63 - i))).getD 64
/-- Trailing zeros; 64 for 0. -/
def ctz64 (x : Dword) : Nat := ((List.range 64).find? (fun i => x.getLsbD i)).getD 64
/-- The eight bytes reversed. -/
def bswap64 (x : Dword) : Dword := BitVec.ofNat 64 (beNat (natLE 8 x.toNat))

/-- The immediate forms (R114): the result, or none for a reserved encoding. `m` is the major opcode. -/
def immResult (m : Nat) (w : Word) (a pc : Dword) : Option Dword :=
  match m with
  | 0x03 => some (a + sImm w)
  | 0x04 => some (a &&& zImm w)
  | 0x05 => some (a ||| zImm w)
  | 0x06 => some (a ^^^ zImm w)
  | 0x07 => some (bit64 (a.slt (sImm w)))
  | 0x08 => some (bit64 (a.ult (sImm w)))
  | 0x09 =>
    let sh := (fImm w).toNat % 64
    if (fImm w).toNat ≥ 256 then none
    else some (match (fImm w).toNat / 64 with
      | 0 => a <<< sh
      | 1 => a >>> sh
      | 2 => a.sshiftRight sh
      | _ => a.rotateRight sh)
  | 0x0A => if fRa w = 0 then some (sImm w <<< 16) else none
  | 0x0B => if fRa w = 0 then some (pc + (sImm w <<< 16)) else none
  | 0x0C => some (sext32 (a + sImm w))
  | _ => none

/-- The ALU functions (R115): the result, or none for a reserved encoding. -/
def aluResult (w : Word) (a b : Dword) : Option Dword :=
  let sh := b.toNat % 64
  let shw := b.toNat % 32
  let unary := fun (x : Dword) => if fRb w = 0 then some x else none
  if fRc w ≠ 0 then none
  else match fFunc w with
    | 0x00 => some (a + b)
    | 0x01 => some (a - b)
    | 0x02 => some (a &&& b)
    | 0x03 => some (a ||| b)
    | 0x04 => some (a ^^^ b)
    | 0x05 => some (a &&& ~~~ b)
    | 0x06 => some (a ||| ~~~ b)
    | 0x07 => some (~~~ (a ^^^ b))
    | 0x08 => some (a <<< sh)
    | 0x09 => some (a >>> sh)
    | 0x0A => some (a.sshiftRight sh)
    | 0x0B => some (a.rotateRight sh)
    | 0x0C => some (bit64 (a.slt b))
    | 0x0D => some (bit64 (a.ult b))
    | 0x0E => some (if a.slt b then a else b)
    | 0x0F => some (if a.slt b then b else a)
    | 0x10 => some (if a.ult b then a else b)
    | 0x11 => some (if a.ult b then b else a)
    | 0x12 => some (sext32 (a + b))
    | 0x13 => some (sext32 (a - b))
    | 0x14 => some (sext32 (a <<< shw))
    | 0x15 => some (sext32 ((a &&& 0xFFFFFFFF) >>> shw))
    | 0x16 => some ((sext32 a).sshiftRight shw)
    | 0x18 => unary (BitVec.ofNat 64 (clz64 a))
    | 0x19 => unary (BitVec.ofNat 64 (ctz64 a))
    | 0x1A => unary (BitVec.ofNat 64 (popcount 64 a.toNat))
    | 0x1B => unary ((a.extractLsb' 0 8).signExtend 64)
    | 0x1C => unary ((a.extractLsb' 0 16).signExtend 64)
    | 0x1D => unary (sext32 a)
    | 0x1E => unary (a &&& 0xFFFFFFFF)
    | 0x1F => unary (bswap64 a)
    | _ => none

/-- Quotient and remainder of `n`-bit operands (R116): truncation toward zero; a divisor of zero and the signed
overflow as that rule gives them. -/
def divRem {n : Nat} (isSigned : Bool) (a b : BitVec n) : BitVec n × BitVec n :=
  if b = 0 then (BitVec.allOnes n, a)
  else if isSigned then
    if a = BitVec.intMin n ∧ b = BitVec.allOnes n then (a, 0)
    else (BitVec.ofInt n (a.toInt.tdiv b.toInt), BitVec.ofInt n (a.toInt.tmod b.toInt))
  else (a / b, a % b)

/-- Bits [127:64] of a product. -/
def high64 (x : Int) : Dword := BitVec.ofInt 64 (x.fdiv (2 ^ 64))

/-- The MULDIV functions (R116). -/
def mulDivResult (w : Word) (a b : Dword) : Option Dword :=
  let lo := fun (x : Dword) => x.extractLsb' 0 32
  let pick := fun (isSigned rem : Bool) =>
    let r := divRem isSigned a b
    if rem then r.2 else r.1
  let pickW := fun (isSigned rem : Bool) =>
    let r := divRem isSigned (lo a) (lo b)
    ((if rem then r.2 else r.1).signExtend 64 : Dword)
  if fRc w ≠ 0 then none
  else match fFunc w with
    | 0x00 => some (a * b)
    | 0x01 => some (high64 (a.toInt * b.toInt))
    | 0x02 => some (high64 ((a.toNat : Int) * (b.toNat : Int)))
    | 0x03 => some (high64 (a.toInt * (b.toNat : Int)))
    | 0x04 => some (sext32 (a * b))
    | 0x08 => some (pick true false)
    | 0x09 => some (pick false false)
    | 0x0A => some (pick true true)
    | 0x0B => some (pick false true)
    | 0x0C => some (pickW true false)
    | 0x0D => some (pickW false false)
    | 0x0E => some (pickW true true)
    | 0x0F => some (pickW false true)
    | _ => none

/-- The divide unit's busy cycles of a MULDIV function (R196), counted in DIV_BUSY. -/
def divBusy (w : Word) : Nat :=
  if 0x08 ≤ fFunc w ∧ fFunc w ≤ 0x0B then 40 else if 0x0C ≤ fFunc w ∧ fFunc w ≤ 0x0F then 22 else 0

/-- Write a result to rd, or fault RESERVED (R112). -/
def Res.ofG (s : State) (c rd : Nat) (r : Option Dword) : Res :=
  match r with
  | some v => .ok (s.setG c rd v)
  | none => .fault illReserved s

def semImm (c : Nat) (w : Word) (s : State) : Res :=
  let k := s.core c
  if 0x03 ≤ major w ∧ major w ≤ 0x0C then Res.ofG s c (fRd w) (immResult (major w) w (k.gr (fRa w)) k.ctl.pc)
  else .fault illReserved s

def semAlu (c : Nat) (w : Word) (s : State) : Res :=
  let k := s.core c
  if major w = 0x01 then Res.ofG s c (fRd w) (aluResult w (k.gr (fRa w)) (k.gr (fRb w))) else .fault illReserved s

def semMulDiv (c : Nat) (w : Word) (s : State) : Res :=
  let k := s.core c
  if major w = 0x02 then
    (Res.ofG s c (fRd w) (mulDivResult w (k.gr (fRa w)) (k.gr (fRb w)))).bind (fun s => .ok (s.bump c 0x30F (divBusy w)))
  else .fault illReserved s

/-- IMMEDIATE_OP (R114). -/
def execImmediateOp (c : Nat) (w : Word) (s : State) : Host.Outcome State Fault Refusal := ok (s.execute c w (semImm c w))
/-- ALU (R115). -/
def execAlu (c : Nat) (w : Word) (s : State) : Host.Outcome State Fault Refusal := ok (s.execute c w (semAlu c w))
/-- MULDIV (R116). -/
def execMuldiv (c : Nat) (w : Word) (s : State) : Host.Outcome State Fault Refusal := ok (s.execute c w (semMulDiv c w))

/-! ## Loads and stores (R117, R118, R119) -/

/-- The width in bytes of a load or store major (R117). -/
def memWidth (m : Nat) : Nat :=
  match m with
  | 0x10 => 1 | 0x11 => 1 | 0x12 => 2 | 0x13 => 2 | 0x14 => 4 | 0x15 => 4 | 0x16 => 8
  | 0x18 => 1 | 0x19 => 2 | 0x1A => 4 | 0x1B => 8 | 0x1C => 4 | 0x1D => 8 | 0x1E => 4 | _ => 8

/-- An FP32 value boxed in 64 bits (R105). -/
def box32 (x : Word) : Dword := 0xFFFFFFFF00000000#64 ||| x.setWidth 64

/-- The effective address (R117). -/
def effAddr (k : Core) (w : Word) : Nat := (k.gr (fRa w) + sImm w).toNat

def isLoad (m : Nat) : Bool := (decide (0x10 ≤ m) && decide (m ≤ 0x16)) || m == 0x1C || m == 0x1D
def isStore (m : Nat) : Bool := (decide (0x18 ≤ m) && decide (m ≤ 0x1B)) || m == 0x1E || m == 0x1F

def semLoad (c : Nat) (w : Word) (s : State) : Res :=
  let m := major w
  if !isLoad m then .fault illReserved s
  else (s.load c (effAddr (s.core c) w) (memWidth m)).andThen (fun b s =>
    let v := leNat b
    .ok (match m with
      | 0x10 => s.setG c (fRd w) ((BitVec.ofNat 8 v).signExtend 64)
      | 0x12 => s.setG c (fRd w) ((BitVec.ofNat 16 v).signExtend 64)
      | 0x14 => s.setG c (fRd w) ((BitVec.ofNat 32 v).signExtend 64)
      | 0x1C => s.setF c (fRd w) (box32 (BitVec.ofNat 32 v))
      | 0x1D => s.setF c (fRd w) (BitVec.ofNat 64 v)
      | _ => s.setG c (fRd w) (BitVec.ofNat 64 v)))

def semStore (c : Nat) (w : Word) (s : State) : Res :=
  let m := major w
  let k := s.core c
  let v := if m = 0x1E ∨ m = 0x1F then k.fr (fRd w) else k.gr (fRd w)
  if !isStore m then .fault illReserved s
  else s.store c (effAddr k w) (natLE (memWidth m) v.toNat)

/-- LOAD (R117, R118). -/
def execLoad (c : Nat) (w : Word) (s : State) : Host.Outcome State Fault Refusal := ok (s.execute c w (semLoad c w))
/-- STORE (R117, R119). -/
def execStore (c : Nat) (w : Word) (s : State) : Host.Outcome State Fault Refusal := ok (s.execute c w (semStore c w))

/-! ## Control transfer (R120 to R124) -/

/-- The outcome of a branch (R120). -/
def branchTaken (m : Nat) (a b : Dword) : Option Bool :=
  match m with
  | 0x20 => some (a == b)
  | 0x21 => some (a != b)
  | 0x22 => some (a.slt b)
  | 0x23 => some (!a.slt b)
  | 0x24 => some (a.ult b)
  | 0x25 => some (!a.ult b)
  | _ => none

/-- BRANCH: rb is in [20:16] and ra in [25:21] (B format). A branch not taken still has its delay slot (R121). -/
def semBranch (c : Nat) (w : Word) (s : State) : TransRes :=
  let k := s.core c
  let pc := k.ctl.pc
  match branchTaken (major w) (k.gr (fRd w)) (k.gr (fRa w)) with
  | none => .fault illReserved s
  | some t =>
    let target := (if t then pc + disp16 w else pc + 8).toNat
    .go { addr := pc.toNat, target := target, guard := [fRd w, fRa w] } (s.btbResolve c pc.toNat t target)

def semJ (c : Nat) (w : Word) (s : State) : TransRes :=
  let pc := (s.core c).ctl.pc
  if major w ≠ 0x26 then .fault illReserved s
  else .go { addr := pc.toNat, target := (pc + disp26 w).toNat } (s.btbResolve c pc.toNat true (pc + disp26 w).toNat)

def semJal (c : Nat) (w : Word) (s : State) : TransRes :=
  let pc := (s.core c).ctl.pc
  if major w ≠ 0x27 then .fault illReserved s
  else .go { addr := pc.toNat, target := (pc + disp26 w).toNat, guard := [1] }
    ((s.btbResolve c pc.toNat true (pc + disp26 w).toNat).setG c 1 (pc + 8))

def semJalr (c : Nat) (w : Word) (s : State) : TransRes :=
  let k := s.core c
  let pc := k.ctl.pc
  let target := (k.gr (fRa w) + sImm w).toNat
  if major w ≠ 0x28 then .fault illReserved s
  else if fRd w = fRa w ∧ fRd w ≠ 0 then .fault illReserved s
  else if target % 4 ≠ 0 then .fault (misaligned 3 target) s
  else .go { addr := pc.toNat, target := target, guard := [fRa w, fRd w] }
    ((s.btbResolve c pc.toNat true target).setG c (fRd w) (pc + 8))

/-- BRANCH (R120, R121). -/
def execBranch (c : Nat) (w : Word) (s : State) : Host.Outcome State Fault Refusal := ok (s.executeTransfer c (semBranch c w))
/-- J (R120). -/
def execJ (c : Nat) (w : Word) (s : State) : Host.Outcome State Fault Refusal := ok (s.executeTransfer c (semJ c w))
/-- JAL (R120). -/
def execJal (c : Nat) (w : Word) (s : State) : Host.Outcome State Fault Refusal := ok (s.executeTransfer c (semJal c w))
/-- JALR (R120, R124). -/
def execJalr (c : Nat) (w : Word) (s : State) : Host.Outcome State Fault Refusal := ok (s.executeTransfer c (semJalr c w))

end Sys2Proof.Machine
end

