-- ==== Sys2Proof/Machine/ScalarFp.lean ====
section
/-!
DEFINITION. Scalar floating point (R131 to R138).
-/

namespace Sys2Proof.Machine

/-- The bits of an operand: an unboxed FP32 value reads as the canonical NaN (R105). -/
def fpBits (single : Bool) (x : Dword) : Nat :=
  if single then (if x.extractLsb' 32 32 = 0xFFFFFFFF#32 then (x.extractLsb' 0 32).toNat else fp32.canonNan) else x.toNat

/-- A result as an f register holds it (R105). -/
def fpWord (single : Bool) (b : Nat) : Dword := if single then box32 (BitVec.ofNat 32 b) else BitVec.ofNat 64 b

def fpFmt (single : Bool) : FFmt := if single then fp32 else fp64

/-- The sign operations (R134): bits, without flags or FTZ. -/
def signOp (f : FFmt) (op a b : Nat) : Nat :=
  let top := f.width - 1
  let mag := a % 2 ^ top
  let neg := match op with
    | 9 => false
    | 10 => !bitOf a top
    | 11 => bitOf b top
    | _ => bitOf a top != bitOf b top
  f.pack neg mag

/-- The operations 0 to 8 of R134 on values. -/
def fpArith (f : FFmt) (r : Rounding) (ftz : Bool) (op : Nat) (a b : Val) : FRes :=
  let fin := fun (x : Val × Nat) => f.put r ftz x.1 x.2
  match op with
  | 0 => fin (a.add r b)
  | 1 => fin (a.add r b.neg)
  | 2 => fin (a.mul b)
  | 3 => f.div r ftz a b
  | 4 => f.sqrt r ftz a
  | 5 => fin (Val.extremum false false a b)
  | 6 => fin (Val.extremum true false a b)
  | 7 => fin (Val.extremum false true a b)
  | _ => fin (Val.extremum true true a b)

/-- The divide unit's busy cycles of an FP function (R196). -/
def fpDivBusy (single : Bool) (op : Nat) : Nat :=
  match op with
  | 3 => if single then 14 else 26
  | 4 => if single then 16 else 30
  | _ => 0

def semFpOp (c : Nat) (w : Word) (s : State) : Res :=
  let k := s.core c
  let single := bitOf (fFunc w) 5
  let f := fpFmt single
  let op := fFunc w % 32
  let a := fpBits single (k.fr (fRa w))
  let b := fpBits single (k.fr (fRb w))
  if major w ≠ 0x2D ∨ !encOk {} w then .fault illReserved s
  else if op ≥ 9 then .ok (s.setF c (fRd w) (fpWord single (signOp f op a b)))
  else
    let x := fpArith f k.ctl.rm k.ctl.ftz op (f.read k.ctl.ftz a) (f.read k.ctl.ftz b)
    (s.fpFinish c x.flags (fun s => s.setF c (fRd w) (fpWord single x.bits))).bind (fun s => .ok (s.bump c 0x30F (fpDivBusy single op)))

/-- The exact value of an FMA form (R135): 0 a·b + c, 1 a·b − c, 2 −(a·b + c), 3 −(a·b − c). -/
def fmaValue (r : Rounding) (op : Nat) (a b c : Val) : Val × Nat :=
  let x := Val.fma r a b (if op % 2 = 1 then c.neg else c)
  (if op / 2 = 1 then x.1.neg else x.1, x.2)

def semFmaOp (c : Nat) (w : Word) (s : State) : Res :=
  let k := s.core c
  let single := bitOf (fFunc w) 5
  let f := fpFmt single
  let rd := fun r => f.read k.ctl.ftz (fpBits single (k.fr r))
  if major w ≠ 0x2E ∨ !encOk {} w then .fault illReserved s
  else
    let v := fmaValue k.ctl.rm (fFunc w % 4) (rd (fRa w)) (rd (fRb w)) (rd (fRc w))
    let x := f.put k.ctl.rm k.ctl.ftz v.1 v.2
    s.fpFinish c x.flags (fun s => s.setF c (fRd w) (fpWord single x.bits))

/-- Is the word of major FPX with this FUNC, and not reserved? -/
def fpxIs (w : Word) (p : Nat → Bool) : Bool := major w == 0x2F && p (fFunc w) && encOk {} w

/-- FCMPEQ, FCMPLT and FCMPLE (R136). -/
def semFpCompare (c : Nat) (w : Word) (s : State) : Res :=
  let k := s.core c
  let single := bitOf (fFunc w) 2
  let f := fpFmt single
  let rd := fun r => f.read k.ctl.ftz (fpBits single (k.fr r))
  if !fpxIs w (fun n => decide (n ≤ 6) && n != 3) then .fault illReserved s
  else
    let x := Val.compare (fFunc w % 4) (rd (fRa w)) (rd (fRb w))
    s.fpFinish c x.2 (fun s => s.setG c (fRd w) (bit64 x.1))

/-- The kind word (R136). -/
def kindWord (f : FFmt) (b : Nat) : Nat :=
  let kind := match f.value b with
    | .nan true => 5
    | .nan false => 4
    | .inf _ => 3
    | .fin _ m _ => if m = 0 then 0 else if f.isSubnormal b then 1 else 2
  kind + (if bitOf b (f.width - 1) then 8 else 0)

def semFkind (c : Nat) (w : Word) (s : State) : Res :=
  let single := bitOf (fFunc w) 2
  if !fpxIs w (fun n => n == 3 || n == 7) then .fault illReserved s
  else .ok (s.setG c (fRd w) (BitVec.ofNat 64 (kindWord (fpFmt single) (fpBits single ((s.core c).fr (fRa w))))))

def semFnarrow (c : Nat) (w : Word) (s : State) : Res :=
  let k := s.core c
  let v := fp64.read k.ctl.ftz (k.fr (fRa w)).toNat
  if !fpxIs w (· == 8) then .fault illReserved s
  else
    let x := fp32.put k.ctl.rm k.ctl.ftz v (signalFlag [v])
    s.fpFinish c x.flags (fun s => s.setF c (fRd w) (fpWord true x.bits))

def semFwiden (c : Nat) (w : Word) (s : State) : Res :=
  let k := s.core c
  let v := fp32.read k.ctl.ftz (fpBits true (k.fr (fRa w)))
  if !fpxIs w (· == 9) then .fault illReserved s
  else
    let x := fp64.put k.ctl.rm k.ctl.ftz v (signalFlag [v])
    s.fpFinish c x.flags (fun s => s.setF c (fRd w) (fpWord false x.bits))

/-- Width and signedness of the codes W, WU, L, LU (R136). -/
def intWidth (code : Nat) : Nat := if code % 4 < 2 then 32 else 64
def intSigned (code : Nat) : Bool := code % 2 == 0

def semFtoi (c : Nat) (w : Word) (s : State) : Res :=
  let k := s.core c
  let fn := fFunc w
  let single := bitOf fn 3
  let v := (fpFmt single).read k.ctl.ftz (fpBits single (k.fr (fRa w)))
  let n := intWidth fn
  if !fpxIs w (fun x => decide (0x10 ≤ x) && decide (x ≤ 0x1F)) then .fault illReserved s
  else
    let x := toInteger n (intSigned fn) (if bitOf fn 2 then .zero else k.ctl.rm) v
    s.fpFinish c x.2 (fun s => s.setG c (fRd w) (if n = 32 then sext32 (BitVec.ofInt 64 x.1) else BitVec.ofInt 64 x.1))

def semItof (c : Nat) (w : Word) (s : State) : Res :=
  let k := s.core c
  let fn := fFunc w
  let single := bitOf fn 2
  let b := (k.gr (fRa w)).toNat
  let n := intWidth fn
  let i : Int := if intSigned fn then signed n b else ((b % 2 ^ n : Nat) : Int)
  if !fpxIs w (fun x => decide (0x20 ≤ x) && decide (x ≤ 0x27)) then .fault illReserved s
  else
    let x := (fpFmt single).put k.ctl.rm k.ctl.ftz (Val.ofInt i) 0
    s.fpFinish c x.flags (fun s => s.setF c (fRd w) (fpWord single x.bits))

def semFmovg (c : Nat) (w : Word) (s : State) : Res :=
  if !fpxIs w (· == 0x30) then .fault illReserved s else .ok (s.setG c (fRd w) ((s.core c).fr (fRa w)))

def semFmovf (c : Nat) (w : Word) (s : State) : Res :=
  if !fpxIs w (· == 0x31) then .fault illReserved s else .ok (s.setF c (fRd w) ((s.core c).gr (fRa w)))

/-- FP_OP (R134). -/
def execFpOp (c : Nat) (w : Word) (s : State) : Host.Outcome State Fault Refusal := ok (s.execute c w (semFpOp c w))
/-- FMA_OP (R135). -/
def execFmaOp (c : Nat) (w : Word) (s : State) : Host.Outcome State Fault Refusal := ok (s.execute c w (semFmaOp c w))
/-- FP_COMPARE (R136). -/
def execFpCompare (c : Nat) (w : Word) (s : State) : Host.Outcome State Fault Refusal := ok (s.execute c w (semFpCompare c w))
/-- FKIND (R136). -/
def execFkind (c : Nat) (w : Word) (s : State) : Host.Outcome State Fault Refusal := ok (s.execute c w (semFkind c w))
/-- FNARROW (R136). -/
def execFnarrow (c : Nat) (w : Word) (s : State) : Host.Outcome State Fault Refusal := ok (s.execute c w (semFnarrow c w))
/-- FWIDEN (R136). -/
def execFwiden (c : Nat) (w : Word) (s : State) : Host.Outcome State Fault Refusal := ok (s.execute c w (semFwiden c w))
/-- FTOI (R136, R137). -/
def execFtoi (c : Nat) (w : Word) (s : State) : Host.Outcome State Fault Refusal := ok (s.execute c w (semFtoi c w))
/-- ITOF (R136, R137). -/
def execItof (c : Nat) (w : Word) (s : State) : Host.Outcome State Fault Refusal := ok (s.execute c w (semItof c w))
/-- FMOVG (R136). -/
def execFmovg (c : Nat) (w : Word) (s : State) : Host.Outcome State Fault Refusal := ok (s.execute c w (semFmovg c w))
/-- FMOVF (R136). -/
def execFmovf (c : Nat) (w : Word) (s : State) : Host.Outcome State Fault Refusal := ok (s.execute c w (semFmovf c w))

end Sys2Proof.Machine
end

