-- ==== Sys2Proof/Machine/System.lean ====
section
/-!
DEFINITION. System instructions (R125, R217 to R237), control registers (R106, R126), fences and SYNC (R127, R128,
R206, R215, R242, R252), cache maintenance (R129, R243 to R245) and asynchronous exceptions (R228).
-/

namespace Sys2Proof.Machine

/-! ## SYS (R125) -/

/-- Is the word SYS function `fn`, with its unused fields 0? -/
def sysIs (w : Word) (fn : Nat) : Bool :=
  major w == 0x29 && sysFn w == fn && w.extractLsb' 16 10 == 0#10 && (fn == 0 || fn == 5 || sysN w == 0)

/-- A gate table entry (R233). -/
structure GateEntry where
  handler : Nat
  newStack : Nat
  ctrl : Nat
  nargs : Nat
  kinds : Nat
  bounds : List Nat
  deriving DecidableEq, Repr

def gateEntry (b : List Byte) : GateEntry :=
  { handler := fieldLE b 0 8, newStack := fieldLE b 8 8, ctrl := fieldLE b 16 1, nargs := fieldLE b 17 1,
    kinds := fieldLE b 18 2, bounds := (List.range 6).map (fun i => fieldLE b (20 + 2 * i) 2) }

def GateEntry.kind (e : GateEntry) (i : Nat) : Nat := bitsOf e.kinds (2 * i) 2
def GateEntry.bound (e : GateEntry) (i : Nat) : Nat := (e.bounds.drop i).headD 0

/-- Malformed (R233). -/
def GateEntry.malformed (e : GateEntry) : Bool :=
  bitsOf e.ctrl 2 6 != 0 || bitsOf e.kinds 12 4 != 0 || e.handler % 4 != 0 || e.newStack % 64 != 0 || decide (e.nargs > 6)
    || (List.range 6).any (fun i =>
      (decide (i ≥ e.nargs) && e.kind i != 0)
        || ((e.kind i == 1 || e.kind i == 2) && decide (i + 1 ≥ e.nargs))
        || (e.kind i != 3 && e.bound i != 0))

/-- Does argument `i` pass its check (R235)? -/
def State.gateArgOk (s : State) (c : Nat) (e : GateEntry) (i : Nat) : Bool :=
  let k := s.core c
  let p := (k.gr (10 + i)).toNat
  let n := (k.gr (11 + i)).toNat
  match e.kind i with
  | 0 => true
  | 3 => decide (p ≤ e.bound i)
  | x => n == 0 || (s.coreCheck c k.ctl.priv (if x = 2 then .write else .read) p n).toBool

def gateFault (sub eaddr : Nat) : FaultInfo := { cause := 6, sub := sub, eaddr := eaddr }

/-- GATE N (R234): its checks in order, then the delay slot and the switch at the handler. -/
def semGate (c : Nat) (w : Word) (s : State) : TransRes :=
  let pc := (s.core c).ctl.pc.toNat
  let n := sysN w
  if !sysIs w 0 then .fault illReserved s
  else match s.tableRead c ((s.core c).sre.gatebase.toNat + 32 * n) 32 with
    | (.error _, s) => .fault (gateFault 1 0) s
    | (.ok b, s) =>
      let k := s.core c
      let e := gateEntry b
      if !bitOf e.ctrl 0 then .fault (gateFault 2 0) s
      else if e.malformed then .fault (gateFault 3 0) s
      else if !k.ctl.priv && !bitOf e.ctrl 1 then .fault (gateFault 4 0) s
      else match (List.range e.nargs).find? (fun i => !s.gateArgOk c e i) with
        | some i => .fault (gateFault (0x10 + i) (k.gr (10 + i)).toNat) s
        | none =>
          let sp := if e.newStack ≠ 0 then e.newStack else if k.ctl.priv then (k.gr 2).toNat else k.ssp.toNat
          let nsp : Int := ((sp / 64 * 64 : Nat) : Int) - 64
          if nsp < (k.sre.slimit.toNat : Int) then .fault (gateFault 5 (BitVec.ofInt 64 nsp).toNat) s
          else match s.coreCheck c true .write nsp.toNat 64 with
            | .error _ => .fault (gateFault 6 nsp.toNat) s
            | .ok _ =>
              .go { addr := pc, target := e.handler,
                    act := .gate nsp.toNat n (pc + 8) k.ctl.status (s.now % 2 ^ 64) s.sht.frame.toNat,
                    guard := [2, 10, 11, 12, 13, 14, 15], gateSlot := true }
                (s.btbResolve c pc true e.handler)

/-- RETE (`gate` = false, R231) and RETG (R237): the frame at g2 & ~63 is read as a load; its KIND must fit. After the
delay slot STATUS, g2 and the PC come from it, and for RETE a valid UIDX names the micro-op to resume at. -/
def returnFrom (c : Nat) (gate : Bool) (s : State) : TransRes :=
  let k := s.core c
  let sp := (k.gr 2).toNat / 64 * 64
  if !k.ctl.priv then .fault illPriv s
  else match s.load c sp 64 with
    | .fault f s => .fault f s
    | .wait s => .wait s
    | .ok b s =>
      let info := fieldLE b 32 8
      let epc := fieldLE b 0 8
      let uop := if !gate && bitOf info 21 then some (if bitOf info 6 then (epc + 4) % 2 ^ 64 else epc, bitsOf info 16 5) else none
      if bitOf info 24 != gate then .fault illFrame s
      else .go { addr := k.ctl.pc.toNat, target := epc, act := .ret (BitVec.ofNat 64 (fieldLE b 8 8)) (BitVec.ofNat 64 (fieldLE b 16 8)) uop,
                 guard := [2] } (s.btbResolve c k.ctl.pc.toNat true epc)

def semRetg (c : Nat) (w : Word) (s : State) : TransRes := if !sysIs w 1 then .fault illReserved s else returnFrom c true s
def semRete (c : Nat) (w : Word) (s : State) : TransRes := if !sysIs w 2 then .fault illReserved s else returnFrom c false s

/-- Clean the L1D lines at the given places (8 × set + way), each through a free store-buffer entry (R245, R253). -/
def cleanLines (c : Nat) : List Nat → State → (State → Res) → Res
  | [], s, k => k s
  | i :: l, s, k => s.sbRoom c (fun s => cleanLines c l (s.l1Clean c (i / 8) (i % 8)) k)

/-- The dirty lines of the L1D. -/
def Core.dirtyLines (k : Core) : List Nat := (k.l1d.filter (fun e => e.2.valid && e.2.dirty)).map Prod.fst

/-- Clean and invalidate the whole L1D, then go on. -/
def State.flushL1 (s : State) (c : Nat) (k : State → Res) : Res :=
  cleanLines c (s.core c).dirtyLines s (fun s => k (s.modCore c (fun x => { x with l1d := [] })))

/-- A kernel ends on a core (R125, R280): the core is free, a LOAD still pending is discarded (R215), and its launch
learns of it. -/
def State.endKernel (s : State) (c : Nat) (e : CoreEnd) : State :=
  let kr := (s.core c).kernel
  let s := s.modCore c (fun k => { k with run := .idle, kernel := {}, sr := { k.sr with dtabCmd := 0 }, wcChans := [] })
  (({ s with late := NatMap.set [] s.late c [] }).addRun kr.part kr.cmd (s.now - kr.startedAt) kr.traffic).coreEnded kr.part kr.cmd c e

/-- YIELD and ENDK (R122, R125, R253): L1D is cleaned and invalidated, the store buffer drains with its errors precise,
and the kernel ends. -/
def semEnd (c : Nat) (w : Word) (fn : Nat) (e : CoreEnd) (s : State) : Res :=
  if !sysIs w fn then .fault illReserved s
  else if (s.core c).ctl.delay.isSome then .fault illSlot s
  else s.flushL1 c (fun s => s.drain c (fun s => .ok (s.endKernel c e)))

def semYield (c : Nat) (w : Word) (s : State) : Res := semEnd c w 3 .yielded s
def semEndk (c : Nat) (w : Word) (s : State) : Res := semEnd c w 4 .ended s

/-- BREAK N (R125, R222). -/
def semBreak (_c : Nat) (w : Word) (s : State) : Res :=
  if !sysIs w 5 then .fault illReserved s else .fault { cause := 7, sub := sysN w } s

/-- Is a FRAME exception pending: HELD, or OVERRUN (R54, R55)? -/
def KernelRun.heldPending (k : KernelRun) : Bool := k.held && !k.heldTaken
def KernelRun.overrunPending (k : KernelRun) : Bool := k.overrun && !k.overrunTaken

/-- Does WAITEV complete (R230)? -/
def State.evReady (s : State) (c : Nat) : Bool :=
  let k := s.core c
  (k.even &&& k.ctl.evpend) != 0 || k.kernel.heldPending || k.kernel.overrunPending || (s.oldestLate c).isSome

/-- Set or clear the mark that the core waits in WAITEV. -/
def State.setWaiting (s : State) (c : Nat) (b : Bool) : State :=
  s.modCore c (fun k => { k with kernel := { k.kernel with waitEv := b } })

/-- WAITEV (R230): it completes when an event is ready; until then the core waits in it. -/
def State.waitev (s : State) (c : Nat) (w : Word) : State :=
  if (s.core c).run ≠ .running then s
  else match fetchFault (s.core c).ctl.pc.toNat with
    | some f => s.faultAt c f
    | none =>
      if !sysIs w 6 then s.faultAt c illReserved
      else if s.evReady c then ((s.setWaiting c false).modCtl c CoreCtl.pass).retire c
      else s.setWaiting c true

/-- GATE (R234). -/
def execGate (c : Nat) (w : Word) (s : State) : Host.Outcome State Fault Refusal := ok (s.executeTransfer c (semGate c w))
/-- RETG (R237). -/
def execRetg (c : Nat) (w : Word) (s : State) : Host.Outcome State Fault Refusal := ok (s.executeTransfer c (semRetg c w))
/-- RETE (R231). -/
def execRete (c : Nat) (w : Word) (s : State) : Host.Outcome State Fault Refusal := ok (s.executeTransfer c (semRete c w))
/-- YIELD (R125). -/
def execYield (c : Nat) (w : Word) (s : State) : Host.Outcome State Fault Refusal := ok (s.execute c w (semYield c w))
/-- ENDK (R125). -/
def execEndk (c : Nat) (w : Word) (s : State) : Host.Outcome State Fault Refusal := ok (s.execute c w (semEndk c w))
/-- BREAK (R125). -/
def execBreakpoint (c : Nat) (w : Word) (s : State) : Host.Outcome State Fault Refusal := ok (s.execute c w (semBreak c w))
/-- WAITEV (R230). -/
def execWaitev (c : Nat) (w : Word) (s : State) : Host.Outcome State Fault Refusal := ok (s.waitev c w)

/-! ## Control registers (R106, R126) -/

/-- A segment register of R360: SEGB, SEGS or SEGT of segment `n`. -/
def segReg (g : Seg) (which : Nat) : Dword :=
  match which with
  | 0 => BitVec.ofNat 64 (bitsOf g.base 12 36 * 2 ^ 12 + g.perm % 8 * 4 + g.mode % 4)
  | 1 => BitVec.ofNat 64 g.size
  | _ => BitVec.ofNat 64 g.target

/-- What a control register reads as (R106, R109); none for a reserved number. -/
def State.creg (s : State) (c n : Nat) : Option Dword :=
  let k := s.core c
  let x := k.ctl
  let of := fun v : Nat => some (BitVec.ofNat 64 v)
  if 0x140 ≤ n ∧ n < 0x170 then some (segReg (((s.psecD (s.corePart c)).segs.drop ((n - 0x140) / 3)).headD {}) ((n - 0x140) % 3))
  else if 0x178 ≤ n ∧ n < 0x180 then some (NatMap.get 0 k.sr.win (n - 0x178))
  else if n = 0x300 then some (NatMap.get 0 k.perf n + BitVec.ofNat 64 s.now)
  else if 0x301 ≤ n ∧ n ≤ 0x30F then some (NatMap.get 0 k.perf n)
  else match n with
    | 0x000 => of x.mode
    | 0x001 => of x.fflags
    | 0x002 => of (x.vshape + if shapeIll x.vshapeEff then 256 else 0)
    | 0x003 => of x.vln
    | 0x010 => of s.now
    | 0x011 => some s.sht.frame
    | 0x012 => of (c % 4096 + s.corePart c % 16 * 2 ^ 12 + s.plate.sysInForce.deviceNum % 256 * 2 ^ 16)
    | 0x100 => of x.status
    | 0x101 => some k.sr.evbase
    | 0x102 => some k.sr.gatebase
    | 0x103 => some k.sr.slimit
    | 0x104 => some k.ssp
    | 0x105 => of k.even
    | 0x106 => of x.evpend
    | 0x170 => some k.sr.segen
    | 0x171 => some k.sr.winctl
    | 0x180 => of ((if k.sr.dtabUen then 1 else 0) + k.sr.dtabCmd * 2 + k.sr.dtabAddr * 2 ^ 8 + k.dtabResult * 2 ^ 56 + k.bank % 2 * 2 ^ 59)
    | 0x181 => of (k.sr.ksWait + k.ksEff * 2 ^ 8)
    | 0x190 => of k.sr.l1dCfg
    | 0x191 => of (if k.sr.icEn then 1 else 0)
    | 0x200 => of (x.vresElem + if x.vresArmed then 2 ^ 13 else 0)
    | 0x201 => of x.vstat
    | _ => none

/-- Is user access to the register none (R106)? -/
def cregSystemOnly (n : Nat) : Bool := decide (0x100 ≤ n) && decide (n < 0x200)

/-- Is the register RO at this level (R106, R216, R360)? -/
def cregReadOnly (priv : Bool) (n : Nat) : Bool :=
  (decide (0x010 ≤ n) && decide (n ≤ 0x012)) || (decide (0x140 ≤ n) && decide (n < 0x170)) || (!priv && decide (0x300 ≤ n))

def State.modSr (s : State) (c : Nat) (f : SyncRegs → SyncRegs) : State := s.modCore c (fun k => { k with sr := f k.sr })

/-- The control registers outside the SYNC class (R106, R150, R151, R216 to R220). A MODE or VSHAPE write governs from
the fourth instruction after it (R205): its own retirement is the first to pass. -/
def State.setCregCtl (s : State) (c n : Nat) (v : Dword) : State :=
  let u := v.toNat
  match n with
  | 0x000 => s.modCtl c (fun x => { x with mode := u % 512, modePend := x.modePend ++ [(u % 512, 4)] })
  | 0x001 => s.modCtl c (fun x => { x with fflags := u % 32 })
  | 0x002 => s.modCtl c (fun x => { x with vshape := u % 256, vshapePend := x.vshapePend ++ [(u % 256, 4)] })
  | 0x003 => s.modCtl c (fun x => { x with vln := min u (vlmaxOf x.vshapeEff) })
  | 0x100 => s.modCtl c (fun x => { x with ie := bitOf u 1 })
  | 0x104 => s.modCore c (fun k => { k with ssp := v &&& ~~~ 63#64 })
  | 0x105 => s.modCore c (fun k => { k with even := u % 512 })
  | 0x106 => s.modCtl c (fun x => { x with evpend := u % 512 })
  | 0x200 => s.modCtl c (fun x => { x with vresElem := u % 2 ^ 13, vresArmed := bitOf u 13 })
  | 0x201 => s.modCtl c (fun x => { x with vstat := u % 4 })
  | _ => s

/-- The SYNC-class control registers (R106, R201, R208, R218, R242, R360), as written. -/
def State.setCregSync (s : State) (c n : Nat) (v : Dword) : State :=
  let u := v.toNat
  if 0x178 ≤ n ∧ n < 0x180 then
    s.modSr c (fun r => { r with win := NatMap.set 0 r.win (n - 0x178) (v &&& 0x0000FFFFFFFFF73F#64) })
  else match n with
    | 0x101 => s.modSr c (fun r => { r with evbase := v &&& ~~~ 511#64 })
    | 0x102 => s.modSr c (fun r => { r with gatebase := v &&& ~~~ 8191#64 })
    | 0x103 => s.modSr c (fun r => { r with slimit := v &&& ~~~ 63#64 })
    | 0x170 => s.modSr c (fun r => { r with segen := BitVec.ofNat 64 (u % 2 ^ 16) })
    | 0x171 => s.modSr c (fun r => { r with winctl := BitVec.ofNat 64 (u % 4) })
    | 0x180 => s.modSr c (fun r => { r with dtabUen := bitOf u 0, dtabCmd := bitsOf u 1 3, dtabAddr := bitsOf u 8 44 })
    | 0x181 => s.modSr c (fun r => { r with ksWait := u % 64 })
    | 0x190 => s.modSr c (fun r => { r with l1dCfg := u % 8 })
    | 0x191 => s.modSr c (fun r => { r with icEn := bitOf u 0 })
    | _ => s

/-- Write a control register; reserved bits are ignored. CYCLES counts on from the value written. -/
def State.setCreg (s : State) (c n : Nat) (v : Dword) : State :=
  if 0x300 ≤ n ∧ n ≤ 0x30F then
    s.modCore c (fun k => { k with perf := NatMap.set 0 k.perf n (if n = 0x300 then v - BitVec.ofNat 64 s.now else v) })
  else (s.setCregCtl c n v).setCregSync c n v

/-- A CREG instruction (R126): `op` is its OP, `f` gives the new value from the old one and ra (none: no write). -/
def cregOpSem (c : Nat) (w : Word) (op : Nat) (f : Dword → Dword → Option Dword) (s : State) : Res :=
  let k := s.core c
  let n := cregNum w
  if major w ≠ 0x2A ∨ cregOp w ≠ op ∨ (op = 1 ∧ fRd w ≠ 0) then .fault illReserved s
  else match s.creg c n with
    | none => .fault illCreg s
    | some old =>
      if !k.ctl.priv && cregSystemOnly n then .fault illPriv s
      else match f old (k.gr (fRa w)) with
        | none => .ok (s.setG c (fRd w) old)
        | some v =>
          if cregReadOnly k.ctl.priv n then .fault illCreg s
          else
            let s := s.setCreg c n v
            .ok (if op = 1 then s else s.setG c (fRd w) old)

def semMfc (c : Nat) (w : Word) (s : State) : Res := cregOpSem c w 0 (fun _ _ => none) s
def semMtc (c : Nat) (w : Word) (s : State) : Res := cregOpSem c w 1 (fun _ a => some a) s
def semSwc (c : Nat) (w : Word) (s : State) : Res := cregOpSem c w 2 (fun _ a => some a) s
def semSetc (c : Nat) (w : Word) (s : State) : Res := cregOpSem c w 3 (fun o a => some (o ||| a)) s
def semClrc (c : Nat) (w : Word) (s : State) : Res := cregOpSem c w 4 (fun o a => some (o &&& ~~~ a)) s

/-- MFC (R126). -/
def execMfc (c : Nat) (w : Word) (s : State) : Host.Outcome State Fault Refusal := ok (s.execute c w (semMfc c w))
/-- MTC (R126). -/
def execMtc (c : Nat) (w : Word) (s : State) : Host.Outcome State Fault Refusal := ok (s.execute c w (semMtc c w))
/-- SWC (R126). -/
def execSwc (c : Nat) (w : Word) (s : State) : Host.Outcome State Fault Refusal := ok (s.execute c w (semSwc c w))
/-- SETC (R126). -/
def execSetc (c : Nat) (w : Word) (s : State) : Host.Outcome State Fault Refusal := ok (s.execute c w (semSetc c w))
/-- CLRC (R126). -/
def execClrc (c : Nat) (w : Word) (s : State) : Host.Outcome State Fault Refusal := ok (s.execute c w (semClrc c w))

/-! ## Fences (R127, R252) -/

/-- Is the word FENCE function `fn`, with rd, ra and rb 0? -/
def fenceIs (w : Word) (fn : Nat) : Bool := major w == 0x2B && fFunc w == fn && w.extractLsb' 6 20 == 0#20

def semFenceS (c : Nat) (w : Word) (s : State) : Res :=
  if !fenceIs w 0 then .fault illReserved s else s.drain c Res.ok

/-- FENCE.L: the core's loads are performed in program order. -/
def semFenceL (_c : Nat) (w : Word) (s : State) : Res :=
  if !fenceIs w 1 then .fault illReserved s else .ok s

/-- Accept every entry that holds no error, oldest first; an error stays to be reported asynchronously (R229). -/
def State.acceptAll (s : State) (c : Nat) : State :=
  (List.range (s.core c).sb.length).foldr (fun i s => s.acceptSb c ((s.core c).sb.length - 1 - i)) s

/-- FENCE.A: every store-buffer entry is performed first; one that another device has not answered makes it wait. -/
def semFenceA (c : Nat) (w : Word) (s : State) : Res :=
  if !fenceIs w 2 then .fault illReserved s
  else
    let s := s.acceptAll c
    if (s.core c).sb.any (fun e => e.late.isNone) then .wait s else .ok s

/-- Flush write-combining entries one by one (R252, R368); an error of this core's is reported precisely, and the entries
that remain are left for the next execution. -/
def flushForFence (c : Nat) : List (Nat × WcEntry) → State → Res
  | [], s => .ok (s.modCore c (fun k => { k with wcChans := [] }))
  | (ch, e) :: l, s =>
    let n := (NatMap.get [] s.late c).length
    let s := (s.setWc ch ((s.wcOf ch).filter (fun x => x.line != e.line))).flushEntry ch e
    match (NatMap.get [] s.late c).drop n with
    | x :: _ => .fault (lateFault x) { s with late := NatMap.upd [] s.late c (fun q => q.take n) }
    | [] => flushForFence c l s

/-- The entries of the channels a core has sent partial writes to, oldest first. -/
def State.fenceEntries (s : State) (c : Nat) : List (Nat × WcEntry) :=
  sortBy (fun a b => decide (a.2.alloc ≤ b.2.alloc)) ((s.core c).wcChans.flatMap (fun ch => (s.wcOf ch).map (fun e => (ch, e))))

def semFenceE (c : Nat) (w : Word) (s : State) : Res :=
  if !fenceIs w 3 then .fault illReserved s
  else s.drain c (fun s => flushForFence c (s.fenceEntries c) s)

/-- FENCE_S (R127). -/
def execFenceS (c : Nat) (w : Word) (s : State) : Host.Outcome State Fault Refusal := ok (s.execute c w (semFenceS c w))
/-- FENCE_L (R252). -/
def execFenceL (c : Nat) (w : Word) (s : State) : Host.Outcome State Fault Refusal := ok (s.execute c w (semFenceL c w))
/-- FENCE_A (R252). -/
def execFenceA (c : Nat) (w : Word) (s : State) : Host.Outcome State Fault Refusal := ok (s.execute c w (semFenceA c w))
/-- FENCE_E (R252). -/
def execFenceE (c : Nat) (w : Word) (s : State) : Host.Outcome State Fault Refusal := ok (s.execute c w (semFenceE c w))

/-! ## SYNC (R128, R206, R215, R242) -/

/-- Does the core run a kernel, or hold one that HELD stopped and RELEASE may resume? -/
def Core.hasKernel (k : Core) : Bool := k.run == .running || k.run == .stopped 4

/-- Does a validated plate that changes the partition's decode await its install tick (R215)? -/
def State.decodeStaged (s : State) (p : Nat) : Bool :=
  match s.plate.staged with
  | some g => s.plate.stage == .staged && (match g.plate.part? p with
      | some q => decide (q.decode ≠ (s.psecD p).decode)
      | none => false)
  | none => false

/-- Carry out a LOAD (R215): BUSY is judged first, then 4,112 bytes are read at ADDR, checked and installed in the
cluster's other bank. -/
def State.dtabLoad (s : State) (c : Nat) : State :=
  let g := c / 16
  let cl := s.cluster g
  let result := fun (s : State) (r : Nat) => s.modCore c (fun k => { k with dtabResult := r })
  if (List.range 16).any (fun i => let k := s.core (16 * g + i); k.hasKernel && k.bank != cl.installed) || s.decodeStaged (s.corePart c) then
    result s 4
  else
    let pa := 16 * (s.core c).sr.dtabAddr
    match s.coreCheck c (s.core c).ctl.priv .read pa 4112 with
    | .error _ => result s 2
    | .ok _ =>
      match s.readPart (s.corePart c) .read .core pa 4112 with
      | (.error _, s) => result s 2
      | (.ok b, s) =>
        let tab : DecodeTab := { valid := fieldLE b 0 2, uops := (List.range 512).map (fun i => BitVec.ofNat 64 (fieldLE b (16 + 8 * i) 8)) }
        if !decodeLegal tab.valid tab.uops then result s 3
        else
          let s := s.modCluster g (fun x => if cl.installed = 0 then { x with bank1 := tab, installed := 1 } else { x with bank0 := tab, installed := 0 })
          result (s.modCore c (fun k => { k with bank := 1 - cl.installed })) 1

/-- KS_WAIT's EFF for a WAIT on a cluster core (R201). -/
def ksClamp (n : Nat) : Nat := max 2 (min 7 n)

/-- SYNC's effect once its L1D maintenance is done: SYNC-class writes, MODE and VSHAPE changes and the bank switch take
effect, and a DTAB_CTRL command is carried out. -/
def State.syncEffect (s : State) (c : Nat) : State :=
  let k := s.core c
  let g := c / 16
  let icache := if k.sr.icEn = k.sre.icEn then k.ic else []
  let s := s.modCore c (fun k => { k with
    sre := k.sr, ic := icache, ksEff := ksClamp k.sr.ksWait, ctl := k.ctl.settle, bank := (s.cluster g).installed })
  let clear := fun (s : State) => s.modCore c (fun k => { k with sr := { k.sr with dtabCmd := 0 }, sre := { k.sre with dtabCmd := 0 } })
  match k.sr.dtabCmd with
  | 0 => s
  | 1 => clear (s.dtabLoad c)
  | _ => clear (s.modCore c (fun k => { k with dtabResult := 5 }))

/-- Accept the write-backs that the core's store buffer holds (R242). -/
def State.acceptWriteBacks (s : State) (c : Nat) : State :=
  (List.range (s.core c).sb.length).foldr (fun i s =>
    let j := (s.core c).sb.length - 1 - i
    match (s.core c).sb[j]? with
    | some e => if e.kind = .writeBack then s.acceptSb c j else s
    | none => s) s

/-- SYNC: a change of DRAM_EN or TRAY_EN first cleans and invalidates the whole L1D. -/
def semSync (c : Nat) (w : Word) (s : State) : Res :=
  let k := s.core c
  if !fenceIs w 0x10 then .fault illReserved s
  else if k.sr.l1dCfg % 4 ≠ k.sre.l1dCfg % 4 then s.flushL1 c (fun s => .ok ((s.acceptWriteBacks c).syncEffect c))
  else .ok (s.syncEffect c)

/-- SYNC (R128). -/
def execSync (c : Nat) (w : Word) (s : State) : Host.Outcome State Fault Refusal := ok (s.execute c w (semSync c w))

/-! ## Cache maintenance (R129, R243 to R245) -/

def cacheIs (w : Word) (op : Nat) : Bool := major w == 0x2C && fRd w == op

/-- What a maintenance operation does to a line it finds: clean it, invalidate it, or both. -/
def State.maintain (s : State) (c set way : Nat) (clean inv : Bool) : Res :=
  let x := (s.core c).l1At set way
  let drop := fun (s : State) => if inv then s.l1Drop c set way else s
  if clean && x.valid && x.dirty then s.sbRoom c (fun s => .ok (drop (s.l1Clean c set way)))
  else .ok (drop s)

/-- A by-address operation (R243): checks 2 and 3 of R118, then the line, if one holds the translated address. -/
def cacheByAddr (c : Nat) (w : Word) (op : Nat) (clean inv : Bool) (s : State) : Res :=
  let k := s.core c
  let pa := effAddr k w
  let acc : Access := if inv then .write else .read
  if !cacheIs w op then .fault illReserved s
  else match s.coreCheck c k.ctl.priv acc pa 1 with
    | .error e => .fault (busErr e 3 pa) s
    | .ok _ =>
      let pl := s.corePlace c acc pa
      if !k.cacheable pl then .ok s
      else match k.l1Way pl.addr with
        | none => .ok s
        | some way => s.maintain c (l1Set pl.addr) way clean inv

/-- A set-and-way operation (R244), system level only. -/
def cacheBySetWay (c : Nat) (w : Word) (op : Nat) (clean inv : Bool) (s : State) : Res :=
  let k := s.core c
  let a := effAddr k w
  if !cacheIs w op then .fault illReserved s
  else if !k.ctl.priv then .fault illPriv s
  else s.maintain c (bitsOf a 6 6) (bitsOf a 12 3) clean inv

def semCleanA (c : Nat) (w : Word) (s : State) : Res := cacheByAddr c w 0 true false s
def semInvA (c : Nat) (w : Word) (s : State) : Res := cacheByAddr c w 1 false true s
def semClinvA (c : Nat) (w : Word) (s : State) : Res := cacheByAddr c w 2 true true s
def semCleanSw (c : Nat) (w : Word) (s : State) : Res := cacheBySetWay c w 4 true false s
def semInvSw (c : Nat) (w : Word) (s : State) : Res := cacheBySetWay c w 5 false true s
def semClinvSw (c : Nat) (w : Word) (s : State) : Res := cacheBySetWay c w 6 true true s

/-- IINV.ALL (R203, R247): the instruction cache and every BTB entry are invalidated. -/
def semIinvAll (c : Nat) (w : Word) (s : State) : Res :=
  if !cacheIs w 8 || w.extractLsb' 0 21 != 0#21 then .fault illReserved s
  else .ok (s.modCore c (fun k => { k with ic := [], btb := [] }))

/-- CLEAN_A (R243). -/
def execCleanA (c : Nat) (w : Word) (s : State) : Host.Outcome State Fault Refusal := ok (s.execute c w (semCleanA c w))
/-- INV_A (R243). -/
def execInvA (c : Nat) (w : Word) (s : State) : Host.Outcome State Fault Refusal := ok (s.execute c w (semInvA c w))
/-- CLINV_A (R243). -/
def execClinvA (c : Nat) (w : Word) (s : State) : Host.Outcome State Fault Refusal := ok (s.execute c w (semClinvA c w))
/-- CLEAN_SW (R244). -/
def execCleanSw (c : Nat) (w : Word) (s : State) : Host.Outcome State Fault Refusal := ok (s.execute c w (semCleanSw c w))
/-- INV_SW (R244). -/
def execInvSw (c : Nat) (w : Word) (s : State) : Host.Outcome State Fault Refusal := ok (s.execute c w (semInvSw c w))
/-- CLINV_SW (R244). -/
def execClinvSw (c : Nat) (w : Word) (s : State) : Host.Outcome State Fault Refusal := ok (s.execute c w (semClinvSw c w))
/-- IINV_ALL (R247). -/
def execIinvAll (c : Nat) (w : Word) (s : State) : Host.Outcome State Fault Refusal := ok (s.execute c w (semIinvAll c w))

/-! ## Asynchronous exceptions (R228) -/

/-- Is the core at an instruction boundary where an asynchronous exception may be taken: not before a delay slot, not in
a shadow, with no instruction in progress and none to resume within? -/
def Core.atBoundary (k : Core) : Bool :=
  k.run == .running && k.ctl.delay.isNone && k.ctl.modePend.isEmpty && k.ctl.vshapePend.isEmpty && k.remote.isEmpty
    && k.ctl.resumeUop.isNone

/-- Take the first ready asynchronous exception in the order of R228. -/
def State.takeAsync (s : State) (c : Nat) : State :=
  let k := s.core c
  let pc := k.ctl.pc.toNat
  let take := fun (s : State) (f : FaultInfo) => s.enterExc c f pc false true
  let ready := k.even &&& k.ctl.evpend
  match s.oldestLate c with
  | some x => take (s.takeLate c) (lateFault x)
  | none =>
    if k.kernel.heldPending then
      take (s.modCore c (fun k => { k with kernel := { k.kernel with heldTaken := true } })) { cause := 8, sub := 2 }
    else if k.kernel.overrunPending then
      take (s.modCore c (fun k => { k with kernel := { k.kernel with overrunTaken := true } })) { cause := 8, sub := 1 }
    else if !k.ctl.ie then s
    else match (List.range 9).find? (fun i => bitOf ready i) with
      | some i => take (s.modCtl c (fun x => { x with evpend := x.evpend - 2 ^ i })) { cause := 9 + i }
      | none => s

/-- ASYNC_EXCEPTION: at a boundary the highest ready one is taken; a core that waits in WAITEV completes it first. -/
def State.async (s : State) (c : Nat) : State :=
  let s := if (s.core c).kernel.waitEv && (s.core c).run == .running && s.evReady c then
      ((s.setWaiting c false).modCtl c CoreCtl.pass).retire c else s
  if (s.core c).atBoundary && !(s.core c).kernel.waitEv then s.takeAsync c else s

/-- ASYNC_EXCEPTION (R228). -/
def execAsyncException (c : Nat) (s : State) : Host.Outcome State Fault Refusal := ok (s.async c)

end Sys2Proof.Machine
end

