-- ==== Sys2Proof/Machine/Launch.lean ====
section
/-!
DEFINITION. Kernel launches (R272, R279, R362) and SYN commands (R56, R79, R277, R278).
-/

namespace Sys2Proof.Machine

/-! ## Launches -/

/-- KRN_LAUNCH (R272): the LAUNCH is dispatched to its named cores. -/
def State.krnLaunch (s : State) (p id : Nat) : State :=
  match s.engineCmd p id 0 0 with
  | none => s
  | some _ => s.modCmd p id (fun c => { c with began := c.began.or (some s.now) })

def execKrnLaunch (p id : Nat) (s : State) : Host.Outcome State Fault Refusal := ok (s.krnLaunch p id)

/-- May a kernel start on the core: it has ended its previous kernel, and every entry of that kernel has left the store
buffer but those whose late errors nobody will take (R279, R540)? -/
def Core.free (k : Core) : Bool :=
  (match k.run with | .idle => true | .running => false | .stopped r => r != 4) && k.sb.all (fun e => e.late.isSome)

/-- The core with the state a launch gives it (R176, R247, R279, R362): registers that R279 keeps are kept, and their
pending writes take effect (R93). -/
def Core.launched (k : Core) (r : Line) (core installed : Nat) (run : KernelRun) : Core :=
  let sr := { k.sr with segen := 0xFFFF, winctl := 0, win := [], dtabCmd := 0 }
  let mode := fld r 40 1
  let g : NatMap Dword := [(2, k.ssp), (10, BitVec.ofNat 64 (fld r 48 8)), (11, BitVec.ofNat 64 (fld r 56 8)),
    (12, BitVec.ofNat 64 (core % 16)), (13, BitVec.ofNat 64 (core / 16 - fld r 36 1))]
  { k with
    run := .running, kernel := run, regs := { g := g.filter (fun e => e.2 != 0) },
    ctl := { pc := BitVec.ofNat 64 (fld r 32 4), priv := !bitOf mode 0, ie := bitOf mode 1 },
    sr := sr, sre := sr, ksEff := ksClamp sr.ksWait, bank := installed,
    l1d := [], plru := [], ic := [], btb := [], sb := [], remote := [], wcChans := [] }

/-- May command `id` begin on `core`: no launch admitted earlier still has to begin there (R279, R45)? -/
def State.firstFor (s : State) (p id core : Nat) : Bool :=
  ((s.sch p).cmds.takeWhile (fun m => m.id != id)).all (fun m =>
    !(recClass m.image == 0 && m.units.contains core && NatMap.get .notStarted m.ends core == .notStarted && m.result.isNone))

/-- KERNEL_START (R279). -/
def State.kernelStart (s : State) (p id core : Nat) : State :=
  let st := (s.part p).state
  match (s.sch p).cmd? id with
  | none => s
  | some c =>
    if (st == .running || st == .draining || st == .migrating) && !s.err.fatal && recClass c.image == 0 && c.began.isSome
      && c.result.isNone && c.units.contains core && NatMap.get .notStarted c.ends core == .notStarted
      && (s.core core).free && s.firstFor p id core then
      let run : KernelRun := { part := p, cmd := id, admitFrame := c.admitFrame, startedAt := s.now }
      let s := { s with late := NatMap.set [] s.late core [] }
      (s.modCore core (fun k => k.launched c.image core (s.cluster (core / 16)).installed run)).modCmd p id (fun c =>
        { c with ends := NatMap.set .notStarted c.ends core .running })
    else s

def execKernelStart (p id core : Nat) (s : State) : Host.Outcome State Fault Refusal := ok (s.kernelStart p id core)

/-! ## SYN -/

/-- A SYN command that its opcode's row may carry out: its effect, and then its completion (R277). -/
def State.runSyn (s : State) (p id op : Nat) (f : Line → State → State) : State :=
  match s.engineCmd p id 6 op with
  | none => s
  | some c => (f c.image (s.modCmd p id (fun c => { c with began := some s.now }))).completeCmd p id 0 0

/-- SYN NOP (R277). -/
def execSynNop (p id : Nat) (s : State) : Host.Outcome State Fault Refusal := ok (s.runSyn p id 0 (fun _ s => s))

/-- SYN MARK_ADD (R267, R277). -/
def execSynMarkAdd (p id : Nat) (s : State) : Host.Outcome State Fault Refusal :=
  ok (s.runSyn p id 1 (fun r s => s.addMark p (fld r 32 2) (fld r 36 4)))

/-- SYN MARK_SET (R267, R277). -/
def execSynMarkSet (p id : Nat) (s : State) : Host.Outcome State Fault Refusal :=
  ok (s.runSyn p id 2 (fun r s => s.setMark p (fld r 32 2) (BitVec.ofNat 64 (fld r 40 8))))

/-- SYN TIMESTAMP (R38, R277): device time, then the frame number. -/
def State.synTimestamp (s : State) (p id : Nat) : State :=
  match s.engineCmd p id 6 3 with
  | none => s
  | some c =>
    let e : Eng := { s := s, p := p }
    let f := (e.write (fld c.image 32 6) (natLE 8 (s.now % 2 ^ 64) ++ natLE 8 s.sht.frame.toNat))
    let st := match f.err with
      | some x => x.status f.moved
      | none => (0, 0)
    (f.s.finishCmd p id f.moved st.1 st.2).completeCmd p id st.1 st.2

def execSynTimestamp (p id : Nat) (s : State) : Host.Outcome State Fault Refusal := ok (s.synTimestamp p id)

/-- SYN FRAME_ALIGN (R56): from its admission on it waits for the next tick, which completes it. -/
def State.synFrameAlign (s : State) (p id : Nat) : State :=
  match s.engineCmd p id 6 4 with
  | none => s
  | some _ => s.modCmd p id (fun c => { c with began := c.began.or (some s.now) })

def execSynFrameAlign (p id : Nat) (s : State) : Host.Outcome State Fault Refusal := ok (s.synFrameAlign p id)

/-- A period in cycles (R34). -/
def TimerCfg.cycles (t : TimerCfg) : Nat := cyclesPerMicro * t.period

/-- Load a timer (R79): it expires one period from now. -/
def Timer.load (t : Timer) (now : Nat) : Timer := { t with active := true, due := now + t.cfg.cycles, left := t.cfg.cycles }

/-- SYN WATCHDOG (R79): the partition's watchdog timer of that ID is reloaded. -/
def execSynWatchdog (p id : Nat) (s : State) : Host.Outcome State Fault Refusal :=
  ok (s.runSyn p id 5 (fun r s => s.modPart p (fun q => { q with timers := q.timers.map (fun t =>
    if t.cfg.kind = 1 ∧ t.cfg.id = fld r 32 2 then t.load s.now else t) })))

/-- SYN EVENT (R278): the event is raised once the command has completed. -/
def State.synEvent (s : State) (p id : Nat) : State :=
  match s.engineCmd p id 6 6 with
  | none => s
  | some c =>
    (onesOf 16 (fld c.image 34 2)).foldl (fun s k => s.raiseEv (16 * fld c.image 32 1 + k) (1 + fld c.image 36 1))
      ((s.modCmd p id (fun c => { c with began := some s.now })).completeCmd p id 0 0)

def execSynEvent (p id : Nat) (s : State) : Host.Outcome State Fault Refusal := ok (s.synEvent p id)

end Sys2Proof.Machine
end

