-- ==== Sys2Proof/Machine/PartOps.lean ====
section
/-!
DEFINITION. Partition states (R96 to R100): timers (R79), HELD (R51, R55), LOADING (R97), RELEASE (R98), DRAINING (R99) and
MIGRATING (R100), and the closing of partition sessions (R473).
-/

namespace Sys2Proof.Machine

/-! ## Timers (R79) -/

/-- A timer stops, keeping its remaining count. -/
def Timer.pause (now : Nat) (t : Timer) : Timer := if t.active then { t with left := t.due - now } else t
/-- A stopped timer goes on with its remaining count. -/
def Timer.resume (now : Nat) (t : Timer) : Timer := if t.active then { t with due := now + t.left } else t

/-- The timers a section asks for, loaded now. -/
def PartSec.loadTimers (q : PartSec) (now : Nat) : List Timer :=
  (q.timers.filter (fun c => c.kind != 0)).map (fun c => ({ cfg := c } : Timer).load now)

/-- A timer after its expiry: PERIODIC reloads, ONESHOT and WATCHDOG stop. -/
def Timer.expired (t : Timer) : Timer :=
  if t.cfg.kind = 2 then { t with due := t.due + t.cfg.cycles } else { t with active := false }

/-- Timer `i` of a partition expires. -/
def State.fireTimer (s : State) (p i : Nat) : State :=
  match ((s.part p).timers.drop i).head? with
  | none => s
  | some t =>
    let s := s.modPart p (fun x => { x with timers := x.timers.set i t.expired })
    if t.cfg.kind = 1 then s.logErr { cls := 2, source := 4, code := 5, part := p, detail := t.cfg.id } else s.addMark p t.cfg.mark 1

/-- Is timer `i` of a partition running, and of the kind? -/
def State.timerRuns (s : State) (p i kind : Nat) : Bool :=
  match ((s.part p).timers.drop i).head? with
  | some t => (s.part p).state == .running && t.active && t.cfg.kind == kind
  | none => false

/-- An expiry row: device time reaches the timer's expiry, and it fires. -/
def State.timerExpiry (s : State) (p i kind : Nat) : State :=
  if s.timerRuns p i kind then (s.advance (((s.part p).timers.drop i).headD {}).due).fireTimer p i else s

/-- PERIODIC_TIMER_EXPIRY (R79). -/
def execPeriodicTimerExpiry (p i : Nat) (s : State) : Host.Outcome State Fault Refusal := ok (s.timerExpiry p i 2)
/-- ONESHOT_TIMER_EXPIRY (R79). -/
def execOneshotTimerExpiry (p i : Nat) (s : State) : Host.Outcome State Fault Refusal := ok (s.timerExpiry p i 3)
/-- WATCHDOG_EXPIRY (R79). -/
def execWatchdogExpiry (p i : Nat) (s : State) : Host.Outcome State Fault Refusal := ok (s.timerExpiry p i 1)

/-- Every timer of a RUNNING partition that is due by now fires (R94). -/
def State.fireDue (s : State) (p : Nat) : State :=
  if (s.part p).state ≠ .running then s
  else (List.range (s.part p).timers.length).foldl (fun s i =>
    let t := (((s.part p).timers.drop i).headD {})
    if t.active ∧ t.due ≤ s.now then s.fireTimer p i else s) s

/-! ## Sessions and states -/

/-- A partition session closes (R473). -/
def State.closeSess (s : State) (p : Nat) : State :=
  if s.sessionOpen p then s.modSess p (fun x => { x with state := .closed }) else s

/-- The state and REASON of a partition change (R96, R453). -/
def State.setPart (s : State) (p : Nat) (st : PState) (reason : Nat) : State :=
  (s.modPart p (fun x => { x with state := st, reason := reason })).pgEvent p 0

/-- A request is refused (R96). -/
def State.refuseReq (s : State) (p : Nat) : State := (s.modPart p (fun x => { x with request := none })).pltEvent 5

/-- The cores of a partition: 16 × granule + core, rising. -/
def PartSec.cores (q : PartSec) : List Nat := q.granules.flatMap (fun g => (List.range 16).map (fun k => 16 * g + k))

/-- The cores that run a kernel of the partition. -/
def State.partRunning (s : State) (p : Nat) : List Nat :=
  (s.cores.filter (fun e => decide (e.2.run = .running) && e.2.kernel.part == p)).map Prod.fst

/-! ## HELD (R51, R55) -/

/-- Does HELD stop the command at its next element boundary? A launch goes on until its cores are stopped, an OPEN holds its
slots (R540), and a command that has done its work completes. -/
def Cmd.heldStops (c : Cmd) : Bool :=
  let r := c.image
  recClass r != 0 && !(recClass r == 3 && recOpcode r == 0) && c.result.isNone

/-- The partition enters HELD: engines stop, cores take FRAME HELD, timers stop, admission stops (R51, R79). The first
CONTAINED record gives the REASON (R523). -/
def State.enterHeld (s : State) (p reason : Nat) : State :=
  let x := s.part p
  let s := s.modPart p (fun x => { x with
    heldFromLoading := x.state == .loading, holdReason := none, heldAt := s.now, admStopped := true,
    migFailed := x.state == .loading && x.migPeer.isSome, timers := if x.state = .running then x.timers.map (Timer.pause s.now) else x.timers })
  let s := s.modSch p (fun y => { y with cmds := y.cmds.map (fun c => if c.heldStops then { c with stopped := true } else c) })
  let s := (s.partRunning p).foldl (fun s c => s.modCore c (fun k => { k with kernel := { k.kernel with held := true } })) s
  s.setPart p .held (x.holdReason.getD reason)

/-- HELD_CORE_STOP (R55): cores still running a kernel 10 µs after their partition entered HELD. -/
def execHeldCoreStop (p : Nat) (s : State) : Host.Outcome State Fault Refusal :=
  ok (if (s.part p).state ≠ .held then s
    else
      let s := s.advance ((s.part p).heldAt + 10 * cyclesPerMicro)
      (s.partRunning p).foldl (fun s c => s.stopCore c 4) s)

/-! ## LOADING (R97) -/

/-- The three pieces of a granule: DRAM, tray, kernel store. -/
def pieces (g : Nat) : List (Nat × Nat) :=
  [(dramBase g, dramBase g + 2 ^ 32), (trayBase g, trayBase g + 2 ^ 21), (ksBase g, ksBase g + 2 ^ 18)]

/-- Zero every byte of a partition's granules. -/
def State.zeroPart (s : State) (p : Nat) : State :=
  (s.psecD p).granules.foldl (fun s g => (pieces g).foldl (fun s x => s.zeroRange x.1 x.2) s) s

/-- Clearing stopped where it was: each 64-byte line is zero or as it was, which the spec leaves open. -/
def State.partlyZero (s : State) (p : Nat) : State :=
  let q := s.psecD p
  let d := s.draw
  let inside := fun a : Nat => q.granules.any (fun g => (pieces g).any (fun x => decide (x.1 ≤ a) && decide (a < x.2)))
  let keep := fun a : Nat => !inside a || Config.freeAt d.1 (a / 64)
  let s := d.2
  { s with mem := { s.mem with
      bytes := NatMap.filterKeys keep s.mem.bytes, poisoned := NatMap.filterKeys keep s.mem.poisoned,
      flips := NatMap.filterKeys keep s.mem.flips } }

/-- Every stream of the partition's Grains is seeded with 0 (R333). -/
def State.seedGrains (s : State) (p : Nat) : State :=
  (s.psecD p).granules.foldl (fun s g => (List.range 32).foldl (fun s n => s.setGrain g n (seedStream n 0)) s) s

/-- The partition's cores are reset (R279) and its clusters hold its decode table (R97). -/
def State.resetCores (s : State) (p : Nat) : State :=
  let q := s.psecD p
  let s := q.cores.foldl (fun s c => { s with cores := NatMap.set {} s.cores c {}, late := NatMap.set [] s.late c [] }) s
  q.granules.foldl (fun s g => { s with clusters := NatMap.set {} s.clusters g { bank0 := q.decode } }) s

/-- The scheduler area as LOADING leaves it (R97, R282): its registers, queues and marks are reset. -/
def State.resetSched (s : State) (p : Nat) : State :=
  let s := s.modSch p (fun x => { nextId := x.nextId })
  { s with regs := NatMap.filterKeys (fun k => decide (k < schKey p 0) || decide (schKey p 0x10000 ≤ k)) s.regs }

/-- The partition enters LOADING; a migration target keeps the state its stream has already brought (R97). -/
def State.enterLoading (s : State) (p : Nat) : State :=
  let x := s.part p
  let migr := x.migPeer.isSome
  let s := if migr && x.loadDone then s else s.resetSched p
  let s := (s.resetCores p).seedGrains p
  let s := s.modPart p (fun x => { x with
    request := none, holdReason := none, admStopped := false, heldFromLoading := false, ovxTotal := 0, ovxLast := false, ovxPrev := false,
    loadDone := migr && x.loadDone, drainDone := false, drainTicks := 0, migLastAck := false,
    timers := if migr then x.timers else [] })
  s.setPart p .loading 0

/-- LOADING_COMPLETE (R97): memory is clear and the partition is set up; a migration target waits for its stream. -/
def execLoadingComplete (p : Nat) (s : State) : Host.Outcome State Fault Refusal :=
  ok (if (s.part p).state = .loading ∧ (s.part p).migPeer = none ∧ !(s.part p).loadDone then
      (s.zeroPart p).modPart p (fun x => { x with loadDone := true })
    else s)

/-- The partition enters RUNNING: its timers are loaded, or go on with the counts a migration brought (R79). -/
def State.enterRunning (s : State) (p : Nat) : State :=
  let migr := (s.part p).migPeer.isSome
  let s := if migr then s.seedGrains p else s
  let s := s.modPart p (fun x => { x with
    request := none, admStopped := false, migPeer := none, loadDone := false,
    timers := if migr then x.timers.map (Timer.resume s.now) else (s.psecD p).loadTimers s.now })
  s.setPart p .running 0

/-- The partition enters OFF (R96): its session closes. -/
def State.enterOff (s : State) (p reason : Nat) : State :=
  let x := s.part p
  (({ s with parts := NatMap.set {} s.parts p { ovxTotal := x.ovxTotal, throttle := x.throttle } }).setPart p .off reason).closeSess p

/-- A partition leaves LOADING before it is done (R97): its clearing stops where it is. -/
def State.leaveLoading (s : State) (p : Nat) : State :=
  if (s.part p).loadDone ∨ (s.part p).migPeer.isSome then s else s.partlyZero p

/-! ## Commands aborted -/

/-- Every core of a launch that has not ended is aborted. -/
def Cmd.abortEnds (c : Cmd) : Cmd :=
  let one := fun (m : NatMap CoreEnd) (u : Nat) => match NatMap.get .notStarted m u with
    | .notStarted => NatMap.set .notStarted m u .aborted
    | .running => NatMap.set .notStarted m u .aborted
    | _ => m
  { c with ends := c.units.foldl one c.ends }

/-- A command ends ABORTED: of a launch, the cores that have not ended are stopped (R99, R270). -/
def State.abortCmd (s : State) (p id : Nat) : State :=
  match (s.sch p).cmd? id with
  | none => s
  | some c =>
    if c.result.isSome then s
    else if recClass c.image = 0 then
      let s := (s.cores.filter (fun e => decide (e.2.run = .running) && e.2.kernel.part == p && e.2.kernel.cmd == id)).foldl (fun s e =>
        (s.addRun p id (s.now - e.2.kernel.startedAt) e.2.kernel.traffic).modCore e.1 (fun k => { k with run := .stopped 4 })) s
      let s := s.modCmd p id Cmd.abortEnds
      s.completeCmd p id 2 0
    else s.completeCmd p id 2 0

def State.cmdIds (s : State) (p : Nat) (f : Cmd → Bool) : List Nat := ((s.sch p).cmds.filter f).map Cmd.id

/-- Has HELD stopped a core of the launch? -/
def State.heldLaunch (s : State) (c : Cmd) : Bool :=
  recClass c.image == 0 && c.result.isNone && c.units.any (fun u =>
    NatMap.get .notStarted c.ends u == .running && decide ((s.core u).run = .stopped 4))

/-! ## RELEASE (R98) -/

/-- Does the cause of HELD persist (R98, R523, R524)? -/
def State.causePersists (s : State) (p : Nat) : Bool :=
  let x := s.part p
  let q := s.psecD p
  s.err.fatal || (x.reason == 2 && !s.sht.locked) || (x.reason == 4 && q.tiles.any (fun t => (s.stack t).halted))
    || s.err.badClusters.any q.owns

/-- A core that HELD stopped goes on at the instruction at which it stopped, as admitted in the frame that begins (R98). -/
def State.resumeCore (s : State) (c : Nat) : State :=
  s.modCore c (fun k => if k.run = .stopped 4 then
    { k with run := .running, kernel := { k.kernel with admitFrame := s.sht.frame.toNat } } else k)

/-- RELEASE of a partition that entered HELD from RUNNING (R98). -/
def State.releaseRun (s : State) (p : Nat) : State :=
  let s := s.modSch p (fun y => { y with cmds := y.cmds.map (fun c => { c with carriedTo := none }) })
  let s := s.modPart p (fun x => { x with ovxLast := false, ovxPrev := false })
  let s := (s.cmdIds p (fun c => c.stopped && recClass c.image != 0)).foldl (fun s id => s.abortCmd p id) s
  let s := s.modSch p (fun y => { y with cmds := y.cmds.map (fun c =>
    if recClass c.image = 0 ∧ c.result.isNone ∧ c.began.isSome then { c with carriedTo := some s.now } else c) })
  let s := ((s.cores.filter (fun e => decide (e.2.run = .stopped 4) && e.2.kernel.part == p)).map Prod.fst).foldl State.resumeCore s
  let s := s.modPart p (fun x => { x with
    request := none, admStopped := false, migPeer := none, migSource := false, timers := x.timers.map (Timer.resume s.now) })
  s.setPart p .running 0

/-! ## DRAINING (R99) -/

/-- STOP of a RUNNING or HELD partition: what HELD had stopped is completed at once. -/
def State.enterDraining (s : State) (p : Nat) : State :=
  let x := s.part p
  let s := if x.state = .held then
      (s.cmdIds p (fun c => c.stopped || s.heldLaunch c)).foldl (fun s id => s.abortCmd p id) s
    else s.modPart p (fun x => { x with timers := x.timers.map (Timer.pause s.now) })
  let s := s.modPart p (fun x => { x with request := none, admStopped := true, drainDone := false, drainTicks := 0, holdReason := none })
  s.setPart p .draining 0

/-- Flush the write-combining buffers of a partition's channels (R57, R99). -/
def State.flushPart (s : State) (p : Nat) : State :=
  (s.psecD p).granules.foldl (fun s g => (s.chansOf g).foldl State.flushChan s) s

/-- DRAIN_COMPLETE (R99): no work is left, and the buffers are flushed. -/
def execDrainComplete (p : Nat) (s : State) : Host.Outcome State Fault Refusal :=
  ok (if (s.part p).state = .draining ∧ s.quiet p then (s.flushPart p).modPart p (fun x => { x with drainDone := true }) else s)

/-! ## MIGRATING (R100) -/

/-- MIGRATE_OUT takes effect. -/
def State.enterMigrating (s : State) (p dev part : Nat) : State :=
  let s := s.modPart p (fun x => { x with
    request := none, admStopped := true, drainTicks := 0, migPeer := some (dev, part), migSource := true, migLastAck := false,
    migFailed := false, timers := x.timers.map (Timer.pause s.now) })
  (s.modMig p (fun _ => { peerDev := dev, peerPart := part })).setPart p .migrating 0

/-- MIGRATION_LAST_ACK (R100). -/
def execMigrationLastAck (p : Nat) (s : State) : Host.Outcome State Fault Refusal :=
  ok (if (s.part p).state = .migrating ∧ (s.migProg p).finished ∧ !(s.part p).migFailed then
      s.modPart p (fun x => { x with migLastAck := true })
    else s)

/-! ## Step 5 of R58 -/

/-- A START may take effect (R90, R96). -/
def State.mayStart (s : State) (p : Nat) : Bool := (s.part p).state == .off && s.created p && !s.err.fatal

/-- The request of a partition, applied to the state it is in. -/
def State.applyReq (s : State) (p : Nat) : State :=
  let x := s.part p
  match x.request, x.state with
  | none, _ => s
  | some .start, .off => if s.mayStart p then s.enterLoading p else s.refuseReq p
  | some .migrateIn, .off => if s.mayStart p then s.enterLoading p else s.refuseReq p
  | some .stop, .loading => (s.leaveLoading p).enterOff p 0
  | some .stop, .running => s.enterDraining p
  | some .stop, .held => s.enterDraining p
  | some .release, .held =>
    if s.causePersists p then s.refuseReq p
    else if x.heldFromLoading then s.enterLoading p
    else s.releaseRun p
  | some (.migrateOut d q), .running => s.enterMigrating p d q
  | some _, _ => s.refuseReq p

/-- Work still there at the second tick of DRAINING is stopped and completed ABORTED (R99); of MIGRATING, the migration
fails (R100). -/
def State.secondTick (s : State) (p : Nat) : State :=
  let s := s.modPart p (fun x => { x with drainTicks := min 3 (x.drainTicks + 1) })
  if (s.part p).drainTicks ≠ 2 then s
  else if (s.part p).state = .draining then (s.cmdIds p (fun c => c.result.isNone)).foldl (fun s id => s.abortCmd p id) s
  else if s.quiet p then s else s.migFail p 1

/-- A CONTAINED record or a FATAL one holds the partition (R523, R524). -/
def State.mustHold (s : State) (p : Nat) : Bool := (s.part p).holdReason.isSome || s.err.fatalHold

/-- Step 5 for one partition. -/
def State.step5 (s : State) (p : Nat) : State :=
  let x := s.part p
  match x.state with
  | .off => (if x.migFailed then
      ((s.zeroPart p).modPart p (fun x => { x with migFailed := false, migPeer := none, loadDone := false, request := none })) else s).applyReq p
  | .loading =>
    if s.mustHold p then ((s.leaveLoading p).enterHeld p 3).applyReq p
    else if x.migFailed then (s.zeroPart p).enterOff p 0
    else if x.request.isSome then s.applyReq p
    else if x.loadDone ∧ (!(s.psecD p).spanning ∨ s.sht.locked) then s.enterRunning p
    else s
  | .running => (if s.mustHold p then s.enterHeld p 3 else s).applyReq p
  | .held => (s.modPart p (fun x => { x with holdReason := none })).applyReq p
  | .draining =>
    let s := (s.modPart p (fun x => { x with holdReason := none })).applyReq p
    if x.drainDone then s.enterOff p 0 else s.secondTick p
  | .migrating =>
    if x.migLastAck ∧ !s.mustHold p then s.enterOff p 7
    else
      let s := if s.mustHold p ∧ !x.migFailed then s.migFail p 1 else s.secondTick p
      if s.mustHold p then (s.enterHeld p 6).applyReq p else s.applyReq p

end Sys2Proof.Machine
end

