-- ==== Sys2Proof/Machine/Install.lean ====
section
/-!
DEFINITION. The installation of a plate at step 4 of R58 (R92 to R95, R101), and a debug unlock (R469).
-/

namespace Sys2Proof.Machine

/-- The plate in force once a partial plate's sections replace those of its partitions (R86, R92). -/
def Plate.merge (old new : Plate) : Plate :=
  { old with
    generation := new.generation,
    parts := old.parts.map (fun q => (new.part? q.num).getD q) }

/-- The SYSTEM values in use after an installation at run time: some wait for the next device reset (R92). -/
def SysSec.deferred (inUse new : SysSec) : SysSec :=
  { new with
    deviceNum := inUse.deviceNum, dimX := inUse.dimX, dimY := inUse.dimY, dimZ := inUse.dimZ,
    hostMode := inUse.hostMode, hostSpeed := inUse.hostSpeed, hostWidth := inUse.hostWidth }

/-! ## Timers and edges (R94, R95) -/

/-- The timers of a partition under its new section: kept by ID with their counts, or loaded. -/
def matchTimers (old : List Timer) (q : PartSec) (now : Nat) : List Timer :=
  (q.timers.filter (fun c => c.kind != 0)).map (fun c =>
    match old.find? (fun t => t.cfg.id == c.id) with
    | some t => { t with cfg := c }
    | none => ({ cfg := c } : Timer).load now)

/-- Does an input's EDGE accept an edge? -/
def InputCfg.accepts (c : InputCfg) (rising : Bool) : Bool := c.edge == 3 || (c.edge == 1 && rising) || (c.edge == 2 && !rising)

/-- Is a latched edge of an input still for the partition that mapped it (R95)? -/
def State.edgeKept (s : State) (input : Nat) (e : LatchedEdge) : Bool :=
  match s.psec e.part with
  | some q => ((q.inputs.drop input).headD {}).accepts e.rising
  | none => false

/-- Edges that no longer have their partition are dropped and counted. -/
def State.dropEdges (s : State) : State :=
  (List.range 5).foldl (fun s i =>
    let l := NatMap.get [] s.edges i
    let keep := l.filter (s.edgeKept i)
    let s := { s with edges := NatMap.set [] s.edges i keep }
    (List.range (l.length - keep.length)).foldl (fun s _ => (s.incReg (pltKey 0x3C)).pltEvent 3) s) s

/-- INPUT_EDGE (R561): latched where the installed plate maps the input with an EDGE that accepts it (R79). -/
def State.latchEdge (s : State) (input : Nat) (rising : Bool) : State :=
  match s.plate.installed with
  | none => s
  | some pl => match pl.parts.find? (fun q => ((q.inputs.drop input).headD {}).accepts rising) with
    | none => s
    | some q => { s with edges := NatMap.upd [] s.edges input (· ++ [{ part := q.num, rising := rising }]) }

def execInputEdge (input : Nat) (rising : Bool) (s : State) : Host.Outcome State Fault Refusal := ok (s.latchEdge input rising)

/-- EDGE_DELIVER (R79, R95): the oldest latched edge adds 1 to the mark its partition names. -/
def execEdgeDeliver (input : Nat) (s : State) : Host.Outcome State Fault Refusal :=
  ok (match NatMap.get [] s.edges input with
    | [] => s
    | e :: l =>
      let s := { s with edges := NatMap.set [] s.edges input l }
      if s.edgeKept input e then s.addMark e.part (((s.psecD e.part).inputs.drop input).headD {}).mark 1 else s)

/-! ## Decode tables (R93) -/

/-- A cluster's other bank takes a table and becomes the installed one. -/
def State.installDecode (s : State) (g : Nat) (t : DecodeTab) : State :=
  let c := s.cluster g
  s.modCluster g (fun _ => if c.installed = 0 then { c with bank1 := t, installed := 1 } else { c with bank0 := t, installed := 0 })

/-- A partition that is not OFF takes a changed table. -/
def State.newDecode (s : State) (old new : PartSec) : State :=
  if (s.part new.num).state = .off ∨ old.decode = new.decode then s
  else new.granules.foldl (fun s g => s.installDecode g new.decode) s

/-! ## Partitions -/

/-- A partition the plate newly defines is created OFF, or stays OFF with reason EXCLUDED (R92, R96). -/
def State.createPart (s : State) (q : PartSec) : State :=
  let x := s.part q.num
  let s := { s with parts := NatMap.set {} s.parts q.num { throttle := x.throttle } }
  if s.created q.num then
    if q.initRun then s.modPart q.num (fun x => { x with request := some .start }) else s
  else ((s.setPart q.num .off 5).pltEvent 4).logErr { cls := 0, source := 0x0B, code := 2, part := q.num }

/-- A partition's sections change from `old`, where the plate in force had it, to `q`. -/
def State.changePart (s : State) (old : Option PartSec) (q : PartSec) : State :=
  match old with
  | none => s.createPart q
  | some o =>
    if o.bounds ≠ q.bounds then s.createPart q
    else
      let s := s.newDecode o q
      if (s.part q.num).state = .off ∨ (s.part q.num).state = .loading then s
      else s.modPart q.num (fun x => { x with timers := matchTimers x.timers q s.now })

/-- A partition the plate leaves undefined: its session closes (R473). -/
def State.dropPart (s : State) (p : Nat) : State := ({ s with parts := NatMap.set {} s.parts p {} }).closeSess p

/-! ## Ports (R92) -/

/-- Did a port's entry change? -/
def portChanged (y z : SysSec) (k l : LinksSec) (q : Nat) : Bool :=
  decide ((y.ports.drop q).headD {} ≠ (z.ports.drop q).headD {}) || (k.roles.drop q).headD 0 != (l.roles.drop q).headD 0
    || (k.slices.drop (16 * q)).take 16 != (l.slices.drop (16 * q)).take 16 || k.classMin != l.classMin

/-- A port whose entry changed goes dark and retrains against the new one. -/
def State.rePort (s : State) (q : Nat) : State :=
  let p := s.port q
  let known := if p.partner.getLsbD 31 then some (p.partner.toNat % 256, p.partner.toNat / 256 % 16) else none
  let on := ((s.plate.sysInForce.ports.drop q).headD {}).connected
  let s := s.portDown q .dark (if on then 7 else 2)
  if on then (s.startTraining q).modPort q (fun x => { x with knownPartner := known }) else s

/-! ## The installation -/

/-- A full plate's SYSTEM, SHUTTER and LINKS take effect (R92). -/
def State.installSystem (s : State) (pl : Plate) (atBoot : Bool) : State :=
  let y := s.plate.sysInForce
  let k := s.plate.linksInForce
  let z := if atBoot then pl.sys else y.deferred pl.sys
  let s := { s with
    plate := { s.plate with sysInForce := z, linksInForce := pl.links, resetPending := decide (z ≠ pl.sys) },
    sht := { s.sht with
      period := pl.sht.period, guard := pl.sht.guard, source := pl.sht.source, pinComp := pl.sht.pinComp,
      master := pl.sys.tickMaster == z.deviceNum,
      locked := if pl.sht.source = s.sht.source then s.sht.locked else pl.sht.source == 0,
      ownBase := if pl.sht.source = s.sht.source then s.sht.ownBase else pl.sht.source != 0,
      goodRun := if pl.sht.source = s.sht.source then s.sht.goodRun else 0,
      plan := if pl.sht.source = s.sht.source then s.sht.plan else none } }
  ((List.range 16).filter (portChanged y z k pl.links)).foldl State.rePort s

/-- How many stacks are enabled. -/
def State.stackCount (s : State) : Nat := ((List.range 16).filter (fun t => (s.stack t).enabled)).length

/-- The departures from SYSTEM that an installation meets (R101). -/
def State.checkStacks (s : State) (y : SysSec) : State :=
  if s.stackCount = y.stackCount then s
  else (s.pltEvent 6).logErr { cls := 0, source := 0x0B, code := 1, detail := 5 }

/-- The warning is judged again under the threshold in force (R570). -/
def State.rejudge (s : State) : State :=
  (List.range 16).foldl (fun s t => if (s.stack t).lastRead.isSome then s.judgeWarning (s.stack t).temp else s) s

/-- What the archive keeps of an installed full plate: its keys and policies (R84), and the plate itself as the default (R86). -/
def State.holdPlate (s : State) (pl : Plate) (bytes : List Byte) (persist : Bool) : State :=
  if pl.isPartial ∨ pl.service then s
  else
    let a := { s.held.withProt pl.prot with protDigest := pl.protDigest }
    let a := if persist then { a with plate := bytes, floor := max a.floor pl.generation } else a
    if a = s.held then s
    else
      let was := s.held.lock
      let s := s.keepArchive (fun _ => a)
      if a.lock = was then s else s.raise 0 (sesKey 0x10) (sesKey 0x0C) 7 6

/-- The repair operation in progress ends with a code of R393: the block and, for one from management, its session are told. -/
def State.endRepair (s : State) (code : Nat) : State :=
  match s.repair.op with
  | none => s
  | some o =>
    let s := ({ s with repair := { s.repair with op := none, done := true, result := code } }).raise 0 (rprKey 0x30) (rprKey 0x0C) 0 3
    if o.origin = 2 then s.emit (.mgmt o.session code []) else s

/-- A repair on a channel that has left test state ends BUSY (R381, R393). -/
def State.repairOwned (s : State) : State :=
  match s.repair.op with
  | none => s
  | some o => match repairChan o.request with
    | none => s
    | some ch => if s.testState ch then s else s.endRepair 1

/-- Install a plate, whose bytes are `bytes`. -/
def State.installPlate (s : State) (new : Plate) (bytes : List Byte) (persist atBoot : Bool) : State :=
  let old := s.plate.installed
  let pl := match old with
    | some o => if new.isPartial then o.merge new else new
    | none => new
  let was := fun p : Nat => match old with | some o => o.part? p | none => none
  let s := { s with plate := { s.plate with
    installed := some pl, installedBytes := if new.isPartial then s.plate.installedBytes ++ bytes else bytes } }
  let s := if new.isPartial then s else s.installSystem pl atBoot
  let s := ((List.range 16).filter (fun p => (was p).isSome && (pl.part? p).isNone)).foldl State.dropPart s
  let s := new.parts.foldl (fun s q => s.changePart (was q.num) q) s
  let s := (s.holdPlate new bytes persist).dropEdges
  let s := ((s.agOwnership).repairOwned).rejudge
  (if new.isPartial then s else s.checkStacks pl.sys).pltEvent 1

/-- Does a staged plate install at the tick that begins frame `f` (R89)? -/
def State.installsAt (s : State) (f : Dword) (flywheel msgInstalls : Bool) : Bool :=
  match s.plate.stage, s.plate.staged with
  | .staged, some g =>
    if g.mode = 0 then true
    else if g.mode = 1 then f.toNat == g.target
    else !flywheel && (if s.sht.master then s.plate.masterFlag else msgInstalls)
  | _, _ => false

/-- Step 4 of R58: the staged plate is installed. -/
def State.step4 (s : State) : State :=
  match s.plate.staged with
  | none => s
  | some g =>
    let s := { s with plate := { s.plate with staged := none, stage := .idle } }
    let s := match g.assent with | some n => s.useAssent n | none => s
    s.installPlate g.plate g.bytes g.persist false

/-- At boot the plate chosen at LINKS is installed at the first tick (R479, R490). -/
def State.bootInstall (s : State) : State :=
  match s.plate.installed, s.boot.plate with
  | none, some pl => if s.boot.step < 13 then s else s.installPlate pl s.boot.plateBytes false true
  | _, _ => s

/-! ## Debug unlock (R469) -/

/-- Every partition key is erased and each KEY_GEN raised. -/
def Archive.eraseKeys (a : Archive) : Archive :=
  { a with keys := [], keyGens := (List.range 16).foldl (fun m p => NatMap.upd 0 m p (fun g => (g + 1) % 2 ^ 32)) a.keyGens }

/-- The unlock that awaits the tick: the keys are erased and the erasure persisted, sessions close, and Loupe opens. -/
def State.applyUnlock (s : State) : State :=
  match s.mgmt.unlockAt with
  | none => s
  | some (sid, stores) =>
    let s := { s with mgmt := { s.mgmt with unlockAt := none } }
    match s.writeArchive stores Archive.eraseKeys with
    | none => s.emit (.mgmt sid 9 [])
    | some s =>
      let s := (List.range 16).foldl State.closeSess s
      (({ s with mgmt := { s.mgmt with debugUnlocked := true } }).sesEvent 6).emit (.mgmt sid 0 [])

end Sys2Proof.Machine
end

