-- ==== Sys2Proof/Machine/Repair.lean ====
section
/-!
DEFINITION. Repair requests, the repair map and the REPAIR block (R391 to R394, R397).
-/

namespace Sys2Proof.Machine

/-! ## Requests (R391) -/

/-- Is every field of a repair request one that R391 allows? -/
def repairSound (r : List Byte) : Bool :=
  let kind := byteAt r 0
  let unit := byteAt r 2
  let sub := byteAt r 3
  let arg := fieldLE r 4 4
  let kindOk := decide (1 ≤ kind) && decide (kind ≤ 5)
  let unitOk := if kind = 5 then decide (unit ≤ 15) else decide (unit ≤ 31)
  let subOk := if kind ≤ 3 then decide (sub ≤ 1) else if kind = 5 then decide (sub ≤ 17) else sub == 0
  let argOk := if kind ≤ 2 then decide (arg < 2 ^ 25) else if kind = 3 then decide (bitsOf arg 8 24 ≤ 1) else arg == 0
  decide (r.length = 16) && kindOk && decide (byteAt r 1 ≤ 15) && unitOk && subOk && argOk && zeroAt r 8 8

/-- A request as the map holds it, with its ORIGIN. -/
def repairEntry (r : List Byte) (origin : Nat) : List Byte := r.take 8 ++ natLE 1 origin ++ r.drop 9

/-- Do an entry and a request agree in bytes [7:0] (R393)? -/
def sameRepair (e r : List Byte) : Bool := decide (e.take 8 = r.take 8)

/-- Does the request ask for an operation on the IEEE 1500 port, so that its channel must be in test state (R392)? -/
def onPort (r : List Byte) : Bool := decide (byteAt r 0 ≤ 3)

/-- The digest both ASSENT commands of a HARD_PPR name (R393). -/
def State.repairDigest (s : State) (r : List Byte) : BitVec 384 := Config.sha384 (r ++ natLE 4 s.repair.gen)

/-- The 16 bytes that RPR_REQ holds. -/
def State.repairReq (s : State) : List Byte :=
  (List.range 4).flatMap (fun i => natLE 4 (s.reg (rprKey (0x10 + 4 * i))).toNat)

/-- KIND of a request, and the channel that TILE and UNIT name. -/
def reqKind (r : List Byte) : Nat := byteAt r 0
def reqChan (r : List Byte) : Nat := 32 * byteAt r 1 + byteAt r 2

/-! ## The map (R394) -/

/-- Write the map in force to the archive: the code of R393. A map that is not written is held, and is written with the next
change. -/
def State.persistMap (s : State) (stores : Bool) : Nat × State :=
  match s.writeArchive stores (fun a => { a with map := s.repair.map, mapGen := s.repair.gen + 1 }) with
  | some s => (0, { s with repair := { s.repair with gen := s.repair.gen + 1 } })
  | none => (7, s)

/-! ## APPLY and REMOVE (R392, R393) -/

/-- Why an APPLY is not carried out, in the order FIELD, BUSY, AGITATOR, ASSENT, MAP_FULL. -/
def State.applyRefused (s : State) (r : List Byte) : Option Nat :=
  let ch := reqChan r
  if !repairSound r then some 2
  else if onPort r && (!s.testState ch || !s.trained ch || (s.stack (ch / 32)).halted) then some 1
  else if onPort r && (s.agit ch).state == .running then some 0x0A
  else if reqKind r = 2 ∧ (s.completeAssent 5 (s.repairDigest r)).isNone then some 4
  else if 1024 ≤ s.repair.map.length then some 6
  else none

/-- The assent of a HARD_PPR is used up (R393, R465). -/
def State.takeRepairAssent (s : State) (r : List Byte) : State :=
  if reqKind r = 2 then
    match s.completeAssent 5 (s.repairDigest r) with
    | some n => s.useAssent n
    | none => s
  else s

/-- Record an entry and persist the map. -/
def State.recordRepair (s : State) (r : List Byte) (origin : Nat) (stores : Bool) : Nat × State :=
  ({ s with repair := { s.repair with map := s.repair.map ++ [repairEntry r origin] } }).persistMap stores

/-- Start an operation: the block is BUSY until `endRepair`. -/
def State.beginRepair (s : State) (o : RepairOp) : State :=
  { s with repair := { s.repair with op := some o, done := false, badCmd := false } }

/-- APPLY (R392): an operation on the IEEE 1500 port goes on until REPAIR_OPERATION_COMPLETE; the exclusion of a channel or a
core is recorded at once. -/
def State.repairApply (s : State) (o : RepairOp) (stores : Bool) : State :=
  let s := s.expireAssents
  match s.applyRefused o.request with
  | some c => (s.beginRepair o).endRepair c
  | none =>
    let s := (s.takeRepairAssent o.request).beginRepair o
    if onPort o.request then s
    else
      let r := s.recordRepair o.request o.origin stores
      r.2.endRepair r.1

/-- Delete the first entry that a request names. -/
def dropRepair (r : List Byte) : List (List Byte) → List (List Byte)
  | [] => []
  | e :: l => if sameRepair e r then l else e :: dropRepair r l

/-- REMOVE (R393). -/
def State.repairRemove (s : State) (o : RepairOp) (stores : Bool) : State :=
  let s := s.beginRepair o
  if !repairSound o.request then s.endRepair 2
  else if !(s.repair.map.any (fun e => sameRepair e o.request)) then s.endRepair 8
  else if reqKind o.request = 2 then s.endRepair 9
  else
    let r := ({ s with repair := { s.repair with map := dropRepair o.request s.repair.map } }).persistMap stores
    r.2.endRepair r.1

/-! ## Commands -/

/-- A command of RPR_CMD: ignored while EN is 0 or an operation is in progress. -/
def State.rprCmd (s : State) (f : State → State) : State :=
  s.pfWrite 2 (fun s => if s.repair.en && s.repair.op.isNone then f s else s)

/-- RPR_APPLY; `stores` says whether a write of the settings archive succeeds. -/
def execRprApply (stores : Bool) (s : State) : Host.Outcome State Fault Refusal :=
  ok (s.rprCmd (fun s => s.repairApply { request := s.repairReq, origin := 1 } stores))

def execRprRemove (stores : Bool) (s : State) : Host.Outcome State Fault Refusal :=
  ok (s.rprCmd (fun s => s.repairRemove { request := s.repairReq, origin := 1 } stores))

/-- RPR_DIGEST: the digest for the request in RPR_REQ. -/
def State.repairDigestCmd (s : State) : State :=
  (({ s with repair := { s.repair with digest := s.repairDigest s.repairReq } }).beginRepair { request := s.repairReq }).endRepair 0

def execRprDigest (s : State) : Host.Outcome State Fault Refusal := ok (s.rprCmd State.repairDigestCmd)

/-- REPAIR_OPERATION_COMPLETE (R392): how the IEEE 1500 port answers (0, or NO_RESOURCE or INTERFACE), the channel lines the
repaired row or lane affects, and whether the archive write succeeds. -/
def State.repairDone (s : State) (code : Nat) (lines : List Nat) (stores : Bool) : State :=
  match s.repair.op with
  | none => s
  | some o =>
    if code = 0 then
      let ch := reqChan o.request
      let s := lines.foldl (fun s l => s.fullWrite ch (s.chanLine ch (l % 2 ^ 25)) 0) s
      let r := s.recordRepair o.request o.origin stores
      r.2.endRepair r.1
    else s.endRepair (if code = 3 then 3 else 5)

def execRepairOperationComplete (code : Nat) (lines : List Nat) (stores : Bool) (s : State) : Host.Outcome State Fault Refusal :=
  ok (s.repairDone code lines stores)

end Sys2Proof.Machine
end

