-- ==== Sys2Proof/Machine/Plate.lean ====
section
/-!
DEFINITION. Staging and validating a plate (R84 to R91) and requests to partitions (R96, R98, R100, R453).
-/

namespace Sys2Proof.Machine

/-! ## SIGNATURE, ASSENT and LOCKED (R82 to R85) -/

/-- A signature block (R82). -/
structure SigBlock where
  off : Nat
  role : Nat
  part : Nat
  scope : Nat
  clean : Bool
  key : List Byte
  sig : List Byte

def sigBlocks (bs : List Byte) (o : Nat) : List SigBlock :=
  (List.range (byteAt bs o)).map (fun i =>
    let at_ := o + 16 + 208 * i
    let b := (bs.drop at_).take 208
    { off := at_, role := byteAt b 0, part := byteAt b 1, scope := byteAt b 2, clean := zeroAt b 3 5 && zeroAt b 105 7,
      key := (b.drop 8).take 97, sig := (b.drop 112).take 96 })

/-- Does a block pass: one of the three pairs, a key whose hash is held, a signature that verifies? -/
def State.sigOk (s : State) (bs : List Byte) (l : List Section) (b : SigBlock) : Bool :=
  let pair := (b.role == 1 && b.scope == 1 && b.part == 255) || (b.role == 2 && b.scope == 2 && b.part == 255)
    || (b.role == 3 && b.scope == 3 && (partNums l).contains b.part)
  let digest := if b.role = 1 then fullDigest bs l else if b.role = 2 then protectedDigest l else partitionDigest bs l b.part
  pair && b.clean && decide (s.held.hash b.role b.part = some (Config.sha384 b.key)) && Config.ecdsaVerify b.key b.sig digest

/-- SIGNATURE of R87: the offset of what fails. -/
def State.checkSignatures (s : State) (bs : List Byte) (l : List Section) (isPartial : Bool) : Option Nat :=
  let o := sigHeaderOff l
  let bl := sigBlocks bs o
  let has := fun (r p : Nat) => bl.any (fun b => b.role == r && (r != 3 || b.part == p))
  firstFail ([need (s.held.ownerHash.isSome) o, need (decide (1 ≤ Sys2Proof.byteAt bs o) && decide (Sys2Proof.byteAt bs o ≤ 18) && zeroAt bs (o + 1) 15) o]
    ++ bl.map (fun b => need (s.sigOk bs l b) b.off)
    ++ [need (has 1 0 || (isPartial && (partNums l).all (fun p => has 3 p))) o])

/-- The digest against which a full plate's PROTECTED content counts as changed: the installed plate's, or at boot that of the
plate installed last (R85). -/
def State.oldProtected (s : State) (boot : Bool) : Option (BitVec 384) :=
  if boot then s.held.protDigest else match s.plate.installed with | some pl => pl.protDigest | none => none

/-- Is a full plate a protected change (R85)? -/
def State.protChanged (s : State) (l : List Section) (isPartial boot : Bool) : Bool :=
  !isPartial && decide (s.oldProtected boot ≠ some (protectedDigest l))

def custodianSigned (bs : List Byte) (l : List Section) : Bool := (sigBlocks bs (sigHeaderOff l)).any (fun b => b.role == 2)

/-! ## The order of R87 -/

/-- MAGIC, FORMAT and LENGTH; `n` is PLT_LEN. A header of which a byte cannot be read fails LENGTH there. -/
def checkHeader (bs : List Byte) (n : Nat) : Option (Nat × Nat) :=
  if bs.length < min n 12 then some (3, bs.length)
  else if fieldLE bs 0 4 ≠ 0x4C505844 then some (1, 0)
  else if fieldLE bs 4 2 ≠ 3 then some (2, 4)
  else if fieldLE bs 8 4 ≠ n ∨ n % 16 ≠ 0 ∨ n < 64 ∨ n > 262144 then some (3, 8)
  else if bs.length < n then some (3, bs.length)
  else none

/-- DECODE of R87: the offset of an illegal micro-op in a valid entry (R81). -/
def checkDecode (pl : Plate) (l : List Section) : Option Nat :=
  firstFail (pl.parts.flatMap (fun q => (onesOf 16 q.decode.valid).flatMap (fun e => (List.range 32).map (fun j =>
    need (uopLegal j (((entryUops q.decode.uops e).drop j).headD 0#64)) (offOf l 6 q.num + 16 + 16 + 256 * e + 8 * j)))))

/-- PARTIAL of R87. -/
def State.checkPartial (s : State) (pl : Plate) (l : List Section) : Option Nat :=
  firstFail (pl.parts.map (fun q => match s.psec q.num with
    | some o => need (o.bounds == q.bounds) (offOf l 3 q.num + 16)
    | none => some (offOf l 3 q.num)))

/-- The partitions a plate is judged with: a partial plate's, and those of the installed one that it does not replace. -/
def State.judgedWith (s : State) (pl : Plate) : List PartSec :=
  pl.parts ++ (if pl.isPartial then match s.plate.installed with
    | some o => o.parts.filter (fun q => (pl.part? q.num).isNone)
    | none => [] else [])

/-- This device's number as a plate's segments name it: the one in use, or the plate's own at boot. -/
def State.judgedDev (s : State) (pl : Plate) (boot : Bool) : Nat := if boot then pl.sys.deviceNum else s.dev

/-- GENERATION (R86). -/
def State.genOk (s : State) (pl : Plate) (boot : Bool) : Bool :=
  if boot then decide (s.held.floor ≤ pl.generation)
  else match s.plate.installed with | some o => decide (o.generation < pl.generation) | none => true

/-- A failing check's code with its offset. -/
def failCode (code : Nat) (o : Option Nat) : Option (Nat × Nat) := o.map (fun x => (code, x))

/-- The first of several checks that fails. -/
def firstCode : List (Option (Nat × Nat)) → Option (Nat × Nat)
  | [] => none
  | some x :: _ => some x
  | none :: l => firstCode l

/-- Validation in the order of R87, but for BUSY and LATE: the code and offset of the first failure, or the plate and the
position of the COMPLETE assent it needs. -/
def State.validate (s : State) (bs : List Byte) (n : Nat) (boot : Bool) : Except (Nat × Nat) (Plate × Option Nat) :=
  match checkHeader bs n with
  | some e => .error e
  | none =>
    let bs := bs.take n
    match firstCode [failCode 4 (checkStructure bs), failCode 5 (checkCrc bs)] with
    | some e => .error e
    | none =>
      let l := plateSections bs
      let isPartial := bitOf (fieldLE bs 6 2) 0
      let changed := s.protChanged l isPartial boot
      let assent := if changed && !custodianSigned bs l then s.completeAssent 1 (protectedDigest l) else none
      let pl := parsePlate bs
      match firstCode [
        failCode 6 (s.checkSignatures bs l isPartial),
        failCode 7 (need (!changed || custodianSigned bs l || assent.isSome) (sigHeaderOff l)),
        failCode 8 (need (!changed || !s.held.lock) (offOf l 1 255 + 16)),
        failCode 9 (need (s.genOk pl boot) 32),
        failCode 10 (checkFields bs),
        failCode 11 (if isPartial then none else checkTopology pl l),
        failCode 12 (checkOverlap pl l (s.judgedWith pl)),
        failCode 13 (s.checkSegments pl l (s.judgedDev pl boot)),
        failCode 14 (checkDecode pl l),
        failCode 15 (if isPartial then s.checkPartial pl l else none)] with
      | some e => .error e
      | none => .ok (pl, assent)

/-! ## BUSY (R90, R91) -/

/-- Has a core of the partition not yet taken the last decode table (R90)? -/
def State.unsynced (s : State) (q : PartSec) : Bool := q.cores.any (fun c => (s.core c).bank != (s.cluster (c / 16)).installed)

/-- Does a plate change a partition's decode content while that content is not yet taken everywhere? -/
def State.decodeBusy (s : State) (pl : Plate) : Bool :=
  pl.parts.any (fun q => match s.psec q.num with
    | some o => decide (o.decode ≠ q.decode) && s.unsynced o
    | none => false)

def State.installBusy (s : State) (pl : Plate) : Bool :=
  let st := fun p : Nat => (s.part p).state
  let olds := match s.plate.installed with | some o => o.parts | none => []
  s.decodeBusy pl || (if pl.isPartial then pl.parts.any (fun q => st q.num == .migrating)
    else (List.range 16).any (fun p => st p == .migrating)
      || olds.any (fun o => st o.num != .off && (match pl.part? o.num with | some q => o.bounds != q.bounds | none => true)))

/-! ## PLT_CMD (R88, R89, R102) -/

/-- A command of PLT_CMD: ignored while EN is 0. -/
def State.pltCmd (s : State) (f : State → State) : State :=
  s.pfWrite 1 (fun s => if s.plate.en then f { s with plate := { s.plate with badCmd := false } } else s)

/-- Validation fails: the code, its offset and the FAILED event (R87). -/
def State.stageFail (s : State) (e : Nat × Nat) : State :=
  (({ s with plate := { s.plate with stage := .failed, staged := none, result := e.1, errOffset := e.2 } }).pltEvent 2).logErr
    { cls := 0, source := 0x0B, code := 4, detail := e.1 }

/-- The bytes that STAGE copies: from host memory as `host` says, or from device-local memory (R103). What cannot be read is
cut off. -/
def State.stageCopy (s : State) (host : Option (List Byte)) : List Byte × State :=
  let mode := (s.reg (pltKey 0x1C)).toNat
  let src := (s.reg (pltKey 0x10)).toNat / 16 * 16 + 2 ^ 32 * (s.reg (pltKey 0x14)).toNat
  let n := min (s.reg (pltKey 0x18)).toNat 262160
  if bitOf mode 4 then
    match s.readDev src n .host with
    | (.ok b, s) => (b, s)
    | (.error _, s) => ([], s)
  else if (s.fn 0).busMaster then ((host.getD []).take n, s) else ([], s)

/-- STAGE (R88). -/
def State.stagePlate (s : State) (host : Option (List Byte)) : State :=
  let mode := (s.reg (pltKey 0x1C)).toNat
  match s.plate.stage with
  | .copying => { s with plate := { s.plate with result := 16, errOffset := 0 } }
  | .validating => { s with plate := { s.plate with result := 16, errOffset := 0 } }
  | .staged => { s with plate := { s.plate with result := 16, errOffset := 0 } }
  | _ =>
    if mode % 4 = 3 then s.stageFail (10, 0)
    else
      let c := s.stageCopy host
      let s := c.2
      let g : Staged := {
        bytes := c.1, mode := mode % 4, target := (s.reg (pltKey 0x20)).toNat + 2 ^ 32 * (s.reg (pltKey 0x24)).toNat,
        persist := bitOf mode 8, len := (s.reg (pltKey 0x18)).toNat }
      { s with plate := { s.plate with stage := .validating, staged := some g } }

/-- PLT_STAGE (R88). -/
def execPltStage (host : Option (List Byte)) (s : State) : Host.Outcome State Fault Refusal := ok (s.pltCmd (fun s => s.stagePlate host))

/-- PLATE_VALIDATION_DONE (R87, R89 to R91): the copy is judged, and the plate is staged or fails. -/
def State.validationDone (s : State) : State :=
  match s.plate.stage, s.plate.staged with
  | .validating, some g =>
    let s := s.expireAssents
    match s.validate g.bytes g.len false with
    | .error e => s.stageFail e
    | .ok (pl, a) =>
      if s.installBusy pl then s.stageFail (16, 0)
      else if g.mode = 1 ∧ g.target ≤ s.sht.frame.toNat then s.stageFail (17, 0)
      else
        let s := match a with | some n => s.reserveAssent n | none => s
        ({ s with plate := { s.plate with
          stage := .staged, staged := some { g with plate := pl, assent := a }, result := 0, errOffset := 0,
          masterFlag := false } }).pltEvent 0
  | _, _ => s

def execPlateValidationDone (t : Nat) (s : State) : Host.Outcome State Fault Refusal := ok ((s.advance t).validationDone)

/-- ABORT discards a plate that is not yet installed; an assent it reserved returns (R88, R465). -/
def State.abortPlate (s : State) : State :=
  match s.plate.staged with
  | some g => (({ s with plate := { s.plate with stage := .idle, staged := none } }).returnAssent g.assent)
  | none => s

/-- PLT_ABORT (R88). -/
def execPltAbort (s : State) : Host.Outcome State Fault Refusal := ok (s.pltCmd State.abortPlate)

/-! ## Requests to partitions (R96, R103) -/

/-- A staged plate that changes the partition's bounds keeps it OFF (R90). -/
def State.stagedChanges (s : State) (p : Nat) : Bool :=
  match s.plate.stage, s.plate.staged with
  | .staged, some g => !g.plate.isPartial && (match g.plate.part? p with
      | some q => q.bounds != (s.psecD p).bounds
      | none => true)
  | _, _ => false

/-- May a request be made of the partition as it is (R96)? -/
def State.reqOk (s : State) (p : Nat) (r : PartReq) : Bool :=
  let x := s.part p
  match r, x.state with
  | .start, .off => s.mayStart p && !s.stagedChanges p
  | .stop, .loading => true
  | .stop, .running => true
  | .stop, .held => true
  | .release, .held => !s.causePersists p
  | .migrateOut _ _, .running => true
  | _, _ => false

/-- A request, which takes effect at step 5 of the next tick, or is refused. -/
def State.requestPart (s : State) (p : Nat) (r : PartReq) : State :=
  if p < 16 ∧ s.reqOk p r then s.modPart p (fun x => { x with request := some r }) else s.pltEvent 5

/-- A request by PLT_PART_CMD. -/
def State.partCmd (s : State) (p : Nat) (r : PartReq) : State :=
  s.pfWrite 1 (fun s => ({ s with plate := { s.plate with badCmd := false } }).requestPart p r)

/-- PLT_START (R96). -/
def execPltStart (p : Nat) (s : State) : Host.Outcome State Fault Refusal := ok (s.partCmd p .start)
/-- PLT_STOP (R96). -/
def execPltStop (p : Nat) (s : State) : Host.Outcome State Fault Refusal := ok (s.partCmd p .stop)
/-- PLT_RELEASE (R98). -/
def execPltRelease (p : Nat) (s : State) : Host.Outcome State Fault Refusal := ok (s.partCmd p .release)
/-- MIGRATE_OUT (R100). -/
def execMigrateOut (p dev part : Nat) (s : State) : Host.Outcome State Fault Refusal :=
  ok (s.partCmd p (.migrateOut (dev % 256) (part % 16)))

/-- PG_RELEASE (R453): from the partition's own page, under its session (R454). -/
def execPgRelease (p : Nat) (s : State) : Host.Outcome State Fault Refusal :=
  ok (s.vfWrite p (fun s =>
    if !s.pageDefined p ∨ !s.sessionOpen p then s.denyPage p
    else ({ s with host := { s.host with pgBadCmd := NatMap.set false s.host.pgBadCmd p false } }).requestPart p .release))

end Sys2Proof.Machine
end

