-- ==== Sys2Proof/Machine/Sessions.lean ====
section
/-!
DEFINITION. Partition sessions (R471 to R473): the challenge, its response, lockout and closing.
-/

namespace Sys2Proof.Machine

/-- The partition key of partition `p`: 0 where it is unset, which closes the block (R456, R471). -/
def State.partKey (s : State) (p : Nat) : BitVec 384 := NatMap.get 0 s.held.keys p
def State.keyGen (s : State) (p : Nat) : Nat := NatMap.get 0 s.held.keyGens p

/-- A failed authentication is raised and recorded (R476, R528): role code and partition, or 255. -/
def State.authFail (s : State) (role part unit : Nat) : State :=
  (s.sesEvent 8).logErr { cls := 0, source := 0x0C, code := 1, part := if role = 0 then part else 255, unit := unit,
                          detail := role + 256 * part }

/-- A command of PS_CMD on the page of partition `p` (R433, R471). -/
def State.psCmd (s : State) (p : Nat) (f : State → State) : State :=
  s.vfWrite p (fun s => if s.pageDefined p then f (s.modSess p (fun x => { x with badCmd := false })) else s.denyPage p)

/-- RESULT of PS_STAT. -/
def State.psResult (s : State) (p r : Nat) : State := s.modSess p (fun x => { x with result := r })

/-- CHALLENGE (R472, R473). -/
def State.psChallenge (s : State) (p : Nat) : State :=
  let x := s.sess p
  if s.partKey p = 0 then s.psResult p 1
  else if !s.pageDefined p ∨ (s.part p).state = .off ∨ x.state = .opened then s.psResult p 5
  else if x.state = .lockout then s.psResult p 4
  else
    let d := s.draw
    d.2.modSess p (fun x => { x with state := .challenged, nonce := Config.nonce d.1, nonceAt := some s.now, result := 0 })

/-- PS_CHALLENGE. On the page of an undefined partition the access is refused (R433), and RESULT is what R472 says. -/
def execPsChallenge (p t : Nat) (s : State) : Host.Outcome State Fault Refusal :=
  let s := s.advance t
  ok (if s.pageDefined p then s.psCmd p (fun s => s.psChallenge p)
    else s.vfWrite p (fun s => (s.psChallenge p).denyPage p))

/-- What a response is compared with (R472). -/
def State.psExpected (s : State) (p : Nat) : BitVec 384 :=
  Config.hmac384 (s.partKey p)
    (ascii "DXV-PSESS" ++ natLE 32 (s.sess p).nonce.toNat ++ natLE 1 s.plate.sysInForce.deviceNum ++ natLE 1 p ++ natLE 4 (s.keyGen p))

/-- The lockout after the n-th OPEN that fails in a row, in cycles: none before the fourth, then 1 s, doubling to 64 s (R473). -/
def lockoutCycles (n : Nat) : Option Nat := if n < 4 then none else some (min 64 (2 ^ (n - 4)) * cyclesPerSecond)

/-- An OPEN whose response does not match (R472, R473). -/
def State.psMismatch (s : State) (p : Nat) : State :=
  let n := (s.sess p).failRun + 1
  let lock := lockoutCycles n
  let s := s.modSess p (fun x => { x with
    result := 3, failRun := n, failTotal := min 0xFFFF (x.failTotal + 1), state := if lock.isSome then .lockout else .closed,
    lockUntil := s.now + lock.getD 0 })
  s.authFail 0 p (p + 1)

/-- Is there a nonce that has not died (R472)? -/
def PSess.nonceLive (x : PSess) (now : Nat) : Bool :=
  match x.nonceAt with
  | some t => decide (now < t + 10 * cyclesPerSecond)
  | none => false

/-- OPEN (R472): the nonce is used up whatever the outcome. -/
def State.psOpen (s : State) (p : Nat) : State :=
  let x := s.sess p
  if s.partKey p = 0 then s.psResult p 1
  else if !x.nonceLive s.now then s.psResult p 2
  else
    let want := s.psExpected p
    let s := s.modSess p (fun x => { x with nonceAt := none })
    if x.resp = want then s.modSess p (fun x => { x with state := .opened, failRun := 0, result := 0 })
    else s.psMismatch p

def execPsOpen (p t : Nat) (s : State) : Host.Outcome State Fault Refusal := ok ((s.advance t).psCmd p (fun s => s.psOpen p))

/-- CLOSE (R473). -/
def State.psClose (s : State) (p : Nat) : State :=
  if s.sessionOpen p then (s.closeSess p).psResult p 0 else s.psResult p 5

def execPsClose (p : Nat) (s : State) : Host.Outcome State Fault Refusal := ok (s.psCmd p (fun s => s.psClose p))

/-- NONCE_EXPIRY (R472): a nonce 10 s old is dead. -/
def State.nonceExpiry (s : State) (p : Nat) : State :=
  let x := s.sess p
  if x.nonceAt.isSome && !x.nonceLive s.now then
    s.modSess p (fun x => { x with nonceAt := none, state := if x.state = .challenged then .closed else x.state })
  else s

def execNonceExpiry (p t : Nat) (s : State) : Host.Outcome State Fault Refusal := ok ((s.advance t).nonceExpiry p)

/-- LOCKOUT_END (R473): CHALLENGE is accepted again. -/
def State.lockoutEnd (s : State) (p : Nat) : State :=
  if (s.sess p).state = .lockout ∧ (s.sess p).lockUntil ≤ s.now then s.modSess p (fun x => { x with state := .closed }) else s

def execLockoutEnd (p t : Nat) (s : State) : Host.Outcome State Fault Refusal := ok ((s.advance t).lockoutEnd p)

end Sys2Proof.Machine
end

