-- ==== Sys2Proof/Machine/Registers.lean ====
section
/-!
DEFINITION. The registers of control space and of partition pages: what each holds, and how it is read and written (R6 to R9,
R444 to R454 and the register tables of every chapter).
-/

namespace Sys2Proof.Machine

/-! ## What a register is -/

/-- Access codes (R6), with the bits of a register that are not reserved (R9). Two RC registers are not kept in `regs`, or
clear more than themselves. -/
inductive Acc where
  | ro | rc | wo
  | rw (mask : Word)
  | rwd (mask : Word)
  | rcGaps (p q : Nat)
  | rcStk (t : Nat)
  deriving DecidableEq, Repr

/-- Half of a 64-bit pair (R447). -/
inductive Half where
  | whole
  /-- The LO register, with the value's bits [63:32]. -/
  | lo (hi : Word)
  | hi
  deriving DecidableEq, Repr

/-- A register as it stands: its access code, its key and its value. -/
structure RegView where
  acc : Acc := .ro
  key : Nat := 0
  val : Word := 0
  half : Half := .whole
  deriving DecidableEq, Repr

def roReg (v : Nat) : RegView := { val := BitVec.ofNat 32 v }
def woReg (k : Nat) : RegView := { acc := .wo, key := k }
/-- A reserved register (R9). -/
def noReg : RegView := {}
def State.rwReg (s : State) (k : Nat) (mask : Word) : RegView := { acc := .rw mask, key := k, val := s.reg k }
def State.rwdReg (s : State) (k : Nat) (mask : Word) : RegView := { acc := .rwd mask, key := k, val := s.reg k }
def State.rcReg (s : State) (k : Nat) : RegView := { acc := .rc, key := k, val := s.reg k }
/-- The two registers of a 64-bit value that is read only. -/
def loReg (k v : Nat) : RegView := { key := k, val := BitVec.ofNat 32 v, half := .lo (BitVec.ofNat 32 (v / 2 ^ 32)) }
def hiReg (k : Nat) : RegView := { key := k, half := .hi }
/-- The LO or HI register of a pair that can be written. -/
def RegView.asLo (v : RegView) (hi : Word) : RegView := { v with half := .lo hi }
def RegView.asHi (v : RegView) : RegView := { v with half := .hi }

/-- One bit of a register value. -/
def flag (b : Bool) (i : Nat) : Nat := if b then 2 ^ i else 0

/-- Item `i` of an array of 4-byte registers at `base` with `n` items, if the offset names one. -/
def item (o base n : Nat) : Option Nat :=
  if base ≤ o ∧ o < base + 4 * n then some ((o - base) / 4) else none

/-! ## DEV and HIF (R448 to R451) -/

/-- Is granule `g`'s cluster enabled: its stack is in use and it is not excluded (R30)? -/
def State.clusterOn (s : State) (g : Nat) : Bool := (s.stack (g / 16)).enabled && !s.granExcluded g
def State.channelOn (s : State) (ch : Nat) : Bool := (s.stack (ch / 32)).enabled && s.chanOn ch

def State.devUnits (s : State) : Nat :=
  ((List.range 256).filter s.clusterOn).length + 2 ^ 10 * ((List.range 512).filter s.channelOn).length + 2 ^ 20 * s.stackCount

def State.devReg (s : State) (o : Nat) : RegView :=
  match o with
  | 0x00 => roReg 0x46161D7F
  | 0x04 => roReg (flag s.boot.ready 0)
  | 0x08 => roReg (s.boot.step + flag s.boot.ready 4 + flag s.boot.service 5 + flag s.boot.degraded 6)
  | 0x0C => s.rwReg (devKey o) 0xF#32
  | 0x10 => s.rcReg (devKey o)
  | 0x14 => s.rcReg (devKey o)
  | 0x18 => s.rcReg (devKey o)
  | 0x1C => s.rcReg (devKey o)
  | 0x20 => roReg (s.reg (devKey o)).toNat
  | 0x24 => roReg s.devUnits
  | 0x28 => roReg 0x11
  | _ => noReg

/-- Is an IDE stream active (R443)? -/
def State.ideActive (s : State) : Bool := s.host.ide.any (fun e => e.2.active)

def State.hifReg (s : State) (o : Nat) : RegView :=
  match o with
  | 0x00 => roReg 0x48490001
  | 0x04 => roReg (flag s.host.en 0)
  | 0x08 => roReg (flag s.host.strap 0 + 2 * (if s.host.linkUp then s.host.speed else 0)
      + 16 * (if s.host.linkUp then s.host.width else 0) + flag (s.host.linkUp && s.host.flit) 9 + flag (s.host.serviceReason != 0) 10
      + 2 ^ 11 * s.host.serviceReason + flag s.ideActive 14)
  | 0x0C => s.rwReg (hifKey o) 0xFF#32
  | 0x10 => s.rcReg (hifKey o)
  | 0x14 => (s.rwReg (hifKey o) 0xFFFFF000#32).asLo (s.reg (hifKey 0x18))
  | 0x18 => (s.rwReg (hifKey o) 0xFFF#32).asHi
  | 0x1C => s.rcReg (hifKey o)
  | 0x20 => s.rcReg (hifKey o)
  | 0x24 => roReg s.host.cxlSize
  | _ => noReg

/-! ## SHT (R67 to R70) -/

/-- Does a record at the head of a queue or lane of the partition wait for its scaled aperture (R47)? -/
def State.apertureWait (s : State) (p : Nat) : Bool :=
  let head := fun l : List Copied => match l with | c :: _ => c.apWait | [] => false
  (s.sch p).sq.any (fun e => head e.2.copied) || (s.sch p).lanes.any (fun e => head e.2)

def State.partStat (s : State) (p : Nat) : Nat :=
  let x := s.part p
  flag x.ovxLast 0 + flag x.ovxPrev 1 + 4 * x.throttle + flag (s.apertureWait p) 4 + 2 ^ 16 * x.ovxTotal

def State.shtReg (s : State) (o : Nat) : RegView :=
  match o with
  | 0x00 => roReg 0x53480003
  | 0x04 => roReg (flag s.sht.en 0)
  | 0x08 => roReg (flag s.sht.locked 0 + flag s.sht.master 1 + 4 * s.sht.source + flag s.sht.flywheel 4)
  | 0x0C => s.rwReg (shtKey o) 0xFF#32
  | 0x10 => loReg (shtKey o) s.sht.frame.toNat
  | 0x14 => hiReg (shtKey o)
  | 0x18 => loReg (shtKey o) (s.now % 2 ^ 64)
  | 0x1C => hiReg (shtKey o)
  | 0x20 => roReg s.sht.period
  | 0x24 => roReg s.sht.guard
  | 0x28 => roReg (if s.sht.started then s.now - cycleOf s.sht.lastTick else 0)
  | 0x2C => s.rcReg (shtKey o)
  | 0x30 => roReg s.sht.missRun
  | 0x34 => roReg (s.sht.skew % 4294967296).toNat
  | 0x38 => s.rcReg (shtKey o)
  | o => match item o 0x40 16 with
    | some p => roReg (s.partStat p)
    | none => noReg

/-! ## PLT and RPR (R102, R103, R397) -/

/-- The state codes of PLT_PART_STATE. -/
def PState.code : PState → Nat
  | .off => 0 | .loading => 1 | .running => 2 | .held => 3 | .draining => 4 | .migrating => 5

def StageState.code : StageState → Nat
  | .idle => 0 | .copying => 1 | .validating => 2 | .staged => 3 | .failed => 4

def State.pltReg (s : State) (o : Nat) : RegView :=
  match o with
  | 0x00 => roReg 0x504C0003
  | 0x04 => { acc := .rw 1#32, key := pltKey o, val := BitVec.ofNat 32 (flag s.plate.en 0) }
  | 0x08 => roReg (s.plate.stage.code + flag s.plate.resetPending 3 + flag s.plate.badCmd 4 + flag s.plate.wign 5)
  | 0x0C => s.rwReg (pltKey o) 0x7F#32
  | 0x10 => (s.rwdReg (pltKey o) 0xFFFFFFFF#32).asLo (s.reg (pltKey 0x14))
  | 0x14 => (s.rwdReg (pltKey o) 0xFFFFFFFF#32).asHi
  | 0x18 => s.rwdReg (pltKey o) 0xFFFFFFFF#32
  | 0x1C => s.rwdReg (pltKey o) 0x113#32
  | 0x20 => (s.rwdReg (pltKey o) 0xFFFFFFFF#32).asLo (s.reg (pltKey 0x24))
  | 0x24 => (s.rwdReg (pltKey o) 0xFFFFFFFF#32).asHi
  | 0x28 => woReg (pltKey o)
  | 0x2C => roReg s.plate.result
  | 0x30 => roReg s.plate.errOffset
  | 0x34 => loReg (pltKey o) (match s.plate.installed with | some pl => pl.generation | none => 0)
  | 0x38 => hiReg (pltKey o)
  | 0x3C => s.rcReg (pltKey o)
  | 0x40 => s.rcReg (pltKey o)
  | o => match item o 0x80 16, item o 0xC0 16 with
    | some _, _ => woReg (pltKey o)
    | none, some p => roReg ((s.part p).state.code + flag (s.psecD p).spanning 3 + 16 * (s.part p).reason)
    | none, none => noReg

/-- Word `i` of a string of bytes. -/
def wordNat (bs : List Byte) (i : Nat) : Nat := fieldLE bs (4 * i) 4

/-- The bytes of a digest, in the order its standard gives (R4). -/
def digestBytes (d : BitVec 384) : List Byte := (natLE 48 d.toNat).reverse

def State.rprReg (s : State) (o : Nat) : RegView :=
  let r := s.repair
  match o with
  | 0x00 => roReg 0x52500001
  | 0x04 => { acc := .rw 1#32, key := rprKey o, val := BitVec.ofNat 32 (flag r.en 0) }
  | 0x08 => roReg ((if r.op.isSome then 1 else if r.done then 2 else 0) + flag r.wign 2 + flag r.badCmd 3)
  | 0x0C => s.rwReg (rprKey o) 1#32
  | 0x20 => woReg (rprKey o)
  | 0x24 => roReg r.result
  | 0x28 => roReg r.map.length
  | 0x2C => roReg r.gen
  | 0x30 => s.rcReg (rprKey o)
  | 0x70 => s.rwReg (rprKey o) 0x3FF#32
  | o => match item o 0x10 4, item o 0x40 12, item o 0x74 4 with
    | some _, _, _ => s.rwdReg (rprKey o) 0xFFFFFFFF#32
    | none, some i, _ => roReg (wordNat (digestBytes r.digest) i)
    | none, none, some i => roReg (wordNat ((r.map.drop (s.reg (rprKey 0x70)).toNat).headD []) i)
    | none, none, none => noReg

/-! ## SES and FWU (R475, R476, R520, R521) -/

/-- The security version (R475): the run of blown cells from cell 0. -/
def fuseRun : Nat → Dword → Nat
  | 0, _ => 0
  | n + 1, f => if f.getLsbD 0 then 1 + fuseRun n (f >>> 1) else 0
def State.fuseVersion (s : State) : Nat := fuseRun 64 s.nv.fuses

/-- The code of an assent record's state, and the seconds to its deadline (R476). -/
def Assent.code (a : Assent) : Nat :=
  match a.state with
  | .owner => 1 | .custodian => 2 | .complete => 3 | .reserved => 4
def State.assentWord (s : State) (n : Nat) : Nat :=
  match s.assent n with
  | none => 0
  | some a => a.code + 8 * (a.kind % 256) + 2 ^ 16 * (min 0xFFFF ((a.deadline - s.now) / cyclesPerSecond))

/-- The management sessions that are open. -/
def State.openSessions (s : State) : Nat := (s.mgmt.sessions.filter MSess.live).length

def State.sesReg (s : State) (o : Nat) : RegView :=
  match o with
  | 0x00 => roReg 0x53450001
  | 0x04 => roReg (flag s.mgmt.up 0)
  | 0x08 => roReg (flag s.held.claimed 0 + flag s.held.lock 1 + flag s.mgmt.debugUnlocked 2 + 8 * (s.held.debugPolicy % 2)
      + 16 * (s.held.updatePolicy % 2) + 2 ^ 8 * s.openSessions + 2 ^ 16 * s.fuseVersion)
  | 0x0C => s.rwReg (sesKey o) 0x1FF#32
  | 0x10 => s.rcReg (sesKey o)
  | 0x14 => roReg s.held.assentSeq.toNat
  | 0x18 => roReg s.held.window
  | 0x20 => loReg (sesKey o) s.nv.fuses.toNat
  | 0x24 => hiReg (sesKey o)
  | o =>
    if 0x40 ≤ o ∧ o < 0xC0 then
      let n := (o - 0x40) / 16
      if o % 16 = 0 then roReg (s.assentWord n)
      else if o % 16 = 4 then roReg (match s.assent n with | some a => wordNat (digestBytes a.digest) 0 | none => 0)
      else noReg
    else noReg

def FwuState.code : FwuState → Nat
  | .idle => 0 | .erasing => 1 | .receiving => 2 | .verifying => 3 | .verified => 4 | .activated => 5

/-- Is a command of the FWU block in progress: VERIFY, until it ends (R507, R521)? -/
def State.fwuBusy (s : State) : Bool := s.fwu.state == .verifying

/-- FWU_SEL. -/
def State.selWord (s : State) : Nat :=
  match s.selector with
  | none => 0
  | some x => x.active + flag x.trial 1 + 4 * x.previous.getD 0xFF + 2 ^ 10 * x.fails + flag x.autoconf 12

def State.fwuReg (s : State) (o : Nat) : RegView :=
  let f := s.fwu
  match o with
  | 0x00 => roReg 0x46570001
  | 0x04 => { acc := .rw 1#32, key := fwuKey o, val := BitVec.ofNat 32 (flag f.en 0) }
  | 0x08 => roReg (f.state.code + 8 * f.path + flag f.wign 5 + flag f.badCmd 6 + flag s.env.holdup 7 + flag s.fwuBusy 8)
  | 0x0C => s.rwReg (fwuKey o) 0x7F#32
  | 0x10 => s.rcReg (fwuKey o)
  | 0x14 => woReg (fwuKey o)
  | 0x18 => roReg (f.result + 2 ^ 8 * f.detail)
  | 0x1C => s.rwdReg (fwuKey o) 0xFFFFFFFF#32
  | 0x20 => s.rwdReg (fwuKey o) 3#32
  | 0x24 => s.rwReg (fwuKey o) 0xFFFFFFFF#32
  | 0x28 => s.rwReg (fwuKey o) 0xFFFFFFFF#32
  | 0x2C => roReg f.written.length
  | 0x30 => roReg (s.fuseVersion + 2 ^ 8 * s.boot.svn + 2 ^ 16 * f.svn)
  | 0x34 => roReg s.selWord
  | o => match item o 0x40 12, item o 0x1000 1024 with
    | some i, _ => roReg (wordNat (digestBytes f.digest) i)
    | none, some _ => woReg (fwuKey o)
    | none, none => noReg

/-! ## ERR and BOOT (R541, R542, R498, R499) -/

def State.errReg (s : State) (o : Nat) : RegView :=
  let e := s.err
  match o with
  | 0x00 => roReg 0x45520001
  | 0x04 => roReg (flag s.host.en 0)
  | 0x08 => roReg (flag e.fatal 0 + flag (decide (e.free ≤ 32)) 1)
  | 0x0C => s.rwReg (errKey o) 0xF#32
  | 0x10 => s.rcReg (errKey o)
  | 0x14 => roReg e.tail.toNat
  | 0x18 => { acc := .rw 0xFFFFFFFF#32, key := errKey o, val := e.head }
  | 0x1C => s.rcReg (errKey o)
  | 0x20 => s.rcReg (errKey o)
  | 0x24 => s.rcReg (errKey o)
  | 0x28 => roReg e.fatalSrc.toNat
  | 0x2C => roReg e.streamLost.toNat
  | 0x30 => roReg e.flashLost.toNat
  | o =>
    if 0x8000 ≤ o then
      match e.ring.find? (fun x => x.1 == (o - 0x8000) / 64) with
      | some x => roReg (wordNat x.2.bytes (o % 64 / 4))
      | none => noReg
    else noReg

/-- The 32 bytes of a journal record (R486). -/
def JRec.bytes (r : JRec) : List Byte :=
  let b := natLE 4 r.jseq ++ natLE 4 r.bootnum ++ natLE 1 r.step ++ natLE 1 r.outcome ++ natLE 1 r.path ++ natLE 1 r.unitKind
    ++ natLE 4 r.unit ++ natLE 4 r.code ++ natLE 8 r.time
  b ++ natLE 4 (crc32With 0x82F63B78#32 b).toNat

/-- The bits of `n` items for which something holds, as a word. -/
def maskOf (n : Nat) (f : Nat → Bool) : Nat := ((List.range n).map (fun i => flag (f i) i)).sum

def State.bootReg (s : State) (o : Nat) : RegView :=
  let b := s.boot
  match o with
  | 0x00 => roReg 0x424F0001
  | 0x04 => roReg (flag s.host.en 0)
  | 0x08 => roReg (b.step + 2 ^ 4 * b.cause + 2 ^ 8 * b.prev + 2 ^ 10 * b.failrun + 2 ^ 18 * b.svcReason + 2 ^ 20 * b.slot
      + flag b.flashSafe 21 + 2 ^ 22 * b.plateSrc + flag b.unlocked 24 + flag b.badCmd 25)
  | 0x10 => woReg (bootKey o)
  | 0x14 => roReg b.bootnum
  | 0x18 => roReg b.readyMs
  | 0x58 => roReg b.journal.length
  | 0xC0 => roReg b.stackExcl
  | 0xC4 => roReg (maskOf 16 (fun t => (s.stack t).slow))
  | 0xC8 => roReg (maskOf 32 (fun e => NatMap.get 0 s.units.edgeLost e == 1))
  | o => match item o 0x20 14, item o 0x60 8, item o 0x80 16, item o 0x100 512 with
    | some k, _, _, _ => roReg (NatMap.get 0 b.stepMs (k + 1))
    | none, some i, _, _ => roReg (maskOf 32 (fun j => s.granExcluded (32 * i + j)))
    | none, none, some t, _ => roReg (maskOf 32 (fun n => !s.chanOn (32 * t + n)))
    | none, none, none, some i => roReg (match (b.journal.drop (i / 8)).head? with | some r => wordNat r.bytes (i % 8) | none => 0)
    | none, none, none, none => noReg

/-! ## MBX, STK and ATP (R379, R380, R388, R389, R428, R429) -/

def PortState.code : PortState → Nat
  | .dark => 0 | .training => 1 | .measure => 2 | .ident => 3 | .up => 4 | .retrain => 5 | .darkHeld => 6

def State.mbxReg (s : State) (q o : Nat) : RegView :=
  let p := s.port q
  match o with
  | 0x00 => roReg 0x4D420001
  | 0x04 => roReg (flag (decide (11 ≤ s.boot.step)) 0)
  | 0x08 => roReg (p.state.code + 8 * p.reason + flag p.badCmd 8)
  | 0x0C => s.rwReg (mbxKey q o) 0x7F#32
  | 0x10 => s.rcReg (mbxKey q o)
  | 0x14 => woReg (mbxKey q o)
  | 0x18 => roReg p.partner.toNat
  | 0x1C => roReg p.delay
  | 0x20 => roReg p.rtt
  | 0x24 => loReg (mbxKey q o) ((s.reg (mbxKey q 0x24)).toNat + 2 ^ 32 * (s.reg (mbxKey q 0x28)).toNat)
  | 0x28 => hiReg (mbxKey q o)
  | 0x2C => loReg (mbxKey q o) ((s.reg (mbxKey q 0x2C)).toNat + 2 ^ 32 * (s.reg (mbxKey q 0x30)).toNat)
  | 0x30 => hiReg (mbxKey q o)
  | 0x50 => roReg p.lastViol.toNat
  | o => match item o 0x34 7 with
    | some _ => s.rcReg (mbxKey q o)
    | none => noReg

/-- Is some channel or granule of the tile excluded, or does its stack run at the lower rate (R380, R493)? -/
def State.tileDegraded (s : State) (t : Nat) : Bool :=
  (s.stack t).slow || (List.range 32).any (fun n => !s.chanOn (32 * t + n)) || (List.range 16).any (fun c => s.granExcluded (16 * t + c))

def State.stkReg (s : State) (t o : Nat) : RegView :=
  let x := s.stack t
  match o with
  | 0x00 => roReg 0x53540001
  | 0x04 => roReg (flag x.enabled 0)
  | 0x08 => roReg (flag x.enabled 0 + flag x.halted 1 + 4 * x.level + flag (s.tileDegraded t) 4 + flag x.refresh2x 6)
  | 0x0C => s.rwReg (stkKey t o) 0xFF#32
  | 0x10 => roReg ((x.temp % 256).toNat + 256 * (x.tmaxLast % 256).toNat)
  | 0x14 => { s.rcReg (stkKey t o) with acc := .rcStk t }
  | 0x18 => roReg (maskOf 32 (fun n => s.channelOn (32 * t + n)))
  | 0x20 => loReg (stkKey t o) (x.ueAddr + flag x.ueValid 63)
  | 0x24 => hiReg (stkKey t o)
  | o =>
    if 0x40 ≤ o ∧ o < 0x240 then
      if o % 16 = 8 then roReg (s.reg (stkKey t o)).toNat else s.rcReg (stkKey t o)
    else noReg

def AgState.code : AgState → Nat
  | .idle => 0 | .running => 1 | .done => 2 | .stopped => 3

/-- A configuration register of the Agitator. -/
def State.agCfgReg (s : State) (ch o : Nat) (mask : Word) : RegView :=
  { acc := .rwd mask, key := atpKey ch o, val := BitVec.ofNat 32 (s.agReg ch o) }

def State.atpReg (s : State) (ch o : Nat) : RegView :=
  let a := s.agit ch
  match o with
  | 0x00 => roReg 0x41500001
  | 0x04 => { acc := .rw 1#32, key := atpKey ch o, val := BitVec.ofNat 32 (flag a.en 0) }
  | 0x08 => roReg (a.state.code + flag a.wign 2 + flag a.cfgErr 3 + flag a.badCmd 4 + 32 * a.reason + flag a.err 8)
  | 0x0C => s.rwReg (atpKey ch o) 7#32
  | 0x10 => s.agCfgReg ch o 0x1FFFFFF#32
  | 0x14 => s.agCfgReg ch o 0x1FFFFFF#32
  | 0x18 => s.agCfgReg ch o 0x1FFFFFF#32
  | 0x1C => s.agCfgReg ch o 0x7FFFFFFF#32
  | 0x20 => s.agCfgReg ch o 0xFFFFFFFF#32
  | 0x24 => s.agCfgReg ch o 0xFFFF#32
  | 0x28 => woReg (atpKey ch o)
  | 0x2C => roReg a.pass.toNat
  | 0x30 => loReg (atpKey ch o) a.reqs.toNat
  | 0x34 => hiReg (atpKey ch o)
  | 0x38 => loReg (atpKey ch o) a.cycles.toNat
  | 0x3C => hiReg (atpKey ch o)
  | 0x40 => loReg (atpKey ch o) a.checked.toNat
  | 0x44 => hiReg (atpKey ch o)
  | 0x48 => roReg a.mismatch.toNat
  | 0x4C => roReg a.bits.toNat
  | 0x50 => roReg a.chkMis.toNat
  | 0x54 => roReg a.ueCount.toNat
  | 0x58 => roReg a.ceCount.toNat
  | 0x5C => roReg a.lanes0.toNat
  | 0x60 => roReg a.lanes1.toNat
  | 0x64 => roReg a.feAddr.toNat
  | 0x68 => roReg a.fePass.toNat
  | 0x6C => roReg a.feIndex.toNat
  | 0x70 => loReg (atpKey ch o) a.feChk.toNat
  | 0x74 => hiReg (atpKey ch o)
  | 0x7C => s.rcReg (atpKey ch o)
  | o => match item o 0x80 16 with
    | some k => roReg (bitsOf a.feXor.toNat (32 * k) 32)
    | none => noReg

/-! ## MSI-X tables and pending bits (R441, R442) -/

/-- A register of function `fn`'s table of `n` vectors, at offset `o` of the table. The mask bit is kept inverted. -/
def State.msixReg (s : State) (fn o : Nat) : RegView :=
  let k := msixKey fn 0 + o
  if o % 16 = 12 then { acc := .rw 1#32, key := k, val := s.reg k ^^^ 1#32 } else s.rwReg k 0xFFFFFFFF#32

def State.pbaReg (s : State) (fn o : Nat) : RegView := roReg (maskOf 32 (fun i => s.pend fn (8 * o + i)))

/-! ## Control space (R444) -/

/-- A block of control space. -/
inductive Blk where
  | dev | hif | sht | plt | rpr | ses | fwu | err | boot | msix | pba | none
  | mbx (q : Nat)
  | stk (t : Nat)
  | atp (ch : Nat)
  deriving DecidableEq, Repr

/-- The block of a control-space offset, and the offset within it. -/
def blkOf (x : Nat) : Blk × Nat :=
  if x < 0x1000 then (.dev, x)
  else if x < 0x2000 then (.hif, x - 0x1000)
  else if x < 0x3000 then (.sht, x - 0x2000)
  else if x < 0x4000 then (.plt, x - 0x3000)
  else if x < 0x5000 then (.rpr, x - 0x4000)
  else if x < 0x8000 then (.none, 0)
  else if x < 0x9000 then (.ses, x - 0x8000)
  else if x < 0x10000 then (.none, 0)
  else if x < 0x20000 then (.fwu, x - 0x10000)
  else if x < 0x30000 then (.err, x - 0x20000)
  else if x < 0x34000 then (.boot, x - 0x30000)
  else if x < 0x100000 then (.none, 0)
  else if x < 0x110000 then (.mbx ((x - 0x100000) / 0x1000), x % 0x1000)
  else if x < 0x200000 then (.none, 0)
  else if x < 0x210000 then (.stk ((x - 0x200000) / 0x1000), x % 0x1000)
  else if x < 0x400000 then (.none, 0)
  else if x < 0x600000 then (.atp ((x - 0x400000) / 0x1000), x % 0x1000)
  else if x < 0x7FE0000 then (.none, 0)
  else if x < 0x7FE8000 then (.msix, x - 0x7FE0000)
  else if x < 0x7FF0000 then (.none, 0)
  else if x < 0x7FF0100 then (.pba, x - 0x7FF0000)
  else (.none, 0)

/-- The register at a control-space offset that is a multiple of 4. -/
def State.ctlReg (s : State) (x : Nat) : RegView :=
  let b := blkOf x
  match b.1 with
  | .dev => s.devReg b.2
  | .hif => s.hifReg b.2
  | .sht => s.shtReg b.2
  | .plt => s.pltReg b.2
  | .rpr => s.rprReg b.2
  | .ses => s.sesReg b.2
  | .fwu => s.fwuReg b.2
  | .err => s.errReg b.2
  | .boot => s.bootReg b.2
  | .mbx q => s.mbxReg q b.2
  | .stk t => s.stkReg t b.2
  | .atp ch => s.atpReg ch b.2
  | .msix => s.msixReg 0 b.2
  | .pba => s.pbaReg 0 b.2
  | .none => noReg

/-! ## Partition pages (R452 to R454, R471, R282 to R284) -/

def State.pgReg (s : State) (p o : Nat) : RegView :=
  let x := s.part p
  match o with
  | 0x00 => roReg (0x50470000 + p)
  | 0x04 => roReg (flag s.boot.ready 0)
  | 0x08 => roReg ((if s.pageDefined p then x.state.code + 8 * x.reason else 7) + flag (s.sessionOpen p) 7
      + flag (s.psecD p).spanning 8 + flag (NatMap.get false s.host.pgBadCmd p) 9)
  | 0x0C => s.rwReg (pgKey p o) 7#32
  | 0x10 => s.rcReg (pgKey p o)
  | 0x14 => (s.rwReg (pgKey p o) 0xFFFFF000#32).asLo (s.reg (pgKey p 0x18))
  | 0x18 => (s.rwReg (pgKey p o) 0xFFFF#32).asHi
  | 0x1C => woReg (pgKey p o)
  | 0x20 => loReg (pgKey p o) s.sht.frame.toNat
  | 0x24 => hiReg (pgKey p o)
  | 0x28 => s.rcReg (pgKey p o)
  | _ => noReg

def PsState.code : PsState → Nat
  | .closed => 0 | .challenged => 1 | .opened => 2 | .lockout => 3

def State.psReg (s : State) (p o : Nat) : RegView :=
  let x := s.sess p
  let k := pgKey p (0x1000 + o)
  match o with
  | 0x00 => roReg (0x50530000 + p)
  | 0x04 => roReg (flag (s.pageDefined p && s.partKey p != 0) 0)
  | 0x08 => roReg (x.state.code + flag (s.partKey p == 0) 2 + flag x.badCmd 3 + 2 ^ 8 * x.result + 2 ^ 16 * x.failTotal)
  | 0x10 => woReg k
  | 0x14 => roReg (s.keyGen p)
  | 0x18 => roReg (if x.state = .lockout then ceilDiv (x.lockUntil - s.now) 1500000 else 0)
  | o => match item o 0x20 8, item o 0x40 12 with
    | some i, _ => roReg (bitsOf x.nonce.toNat (32 * i) 32)
    | none, some _ => woReg k
    | none, none => noReg

def QState.code : QState → Nat
  | .off => 0 | .active => 1 | .fetchErr => 2

def State.sqReg (s : State) (p q o : Nat) : RegView :=
  let x := s.sq p q
  let k := schKey p (0x1000 + 64 * q + o)
  match o with
  | 0x00 => roReg (0x51550000 + q)
  | 0x04 => { acc := .rw 1#32, key := k, val := BitVec.ofNat 32 (flag x.en 0) }
  | 0x08 => roReg (x.state.code + flag x.tailBad 2 + flag x.wign 3 + flag x.cfgErr 4)
  | 0x10 => { acc := .rwd 0xFFFFFFFF#32, key := k, val := x.baseLo, half := .lo x.baseHi }
  | 0x14 => { acc := .rwd 0xFFFFFFFF#32, key := k, val := x.baseHi, half := .hi }
  | 0x18 => { acc := .rwd 0x7FF#32, key := k, val := x.cfg }
  | 0x1C => { acc := .rw 0xFFFFFFFF#32, key := k, val := x.tail }
  | 0x20 => roReg x.head.toNat
  | 0x24 => roReg x.lastSeq.toNat
  | 0x28 => { acc := .rcGaps p q, key := k, val := x.gaps }
  | _ => noReg

def State.cqReg (s : State) (p c o : Nat) : RegView :=
  let x := s.cq p c
  let k := schKey p (0x1800 + 64 * c + o)
  match o with
  | 0x00 => roReg (0x43510000 + c)
  | 0x04 => { acc := .rw 1#32, key := k, val := BitVec.ofNat 32 (flag x.en 0) }
  | 0x08 => roReg (flag (x.en && !x.hasRoom) 0 + flag x.wign 1 + flag x.cfgErr 2 + flag x.writeErr 3)
  | 0x0C => { acc := .rw 3#32, key := k, val := x.irqEn }
  | 0x10 => { acc := .rwd 0xFFFFFFFF#32, key := k, val := x.baseLo, half := .lo x.baseHi }
  | 0x14 => { acc := .rwd 0xFFFFFFFF#32, key := k, val := x.baseHi, half := .hi }
  | 0x18 => { acc := .rwd 0xFFF#32, key := k, val := x.cfg }
  | 0x1C => roReg x.tail.toNat
  | 0x20 => { acc := .rw 0xFFFFFFFF#32, key := k, val := x.head }
  | _ => noReg

/-- The scheduler area. -/
def State.schReg (s : State) (p o : Nat) : RegView :=
  if 0x1000 ≤ o ∧ o < 0x1800 then s.sqReg p ((o - 0x1000) / 64) (o % 64)
  else if 0x1800 ≤ o ∧ o < 0x2000 then s.cqReg p ((o - 0x1800) / 64) (o % 64)
  else if 0x8000 ≤ o ∧ o < 0x10000 then
    if o % 8 = 0 then loReg (schKey p o) (s.mark p ((o - 0x8000) / 8)).toNat else hiReg (schKey p o)
  else
    let st := (s.part p).state
    match o with
    | 0x00 => roReg 0x53430001
    | 0x04 => roReg (flag (st == .running || st == .held) 0)
    | 0x08 => roReg (flag (s.sessionOpen p) 0 + flag (st == .held) 1)
    | 0x0C => s.rwReg (schKey p o) 0x3F#32
    | 0x10 => s.rcReg (schKey p o)
    | 0x14 => s.rcReg (schKey p o)
    | 0x18 => s.rcReg (schKey p o)
    | 0x1C => woReg (schKey p o)
    | _ => noReg

/-- The register at a page offset that is a multiple of 4. -/
def State.pageReg (s : State) (p x : Nat) : RegView :=
  if x < 0x1000 then s.pgReg p x
  else if x < 0x2000 then s.psReg p (x - 0x1000)
  else if x < 0x10000 then noReg
  else if x < 0x20000 then s.schReg p (x - 0x10000)
  else if 0xF0000 ≤ x ∧ x < 0xF0400 then s.msixReg (p + 1) (x - 0xF0000)
  else if 0xF8000 ≤ x ∧ x < 0xF8008 then s.pbaReg (p + 1) (x - 0xF8000)
  else noReg

/-! ## Reading (R6, R8, R447) -/

/-- The key of a path's latch for a pair, named by its LO register. -/
def latchKey (path k : Nat) : Nat := 2 ^ 32 * path + k

/-- Clear an RC register. -/
def State.clearReg (s : State) (v : RegView) : State :=
  match v.acc with
  | .rc => s.setReg v.key 0
  | .rcGaps p q => s.modSq p q (fun x => { x with gaps := 0 })
  | .rcStk t => (s.setReg v.key 0).modStack t (fun x => { x with ueValid := false })
  | _ => s

/-- Reads on the Safelight and Loupe paths never clear (R8). -/
def clearingPath (path : Nat) : Bool := decide (path ≤ 16)

/-- Read one register on a path. -/
def State.readReg (s : State) (path : Nat) (v : RegView) : Word × State :=
  let s := if clearingPath path then s.clearReg v else s
  match v.half with
  | .whole => (if v.acc = .wo then 0 else v.val, s)
  | .lo hi => (v.val, { s with latches := NatMap.set 0 s.latches (latchKey path v.key) hi })
  | .hi => (NatMap.get 0 s.latches (latchKey path (v.key - 4)), s)

/-! ## Writing -/

/-- A write to an RWD register of an enabled block (R7). -/
def State.wignBlk (s : State) (b : Blk) : State :=
  (match b with
    | .plt => { s with plate := { s.plate with wign := true } }
    | .rpr => { s with repair := { s.repair with wign := true } }
    | .fwu => { s with fwu := { s.fwu with wign := true } }
    | .atp ch => s.modAgit ch (fun a => { a with wign := true })
    | _ => s).countWign

/-- Is the block's EN 1? -/
def State.blkEn (s : State) (b : Blk) : Bool :=
  match b with
  | .plt => s.plate.en
  | .rpr => s.repair.en
  | .fwu => s.fwu.en
  | .atp ch => (s.agit ch).en
  | _ => false

/-- Requests a masked vector's pending bit makes once it is unmasked (R442): one message. -/
def State.sendPending (s : State) (fn v : Nat) : State :=
  if s.pend fn v && !s.vecMasked fn v then (s.setPend fn v false).sendMsix fn v else s

/-- Write the register at offset `o` of an MSI-X table. -/
def State.msixWrite (s : State) (fn o : Nat) (w : Word) : State :=
  let k := msixKey fn 0 + o
  if o % 16 = 12 then (s.setReg k ((w &&& 1#32) ^^^ 1#32)).sendPending fn (o / 16) else s.setReg k w

/-- ERR_HEAD_WRITE (R541). -/
def State.errHead (s : State) (x : Word) : State :=
  if (s.err.tail - x).toNat ≤ 512 then { s with err := { s.err with head := x } } else s

def execErrHeadWrite (x : Word) (s : State) : Host.Outcome State Fault Refusal := ok (s.pfWrite 0 (fun s => s.errHead x))

/-- PLT_PART_CMD: the requests of R103; a code that is not one is bad, and 0 asks for nothing. -/
def State.partCmdWrite (s : State) (p : Nat) (w : Word) : State :=
  let clear := { s with plate := { s.plate with badCmd := false } }
  match w.toNat % 16 with
  | 0 => s
  | 1 => clear.requestPart p .start
  | 2 => clear.requestPart p .stop
  | 3 => clear.requestPart p .release
  | 4 => clear.requestPart p (.migrateOut (bitsOf w.toNat 8 8) (bitsOf w.toNat 16 4))
  | _ => { s with plate := { s.plate with badCmd := true } }

/-- A write to a WO register. A command that has a row of its own with more operands than its code is sent as that row, and
does nothing here. -/
def State.woWrite (s : State) (path : Nat) (b : Blk) (o : Nat) (w : Word) : State :=
  match b with
  | .plt =>
    if o = 0x28 then
      if !s.plate.en ∨ w = 1#32 then s
      else if w = 2#32 then ({ s with plate := { s.plate with badCmd := false } }).abortPlate
      else { s with plate := { s.plate with badCmd := true } }
    else s.partCmdWrite ((o - 0x80) / 4) w
  | .rpr =>
    if !s.repair.en ∨ s.repair.op.isSome ∨ w = 1#32 ∨ w = 2#32 then s
    else if w = 3#32 then s.repairDigestCmd
    else { s with repair := { s.repair with badCmd := true } }
  | .atp ch =>
    if !(s.agit ch).en then s
    else if w = 1#32 then s.agStart ch
    else if w = 2#32 then s.agStop ch
    else if w = 3#32 then s.modAgit ch Agit.clear
    else s.modAgit ch (fun a => { a with badCmd := true })
  | .mbx q =>
    if w = 1#32 then s.mbxRetrain q
    else if w = 2#32 then s.mbxDark q
    else s.modPort q (fun p => { p with badCmd := true })
  | .boot => if path ≠ 0 ∨ w = 1#32 ∨ w = 2#32 then s else { s with boot := { s.boot with badCmd := true } }
  | .fwu =>
    if 0x1000 ≤ o then s.setReg (fwuKey o) w
    else if !s.fwu.en then s
    else if s.fwuBusy ∨ w = 0#32 ∨ w.toNat > 7 then { s with fwu := { s.fwu with badCmd := true } }
    else s
  | _ => s

/-- A write to an RW register. -/
def State.rwWrite (s : State) (b : Blk) (o : Nat) (k : Nat) (w : Word) : State :=
  match b with
  | .msix => s.msixWrite 0 o w
  | .err => if o = 0x18 then s.errHead w else s.setReg k w
  | .plt => if o = 4 then { s with plate := { s.plate with en := w.getLsbD 0, wign := s.plate.wign && w.getLsbD 0 } } else s.setReg k w
  | .rpr => if o = 4 then { s with repair := { s.repair with en := w.getLsbD 0, wign := s.repair.wign && w.getLsbD 0 } } else s.setReg k w
  | .fwu => if o = 4 then { s with fwu := { s.fwu with en := w.getLsbD 0, wign := s.fwu.wign && w.getLsbD 0 } } else s.setReg k w
  | .atp ch => if o = 4 then s.atpCtrl ch w else s.setReg k w
  | _ => s.setReg k w

/-- A write to an RWD register of a block that is not enabled. The Agitator's are kept as differences from reset. -/
def State.rwdWrite (s : State) (b : Blk) (o : Nat) (k : Nat) (w : Word) : State :=
  match b with
  | .atp _ => s.setReg k (w ^^^ agReset o)
  | _ => s.setReg k w

/-- Write one register of control space whole. -/
def State.writeCtl (s : State) (path x : Nat) (w : Word) : State :=
  let b := blkOf x
  let v := s.ctlReg x
  match v.acc with
  | .wo => s.woWrite path b.1 b.2 w
  | .rw m => s.rwWrite b.1 b.2 v.key (w &&& m)
  | .rwd m => if s.blkEn b.1 then s.wignBlk b.1 else s.rwdWrite b.1 b.2 v.key (w &&& m)
  | _ => s

/-- The kind of `pfWrite` that a control-space offset belongs to (R436, R483). -/
def blkKind (b : Blk) : Nat :=
  match b with
  | .plt => 1
  | .sht => 2
  | .rpr => 2
  | .mbx _ => 2
  | .stk _ => 2
  | .atp _ => 2
  | .none => 2
  | _ => 0

/-- A write to a partition's page reaches control registers of its PG block (R454). -/
def State.pgWrite (s : State) (p o : Nat) (w : Word) : State :=
  match o with
  | 0x0C => if s.sessionOpen p then s.setReg (pgKey p o) (w &&& 7#32) else s.denyPage p
  | 0x14 => if s.sessionOpen p then s.setReg (pgKey p o) (w &&& 0xFFFFF000#32) else s.denyPage p
  | 0x18 => if s.sessionOpen p then s.setReg (pgKey p o) (w &&& 0xFFFF#32) else s.denyPage p
  | 0x1C =>
    if !s.sessionOpen p then s.denyPage p
    else if w = 1#32 then ({ s with host := { s.host with pgBadCmd := NatMap.set false s.host.pgBadCmd p false } }).requestPart p .release
    else { s with host := { s.host with pgBadCmd := NatMap.set false s.host.pgBadCmd p true } }
  | _ => s

/-- A write to a partition's session area: PS_RESP, and commands that are not any (R471). CHALLENGE, OPEN and CLOSE act at the
device time they arrive. -/
def State.psWrite (s : State) (p o : Nat) (w : Word) : State :=
  if o = 0x10 then
    let clear := s.modSess p (fun x => { x with badCmd := false })
    if w = 1#32 then clear.psChallenge p
    else if w = 2#32 then clear.psOpen p
    else if w = 3#32 then clear.psClose p
    else s.modSess p (fun x => { x with badCmd := true })
  else match item o 0x40 12 with
    | some i => s.modSess p (fun x => { x with
        resp := BitVec.ofNat 384 (x.resp.toNat - bitsOf x.resp.toNat (32 * i) 32 * 2 ^ (32 * i) + w.toNat * 2 ^ (32 * i)) })
    | none => s

/-- A write to a queue or completion queue register, under a session (R283, R284). -/
def State.sqWrite (s : State) (p q o : Nat) (w : Word) : State :=
  let en := (s.sq p q).en
  let wign := (s.modSq p q (fun x => { x with wign := true })).countWign
  match o with
  | 0x04 => if w.getLsbD 0 then s.enableQueue p q else s.disableQueue p q
  | 0x10 => if en then wign else s.modSq p q (fun x => { x with baseLo := w })
  | 0x14 => if en then wign else s.modSq p q (fun x => { x with baseHi := w })
  | 0x18 => if en then wign else s.modSq p q (fun x => { x with cfg := w &&& 0x7FF#32 })
  | 0x1C => s.qTail p q w
  | _ => s

def State.cqRegWrite (s : State) (p c o : Nat) (w : Word) : State :=
  let en := (s.cq p c).en
  let wign := (s.modCq p c (fun x => { x with wign := true })).countWign
  match o with
  | 0x04 => s.cqCtrl p c w
  | 0x0C => s.modCq p c (fun x => { x with irqEn := w &&& 3#32 })
  | 0x10 => if en then wign else s.modCq p c (fun x => { x with baseLo := w })
  | 0x14 => if en then wign else s.modCq p c (fun x => { x with baseHi := w })
  | 0x18 => if en then wign else s.modCq p c (fun x => { x with cfg := w &&& 0xFFF#32 })
  | 0x20 => s.cqHead p c w
  | _ => s

/-- Is a scheduler offset one that a session guards (R260): a queue, completion queue or mark register? -/
def guarded (o : Nat) : Bool := o == 0x1C || (decide (0x1000 ≤ o) && decide (o < 0x2000)) || decide (0x8000 ≤ o)

/-- A write to the scheduler area. -/
def State.schWrite (s : State) (p o : Nat) (w : Word) : State :=
  if guarded o && !s.sessionOpen p then s.noSession p o
  else if 0x1000 ≤ o ∧ o < 0x1800 then s.sqWrite p ((o - 0x1000) / 64) (o % 64) w
  else if 0x1800 ≤ o ∧ o < 0x2000 then s.cqRegWrite p ((o - 0x1800) / 64) (o % 64) w
  else if o = 0x0C then s.setReg (schKey p o) (w &&& 0x3F#32)
  else if o = 0x1C then s.mkAdd p w
  else s

/-- Write one register of a partition's page whole. -/
def State.writePage (s : State) (p x : Nat) (w : Word) : State :=
  if !s.pageDefined p then s.denyPage p
  else if x < 0x1000 then s.pgWrite p x w
  else if x < 0x2000 then s.psWrite p (x - 0x1000) w
  else if 0x10000 ≤ x ∧ x < 0x20000 then s.schWrite p (x - 0x10000) w
  else if 0xF0000 ≤ x ∧ x < 0xF0400 then s.msixWrite (p + 1) (x - 0xF0000) w
  else s

/-! ## Requests to W0 (R446) -/

/-- How R446 judges a request by its enabled bytes; registers are named by their offset. -/
inductive Judged where
  | nothing
  | whole (r : Nat)
  | narrow (r : Nat)
  | pair (r : Nat)
  | unaligned
  deriving DecidableEq, Repr

/-- The enabled bytes of a request for `n` bytes from `off`: bit i of `en` enables byte `off + i`. -/
def enabledBytes (off n en : Nat) : List Nat := (onesOf n en).map (off + ·)

def judge (off n en : Nat) : Judged :=
  let b := enabledBytes off n en
  let r := b.headD 0 / 4 * 4
  if b = [] then .nothing
  else if 8 < n then .unaligned
  else if b.all (fun x => x / 4 * 4 == r) then (if b.length = 4 then .whole r else .narrow r)
  else if b.length = 8 ∧ r % 8 = 0 then .pair r
  else .unaligned

/-- A flagged access (R446, R448): 0 WIDTH, 1 UNALIGNED. The first since DEV_ACCESS_STAT was read is captured. -/
def State.flagAccess (s : State) (path off kind : Nat) : State :=
  let st := (s.reg (devKey 0x18)).toNat
  let s := (s.orReg (devKey 0x18) kind).incReg (devKey 0x1C)
  let s := if bitOf st 2 then s
    else (s.setReg (devKey 0x18) (s.reg (devKey 0x18) ||| BitVec.ofNat 32 (4 + 256 * path))).setReg (devKey 0x20) (BitVec.ofNat 32 (off % 2 ^ 27))
  s.devEvent 1

/-- What a window's register reads as and does on a read, by path. An access without a session to a register that needs one,
or to the page of an undefined partition, is refused and reads as ones (R260, R433). -/
def State.readW0 (s : State) (path x : Nat) : Word × State :=
  if path = 0 ∨ 16 < path then s.readReg path (s.ctlReg x)
  else
    let p := path - 1
    if !s.pageDefined p && x != 8 then (0xFFFFFFFF#32, s.denyPage p)
    else if decide (0x10000 ≤ x) && decide (x < 0x20000) && guarded (x - 0x10000) && !s.sessionOpen p then
      (0xFFFFFFFF#32, s.noSession p (x - 0x10000))
    else s.readReg path (s.pageReg p x)

/-- A write of one whole register, under the gates of its window. Safelight and Loupe are not held to those of the PF. -/
def State.writeW0 (s : State) (path x : Nat) (w : Word) : State :=
  if path = 0 then s.pfWrite (blkKind (blkOf x).1) (fun s => s.writeCtl path x w)
  else if 16 < path then s.writeCtl path x w
  else s.writePage (path - 1) x w

/-- A narrow write to an RWD register of an enabled block also falls under R7. -/
def State.narrowWrite (s : State) (path x : Nat) : State :=
  let wign := fun s : State => match (s.ctlReg x).acc with
    | .rwd _ => if s.blkEn (blkOf x).1 then s.wignBlk (blkOf x).1 else s
    | _ => s
  if path = 0 then s.pfWrite (blkKind (blkOf x).1) wign
  else if 16 < path then wign s
  else
    let p := path - 1
    let o := x - 0x10000
    if !s.pageDefined p then s.denyPage p
    else if x < 0x10000 ∨ 0x20000 ≤ x then s
    else if guarded o && !s.sessionOpen p then s.noSession p o
    else match (s.schReg p o).acc with
      | .rwd _ =>
        if o < 0x1800 then
          if (s.sq p ((o - 0x1000) / 64)).en then (s.modSq p ((o - 0x1000) / 64) (fun x => { x with wign := true })).countWign else s
        else if (s.cq p ((o - 0x1800) / 64)).en then (s.modCq p ((o - 0x1800) / 64) (fun x => { x with wign := true })).countWign else s
      | _ => s

/-- The bytes of a register that a request enables, of the register's value. -/
def pickBytes (r : Nat) (w : Word) (b : List Nat) : List Byte :=
  (b.filter (fun x => decide (r ≤ x) && decide (x < r + 4))).map (fun x => (w >>> (8 * (x - r))).setWidth 8)

/-- A read of W0: its enabled bytes. -/
def State.w0Read (s : State) (path off n en : Nat) : List Byte × State :=
  let b := enabledBytes off n en
  match judge off n en with
  | .nothing => (natLE n 0, s)
  | .whole r =>
    let v := s.readW0 path r
    (pickBytes r v.1 b, v.2)
  | .narrow r =>
    let v := s.readW0 path r
    (pickBytes r v.1 b, v.2)
  | .pair r =>
    let v := s.readW0 path r
    let u := v.2.readW0 path (r + 4)
    (pickBytes r v.1 b ++ pickBytes (r + 4) u.1 b, u.2)
  | .unaligned => (b.map (fun _ => 0xFF#8), s.flagAccess path off 1)

/-- The word that a write of `data` from `off` puts into the register at `r`. -/
def wordIn (off : Nat) (data : List Byte) (r : Nat) : Word := BitVec.ofNat 32 (fieldLE data (r - off) 4)

/-- A write of W0. -/
def State.w0Write (s : State) (path off en : Nat) (data : List Byte) : State :=
  match judge off data.length en with
  | .nothing => s
  | .whole r => s.writeW0 path r (wordIn off data r)
  | .narrow r => (s.narrowWrite path r).flagAccess path off 0
  | .pair r => (s.writeW0 path r (wordIn off data r)).writeW0 path (r + 4) (wordIn off data (r + 4))
  | .unaligned => s.flagAccess path off 1

/-! ## The three rows -/

/-- A read on one of the paths of R445; VF p + 1 reaches its own page only, and Loupe nothing before an unlock (R469). -/
def State.w0Request (s : State) (path rid off n en : Nat) : State :=
  let go := fun s : State =>
    let r := s.w0Read path off n en
    r.2.emit (.answer path (.data r.1))
  if path = 0 then (if s.host.en then go s else s)
  else if path ≤ 16 then
    if !s.vfThere (path - 1) then s
    else if s.vfServed (path - 1) then go s
    else (s.hostRefused path 2 rid (path - 1)).emit (.answer path .ur)
  else if path = 17 then go s
  else if s.mgmt.debugUnlocked then go s
  else s.emit (.loupe 1 [])

/-- RC_REGISTER_READ (R6, R8, R446). -/
def execRcRegisterRead (path rid off n en : Nat) (s : State) : Host.Outcome State Fault Refusal := ok (s.w0Request path rid off n en)

/-- LO_REGISTER_READ (R447). -/
def execLoRegisterRead (path rid off n en : Nat) (s : State) : Host.Outcome State Fault Refusal := ok (s.w0Request path rid off n en)

/-- A write on one of the paths; a TLP that arrives poisoned is dropped (R437). -/
def State.w0Post (s : State) (path rid off en : Nat) (data : List Byte) (poisoned : Bool) : State :=
  if path = 0 then
    if !s.host.en then s
    else if poisoned then s.hostRefused 0 7 rid 255
    else s.w0Write path off en data
  else if path ≤ 16 then
    if !s.vfThere (path - 1) then s
    else if !s.vfServed (path - 1) then s.hostRefused path 2 rid (path - 1)
    else if poisoned then s.hostRefused path 7 rid (path - 1)
    else s.w0Write path off en data
  else if path = 17 then s.w0Write path off en data
  else if s.mgmt.debugUnlocked then s.w0Write path off en data
  else s.emit (.loupe 1 [])

/-- REGISTER_WRITE (R6, R7, R9, R446). -/
def execRegisterWrite (path rid off en : Nat) (data : List Byte) (poisoned : Bool) (s : State) : Host.Outcome State Fault Refusal :=
  ok (s.w0Post path rid off en data poisoned)

/-- MSIX_UNMASK (R442): software clears the mask bit of a vector's table entry. -/
def execMsixUnmask (fn v : Nat) (s : State) : Host.Outcome State Fault Refusal :=
  ok (if fn = 0 then (if v < 2048 then s.pfWrite 0 (fun s => s.msixWrite 0 (16 * v + 12) 0) else s)
    else if v < 64 then s.vfWrite (fn - 1) (fun s => s.writePage (fn - 1) (0xF0000 + 16 * v + 12) 0) else s)

end Sys2Proof.Machine
end

