-- ==== Sys2Proof/Machine/Spdm.lean ====
section
/-!
DEFINITION. What reaches the management controller (R458, R459, R482, R497, R536, R537): SPDM requests and sessions,
measurements (R474), MCTP control messages and the SMBus.
-/

namespace Sys2Proof.Machine

/-! ## Violations (R536, R537) -/

/-- Is the partner ignored (R537)? -/
def State.ignoring (s : State) (partner : Nat) : Bool := decide (s.now < NatMap.get 0 s.mgmt.ignored partner)

/-- A partner breaks its protocol as row `row` of R536 says: the violation is recorded and answered, but for one that is the
65th within 1 s. From that one on the partner is ignored for 1 s, and one record stands for the episode. `aux` is R511's code of a
PLDM refusal (R509). -/
def State.violates (s : State) (partner row : Nat) (answer : State → State) (aux : Nat := 0) : State :=
  let recent := (NatMap.get [] s.mgmt.viols partner).filter (fun t => decide (s.now < t + cyclesPerSecond))
  if 64 ≤ recent.length then
    let s := { s with mgmt := { s.mgmt with
      viols := NatMap.set [] s.mgmt.viols partner [], ignored := NatMap.set 0 s.mgmt.ignored partner (s.now + cyclesPerSecond) } }
    s.logErr { cls := 0, source := 0x0C, code := 3, detail := row, episode := some (recent.length + 1) }
  else
    answer (({ s with mgmt := { s.mgmt with viols := NatMap.set [] s.mgmt.viols partner (recent ++ [s.now]) } }).logErr
      { cls := 0, source := 0x0C, code := 3, detail := row, aux := aux })

/-- PARTNER_IGNORE_END (R537). -/
def execPartnerIgnoreEnd (partner t : Nat) (s : State) : Host.Outcome State Fault Refusal :=
  let s := s.advance t
  ok (if s.ignoring partner then s else { s with mgmt := { s.mgmt with ignored := NatMap.set 0 s.mgmt.ignored partner 0 } })

/-- SMBUS_CLOCK_TIMEOUT (R536): the SMBus interface resets. -/
def execSmbusClockTimeout (partner t : Nat) (s : State) : Host.Outcome State Fault Refusal :=
  ok (((s.advance t).violates partner 5 id).emit .smbusReset)

/-! ## Sessions (R459) -/

/-- A management session ends. -/
def State.endMgmt (s : State) (id : Nat) : State :=
  match s.mgmt.sessions.find? (fun x => x.id == id) with
  | none => s
  | some x =>
    let s := { s with mgmt := { s.mgmt with sessions := s.mgmt.sessions.filter (fun x => x.id != id) } }
    if x.live then s.sesEvent 1 else s

/-- The session a message names, if it stands. -/
def State.mgmtSession (s : State) (q : Ask) : Option MSess :=
  s.mgmt.sessions.find? (fun x => x.id == q.session && x.partner == q.partner && q.session != 0)

/-- A session has had traffic. -/
def State.touch (s : State) (id : Nat) : State :=
  { s with mgmt := { s.mgmt with sessions := s.mgmt.sessions.map (fun x => if x.id = id then { x with lastAt := s.now } else x) } }

/-- The heartbeat limit: three periods of 60 s. -/
def heartbeatLimit : Nat := 3 * 60 * cyclesPerSecond

/-- HEARTBEAT_TIMEOUT (R459). -/
def execHeartbeatTimeout (session t : Nat) (s : State) : Host.Outcome State Fault Refusal :=
  let s := s.advance t
  ok (match s.mgmt.sessions.find? (fun x => x.id == session) with
    | some x => if x.lastAt + heartbeatLimit ≤ s.now then s.endMgmt session else s
    | none => s)

/-! ## Messages (R482) -/

/-- Error codes of DSP0274. -/
def errInvalid : Nat := 0x01
def errBusy : Nat := 0x03
def errUnexpected : Nat := 0x04
def errDecrypt : Nat := 0x06
def errSessionLimit : Nat := 0x0A
def errSessionRequired : Nat := 0x0B
def errLarge : Nat := 0x0F
def errVersion : Nat := 0x41

def State.spdmError (s : State) (code : Nat) : State := s.emit (.spdm 0x7F [code] [])

/-- 50 ms from the release of reset the ROM begins to answer (R482). -/
def State.romAnswers (s : State) : Bool := decide (s.boot.released + 75000000 ≤ s.now)

/-- A message reaches the management controller: discarded while its partner is ignored or where its packet is broken,
unanswered while the address is NACKed, and answered `busy` until Safelight runs. -/
def State.hear (s : State) (q : Ask) (busy : State → State) (f : State → State) : State :=
  let s := s.advance q.t
  if s.boot.held ∨ s.boot.halted ∨ s.ignoring q.partner then s
  else if !s.mgmt.up ∧ !s.boot.ready ∧ !s.romAnswers then s
  else if q.packet ≠ 0 then s.violates q.partner q.packet id
  else if !s.mgmt.up then busy s
  else f s

/-- An SPDM message: one inside a session must authenticate, or the session ends (R536). -/
def State.hearSpdm (s : State) (q : Ask) (f : State → State) : State :=
  s.hear q (fun s => s.spdmError errBusy) (fun s =>
    if q.session = 0 then f s
    else if !q.auth then (s.violates q.partner 9 (fun s => s.spdmError errDecrypt)).endMgmt q.session
    else if (s.mgmtSession q).isNone then s.spdmError errSessionRequired
    else f (s.touch q.session))

/-- A response, in chunks where it is longer than the partner takes at once. -/
def State.respond (s : State) (q : Ask) (code : Nat) (args : List Nat) (bytes : List Byte) : State :=
  let n := NatMap.get 0 s.mgmt.largest q.partner
  if n ≠ 0 ∧ n < bytes.length then
    ({ s with mgmt := { s.mgmt with response := NatMap.set [] s.mgmt.response q.partner bytes } }).spdmError errLarge
  else s.emit (.spdm code args bytes)

/-- A request that comes out of order (R536). -/
def State.unexpected (s : State) (q : Ask) : State := s.violates q.partner 8 (fun s => s.spdmError errUnexpected)

/-- How far a partner's negotiation is: 0 not begun, 1 version, 2 capabilities, 3 algorithms. -/
def State.stage (s : State) (q : Ask) : Nat := NatMap.get 0 s.mgmt.stages q.partner
def State.setStage (s : State) (q : Ask) (n : Nat) : State := { s with mgmt := { s.mgmt with stages := NatMap.set 0 s.mgmt.stages q.partner n } }

/-! ## Negotiation (R458) -/

/-- GET_VERSION: version 1.3 only. It begins the negotiation anew. -/
def execGetVersion (q : Ask) (s : State) : Host.Outcome State Fault Refusal :=
  ok (s.hearSpdm q (fun s => if q.session ≠ 0 then s.unexpected q else (s.setStage q 1).respond q 0x04 [0x13] []))

/-- GET_CAPABILITIES, with the version it speaks and the largest message the partner takes. -/
def execGetCapabilities (q : Ask) (version largest : Nat) (s : State) : Host.Outcome State Fault Refusal :=
  ok (s.hearSpdm q (fun s =>
    if q.session ≠ 0 ∨ s.stage q = 0 ∨ s.stage q > 2 then s.unexpected q
    else if version ≠ 0x13 then s.spdmError errVersion
    else ({ s with mgmt := { s.mgmt with largest := NatMap.set 0 s.mgmt.largest q.partner largest } }).setStage q 2
      |>.respond q 0x61 [0x13] (Config.standardBytes 0x61 0)))

/-- NEGOTIATE_ALGORITHMS: the offer must contain ECDSA P-384, SHA-384, AES-256-GCM and the SPDM key schedule. -/
def execNegotiateAlgorithms (q : Ask) (offered : Bool) (s : State) : Host.Outcome State Fault Refusal :=
  ok (s.hearSpdm q (fun s =>
    if q.session ≠ 0 ∨ s.stage q < 2 then s.unexpected q
    else if !offered then s.spdmError errInvalid
    else (s.setStage q 3).respond q 0x63 [] (Config.standardBytes 0x63 0)))

/-! ## Identity and measurements (R474) -/

/-- The byte of flash at an offset; an erased one is 0xFF. -/
def State.flashByte (s : State) (a : Nat) : Byte := ~~~ (NatMap.get 0#8 s.nv.cells a)
def State.flashBytes (s : State) (a n : Nat) : List Byte := (List.range n).map (fun i => s.flashByte (a + i))

/-- The first byte of a slot (R500), its manifest, and one of its components (R501, R502), by TYPE. -/
def slotBase (slot : Nat) : Nat := if slot = 0 then 0x00100000 else 0x03100000
def State.manifest (s : State) (slot : Nat) : List Byte := s.flashBytes (slotBase slot) 832
/-- The entry of component `ty` in a manifest: its offset, length and digest. -/
def manifestEntry (m : List Byte) (ty : Nat) : List Byte := (m.drop (64 + 80 * (ty - 1))).take 80
def State.component (s : State) (slot ty : Nat) : List Byte :=
  let e := manifestEntry (s.manifest slot) ty
  s.flashBytes (slotBase slot + fieldLE e 8 4) (fieldLE e 12 4)

/-- Measurement `i`. Its content is a digest but for 10 and 11. -/
def State.measurement (s : State) (i : Nat) : List Byte :=
  if i = 1 then digestBytes Config.romDigest
  else if 2 ≤ i ∧ i ≤ 8 then digestBytes (Config.sha384 (s.component s.boot.slot (i - 1)))
  else if i = 9 then digestBytes (Config.sha384 s.plate.installedBytes)
  else if i = 10 then natLE 1 s.fuseVersion
  else natLE 1 (flag s.held.lock 0) ++ natLE 1 s.held.debugPolicy ++ natLE 1 (flag s.mgmt.debugUnlocked 0) ++ natLE 1 (flag s.held.claimed 0)

/-- The certificate chain of slot 0. -/
def State.chain (s : State) : List Byte := Config.certChain s.fuseVersion (Config.sha384 (s.component s.boot.slot 1))

/-- A request that the negotiation must precede. -/
def State.negotiated (s : State) (q : Ask) (f : State → State) : State :=
  s.hearSpdm q (fun s => if s.stage q < 3 then s.unexpected q else f s)

def execGetDigests (q : Ask) (s : State) : Host.Outcome State Fault Refusal :=
  ok (s.negotiated q (fun s => s.respond q 0x01 [1] (digestBytes (Config.sha384 s.chain))))

/-- GET_CERTIFICATE: slot 0 only. -/
def execGetCertificate (q : Ask) (slot off n : Nat) (s : State) : Host.Outcome State Fault Refusal :=
  ok (s.negotiated q (fun s =>
    if slot ≠ 0 ∨ s.chain.length < off then s.spdmError errInvalid
    else s.respond q 0x02 [0, s.chain.length - off - n] ((s.chain.drop off).take n)))

/-- CHALLENGE, signed with the Alias key. -/
def execSpdmChallenge (q : Ask) (slot : Nat) (nonce : List Byte) (s : State) : Host.Outcome State Fault Refusal :=
  ok (s.negotiated q (fun s =>
    if q.session ≠ 0 then s.unexpected q
    else if slot ≠ 0 then s.spdmError errInvalid
    else
      let d := s.draw
      let body := digestBytes (Config.sha384 s.chain) ++ natLE 32 (Config.nonce d.1).toNat
      d.2.respond q 0x03 [0] (body ++ Config.aliasSign (nonce ++ body))))

/-- GET_MEASUREMENTS: index 0 asks how many there are, 255 for all, and any other for one. -/
def execGetMeasurements (q : Ask) (index : Nat) (sign : Bool) (nonce : List Byte) (s : State) : Host.Outcome State Fault Refusal :=
  ok (s.negotiated q (fun s =>
    if index ≠ 255 ∧ 11 < index then s.spdmError errInvalid
    else
      let is_ := if index = 0 then [] else if index = 255 then (List.range 11).map (· + 1) else [index]
      let body := is_.flatMap (fun i => natLE 1 i ++ natLE 2 (s.measurement i).length ++ s.measurement i)
      if sign then
        let d := s.draw
        let body := body ++ natLE 32 (Config.nonce d.1).toNat
        d.2.respond q 0x60 [11, is_.length] (body ++ Config.aliasSign (nonce ++ body))
      else s.respond q 0x60 [11, is_.length] body))

/-! ## Management sessions (R459) -/

/-- The place of a role's PSK in the archive. -/
def pskKey (role part : Nat) : Nat := if role = 3 then 16 + part else role

/-- Is a PSKHint one of R459: a role code, and the partition for OPERATOR or 0xFF? -/
def hintOk (role part : Nat) : Bool :=
  if role = 3 then decide (part < 16) else (role == 1 || role == 2 || role == 4) && part == 255

/-- PSK_EXCHANGE. -/
def execPskExchange (q : Ask) (role part : Nat) (s : State) : Host.Outcome State Fault Refusal :=
  ok (s.negotiated q (fun s =>
    if q.session ≠ 0 then s.unexpected q
    else if 8 ≤ s.mgmt.sessions.length then s.spdmError errSessionLimit
    else if !hintOk role part ∨ (NatMap.get none s.held.psks (pskKey role part)).isNone then s.spdmError errInvalid
    else
      let x : MSess := { id := s.mgmt.nextSess, role := role, part := part, partner := q.partner, lastAt := s.now }
      ({ s with mgmt := { s.mgmt with sessions := s.mgmt.sessions ++ [x], nextSess := x.id + 1 } }).respond q 0x66 [x.id] []))

/-- PSK_FINISH: `key` is the key the requester holds. A wrong one ends the attempt. -/
def execPskFinish (q : Ask) (key : BitVec 384) (s : State) : Host.Outcome State Fault Refusal :=
  ok (s.hearSpdm q (fun s =>
    match s.mgmtSession q with
    | none => s.spdmError errSessionRequired
    | some x =>
      if x.live then s.unexpected q
      else if NatMap.get none s.held.psks (pskKey x.role x.part) = some key then
        let l := s.mgmt.sessions.map (fun (y : MSess) => if y.id = x.id then { y with live := true } else y)
        (({ s with mgmt := { s.mgmt with sessions := l } }).sesEvent 0).respond q 0x67 [] []
      else ((s.endMgmt x.id).authFail x.role x.part 0).spdmError errInvalid))

/-- A request that a live session must carry (R462). -/
def State.inSession (s : State) (q : Ask) (f : MSess → State → State) : State :=
  s.hearSpdm q (fun s =>
    match s.mgmtSession q with
    | none => s.spdmError errSessionRequired
    | some x => if x.live then f x s else s.unexpected q)

def execHeartbeat (q : Ask) (s : State) : Host.Outcome State Fault Refusal := ok (s.inSession q (fun _ s => s.respond q 0x68 [] []))
def execKeyUpdate (q : Ask) (tag : Nat) (s : State) : Host.Outcome State Fault Refusal :=
  ok (s.inSession q (fun _ s => s.respond q 0x69 [tag] []))
def execEndSession (q : Ask) (s : State) : Host.Outcome State Fault Refusal :=
  ok (s.inSession q (fun x s => (s.respond q 0x6C [] []).endMgmt x.id))

/-- CHUNK_SEND: the chunks of a request are kept until the last, which completes it; the request is then a message of its own. -/
def execChunkSend (q : Ask) (handle seq : Nat) (last : Bool) (chunk : List Byte) (s : State) : Host.Outcome State Fault Refusal :=
  ok (s.hearSpdm q (fun s =>
    if q.session = 0 then s.spdmError errSessionRequired
    else
      let l := if seq = 0 then chunk else NatMap.get [] s.mgmt.chunks q.partner ++ chunk
      ({ s with mgmt := { s.mgmt with chunks := NatMap.set [] s.mgmt.chunks q.partner (if last then [] else l) } }).respond q 0x05 [handle, seq] []))

/-- CHUNK_GET: the next chunk of a response that was too large. -/
def execChunkGet (q : Ask) (handle seq : Nat) (s : State) : Host.Outcome State Fault Refusal :=
  ok (s.hearSpdm q (fun s =>
    let l := NatMap.get [] s.mgmt.response q.partner
    let n := NatMap.get 0 s.mgmt.largest q.partner
    if q.session = 0 then s.spdmError errSessionRequired
    else if l = [] ∨ l.length ≤ seq * n then s.unexpected q
    else
      let done := decide (l.length ≤ (seq + 1) * n)
      let s := if done then { s with mgmt := { s.mgmt with response := NatMap.set [] s.mgmt.response q.partner [] } } else s
      s.emit (.spdm 0x06 [handle, seq, flag done 0] ((l.drop (seq * n)).take n))))

/-! ## MCTP control messages -/

/-- MCTP_CONTROL_MESSAGE: Set and Get Endpoint ID, Get MCTP Version Support and Get Message Type Support. -/
def State.mctpControl (s : State) (q : Ask) (cmd : Nat) (body : List Byte) : State :=
  match cmd with
  | 1 =>
    let s := { s with mgmt := { s.mgmt with eid := Sys2Proof.byteAt body 1 } }
    s.emit (.mctp 0 (natLE 1 s.mgmt.eid))
  | 2 => s.emit (.mctp 0 (natLE 1 s.mgmt.eid))
  | 4 => s.emit (.mctp 0 (Config.standardBytes 4 0))
  | 5 => s.emit (.mctp 0 (Config.standardBytes 5 0))
  | _ => s.violates q.partner 7 (fun s => s.emit (.mctp 5 []))

def execMctpControlMessage (q : Ask) (cmd : Nat) (body : List Byte) (s : State) : Host.Outcome State Fault Refusal :=
  ok (s.hear q (fun s => s.emit (.mctp 4 [])) (fun s => s.mctpControl q cmd body))

/-! ## IDE_KM (R443) -/

def State.ideStream (s : State) (n : Nat) : IdeStream := NatMap.get {} s.host.ide n
def State.setIde (s : State) (n : Nat) (x : IdeStream) : State := { s with host := { s.host with ide := NatMap.set {} s.host.ide n x } }

/-- An IDE_KM message is carried out: keys are programmed, and a keyed stream is started or stopped. -/
def State.ideKm (s : State) (r : IdeKm) : State :=
  match r with
  | .query => s.emit (.spdm 0x7E [1, 9] (natLE 2 (maskOf 9 (fun n => (s.ideStream n).active))))
  | .program n => if n ≤ 8 then (s.setIde n { s.ideStream n with keyed := true }).emit (.spdm 0x7E [3, n, 0] []) else s.emit (.spdm 0x7E [3, n, 1] [])
  | .setGo n =>
    if (s.ideStream n).keyed then (s.setIde n { keyed := true, active := true }).emit (.spdm 0x7E [6, n, 0] []) else s.emit (.spdm 0x7E [6, n, 1] [])
  | .setStop n => (s.setIde n { s.ideStream n with active := false }).emit (.spdm 0x7E [6, n, 0] [])

def execIdeKmRequest (q : Ask) (r : IdeKm) (s : State) : Host.Outcome State Fault Refusal := ok (s.inSession q (fun _ s => s.ideKm r))

/-! ## Loupe (R396, R469, R470) -/

/-- May an instruction go to a stack's IEEE 1500 controller raw: every channel of the stack is in test state, and it is none
for hard repair or fuses? -/
def State.raw1500 (s : State) (t : Nat) (hard : Bool) : Bool :=
  s.mgmt.debugUnlocked && !hard && (List.range 32).all (fun n => s.testState (32 * t + n))

/-- LOUPE_REQUEST. -/
def State.loupe (s : State) (r : LoupeReq) : State :=
  let no := s.emit (.loupe 1 [])
  match r with
  | .scan => s.emit (.loupe 0 [])
  | .idcode => s.emit (.loupe 0 (natLE 4 0x14616BE7))
  | .ieee1500 t hard => if s.raw1500 t hard then s.emit (.loupe 0 (Config.standardBytes 1500 t)) else no
  | .memory a n =>
    if !s.mgmt.debugUnlocked then no
    else match s.readDev a n .host with
      | (.ok b, s) => s.emit (.loupe 0 b)
      | (.error _, s) => s.emit (.loupe 1 [])

def execLoupeRequest (r : LoupeReq) (s : State) : Host.Outcome State Fault Refusal := ok (s.loupe r)

end Sys2Proof.Machine
end

