-- ==== Sys2Proof/Machine/Flash.lean ====
section
/-!
DEFINITION. What the flash and the fuses hold and how it is judged and written: slots and manifests (R501 to R503, R489),
selector records (R504, R505, R514, R515), boot counters (R485) and the security version (R475, R517).
-/

namespace Sys2Proof.Machine

/-! ## Raw cells -/

/-- Program bytes at a flash offset; an erased byte is 0xFF and is not listed. -/
def programCells (m : NatMap Byte) (a : Nat) : List Byte → NatMap Byte
  | [] => m
  | b :: bs => programCells (NatMap.set 0#8 m a (~~~ b)) (a + 1) bs

def State.program (s : State) (a : Nat) (bs : List Byte) : State :=
  { s with nv := { s.nv with cells := programCells s.nv.cells a bs } }

/-- Erase `n` bytes from a flash offset. -/
def State.eraseFlash (s : State) (a n : Nat) : State :=
  { s with nv := { s.nv with cells := NatMap.filterKeys (fun k => decide (k < a) || decide (a + n ≤ k)) s.nv.cells } }

/-! ## Manifests (R501 to R503) -/

/-- The manifest digest: SHA-384 of bytes [623:0]. -/
def manifestDigest (m : List Byte) : BitVec 384 := Config.sha384 (m.take 624)

def manifestSvn (m : List Byte) : Nat := byteAt m 16
def manifestSetver (m : List Byte) : Nat := fieldLE m 18 2
def manifestLen (m : List Byte) : Nat := fieldLE m 12 4
/-- VERSION, four bytes. -/
def manifestVersion (m : List Byte) : List Byte := (m.drop 20).take 4

/-- OFFSET and LENGTH of component `ty`. -/
def entryOff (m : List Byte) (ty : Nat) : Nat := fieldLE (manifestEntry m ty) 8 4
def entryLen (m : List Byte) (ty : Nat) : Nat := fieldLE (manifestEntry m ty) 12 4

/-- Is the signature accepted: the key is Folzia's, and it verifies (R503)? -/
def signatureOk (m : List Byte) : Bool :=
  let key := (m.drop 632).take 97
  decide (Config.sha384 key = Config.firmwareKeyHash) && Config.ecdsaVerify key ((m.drop 736).take 96) (manifestDigest m)

/-- Does the content of a component match its DIGEST? -/
def State.componentOk (s : State) (slot ty : Nat) : Bool :=
  decide (digestBytes (Config.sha384 (s.component slot ty)) = (manifestEntry (s.manifest slot) ty).drop 32)

/-- Do two of the ranges of components overlap, or does one meet the first 4 KiB (R502)? -/
def entriesApart (m : List Byte) (ty : Nat) : Bool :=
  (List.range (ty - 1)).all (fun i =>
    decide (entryOff m (i + 1) + entryLen m (i + 1) ≤ entryOff m ty) || decide (entryOff m ty + entryLen m ty ≤ entryOff m (i + 1)))

/-- The rules of one component entry (R502); `o` is where it begins. -/
def entryFault (m : List Byte) (ty : Nat) : Option Nat :=
  let o := 64 + 80 * (ty - 1)
  let off := entryOff m ty
  let len := entryLen m ty
  let limit := if ty = 5 then decide (len ≤ 262144) else if ty = 6 then len == 4112
    else if ty = 4 then decide (entryLen m 1 + len ≤ 2 ^ 24) else true
  firstFail [need (byteAt m o == ty) o, need (zeroAt m (o + 1) 7) (o + 1), need (off % 4096 == 0 && decide (4096 ≤ off)) (o + 8),
    need (decide (1 ≤ len) && decide (off + len ≤ manifestLen m) && limit) (o + 12), need (entriesApart m ty) (o + 8),
    need (zeroAt m (o + 16) 16) (o + 16)]

/-- The first manifest byte that breaks R501 or R502, or an IMAGE_LEN other than the one expected. -/
def manifestFault (m : List Byte) (len : Nat) : Option Nat :=
  firstFail ([need (fieldLE m 0 4 == 0x4D465844) 0, need (fieldLE m 4 2 == 1) 4, need (fieldLE m 6 2 == 7) 6, need (fieldLE m 8 4 == 832) 8,
    need (manifestLen m == len && manifestLen m % 4096 == 0 && decide (manifestLen m ≤ 48 * 2 ^ 20)) 12,
    need (decide (manifestSvn m ≤ 64)) 16, need (byteAt m 17 == 0) 17, need (decide (1 ≤ manifestSetver m)) 18, need (zeroAt m 32 32) 32]
    ++ (List.range 7).map (fun i => entryFault m (i + 1)))

/-! ## Selector records (R504, R505) -/

/-- Does a slot's manifest digest agree with the selector's digest for it? -/
def State.slotDigestOk (s : State) (slot : Nat) : Bool :=
  match s.selector with
  | none => true
  | some x =>
    let d := manifestDigest (s.manifest slot)
    if slot = x.active then decide (d = x.activeDigest) else if x.previous = some slot then decide (d = x.previousDigest) else true

/-- Does a slot pass R489: selector digest, signature, security version, and the digests of SAFELIGHT and HOSTIF? -/
def State.slotOk (s : State) (slot : Nat) : Bool :=
  s.slotDigestOk slot && signatureOk (s.manifest slot) && decide (s.fuseVersion ≤ manifestSvn (s.manifest slot))
    && s.componentOk slot 1 && s.componentOk slot 4

/-- Write a selector record to the copy with the lower valid SEQ. Where both attempts fail that copy is no longer valid, and the
record in force is unchanged. -/
def State.writeSelector (s : State) (okay : Bool) (x : Selector) : Bool × State :=
  let seq := (match s.selector with | some o => o.seq | none => 0) + 1
  let y := if okay then some { x with seq := seq } else none
  let first := match s.nv.sel0, s.nv.sel1 with
    | none, _ => true
    | some _, none => false
    | some a, some b => decide (a.seq ≤ b.seq)
  (okay, { s with nv := if first then { s.nv with sel0 := y } else { s.nv with sel1 := y } })

/-- The selector of a revert (R514, R515): PREVIOUS becomes ACTIVE, confirmed. -/
def Selector.reverted (x : Selector) : Selector :=
  { x with active := x.previous.getD x.active, trial := false, previous := none, fails := 0, autoconf := false,
           activeDigest := x.previousDigest, previousDigest := 0 }

def State.fwuEvent (s : State) (bit : Nat) : State := s.raise 0 (fwuKey 0x10) (fwuKey 0x0C) bit 5

/-- What a revert that has been written reports. -/
def State.tellRevert (s : State) (slot : Nat) : State := (s.fwuEvent 4).logErr { cls := 0, source := 0x0E, code := 2, detail := slot }

/-! ## Boot counters (R485) -/

/-- The copy in force: the valid one with the higher SEQ. -/
def State.counter (s : State) : Option Counter :=
  match s.nv.cnt0, s.nv.cnt1 with
  | some a, some b => if b.seq > a.seq then some b else some a
  | some a, none => some a
  | none, b => b

/-- Write the counter to the copy with the lower valid SEQ; a write that fails leaves that copy invalid. -/
def State.writeCounter (s : State) (okay : Bool) (c : Counter) : State :=
  let seq := (match s.counter with | some o => o.seq | none => 0) + 1
  let y := if okay then some { c with seq := seq } else none
  let first := match s.nv.cnt0, s.nv.cnt1 with
    | none, _ => true
    | some _, none => false
    | some a, some b => decide (a.seq ≤ b.seq)
  { s with nv := if first then { s.nv with cnt0 := y } else { s.nv with cnt1 := y } }

/-! ## The security version (R475, R517) -/

/-- Blow cells `v` to `v + n − 1` in ascending order, stopping at one that does not read back blown: the cell `bad`. -/
def blow (bad : Option Nat) : Nat → Nat → Dword → Dword
  | _, 0, f => f
  | v, n + 1, f => if bad = some v then f else blow bad (v + 1) n (f ||| BitVec.twoPow 64 v)

/-- Raise the security version to `v`: whether it got there, and the state after. -/
def State.raiseFuses (s : State) (v : Nat) (bad : Option Nat) : Bool × State :=
  let old := s.fuseVersion
  if v ≤ old then (true, s)
  else
    let s := { s with nv := { s.nv with fuses := blow bad old (v - old) s.nv.fuses } }
    let new := s.fuseVersion
    let s := if old < new then s.fwuEvent 6 else s
    if v ≤ new then (true, s) else (false, s.logErr { cls := 0, source := 0x0E, code := 1, detail := new })

/-! ## Confirmation (R515) -/

/-- Confirm the trial: the selector is written, the security version raised, and CONFIRMED raised. The code is one of R511. -/
def State.confirm (s : State) (stores : Bool) (bad : Option Nat) : Nat × State :=
  match s.selector with
  | none => (1, s)
  | some x =>
    match s.writeSelector stores { x with trial := false } with
    | (false, s) => (0x10, s)
    | (true, s) =>
      match s.raiseFuses s.boot.svn bad with
      | (done, s) => (if done then 0 else 0x11, s.fwuEvent 3)

end Sys2Proof.Machine
end

