-- ==== Sys2Proof/Machine/HostCmds.lean ====
section
/-!
DEFINITION. Host requests other than register accesses: PF and VF windows W2 (R437 to R439), CXL.mem and its mailbox (R434,
R435), resets and power states of functions (R440), configuration requests (R430, R482) and the host link (R436).
-/

namespace Sys2Proof.Machine

/-! ## Service-only operation (R436) -/

/-- The reason code of R436 that holds now, 0 for none. -/
def State.hostReason (s : State) : Nat :=
  let y := s.plate.sysInForce
  let h := s.host
  let width := if h.linkUp then h.width else 0
  let speed := if h.linkUp then h.speed else 0
  if s.plate.installed.isNone then (if s.boot.service then 4 else 0)
  else if width < y.hostWidth then 1
  else if speed < y.hostSpeed then 2
  else if h.strap != (y.hostMode == 1) then 3
  else if s.boot.service then 4
  else 0

/-- The comparison of R436, with what R101 and R528 record of a departure. -/
def State.judgeHost (s : State) : State :=
  let r := s.hostReason
  if r = s.host.serviceReason then s
  else
    let s := { s with host := { s.host with serviceReason := r } }
    if r = 0 then s
    else
      let s := (s.hifEvent 2).logErr { cls := 0, source := 0x0A, code := 2, detail := r }
      if r = 4 then s
      else (s.logErr { cls := 0, source := 0x0B, code := 1, detail := if r = 3 then 4 else 3 }).pltEvent 6

/-- HOST_LINK_RETRAIN (R436): the link has trained at a speed and width, in flit mode or not. -/
def State.linkTrained (s : State) (speed width : Nat) (flitMode : Bool) : State :=
  let s := { s with host := { s.host with linkUp := true, speed := speed, width := width, flit := flitMode } }
  (s.hifEvent 1).judgeHost

def execHostLinkRetrain (speed width : Nat) (flitMode : Bool) (s : State) : Host.Outcome State Fault Refusal :=
  ok (s.linkTrained speed width flitMode)

/-! ## W2 (R437 to R439) -/

/-- What stands against an access to one piece of device memory: a row of R437, or none. -/
def pieceRow (r : Except MemErr (List Byte)) : Option Nat :=
  match r with
  | .ok _ => none
  | .error .poison => some 6
  | .error _ => some 4

/-- The row for a device-local address within which a PF access lies, as far as it does not depend on the line's content:
unreachable, or of a granule that a partition owns and does not test (R438). -/
def State.pfRow (s : State) (a : Nat) : Option Nat :=
  if !s.backed a then some 4
  else
    match regionOf a with
    | .dram g _ => if s.haltedAt g then some 4 else if s.testState (2 * g) then none else some 5
    | .tray g _ => if s.testState (2 * g) then none else some 5
    | .ks g _ => if s.testState (2 * g) then none else some 5
    | _ => some 4

/-- The row for a partition address of a VF access (R439), and where it lies. -/
def State.vfRow (s : State) (p : Nat) (acc : Access) (pa : Nat) : Except Nat Nat :=
  let st := (s.part p).state
  if !(st == .running || st == .held || st == .draining) || !s.sessionOpen p || decide (2 ^ 48 ≤ pa) then .error 5
  else match s.translate p 0xFFFF acc pa with
    | .error _ => .error 5
    | .ok (.there _ _) => .error 4
    | .ok (.here a) =>
      if !s.backed a then .error 4
      else match regionOf a with
        | .dram g _ => if s.haltedAt g then .error 4 else .ok a
        | _ => .ok a

/-- The lowest of the rows that pieces meet. -/
def firstRow (l : List (Option Nat)) : Option Nat :=
  (l.filterMap id).foldl (fun b r => match b with | some x => some (min x r) | none => some r) none

/-- Read the pieces of a request whose addresses are all good, whatever their lines hold: the bytes, or that a line is poisoned. -/
def State.readAll (s : State) : List (Nat × Nat) → Option (List Byte) × State
  | [] => (some [], s)
  | (a, n) :: l =>
    match s.readPiece a n .host with
    | (.ok b, s) =>
      match State.readAll s l with
      | (some r, s) => (some (b ++ r), s)
      | (none, s) => (none, s)
    | (.error _, s) => (none, s)

/-- Answer a request for good pieces. -/
def State.hostRead (s : State) (path rid part : Nat) (l : List (Nat × Nat)) : State :=
  match s.readAll l with
  | (some b, s) => s.emit (.answer path (.data b))
  | (none, s) => (s.hostRefused path 6 rid part).emit (.answer path .ep)

/-- A request that is not carried out. -/
def State.answerRefused (s : State) (path row rid part : Nat) (read : Bool) : State :=
  (s.hostRefused path row rid part).emit (.answer path (if !read then .dropped else if row = 5 then .ca else .ur))

/-- Write the pieces of a request whose addresses are all good. -/
def State.writeAll (s : State) : List (Nat × Nat) → List Byte → State
  | [], _ => s
  | (a, n) :: l, bs => State.writeAll (s.writePiece a (bs.take n) .host 0).2 l (bs.drop n)

/-- May PF W2 be used (R437)? -/
def State.pfW2Open (s : State) : Bool := s.boot.ready && !(s.fn 0).d3hot && s.host.serviceReason == 0

/-- HIF_W2_BASE. -/
def State.w2Base (s : State) : Nat := (s.reg (hifKey 0x14)).toNat + 2 ^ 32 * (s.reg (hifKey 0x18)).toNat

/-- PF_W2_READ (R438): `n` bytes from window offset `off`. -/
def State.pfW2Read (s : State) (rid off n : Nat) : State :=
  let l := chunks 64 (s.w2Base + off) n
  if !s.host.en then s
  else if !s.pfW2Open then s.answerRefused 0 3 rid 255 true
  else match firstRow (l.map (fun c => s.pfRow c.1)) with
    | some row => s.answerRefused 0 row rid 255 true
    | none => s.hostRead 0 rid 255 l

def execPfW2Read (rid off n : Nat) (s : State) : Host.Outcome State Fault Refusal := ok (s.pfW2Read rid off n)

/-- PF_W2_WRITE (R438). -/
def State.pfW2Write (s : State) (rid off : Nat) (data : List Byte) (poisoned : Bool) : State :=
  let l := chunks 64 (s.w2Base + off) data.length
  if !s.host.en then s
  else if !s.pfW2Open then s.answerRefused 0 3 rid 255 false
  else match firstRow (l.map (fun c => s.pfRow c.1)) with
    | some row => s.answerRefused 0 row rid 255 false
    | none => if poisoned then s.answerRefused 0 7 rid 255 false else s.writeAll l data

def execPfW2Write (rid off : Nat) (data : List Byte) (poisoned : Bool) (s : State) : Host.Outcome State Fault Refusal :=
  ok (s.pfW2Write rid off data poisoned)

/-- PG_W2_BASE. -/
def State.pgBase (s : State) (p : Nat) : Nat := (s.reg (pgKey p 0x14)).toNat + 2 ^ 32 * (s.reg (pgKey p 0x18)).toNat

/-- The pieces of a VF request where it is carried out, or the row it is answered under. -/
def State.vfPieces (s : State) (p : Nat) (acc : Access) (off n : Nat) : Except Nat (List (Nat × Nat)) :=
  let l := (chunks 64 (s.pgBase p + off) n).map (fun c => (s.vfRow p acc c.1, c.2))
  match firstRow (l.map (fun c => match c.1 with | .error r => some r | .ok _ => none)) with
  | some r => .error r
  | none => .ok (l.filterMap (fun c => match c.1 with | .ok a => some (a, c.2) | .error _ => none))

/-- A VF request refused: one that R439 refuses also counts on the page. -/
def State.vfRefused (s : State) (p row rid : Nat) (read : Bool) : State :=
  let s := s.answerRefused (p + 1) row rid p read
  if row = 5 then s.denyPage p else s

/-- VF_W2_READ (R439). -/
def State.vfW2Read (s : State) (p rid off n : Nat) : State :=
  if !s.vfThere p then s
  else if !s.vfServed p then s.answerRefused (p + 1) 2 rid p true
  else match s.vfPieces p .read off n with
    | .error row => s.vfRefused p row rid true
    | .ok l => s.hostRead (p + 1) rid p l

def execVfW2Read (p rid off n : Nat) (s : State) : Host.Outcome State Fault Refusal := ok (s.vfW2Read p rid off n)

/-- VF_W2_WRITE (R439). -/
def State.vfW2Write (s : State) (p rid off : Nat) (data : List Byte) (poisoned : Bool) : State :=
  if !s.vfThere p then s
  else if !s.vfServed p then s.answerRefused (p + 1) 2 rid p false
  else match s.vfPieces p .write off data.length with
    | .error row => s.vfRefused p row rid false
    | .ok l => if poisoned then s.answerRefused (p + 1) 7 rid p false else s.writeAll l data

def execVfW2Write (p rid off : Nat) (data : List Byte) (poisoned : Bool) (s : State) : Host.Outcome State Fault Refusal :=
  ok (s.vfW2Write p rid off data poisoned)

/-- The partition a path names, or the device. -/
def pathPart (path : Nat) : Nat := if path = 0 then 255 else path - 1

/-- ATOMICOP (R437): no byte changes. -/
def State.atomicOp (s : State) (path rid : Nat) : State :=
  if !s.host.en ∨ 16 < path ∨ (path ≠ 0 ∧ !s.vfThere (path - 1)) then s
  else ((s.hifEvent 5).hostRefused path 1 rid (pathPart path)).emit (.answer path .ur)

def execAtomicop (path rid : Nat) (s : State) : Host.Outcome State Fault Refusal := ok (s.atomicOp path rid)

/-- VENDOR_DEFINED_MESSAGE (R437): an MCTP message goes to Safelight, which acts on it as the row of its request; another of
Type 0 is answered UR, and one of Type 1 is discarded. -/
def State.vendorMessage (s : State) (rid kind : Nat) (mctp : Bool) : State :=
  if !s.host.en ∨ mctp ∨ kind ≠ 0 then s
  else (s.hostRefused 0 0 rid 255).emit (.answer 0 .ur)

def execVendorDefinedMessage (rid kind : Nat) (mctp : Bool) (s : State) : Host.Outcome State Fault Refusal :=
  ok (s.vendorMessage rid kind mctp)

/-! ## Function-level reset (R440) -/

/-- Clear a function's MSI-X table of `n` entries, and its pending bits. -/
def State.clearMsix (s : State) (fn n : Nat) : State :=
  let lo := msixKey fn 0
  { s with
    regs := NatMap.filterKeys (fun k => decide (k < lo) || decide (lo + 16 * n ≤ k)) s.regs,
    host := { s.host with pend := NatMap.filterKeys (fun k => k / 4096 != fn) s.host.pend } }

/-- A function's configuration space is reset. -/
def State.clearFn (s : State) (fn : Nat) : State :=
  { s with host := { s.host with fns := NatMap.set {} s.host.fns fn {}, aer := NatMap.set 0 s.host.aer fn 0 } }

/-- FLR of VF p + 1. -/
def State.vfFlr (s : State) (p : Nat) : State :=
  let s := s.closeSess p
  let s := (List.range 32).foldl (fun s q => if (s.sq p q).en then s.disableQueue p q else s) s
  let s := (List.range 32).foldl (fun s c => if (s.cq p c).en then s.modCq p c (fun k => { k with en := false, wign := false }) else s) s
  let s := ((s.setReg (pgKey p 0x14) 0).setReg (pgKey p 0x18) 0).setReg (pgKey p 0x0C) 0
  let s := (s.clearMsix (p + 1) 64).clearFn (p + 1)
  ((s.orReg (hifKey 0x1C) p).hifEvent 4).pgEvent p 2

def execVfFlr (p : Nat) (s : State) : Host.Outcome State Fault Refusal := ok (if s.vfThere p then s.vfFlr p else s)

/-- VF Enable is cleared, which acts as an FLR of every VF. -/
def State.vfsOff (s : State) : State :=
  let s := ((List.range 16).filter s.vfThere).foldl State.vfFlr s
  { s with host := { s.host with vfEnable := false } }

/-- PF FLR. -/
def State.pfFlr (s : State) : State :=
  let s := (((s.vfsOff).setReg (hifKey 0x14) 0).setReg (hifKey 0x18) 0)
  let s := (s.setReg (devKey 0x0C) 0).setReg (hifKey 0x0C) 0
  let s := (s.clearMsix 0 2048).clearFn 0
  ({ s with host := { s.host with numVfs := 0, ide := [] } }).hifEvent 3

def execPfFlr (s : State) : Host.Outcome State Fault Refusal := ok (if s.host.en then s.pfFlr else s)

/-- HOT_RESET: a hot reset, or the link goes down; the link then retrains. -/
def State.hotReset (s : State) (linkDown : Bool) : State :=
  let s := if s.host.en then s.pfFlr else s
  let s := { s with host := { s.host with linkUp := false } }
  if linkDown then (s.hifEvent 0).logErr { cls := 0, source := 0x0A, code := 3 } else s

def execHotReset (linkDown : Bool) (s : State) : Host.Outcome State Fault Refusal := ok (s.hotReset linkDown)

/-- Does function `fn` exist? -/
def State.fnThere (s : State) (fn : Nat) : Bool := s.host.en && (fn == 0 || s.vfThere (fn - 1))

def execD3hotEntry (fn : Nat) (s : State) : Host.Outcome State Fault Refusal :=
  ok (if s.fnThere fn then s.modFn fn (fun f => { f with d3hot := true }) else s)

def execD0Return (fn : Nat) (s : State) : Host.Outcome State Fault Refusal :=
  ok (if s.fnThere fn then s.modFn fn (fun f => { f with d3hot := false }) else s)

/-! ## Configuration requests (R430, R433, R442, R482) -/

/-- Vendor, device, revision, class code and subsystem of a function (R430). -/
def State.identBytes (s : State) (fn : Nat) : List Byte :=
  natLE 2 0x1D7F ++ natLE 2 (if fn = 0 then 0x4616 else 0x4617) ++ natLE 1 0x11
    ++ natLE 3 (if s.host.strap then 0x050210 else 0x120000) ++ natLE 2 0x1D7F ++ natLE 2 0x4616

/-- Every vector of a function that is pending and no longer masked sends its message. -/
def State.sendAllPending (s : State) (fn : Nat) : State :=
  ((s.host.pend.filter (fun e => e.1 / 4096 == fn)).map (fun e => e.1 % 4096)).foldl (fun s v => s.sendPending fn v) s

/-- A configuration write or read that is carried out. -/
def State.configure (s : State) (r : CfgReq) : State :=
  match r with
  | .ident fn => if s.fnThere fn then s.emit (.answer fn (.data (s.identBytes fn))) else s.emit (.answer fn .ur)
  | .aer fn => if s.fnThere fn then s.emit (.answer fn (.data (natLE 4 (NatMap.get 0 s.host.aer fn)))) else s.emit (.answer fn .ur)
  | .clearAer fn bits =>
    if s.fnThere fn then
      { s with host := { s.host with aer := NatMap.upd 0 s.host.aer fn (fun v => v - (v &&& bits)) } }
    else s.emit (.answer fn .ur)
  | .busMaster fn on => if s.fnThere fn then s.modFn fn (fun f => { f with busMaster := on }) else s.emit (.answer fn .ur)
  | .msix fn enable mask =>
    if s.fnThere fn then (s.modFn fn (fun f => { f with msixEnable := enable, msixMask := mask })).sendAllPending fn
    else s.emit (.answer fn .ur)
  | .vfEnable on =>
    if on then { s with host := { s.host with vfEnable := true } } else if s.host.vfEnable then s.vfsOff else s
  | .numVfs n => if s.host.vfEnable then s else { s with host := { s.host with numVfs := min n 16 } }
  | .hdm base size ways =>
    if s.host.strap ∧ (ways = 1 ∨ ways = 2 ∨ ways = 4 ∨ ways = 8) then { s with host := { s.host with hdm := some (base, size, ways) } }
    else s

/-- CONFIGURATION_REQUEST (R482): Configuration Request Retry Status until HOST ends. -/
def execConfigurationRequest (r : CfgReq) (s : State) : Host.Outcome State Fault Refusal :=
  ok (if s.boot.held ∨ s.boot.halted then s
    else if !s.host.en then s.emit (.answer 0 .crs)
    else s.configure r)

/-! ## CXL.mem (R434, R435) -/

/-- The bytes a granule counts toward the capacity (R435). -/
def State.cxlBytes (s : State) (g : Nat) : Nat := if s.oneChan g then 2 ^ 31 else 2 ^ 32

/-- The device-local address of a device physical address, walking the granules in order. -/
def State.cxlWalk (s : State) : List Nat → Nat → Option Nat
  | [], _ => none
  | g :: l, d => if d < s.cxlBytes g then some (dramBase g + d) else s.cxlWalk l (d - s.cxlBytes g)

/-- The device physical address of a host address (R434), with 4 KiB interleave granularity. -/
def State.hdmDecode (s : State) (a : Nat) : Option Nat :=
  match s.host.hdm with
  | none => none
  | some (base, size, ways) =>
    if base ≤ a ∧ a < base + size then
      let o := a - base
      let d := o / 4096 / ways * 4096 + o % 4096
      if d < s.host.cxlSize * 2 ^ 28 then some d else none
    else none

/-- An access to a granule that a partition owns (R435). -/
def State.cxlOwned (s : State) : State := (s.incReg (hifKey 0x20)).hifEvent 6

/-- A request outside the HDM decoder's range (R536). -/
def State.cxlOutside (s : State) (rid : Nat) : State := s.logErr { cls := 0, source := 0x0A, code := 1, unit := 0, aux := rid % 2 ^ 16 }

/-- CXL_MEM_READ (R435): the line, or poison. -/
def State.cxlRead (s : State) (addr rid : Nat) : State :=
  let poison := fun s : State => s.emit (.cxl 1 [])
  if !s.host.strap ∨ !s.host.en then s
  else match s.hdmDecode (addr / 64 * 64) with
    | none => poison (s.cxlOutside rid)
    | some d =>
      match s.cxlWalk s.host.cxlGrans d with
      | none => poison (s.cxlOutside rid)
      | some a =>
        if (s.owner (a / 2 ^ 32)).isSome then poison s.cxlOwned
        else match s.readPiece a 64 .host with
          | (.ok b, s) => s.emit (.cxl 0 b)
          | (.error .poison, s) => poison { s with host := { s.host with cxlEvents := s.host.cxlEvents ++ [d] } }
          | (.error _, s) => poison s

def execCxlMemRead (addr rid : Nat) (s : State) : Host.Outcome State Fault Refusal := ok (s.cxlRead addr rid)

/-- CXL_MEM_WRITE (R435): the line is written, or the write is dropped. -/
def State.cxlWrite (s : State) (addr rid : Nat) (data : Line) : State :=
  if !s.host.strap ∨ !s.host.en then s
  else match s.hdmDecode (addr / 64 * 64) with
    | none => s.cxlOutside rid
    | some d =>
      match s.cxlWalk s.host.cxlGrans d with
      | none => s.cxlOutside rid
      | some a => if (s.owner (a / 2 ^ 32)).isSome then s.cxlOwned else (s.writePiece a (lineBytes data) .host 0).2

def execCxlMemWrite (addr rid : Nat) (data : Line) (s : State) : Host.Outcome State Fault Refusal := ok (s.cxlWrite addr rid data)

/-! ## The CXL mailbox (R434) -/

/-- A mailbox command is served in CXL mode. -/
def State.mailbox (s : State) (f : State → State) : State := if s.host.strap ∧ s.host.en then f s else s

/-- IDENTIFY_MEMORY_DEVICE: the capacity in 256 MiB units, all of it volatile; what else the standard's payload holds is its own. -/
def execIdentifyMemoryDevice (s : State) : Host.Outcome State Fault Refusal :=
  ok (s.mailbox (fun s => s.emit (.cxl 0 ((Config.standardBytes 0x4000 0).take 16 ++ natLE 8 s.host.cxlSize ++ natLE 8 s.host.cxlSize
    ++ natLE 8 0 ++ Config.standardBytes 0x4000 1))))

/-- GET_EVENT_RECORDS: how many events are logged and the address of each, with what else the standard's records hold. -/
def execGetEventRecords (s : State) : Host.Outcome State Fault Refusal :=
  ok (s.mailbox (fun s => s.emit (.cxl 0 (natLE 2 s.host.cxlEvents.length
    ++ s.host.cxlEvents.flatMap (fun d => natLE 8 d ++ Config.standardBytes 0x0100 d)))))

/-- CLEAR_EVENT_RECORDS: the oldest `n` events are cleared. -/
def execClearEventRecords (n : Nat) (s : State) : Host.Outcome State Fault Refusal :=
  ok (s.mailbox (fun s => ({ s with host := { s.host with cxlEvents := s.host.cxlEvents.drop n } }).emit (.cxl 0 [])))

/-- The device physical address of a device-local address, if it lies behind CXL.mem. -/
def State.cxlUnwalk (s : State) (a : Nat) : List Nat → Nat → Option Nat
  | [], _ => none
  | g :: l, d => if a / 2 ^ 32 = g ∧ a % 2 ^ 32 < s.cxlBytes g then some (d + a % 2 ^ 32) else s.cxlUnwalk a l (d + s.cxlBytes g)

/-- GET_POISON_LIST: the poisoned lines among `n` bytes of device physical addresses. -/
def execGetPoisonList (addr n : Nat) (s : State) : Host.Outcome State Fault Refusal :=
  ok (s.mailbox (fun s =>
    let l := s.mem.poisoned.filterMap (fun e => if e.1 < 2 ^ 40 then s.cxlUnwalk e.1 s.host.cxlGrans 0 else none)
    let l := l.filter (fun d => decide (addr ≤ d) && decide (d < addr + n))
    s.emit (.cxl 0 (natLE 2 l.length ++ l.flatMap (natLE 8)))))

end Sys2Proof.Machine
end

