-- ==== Sys2Proof/Machine/Boot.lean ====
section
/-!
DEFINITION. Power-up, device resets and the fourteen boot steps (chapter 19). A command STEP_X comes at the moment at which step X
ends: it carries what the hardware found in that step. What a step does at its start is done when the step before it ends.
-/

namespace Sys2Proof.Machine

/-! ## The journal (R486, R487) -/

/-- The newest `n` of a list. -/
def newest {α : Type} (n : Nat) (l : List α) : List α := l.drop (l.length - n)

/-- The flash log takes a record; before it wraps, the sector of 128 records it is about to reuse is erased. -/
def appendLog (log : List JRec) (r : JRec) : List JRec := (if log.length < 254 * 128 then log else log.drop 128) ++ [r]

/-- Write a journal record: it is numbered, and kept in the always-on SRAM and the journal in force. -/
def State.note (s : State) (r : JRec) : State :=
  let r := { r with jseq := s.aon.jseq, bootnum := s.boot.bootnum, time := s.now - s.boot.released }
  { s with
    aon := { s.aon with journal := newest 64 (s.aon.journal ++ [r]), jseq := (s.aon.jseq + 1) % 2 ^ 32 },
    boot := { s.boot with journal := newest 64 (s.boot.journal ++ [r]), unwritten := s.boot.unwritten ++ [r] } }

/-- The records that wait go to the flash log, where the write succeeds (R487). -/
def State.flushJournal (s : State) (stores : Bool) : State :=
  if stores then
    { s with nv := { s.nv with journal := s.boot.unwritten.foldl appendLog s.nv.journal }, boot := { s.boot with unwritten := [] } }
  else s

/-! ## Device resets (R477, R478) -/

/-- Every listed byte of memory takes a value the spec leaves open. -/
def State.scramble (s : State) : State :=
  s.mem.bytes.foldl (fun s e => { s with
    drawn := s.drawn + 1, mem := { s.mem with bytes := NatMap.set 0#8 s.mem.bytes e.1 (Config.freeByte s.drawn) } }) s

/-- The slot an update writes to (R506, R519). -/
def State.fwuTarget (s : State) : Nat :=
  if s.boot.svcReason = 2 then (match s.selector with | some x => 1 - x.active | none => 1) else 1 - s.boot.slot

/-- An update that is abandoned leaves its slot without a valid manifest (R507). -/
def State.dropImage (s : State) : State :=
  match s.fwu.state with
  | .idle => s
  | .activated => s
  | _ => s.eraseFlash (slotBase s.fwu.target) 4096

/-- What a device reset clears and keeps (R478), and the cause it latches (R477). Signals, the trip latch and the event stream
lie in the always-on domain; the flash log is in flash. -/
def State.cleared (s : State) (cause : Nat) : State :=
  let s := s.dropImage.scramble
  { State.reset with
    pending := s.pending, drawn := s.drawn, out := s.out, nv := s.nv,
    mem := { s.mem with poisoned := [], flips := [], wc := [] },
    aon := { s.aon with cause := some cause },
    err := { State.reset.err with stream := s.err.stream, flash := s.err.flash, flashBase := s.err.flashBase },
    env := { s.env with warning := false, warmAt := 0 },
    host := { State.reset.host with strap := s.host.strap } }

/-! ## Paths (R488) -/

/-- The path after the one on which something failed. -/
def nextPath (p : Nat) : Nat := if p = 0 then 1 else if p = 1 then 2 else 0

/-- The kind of unit that step `n` attempts, 0 for none. -/
def stepKind (n : Nat) : Nat := match n with | 3 => 7 | 8 => 1 | 9 => 2 | 10 => 5 | 11 => 6 | _ => 0

/-- Is a kind of unit one that has paths of its own? -/
def ownPath (k : Nat) : Bool := k == 1 || k == 2 || k == 4 || k == 5 || k == 6

/-- The path of a step: the one after that on which it failed in the previous boot. SETTINGS has a path of its own only during a
trial (R514). -/
def State.stepPath (s : State) (n : Nat) : Nat :=
  match s.boot.retry with
  | some r => if r.step = n ∧ n ≠ 1 ∧ !ownPath r.kind ∧ !(n == 6 && !s.trial) then nextPath r.path else 0
  | none => 0

/-- The path of a unit within a step. -/
def State.unitPath (s : State) (n kind unit : Nat) : Nat :=
  match s.boot.retry with
  | some r => if r.step = n ∧ r.kind = kind ∧ r.unit = unit then nextPath r.path else 0
  | none => 0

/-- The records that have a STARTED and no outcome after it, in order. -/
def openRecs : List JRec → List JRec
  | [] => []
  | r :: l =>
    if r.outcome = 0 ∧ r.step ≠ 0
        ∧ !l.any (fun x => x.step == r.step && x.unitKind == r.unitKind && x.unit == r.unit && x.outcome != 0)
    then r :: openRecs l else openRecs l

/-- Records after the last one that passes a test. -/
def afterLast (p : JRec → Bool) (l : List JRec) : List JRec := (l.reverse.takeWhile (fun r => !p r)).reverse

/-- The records of the boot that ended last: those after its step-0 STARTED record. -/
def lastBoot (l : List JRec) : List JRec := afterLast (fun r => r.step == 0 && r.outcome == 0) l

/-- Is a reset cause one that makes a boot FAILED (R484)? -/
def failCause (c : Nat) : Bool := c == 5 || c == 6 || c == 7

/-- What failed in a boot whose records are `l` and which ended with a cause (R484). -/
def failedUnit (l : List JRec) (cause wdog : Nat) : Retry :=
  let r := if cause = 7 then (l.filter (fun r => r.outcome == 3 && r.step != 0)).getLast?
    else ((openRecs l).filter (fun r => cause != 5 || r.step == wdog)).getLast?
  match r with
  | some r => { step := r.step, kind := r.unitKind, unit := r.unit, path := r.path }
  | none => { step := if cause = 5 then wdog else 0 }

/-! ## Steps -/

/-- The most that step `n` may take, in milliseconds (R479). -/
def stepMax (n : Nat) : Nat := ([40, 60, 400, 40, 60, 3000, 2000, 12000, 6000, 1000, 4000, 10000, 1000, 400].drop (n - 1)).headD 0

def cyclesPerMs : Nat := 1500000

/-- Does service mode skip step `n` (R494)? -/
def State.skips (s : State) (n : Nat) : Bool :=
  s.boot.service && decide (n < 13) && n != 5 && !(n == 6 && s.boot.svcReason == 1)

/-- The units that step `n` attempts. -/
def State.stepUnits (s : State) (n : Nat) : List Nat :=
  match n with
  | 8 => (List.range 16).filter (fun t => s.unitPath 8 1 t != 2)
  | 9 => (List.range 256).filter (fun g => s.clusterOn g && s.unitPath 9 2 g != 2)
  | 10 => (List.range 32).filter (fun e => s.unitPath 10 5 e != 2)
  | 11 => (List.range 16).filter (fun q => ((s.plate.sysInForce.ports.drop q).headD {}).connected && s.unitPath 11 6 q == 0)
  | _ => []

/-- STARTED for a unit of step `n`. -/
def State.begun (s : State) (n kind unit : Nat) : State :=
  s.note { step := n, outcome := 0, path := if ownPath kind then s.unitPath n kind unit else s.stepPath n, unitKind := kind, unit := unit }

/-- The order in which IMAGE tries the slots (R488, R505, R514). -/
def State.imageOrder (s : State) : List Nat :=
  let act := match s.selector with | some x => x.active | none => 0
  match s.boot.retry with
  | some r =>
    if r.step = 3 ∧ r.kind = 7 ∧ s.stepPath 3 ≠ 0 then [1 - r.unit, r.unit]
    else if s.stepPath 6 ≠ 0 then
      match s.selector with
      | some x => if x.trial then [x.previous.getD (1 - act), 1 - x.previous.getD (1 - act)] else [act, 1 - act]
      | none => [act, 1 - act]
    else [act, 1 - act]
  | none => [act, 1 - act]

/-- The reset that the device raises itself, or that a signal's release ends, begins a boot with step ROM (R479). -/
def State.beginBoot (s : State) : State :=
  let cause := s.aon.cause.getD 1
  let retry := if failCause cause then some (failedUnit (lastBoot s.aon.journal) cause s.aon.wdogStep) else none
  let s := { s with boot := { held := false, released := s.now, since := s.now, cause := cause, retry := retry } }
  (s.note { step := 0, outcome := 0, code := cause }).note { step := 1, outcome := 0 }

/-- A device reset. One the device raises itself is released at once, unless a signal holds it. -/
def State.deviceReset (s : State) (cause : Nat) : State :=
  let s := s.cleared cause
  if s.env.pwrgd && !s.env.perst then s.beginBoot else s

/-- A step gives up with no path left in the boot (R488): CODE, UNIT_KIND and UNIT of its FAILED record. -/
def State.failStep (s : State) (code kind unit : Nat) (stores : Bool) : State :=
  let n := s.boot.step
  (((s.note { step := n, outcome := 3, path := s.stepPath n, unitKind := kind, unit := unit, code := code }).flushJournal stores)).deviceReset 7

/-! ## Plate selection (R490) -/

/-- The minimal service plate (chapter 03): no partitions, one device, every port dark. What it expects of its surroundings
is what it finds. -/
def State.servicePlate (s : State) : Plate :=
  { service := true, sys := { hostMode := if s.host.strap then 1 else 0, stackCount := s.stackCount } }

/-- A plate governs LINKS, SHUTTER and PLATE: its SYSTEM, SHUTTER and LINKS sections are in force. -/
def State.usePlate (s : State) (src : Nat) (pl : Plate) (bytes : List Byte) : State :=
  { s with
    boot := { s.boot with plate := some pl, plateBytes := bytes, plateSrc := src },
    plate := { s.plate with sysInForce := pl.sys, linksInForce := pl.links },
    sht := { s.sht with
      period := pl.sht.period, guard := pl.sht.guard, source := pl.sht.source, pinComp := pl.sht.pinComp,
      master := pl.sys.tickMaster == pl.sys.deviceNum } }

/-- Try one source: validated under R87, it is used, or its rejection is recorded. -/
def State.tryPlate (s : State) (src : Nat) (bytes : List Byte) (next : State → State) : State :=
  let s := s.begun 11 8 src
  match s.validate bytes bytes.length true with
  | .ok (pl, _) => (s.usePlate src pl bytes).note { step := 11, outcome := 1, unitKind := 8, unit := src }
  | .error (c, _) => next ((s.note { step := 11, outcome := 3, unitKind := 8, unit := src, code := 7 + 256 * c }).logErr
      { cls := 0, source := 0x0B, code := 4, detail := c })

/-- STORED, PLATEDEF and SERVICE in that order; a boot after one that failed in PLATE starts further on (R488). The PLATEDEF
component is verified as it is loaded (R489). -/
def State.selectPlate (s : State) (stores : Bool) : State :=
  let start := s.stepPath 13
  let service := fun s : State => (s.usePlate 2 s.servicePlate []).note { step := 11, outcome := 1, unitKind := 8, unit := 2 }
  let plateDef := fun s : State =>
    if start = 2 then service s
    else if !s.componentOk s.boot.slot 5 then s.failStep 2 7 s.boot.slot stores
    else s.tryPlate 1 (s.component s.boot.slot 5) service
  if start = 0 ∧ !s.held.plate.isEmpty then s.tryPlate 0 s.held.plate plateDef else plateDef s

/-- Ports at the start of LINKS (R411): a CONNECTED port trains, unless the previous boot failed on it. -/
def State.beginPorts (s : State) : State :=
  (List.range 16).foldl (fun s q =>
    if !((s.plate.sysInForce.ports.drop q).headD {}).connected then s.portDown q .dark 2
    else if s.unitPath 11 6 q = 0 then s.startTraining q
    else s.portDown q .dark 5) s

/-- What a step does at its start, its STARTED records first. -/
def State.startWork (s : State) (n : Nat) (stores : Bool) : State :=
  match n with
  | 3 => s.begun 3 7 (s.imageOrder.headD 0)
  | 11 =>
    let s := s.selectPlate stores
    if s.boot.step ≠ 11 then s else ((s.stepUnits 11).foldl (fun s u => s.begun 11 6 u) s).beginPorts
  | 12 => ({ s with sht := { s.sht with locked := s.sht.source == 0 } }).begun 12 0 0
  | n =>
    let k := stepKind n
    if k = 0 then s.begun n 0 0 else (s.stepUnits n).foldl (fun s u => s.begun n k u) s

/-- Step `n` ends with an outcome record; the next step starts. -/
def State.endStep (s : State) (outcome kind unit code : Nat) (stores : Bool) : State :=
  let n := s.boot.step
  let s := s.note { step := n, outcome := outcome, path := s.stepPath n, unitKind := kind, unit := unit, code := code }
  let ms := if outcome = 4 then 0 else (s.now - s.boot.since) / cyclesPerMs
  let s := { s with boot := { s.boot with
    stepMs := NatMap.set 0 s.boot.stepMs n ms, step := min 14 (n + 1), since := s.now } }
  let s := if n = 14 ∨ s.skips (n + 1) then s else s.startWork (n + 1) stores
  if s.boot.step ≤ 2 then s else s.flushJournal stores

/-- Safelight's firmware starts from a slot. -/
def State.startFirmware (s : State) (slot : Nat) : State :=
  let m := s.manifest slot
  { s with
    boot := { s.boot with
      slot := slot, setver := manifestSetver m, svn := manifestSvn m,
      onActive := match s.selector with | some x => x.active == slot | none => slot == 0 },
    mgmt := { s.mgmt with up := true } }

/-- In service mode after failed boots IMAGE is skipped; Safelight answers all the same, from a slot that verifies. -/
def State.serviceImage (s : State) : State :=
  match s.imageOrder.find? s.slotOk with
  | some x => s.startFirmware x
  | none => s

/-- A command STEP_X at time `t`: nothing where another step is in progress, or where the watchdog has expired before (R480). A
step that service mode skips writes its SKIPPED record. -/
def State.atStep (s : State) (n t : Nat) (stores : Bool) (f : State → State) : State :=
  if s.boot.held ∨ s.boot.halted ∨ s.boot.ready ∨ s.boot.step ≠ n ∨ s.boot.since + stepMax n * cyclesPerMs < t then s
  else
    let s := s.advance t
    if s.skips n then (if n = 3 then s.serviceImage else s).endStep 4 0 0 0 stores else f s

/-! ## Exclusions (R30, R493) -/

/-- An exclusion is reported in the journal and as an error record. -/
def State.reportExcluded (s : State) (kind unit path : Nat) : State :=
  let s := { s with boot := { s.boot with degraded := true } }
  (s.note { step := s.boot.step, outcome := 2, path := path, unitKind := kind, unit := unit, code := 9 }).logErr
    { cls := 0, source := 0x0D, code := 1, unit := unit, detail := kind }

def State.dropGranule (s : State) (g : Nat) : State :=
  { s with units := { s.units with granOff := NatMap.set false s.units.granOff g true } }

/-- A channel is excluded; both of a cluster's take the granule with them. -/
def State.dropChannel (s : State) (ch : Nat) : State :=
  let s := { s with units := { s.units with chanOff := NatMap.set false s.units.chanOff ch true } }
  if NatMap.get false s.units.chanOff (ch / 2 * 2) && NatMap.get false s.units.chanOff (ch / 2 * 2 + 1) then s.dropGranule (ch / 2) else s

/-- A channel is left untrained (R381). -/
def State.untrain (s : State) (ch : Nat) : State :=
  { s with units := { s.units with untrained := NatMap.set false s.units.untrained ch true } }

/-- Service mode begins (R494). -/
def State.enterService (s : State) (reason : Nat) : State := { s with boot := { s.boot with service := true, svcReason := reason } }

/-! ## Signals (R477, R548 to R556) -/

/-- POWER_ON: the always-on domain starts; PWRGD is low and PERST_N asserted by their pulls. -/
def execPowerOn (s : State) : Host.Outcome State Fault Refusal :=
  let s := s.cleared 1
  ok { s with
    aon := { cause := some 1 },
    env := { holdup := s.env.holdup },
    err := { s.err with stream := [] } }

def execPwrgdDeassert (s : State) : Host.Outcome State Fault Refusal :=
  ok (if s.env.pwrgd then ({ s with env := { s.env with pwrgd := false } }).cleared 2 else s)

/-- PWRGD_ASSERT: the trip latch clears where the hottest reading, `hottest`, is below 95 °C (R554); boot starts if PERST_N is
released already (R548). -/
def execPwrgdAssert (t : Nat) (hottest : Int) (s : State) : Host.Outcome State Fault Refusal :=
  ok (if s.env.pwrgd then s
    else
      let s := s.advance t
      let s := { s with env := { s.env with pwrgd := true, trip := s.env.trip && decide (hottest ≥ 95) } }
      if s.env.perst then s else s.beginBoot)

def execPerstAssert (s : State) : Host.Outcome State Fault Refusal :=
  ok (if s.env.perst then s
    else
      let s := { s with env := { s.env with perst := true } }
      if s.env.pwrgd then s.cleared 3 else s)

/-- PERST_RELEASE: HOSTMODE is sampled (R434), and boot starts if PWRGD is asserted. -/
def execPerstRelease (t : Nat) (strap : Bool) (s : State) : Host.Outcome State Fault Refusal :=
  ok (if !s.env.perst then s
    else
      let s := s.advance t
      let s := { s with env := { s.env with perst := false }, host := { s.host with strap := strap } }
      if s.env.pwrgd then s.beginBoot else s)

/-- HOLDUP_CHANGE (R553). -/
def execHoldupChange (asserted : Bool) (s : State) : Host.Outcome State Fault Refusal :=
  ok { s with env := { s.env with holdup := asserted } }

/-! ## ROM and FLASH -/

/-- STEP_ROM: `sound` says that the self-check and the fuse read pass; otherwise the device halts (R495). -/
def execStepRom (t : Nat) (sound : Bool) (s : State) : Host.Outcome State Fault Refusal :=
  ok (s.atStep 1 t true (fun s =>
    if sound then s.endStep 1 0 0 0 true
    else
      let s := s.note { step := 1, outcome := 3, code := 4 }
      { s with boot := { s.boot with halted := true } }))

/-- The slot that a boot ran, or was trying, from its records. -/
def slotUsed (l : List JRec) : Option Nat :=
  let m := l.filter (fun r => r.step == 3 && r.unitKind == 7)
  match (m.filter (fun r => r.outcome == 1)).getLast? with
  | some r => some r.unit
  | none => m.getLast?.map JRec.unit

/-- The records of the current boot take its number, and where the always-on numbering was lost, places after the older records. -/
def renumber (bootnum : Nat) (next : Nat) : List JRec → List JRec
  | [] => []
  | r :: l =>
    let r := { r with bootnum := bootnum, jseq := max next r.jseq }
    r :: renumber bootnum (r.jseq + 1) l

/-- What FLASH settles of the boots before (R484): PREV, and by how much FAILRUN rises. `old` are the records before this boot's. -/
def settle (old cur : List JRec) (cause : Nat) (known : Bool) : Nat × Nat :=
  let since := afterLast (fun r => r.outcome == 5) old
  let fails := ((since ++ cur).filter (fun r => r.step == 0 && r.outcome == 0 && failCause (r.code % 256))).length
  if (lastBoot old).any (fun r => r.step == 14 && r.outcome == 1) then (0, 0)
  else if failCause cause then (1, fails)
  else (if known then 2 else 3, fails)

/-- The journal is put together from both places (R487). -/
def State.joinJournal (s : State) (bootnum : Nat) : List JRec × List JRec × State :=
  let cur := s.boot.journal
  let kept := s.aon.journal.take (s.aon.journal.length - cur.length)
  let lastSeq := (s.nv.journal.getLast?.map (fun r => r.jseq + 1)).getD 0
  let fresh := kept.filter (fun r => decide (lastSeq ≤ r.jseq))
  let old := s.nv.journal ++ fresh
  let cur := renumber bootnum ((old.getLast?.map (fun r => r.jseq + 1)).getD 0) cur
  let s := { s with
    aon := { s.aon with journal := newest 64 (kept ++ cur), jseq := (cur.getLast?.map (fun r => r.jseq + 1)).getD 0 },
    boot := { s.boot with bootnum := bootnum, journal := newest 64 (old ++ cur), unwritten := fresh ++ cur },
    err := { s.err with bootnum := bootnum } }
  (old, cur, s)

/-- A boot on trial that failed counts, and the second one reverts the selector (R514): whether it was reverted. -/
def State.settleTrial (s : State) (failed : Bool) (slot : Option Nat) (stores : Bool) : Bool × State :=
  match s.selector with
  | none => (false, s)
  | some x =>
    if !x.trial ∨ !failed ∨ slot ≠ some x.active then (false, s)
    else if x.fails + 1 < 2 then (false, (s.writeSelector stores { x with fails := x.fails + 1 }).2)
    else
      match s.writeSelector stores x.reverted with
      | (true, s) => (true, s.tellRevert x.reverted.active)
      | (false, s) => (false, s)

/-- STEP_FLASH: `fails` of its reads failed, the first met by a retry in the safe profile. -/
def State.flash (s : State) (fails : Nat) (stores : Bool) : State :=
  if 2 ≤ fails then s.failStep 5 0 0 stores
  else
    let safe := decide (s.stepPath 2 ≠ 0) || decide (1 ≤ fails)
    let known := s.counter
    let c := known.getD {}
    let bootnum := (c.bootnum + 1) % 2 ^ 32
    match s.joinJournal bootnum with
    | (old, cur, s) =>
      let (prev, more) := settle old cur s.boot.cause known.isSome
      let ended := decide (s.boot.cause = 8) && c.hold
      let failrun := if ended then 0 else min 255 (c.failrun + more)
      let held := (c.hold && !ended) || decide (3 ≤ failrun)
      let retry := if prev = 1 then some (failedUnit (lastBoot old) s.boot.cause s.aon.wdogStep) else none
      let s := { s with boot := { s.boot with prev := prev, failrun := failrun, flashSafe := safe } }
      match s.settleTrial (prev == 1) (slotUsed (lastBoot old)) stores with
      | (reverted, s) =>
        let s := s.writeCounter stores { bootnum := bootnum, failrun := failrun, prev := prev, hold := held }
        let s := s.note { step := 0, outcome := 5, code := prev + 256 * failrun }
        let s := if held then s.enterService 1 else s
        let s := { s with boot := { s.boot with retry := retry } }
        if reverted then s.endStep 2 7 (match s.selector with | some x => x.active | none => 0) 0 stores
        else s.endStep (if known.isSome then 1 else 2) 0 0 0 stores

def execStepFlash (t fails : Nat) (stores : Bool) (s : State) : Host.Outcome State Fault Refusal :=
  ok (s.atStep 2 t stores (fun s => s.flash fails stores))

/-! ## IMAGE, CLOCKS and HOST -/

/-- The half that firmware of a settings version opens (R516): the valid one with the higher GEN among those it can read. -/
def State.openHalf (s : State) (v : Nat) : Option Nat :=
  let okay := fun (a : Option Archive) => match a with | some x => decide (x.setver ≤ v) | none => false
  match s.nv.half0, s.nv.half1 with
  | some a, some b => if okay (some a) && okay (some b) then some (if b.gen > a.gen then 1 else 0)
      else if okay (some a) then some 0 else if okay (some b) then some 1 else none
  | some a, none => if okay (some a) then some 0 else none
  | none, some b => if okay (some b) then some 1 else none
  | none, none => none

/-- Hold the content of a half, or the factory state (R457) with an empty map (R394). -/
def State.holdHalf (s : State) (h : Option Nat) : State :=
  let a := match h with | some n => (s.half n).getD {} | none => {}
  { s with
    mgmt := { s.mgmt with held := a, half := h.getD 0 },
    repair := { s.repair with map := a.map, gen := a.mapGen } }

/-- IMAGE: the slots in order; both fail, and the ROM serves the recovery (R519). -/
def State.image (s : State) (stores : Bool) : State :=
  let slots := s.imageOrder
  let a := slots.headD 0
  let b := (slots.drop 1).headD 0
  let path := s.stepPath 3
  let good := fun (s : State) (x : Nat) => ((s.startFirmware x).note { step := 3, outcome := 1, path := path, unitKind := 7, unit := x }).endStep 1 0 0 0 stores
  let bad := fun (s : State) (x : Nat) => s.note { step := 3, outcome := 3, path := path, unitKind := 7, unit := x, code := 2 }
  if s.slotOk a then good s a
  else
    let s := (bad s a).begun 3 7 b
    if s.slotOk b then good s b
    else ((bad s b).enterService 2 |>.holdHalf (s.openHalf 65535)).endStep 3 0 0 2 stores

def execStepImage (t : Nat) (stores : Bool) (s : State) : Host.Outcome State Fault Refusal :=
  ok (s.atStep 3 t stores (fun s => s.image stores))

/-- A step that ends with its work done, or with the device in service mode for want of a full mesh (R30). -/
def State.stepOrMesh (s : State) (sound : Bool) (code : Nat) (stores : Bool) : State :=
  if sound then s.endStep 1 0 0 0 stores else (s.enterService 3).endStep 3 0 0 code stores

/-- STEP_CLOCKS: `locked` says that every PLL locks. -/
def execStepClocks (t : Nat) (locked stores : Bool) (s : State) : Host.Outcome State Fault Refusal :=
  ok (s.atStep 4 t stores (fun s => s.stepOrMesh locked 8 stores))

/-- STEP_HOST: configuration space is ready, and the records made so far go to the ring in order (R533). -/
def State.hostReady (s : State) : State :=
  let early := s.err.early
  let s := { s with host := { s.host with en := true }, err := { s.err with early := [] } }
  early.foldl State.ringPut s

def execStepHost (t : Nat) (stores : Bool) (s : State) : Host.Outcome State Fault Refusal :=
  ok (s.atStep 5 t stores (fun s => s.hostReady.endStep 1 0 0 0 stores))

/-! ## SETTINGS and TILES -/

/-- A half of an older format is converted and written to the other half (R518): none where that fails. -/
def State.migrate (s : State) (h : Nat) (stores : Bool) : Option State :=
  let prog := s.component s.boot.slot 7
  match s.half h with
  | none => none
  | some a =>
    if a.setver < fieldLE prog 0 2 ∨ !Config.migrateOk prog a.setver ∨ !stores then none
    else
      let b := { a with setver := s.boot.setver, gen := a.gen + 1 }
      some (({ s with nv := if h = 0 then { s.nv with half1 := some b } else { s.nv with half0 := some b } }).holdHalf (some (1 - h)))

/-- SETTINGS (R516, R518). Where no firmware runs, the newest valid half is held as it is. -/
def State.settings (s : State) (stores : Bool) : State :=
  let v := if s.mgmt.up then s.boot.setver else 65535
  if s.nv.half0.isNone ∧ s.nv.half1.isNone then (s.holdHalf none).endStep 2 0 0 5 stores
  else match s.openHalf v with
    | none => s.failStep 6 0 0 stores
    | some h =>
      if ((s.half h).getD {}).setver = v ∨ !s.mgmt.up then (s.holdHalf (some h)).endStep 1 0 0 0 stores
      else if !s.componentOk s.boot.slot 7 then s.failStep 2 7 s.boot.slot stores
      else match s.migrate h stores with
        | none => s.failStep 6 0 0 stores
        | some s => s.endStep 1 0 0 0 stores

def execStepSettings (t : Nat) (stores : Bool) (s : State) : Host.Outcome State Fault Refusal :=
  ok (s.atStep 6 t stores (fun s => s.settings stores))

/-- STEP_TILES: `sound` says that every tile passes its self-test. -/
def execStepTiles (t : Nat) (sound stores : Bool) (s : State) : Host.Outcome State Fault Refusal :=
  ok (s.atStep 7 t stores (fun s =>
    if !s.componentOk s.boot.slot 2 then s.failStep 2 7 s.boot.slot stores else s.stepOrMesh sound 4 stores))

/-! ## STACKS (R395, R488) -/

/-- A stack is in use, at 8.0 or 6.4 Gb/s. -/
def State.useStack (s : State) (t path : Nat) (slow : Bool) : State :=
  let s := s.modStack t (fun x => { x with enabled := true, slow := slow, lastRead := some s.now })
  if slow then
    (({ s with boot := { s.boot with degraded := true } }).note { step := 8, outcome := 2, path := path, unitKind := 1, unit := t }).logErr
      { cls := 0, source := 0x0D, code := 2, unit := t }
  else s.note { step := 8, outcome := 1, path := path, unitKind := 1, unit := t }

/-- A stack is excluded with all its granules. -/
def State.dropStack (s : State) (t path : Nat) : State :=
  let s := (List.range 16).foldl (fun s c => s.dropGranule (16 * t + c)) s
  let s := (List.range 32).foldl (fun s n => s.untrain (32 * t + n)) s
  ({ s with boot := { s.boot with stackExcl := s.boot.stackExcl ||| 2 ^ t } }).reportExcluded 1 t path

/-- One stack: `full` and `low` say whether it trains at 8.0 and at 6.4 Gb/s. -/
def State.trainStack (s : State) (t : Nat) (full low : Bool) : State :=
  let path := s.unitPath 8 1 t
  if path = 2 then s.dropStack t path
  else if path = 1 then (if low then s.useStack t path true else s.dropStack t path)
  else if full then s.useStack t path false
  else
    let s := (s.note { step := 8, outcome := 3, path := path, unitKind := 1, unit := t, code := 3 }).begun 8 1 t
    if low then s.useStack t path true else s.dropStack t path

/-- A channel that fails after repair, or that the repair map disables. -/
def State.loseChannel (s : State) (ch : Nat) : State :=
  let was := s.granExcluded (ch / 2)
  let s := (s.dropChannel ch).reportExcluded 4 ch (s.unitPath 8 4 ch)
  if !was && s.granExcluded (ch / 2) then s.reportExcluded 2 (ch / 2) 0 else s

/-- A step with units ends: DEGRADED where it excluded a unit or took one into use at less than its full rate. -/
def State.endUnits (s : State) (was : Bool) (stores : Bool) : State :=
  let now := s.boot.degraded
  ({ s with boot := { s.boot with degraded := was || now } }).endStep (if now then 2 else 1) 0 0 0 stores

/-- Whether anything is excluded or slow so far, and the state in which a step begins to find out more. -/
def State.freshUnits (s : State) : Bool × State := (s.boot.degraded, { s with boot := { s.boot with degraded := false } })

/-- The channels that the repair map disables. -/
def State.disabledChannels (s : State) : List Nat := ((s.repair.map.filter (fun e => reqKind e == 4)).map reqChan).eraseDups

/-- STEP_STACKS: which stacks fail to train at 8.0 and at 6.4 Gb/s, the channels that fail after repair, the map entries that a
stack refuses at replay, and the lanes that boot remaps itself. Then all DRAM is zero. -/
def State.stacksStep (s : State) (fail80 fail64 chans refused : List Nat) (remaps : List (List Byte)) (stores : Bool) : State :=
  let (was, s) := s.freshUnits
  let s := (List.range 16).foldl (fun s t => s.trainStack t (!fail80.contains t) (!fail64.contains t)) s
  let s := s.disabledChannels.foldl (fun s ch => (s.untrain ch).loseChannel ch) s
  let lost := chans ++ (match s.boot.retry with | some r => if r.step = 8 ∧ r.kind = 4 ∧ r.path = 1 then [r.unit] else [] | none => [])
  let s := (lost.filter (fun ch => !s.disabledChannels.contains ch)).foldl State.loseChannel s
  let s := refused.foldl (fun s i => s.note { step := 8, outcome := 2, unitKind := 4, unit := reqChan ((s.repair.map.drop i).headD []), code := 3 }) s
  let s := if remaps.isEmpty then s
    else (({ s with repair := { s.repair with map := s.repair.map ++ remaps.map (fun r => repairEntry r 0) } }).persistMap stores).2
  (s.zeroRange 0 (2 ^ 40)).endUnits was stores

def execStepStacks (t : Nat) (fail80 fail64 chans refused : List Nat) (remaps : List (List Byte)) (stores : Bool) (s : State) :
    Host.Outcome State Fault Refusal :=
  ok (s.atStep 8 t stores (fun s => s.stacksStep fail80 fail64 chans refused remaps stores))

/-! ## CORES (R398, R481) -/

/-- The physical cores of granule `g` that the repair map disables. -/
def State.disabledCores (s : State) (g : Nat) : List Nat :=
  (s.repair.map.filter (fun e => reqKind e == 5 && 16 * Sys2Proof.byteAt e 1 + Sys2Proof.byteAt e 2 == g)).map (fun e => Sys2Proof.byteAt e 3)

/-- One cluster: `bad` are its cores, 0 to 17, that fail the self-test. -/
def State.spareCores (s : State) (g : Nat) (bad : List Nat) : State :=
  let path := s.unitPath 9 2 g
  if path = 2 then (s.dropGranule g).reportExcluded 2 g path
  else
    let off := s.disabledCores g
    let failed := (List.range 18).filter (fun k => off.contains k || bad.contains k)
    let s := (failed.filter (fun k => !off.contains k)).foldl
      (fun s k => s.note { step := 9, outcome := 3, path := path, unitKind := 3, unit := 32 * g + k, code := 4 }) s
    if 2 < failed.length then (s.dropGranule g).reportExcluded 2 g path
    else
      let good := (((List.range 18).filter (fun k => !failed.contains k)).take 16).foldl (fun m k => m + 2 ^ k) 0
      ({ s with units := { s.units with coreMask := NatMap.set 0xFFFF s.units.coreMask g good } }).note
        { step := 9, outcome := 1, path := path, unitKind := 2, unit := g }

/-- STEP_CORES: `failed` are the physical cores, 32 (16 s + c) + k, that fail the self-test. -/
def State.coresStep (s : State) (failed : List Nat) (stores : Bool) : State :=
  let gs := (List.range 256).filter s.clusterOn
  let (was, s) := s.freshUnits
  (gs.foldl (fun s g => s.spareCores g ((failed.filter (fun u => u / 32 == g)).map (fun u => u % 32))) s).endUnits was stores

def execStepCores (t : Nat) (failed : List Nat) (stores : Bool) (s : State) : Host.Outcome State Fault Refusal :=
  ok (s.atStep 9 t stores (fun s => s.coresStep failed stores))

/-! ## MESH (R23, R24, R488) -/

/-- One edge: how many of its modules fail. An edge that failed in the previous boot starts on one module. -/
def State.trainEdge (s : State) (e lost : Nat) : Bool × State :=
  let path := s.unitPath 10 5 e
  let lost := if path = 1 then lost + 1 else lost
  if path = 2 ∨ 2 ≤ lost then (false, s.note { step := 10, outcome := 3, path := path, unitKind := 5, unit := e, code := 3 })
  else if lost = 1 then
    let s := { s with units := { s.units with edgeLost := NatMap.set 0 s.units.edgeLost e 1 }, boot := { s.boot with degraded := true } }
    (true, (s.note { step := 10, outcome := 2, path := path, unitKind := 5, unit := e }).logErr { cls := 0, source := 7, code := 2, unit := e })
  else (true, s.note { step := 10, outcome := 1, path := path, unitKind := 5, unit := e })

/-- STEP_MESH: the edges of which one module fails, and those of which both do. -/
def State.meshStep (s : State) (half dead : List Nat) (stores : Bool) : State :=
  if !s.componentOk s.boot.slot 3 then s.failStep 2 7 s.boot.slot stores
  else
    let (was, s) := s.freshUnits
    let r := (List.range 32).foldl (fun (r : Bool × State) e =>
      let x := r.2.trainEdge e (if dead.contains e then 2 else if half.contains e then 1 else 0)
      (r.1 && x.1, x.2)) (true, s)
    if !r.1 then
      let s := r.2.enterService 3
      ({ s with boot := { s.boot with degraded := was || s.boot.degraded } }).endStep 3 0 0 3 stores
    else r.2.endUnits was stores

def execStepMesh (t : Nat) (half dead : List Nat) (stores : Bool) (s : State) : Host.Outcome State Fault Refusal :=
  ok (s.atStep 10 t stores (fun s => s.meshStep half dead stores))

/-! ## LINKS, SHUTTER and PLATE -/

/-- STEP_LINKS: the ports that are UP by now are in use, and the training of the others goes on (R411). -/
def State.linksStep (s : State) (stores : Bool) : State :=
  let s := (s.stepUnits 11).foldl (fun s q =>
    if (s.port q).state = .up then s.note { step := 11, outcome := 1, unitKind := 6, unit := q }
    else s.note { step := 11, outcome := 3, unitKind := 6, unit := q, code := 3 }) s
  s.endStep 1 0 0 0 stores

def execStepLinks (t : Nat) (stores : Bool) (s : State) : Host.Outcome State Fault Refusal :=
  ok (s.atStep 11 t stores (fun s => s.linksStep stores))

/-- STEP_SHUTTER (R492): locked, or unlocked at the step's maximum time or on an alternate path. -/
def State.shutterStep (s : State) (stores : Bool) : State :=
  if !s.sht.locked ∧ s.stepPath 12 = 0 ∧ s.now < s.boot.since + stepMax 12 * cyclesPerMs then s
  else
    let s := { s with
      sht := { s.sht with en := true, ownBase := !s.sht.locked && !s.sht.started },
      boot := { s.boot with unlocked := !s.sht.locked } }
    if s.sht.locked then s.endStep 1 0 0 0 stores else s.endStep 2 0 0 8 stores

def execStepShutter (t : Nat) (stores : Bool) (s : State) : Host.Outcome State Fault Refusal :=
  ok (s.atStep 12 t stores (fun s => s.shutterStep stores))

/-- DECODEDEF goes into the microcode RAM of every enabled cluster that no partition owns (R502). -/
def State.loadDecodeDef (s : State) : State :=
  let d := parseDecode (s.component s.boot.slot 6)
  ((List.range 256).filter (fun g => s.clusterOn g && (s.owner g).isNone)).foldl (fun s g => s.installDecode g d) s

/-- The CXL.mem capacity (R435), in units of 256 MiB. -/
def State.fixCxl (s : State) : State :=
  if !s.host.strap then s
  else
    let gs := (List.range 256).filter (fun g => s.clusterOn g && (s.owner g).isNone)
    let size := ((gs.map (fun g => if s.oneChan g then 8 else 16)).sum)
    { s with host := { s.host with cxlGrans := gs, cxlSize := min 2048 size } }

/-- STEP_PLATE: the plate is installed at the first tick before it; service mode installs the service plate here (R494). -/
def State.plateStep (s : State) (stores : Bool) : State :=
  if s.boot.service then
    let pl := s.servicePlate
    let s := { s with boot := { s.boot with plateSrc := 2 } }
    ((s.installPlate pl [] false true).judgeHost).endStep 2 0 0 0 stores
  else if s.plate.installed.isNone then s
  else if !s.componentOk s.boot.slot 6 then s.failStep 2 7 s.boot.slot stores
  else (s.loadDecodeDef.fixCxl.judgeHost).endStep (if s.boot.plateSrc = 0 then 1 else 2) 0 0 0 stores

def execStepPlate (t : Nat) (stores : Bool) (s : State) : Host.Outcome State Fault Refusal :=
  ok (s.atStep 13 t stores (fun s => s.plateStep stores))

/-! ## READY -/

/-- The trial is confirmed, or the security version raised (R515, R517). -/
def State.readyFirmware (s : State) (stores : Bool) (bad : Option Nat) : State :=
  match s.selector with
  | none => s
  | some x =>
    if x.trial then
      if x.autoconf ∧ s.boot.onActive ∧ !s.boot.service then (s.confirm stores bad).2 else s
    else if s.mgmt.up then (s.raiseFuses s.boot.svn bad).2 else s

/-- STEP_READY: `bad` is a fuse cell that does not read back blown. -/
def State.readyStep (s : State) (stores : Bool) (bad : Option Nat) : State :=
  let c := s.counter.getD {}
  let s := if s.boot.service then s
    else ({ s with boot := { s.boot with failrun := 0 } }).writeCounter stores { c with failrun := 0, hold := false }
  let s := s.readyFirmware stores bad
  let s := s.endStep 1 0 0 0 stores
  let s := { s with boot := { s.boot with ready := true, readyMs := (s.now - s.boot.released) / cyclesPerMs } }
  let s := s.devEvent 0
  if s.boot.degraded then s.devEvent 3 else s

def execStepReady (t : Nat) (stores : Bool) (bad : Option Nat) (s : State) : Host.Outcome State Fault Refusal :=
  ok (s.atStep 14 t stores (fun s => s.readyStep stores bad))

/-! ## Watchdogs and commands (R480, R496 to R498) -/

/-- STEP_WATCHDOG_EXPIRY (R480): `done` are the units of the step whose outcome was recorded by then. -/
def State.stepWatchdog (s : State) (done : List Nat) : State :=
  if s.boot.held ∨ s.boot.halted ∨ s.boot.ready then s
  else
    let n := s.boot.step
    let s := s.advance (s.boot.since + stepMax n * cyclesPerMs)
    let k := stepKind n
    let s := if k = 0 then s
      else done.foldl (fun s u => s.note { step := n, outcome := 1, path := if ownPath k then s.unitPath n k u else s.stepPath n, unitKind := k, unit := u }) s
    ({ s with aon := { s.aon with wdogStep := n } }).deviceReset 5

def execStepWatchdogExpiry (done : List Nat) (s : State) : Host.Outcome State Fault Refusal := ok (s.stepWatchdog done)

/-- SAFELIGHT_WATCHDOG_EXPIRY (R497): before READY a device reset; after it Safelight alone restarts, and its sessions end. -/
def State.safelightWatchdog (s : State) (stores : Bool) : State :=
  if !s.mgmt.up ∨ s.boot.held then s
  else if !s.boot.ready then s.deviceReset 6
  else
    let s := (s.mgmt.sessions.map MSess.id).foldl State.endMgmt s
    let s := { s with mgmt := { s.mgmt with up := false, stages := [], chunks := [], largest := [], response := [] } }
    ((s.note { step := 0, outcome := 3, code := 1 }).flushJournal stores).logErr { cls := 0, source := 0x0E, code := 3 }

def execSafelightWatchdogExpiry (t : Nat) (stores : Bool) (s : State) : Host.Outcome State Fault Refusal :=
  ok ((s.advance t).safelightWatchdog stores)

/-- SAFELIGHT_RESTART_COMPLETE (R497). -/
def execSafelightRestartComplete (t : Nat) (s : State) : Host.Outcome State Fault Refusal :=
  ok (let s := s.advance t
    if s.boot.ready ∧ s.boot.setver ≠ 0 then { s with mgmt := { s.mgmt with up := true } } else s)

/-- BOOT_RESET (R498). -/
def execBootReset (s : State) : Host.Outcome State Fault Refusal := ok (s.pfWrite 0 (fun s => s.deviceReset 4))

/-- CLEAR_FAILRUN (R496). -/
def execClearFailrun (stores : Bool) (s : State) : Host.Outcome State Fault Refusal :=
  ok (s.pfWrite 0 (fun s =>
    let s := { s with boot := { s.boot with badCmd := false, failrun := if stores then 0 else s.boot.failrun } }
    s.writeCounter stores { (s.counter.getD {}) with failrun := 0, hold := false }))

end Sys2Proof.Machine
end

