-- ==== Sys2Proof/Machine/Vector.lean ====
section
/-!
DEFINITION. Short vectors (R142 to R145) and long-vector register instructions (R146 to R161).
-/

namespace Sys2Proof.Machine

/-! ## Element formats and integers -/

/-- The element format of a FMT code that names a floating-point format (R147, R168). -/
def fmtOf (n : Nat) : FFmt :=
  match n with
  | 1 => fp64 | 2 => fp32 | 3 => fp16 | 4 => bf16 | 5 => e4m3 | 6 => e5m2 | 7 => e4m3 | 8 => e5m2 | 9 => e3m2 | 0xA => e2m3
  | _ => e2m1

/-- An integer modulo 2^n, as an n-bit number. -/
def wrapInt (n : Nat) (i : Int) : Nat := (i % (2 ^ n : Int)).toNat

/-- Saturate an integer to a signed n-bit number: the number and whether it saturated. -/
def satInt (n : Nat) (i : Int) : Nat × Bool :=
  let hi : Int := 2 ^ (n - 1) - 1
  let lo : Int := -(2 ^ (n - 1))
  if i > hi then (wrapInt n hi, true) else if i < lo then (wrapInt n lo, true) else (wrapInt n i, false)

/-! ## Short vectors -/

/-- The 128 bits of q register `n` (R142). -/
def Core.qr (k : Core) (n : Nat) : Nat := (k.fr (2 * n)).toNat + (k.fr (2 * n + 1)).toNat * 2 ^ 64
def State.setQ (s : State) (c n : Nat) (v : Nat) : State :=
  (s.setF c (2 * n) (BitVec.ofNat 64 v)).setF c (2 * n + 1) (BitVec.ofNat 64 (v / 2 ^ 64))

/-- The format of an SFMT code (R143). -/
def svFmt (n : Nat) : FFmt := match n with | 0 => fp64 | 1 => fp32 | 2 => fp16 | 3 => bf16 | 4 => e4m3 | _ => e5m2

/-- Elements of width `w`, element 0 lowest, as one number above `rest`. -/
def packElems (w : Nat) (l : List Nat) (rest : Nat) : Nat := l.foldr (fun e acc => e + acc * 2 ^ w) rest

def FRes.or (a : List FRes) : Nat := a.foldl (fun n x => n ||| x.flags) 0

/-- Is the word of the short-vector major with an OP that passes? -/
def svIs (w : Word) (p : Nat → Bool) : Bool := major w == 0x37 && p (fFunc w % 8) && encOk {} w

/-- SVADD, SVSUB, SVMUL, SVFMA, SVMIN and SVMAX (R144, R145). -/
def semSvArith (c : Nat) (w : Word) (s : State) : Res :=
  let k := s.core c
  let f := svFmt (fFunc w / 8)
  let op := fFunc w % 8
  let r := k.ctl.rm
  let z := k.ctl.ftz
  let el := fun (q i : Nat) => f.read z (bitsOf (k.qr q) (f.width * i) f.width)
  if !svIs w (fun n => decide (n ≤ 5)) then .fault illReserved s
  else
    let one := fun i =>
      let a := el (fRa w) i
      let b := el (fRb w) i
      match op with
      | 0 => fpArith f r z 0 a b
      | 1 => fpArith f r z 1 a b
      | 2 => fpArith f r z 2 a b
      | 3 => let v := Val.fma r a b (el (fRc w) i); f.put r z v.1 v.2
      | 4 => fpArith f r z 7 a b
      | _ => fpArith f r z 8 a b
    let l := (List.range (128 / f.width)).map one
    s.fpFinish c (FRes.or l) (fun s => s.setQ c (fRd w) (packElems f.width (l.map FRes.bits) 0))

/-- SVCVT (R144): with MODE.SR = 1 the draws of R340 are reserved. -/
def semSvcvt (c : Nat) (w : Word) (s : State) : Res :=
  let k := s.core c
  let f := svFmt (fFunc w / 8)
  let d := svFmt (fRc w)
  let n := min (128 / f.width) (128 / d.width)
  if !svIs w (· == 6) then .fault illReserved s
  else
    let o := s.reserveSr c k.ctl.sr n
    let one := fun i =>
      let v := f.read k.ctl.ftz (bitsOf (k.qr (fRa w)) (f.width * i) f.width)
      d.put (if k.ctl.sr then .stochastic (draw16 o.1 i) else k.ctl.rm) k.ctl.ftz v (signalFlag [v])
    let l := (List.range n).map one
    o.2.fpFinish c (FRes.or l) (fun s => s.setQ c (fRd w) (packElems d.width (l.map FRes.bits) 0))

/-- SVSHUF (R144). -/
def semSvshuf (c : Nat) (w : Word) (s : State) : Res :=
  let k := s.core c
  let f := svFmt (fFunc w / 8)
  let n := 128 / f.width
  if !svIs w (· == 7) then .fault illReserved s
  else
    let l := (List.range n).map (fun i => bitsOf (k.qr (fRa w)) (f.width * (bitsOf (k.qr (fRb w)) (4 * i) 4 % n)) f.width)
    .ok (s.setQ c (fRd w) (packElems f.width l 0))

/-- SV_ARITH (R144). -/
def execSvArith (c : Nat) (w : Word) (s : State) : Host.Outcome State Fault Refusal := ok (s.execute c w (semSvArith c w))
/-- SVCVT (R144). -/
def execSvcvt (c : Nat) (w : Word) (s : State) : Host.Outcome State Fault Refusal := ok (s.execute c w (semSvcvt c w))
/-- SVSHUF (R144). -/
def execSvshuf (c : Nat) (w : Word) (s : State) : Host.Outcome State Fault Refusal := ok (s.execute c w (semSvshuf c w))

/-! ## Groups and masks (R152 to R155) -/

/-- The bits of the register group at `base` of `n` registers. -/
def Core.group (k : Core) (base n : Nat) : Nat :=
  (List.range n).foldr (fun j acc => (NatMap.get 0 k.regs.v (base + j)).toNat + acc * 2 ^ 8192) 0

def State.setGroup (s : State) (c base n x : Nat) : State :=
  (List.range n).foldl (fun s j =>
    s.modRegs c (fun r => { r with v := NatMap.set 0 r.v (base + j) (BitVec.ofNat 8192 (x / 2 ^ (8192 * j))) })) s

/-- Element `i` of a group of width `sew`. -/
def elem (x sew i : Nat) : Nat := bitsOf x (sew * i) sew

/-- The bits of mask register `n`. -/
def Core.mr (k : Core) (n : Nat) : Nat := (NatMap.get 0 k.regs.m n).toNat
def State.setM (s : State) (c n x : Nat) : State :=
  s.modRegs c (fun r => { r with m := NatMap.set 0 r.m n (BitVec.ofNat 8192 x) })

/-- Is element `i` active under the word's MEN and MSEL (R154)? It is assumed below VLN. -/
def Core.active (k : Core) (w : Word) (i : Nat) : Bool := !fMen w || bitOf (k.mr (fMsel w)) i

/-- The shape a long-vector instruction runs under (R149): element width, registers per group, VLN and VLMAX. -/
structure VCtx where
  sew : Nat
  gang : Nat
  vln : Nat
  vlmax : Nat
  fmt : Nat

def Core.vctx (k : Core) : VCtx :=
  { sew := shapeSew k.ctl.vshapeEff, gang := shapeGang k.ctl.vshapeEff, vln := k.ctl.vln, vlmax := vlmaxOf k.ctl.vshapeEff,
    fmt := shapeFmt k.ctl.vshapeEff }

/-- Do the groups at `a` of `n` registers and `b` of `m` registers share one? -/
def shareReg (a n b m : Nat) : Bool := decide (a < b + m) && decide (b < a + n)

/-- Is a group's base a multiple of its register count (R152)? -/
def gangOk (base n : Nat) : Bool := base % n == 0 && decide (base + n ≤ 32)

/-- The results of elements 0 to VLN − 1 over the old destination bits (R154): `f i` for an active element, the old value
or zero (MZ) for an inactive one; tail elements keep their bits. -/
def vecResult (k : Core) (w : Word) (vln width old : Nat) (f : Nat → FRes) : FRes :=
  let l := (List.range vln).map (fun i =>
    if k.active w i then f i else { bits := if fMz w then 0 else elem old width i })
  { bits := packElems width (l.map FRes.bits) (old / 2 ^ (width * vln)), flags := FRes.or l }

/-- A long-vector instruction completes: its flags are set (R158), VRESUME becomes 0 (R150), its beats are counted. -/
def State.vecEnd (s : State) (c fl beats : Nat) : State :=
  (s.modCtl c (fun x =>
    { x with fflags := x.fflags ||| (fl % 32), vstat := x.vstat ||| (fl / 32) % 4, vresElem := 0, vresArmed := false })).bump c 0x30C beats

def State.vecDone (s : State) (c fl beats : Nat) : Res := .ok (s.vecEnd c fl beats)

/-- Beats of `n` elements of width `w` (R153, R197). -/
def beats (n w : Nat) : Nat := ceilDiv (n * w) 512

/-- The checks every long-vector register instruction makes first: reserved encodings, ILL (R147), VRESUME (R150). -/
def State.vecStart (s : State) (c : Nat) (encoding : Bool) (needShape : Bool) (f : State → Res) : Res :=
  let k := (s.core c).ctl
  if !encoding then .fault illReserved s
  else if needShape && shapeIll k.vshapeEff then .fault illVshape s
  else if k.vresArmed then .fault illVresume s
  else f s

/-! ## VINT (R157) -/

/-- One integer element. -/
def vintElem (sew op a b : Nat) : FRes :=
  let m := 2 ^ sew
  let sa := signed sew a
  let sb := signed sew b
  let sh := b % sew
  let sat := fun (x : Nat × Bool) => ({ bits := x.1, flags := if x.2 then flSAT else 0 } : FRes)
  match op with
  | 0 => { bits := (a + b) % m }
  | 1 => { bits := wrapInt sew ((a : Int) - b) }
  | 2 => { bits := a * b % m }
  | 3 => { bits := wrapInt sew ((sa * sb).fdiv (2 ^ sew : Int)) }
  | 4 => { bits := a * b / m }
  | 5 => { bits := a &&& b }
  | 6 => { bits := a ||| b }
  | 7 => { bits := a ^^^ b }
  | 8 => { bits := a * 2 ^ sh % m }
  | 9 => { bits := a / 2 ^ sh }
  | 10 => { bits := wrapInt sew (sa.fdiv (2 ^ sh : Int)) }
  | 11 => { bits := if sa < sb then a else b }
  | 12 => { bits := if sa < sb then b else a }
  | 13 => { bits := if a < b then a else b }
  | 14 => { bits := if a < b then b else a }
  | 15 => sat (satInt sew (sa + sb))
  | _ => sat (satInt sew (sa - sb))

/-- The vb operand of VINT: a group, or g[vb] broadcast when FUNC[5] = 1. -/
def semVint (c : Nat) (w : Word) (s : State) : Res :=
  s.vecStart c (major w == 0x30 && encOk {} w) true (fun s =>
    let k := s.core c
    let x := k.vctx
    let scalar := bitOf (fFunc w) 5
    if !gangOk (fRd w) x.gang || !gangOk (fRa w) x.gang || (!scalar && !gangOk (fRb w) x.gang) then .fault (illegal 7) s
    else
      let a := k.group (fRa w) x.gang
      let b := k.group (fRb w) x.gang
      let sb := (k.gr (fRb w)).toNat % 2 ^ x.sew
      let r := vecResult k w x.vln x.sew (k.group (fRd w) x.gang) (fun i =>
        vintElem x.sew (fFunc w % 32) (elem a x.sew i) (if scalar then sb else elem b x.sew i))
      (s.setGroup c (fRd w) x.gang r.bits).vecDone c r.flags (beats x.vln x.sew))

/-! ## VFP (R158) -/

/-- Is FMT one of FP64, FP32, FP16 and BF16? -/
def VCtx.float (x : VCtx) : Bool := decide (1 ≤ x.fmt) && decide (x.fmt ≤ 4)

def semVfp (c : Nat) (w : Word) (s : State) : Res :=
  s.vecStart c (major w == 0x31 && encOk {} w) true (fun s =>
    let k := s.core c
    let x := k.vctx
    let f := fmtOf x.fmt
    let op := fFunc w % 32
    let scalar := bitOf (fFunc w) 5
    if !x.float then .fault illVformat s
    else if !gangOk (fRd w) x.gang || !gangOk (fRa w) x.gang || (op != 4 && !scalar && !gangOk (fRb w) x.gang) then .fault illGang s
    else
      let a := k.group (fRa w) x.gang
      let b := k.group (fRb w) x.gang
      let d := k.group (fRd w) x.gang
      let sb := (k.fr (fRb w)).toNat % 2 ^ x.sew
      let rd := fun n => f.read k.ctl.ftz n
      let r := vecResult k w x.vln x.sew d (fun i =>
        let va := rd (elem a x.sew i)
        let vb := rd (if scalar then sb else elem b x.sew i)
        if op ≤ 8 then fpArith f k.ctl.rm k.ctl.ftz op va vb
        else
          let v := fmaValue k.ctl.rm (op - 9) va vb (rd (elem d x.sew i))
          f.put k.ctl.rm k.ctl.ftz v.1 v.2)
      (s.setGroup c (fRd w) x.gang r.bits).vecDone c r.flags (beats x.vln x.sew))

/-! ## VMASK (R159) -/

/-- One integer compare. -/
def intCompare (sew op a b : Nat) : Bool :=
  match op with
  | 0 => a == b
  | 1 => a != b
  | 2 => decide (signed sew a < signed sew b)
  | 3 => decide (a < b)
  | 4 => decide (signed sew a ≤ signed sew b)
  | _ => decide (a ≤ b)

/-- One FP compare: 6 EQ, 7 LT, 8 LE, 9 unordered. -/
def floatCompare (op : Nat) (a b : Val) : FRes :=
  if op = 9 then { bits := if a.isNan || b.isNan then 1 else 0, flags := signalFlag [a, b] }
  else
    let r := Val.compare (op - 6) a b
    { bits := if r.1 then 1 else 0, flags := r.2 }

def semVmaskCompare (c : Nat) (w : Word) (s : State) : Res :=
  let op := fFunc w % 32
  s.vecStart c (major w == 0x35 && decide (op ≤ 9) && encOk {} w) true (fun s =>
    let k := s.core c
    let x := k.vctx
    let f := fmtOf x.fmt
    let scalar := bitOf (fFunc w) 5
    if op ≥ 6 && !x.float then .fault illVformat s
    else if !gangOk (fRa w) x.gang || (!scalar && !gangOk (fRb w) x.gang) then .fault illGang s
    else
      let a := k.group (fRa w) x.gang
      let b := k.group (fRb w) x.gang
      let sb := (if op ≥ 6 then (k.fr (fRb w)).toNat else (k.gr (fRb w)).toNat) % 2 ^ x.sew
      let r := vecResult k w x.vln 1 (k.mr (fRd w)) (fun i =>
        let ea := elem a x.sew i
        let eb := if scalar then sb else elem b x.sew i
        if op ≥ 6 then floatCompare op (f.read k.ctl.ftz ea) (f.read k.ctl.ftz eb)
        else { bits := if intCompare x.sew op ea eb then 1 else 0 })
      (s.setM c (fRd w) r.bits).vecDone c r.flags (beats x.vln x.sew))

def semMaskLogic (c : Nat) (w : Word) (s : State) : Res :=
  let fn := fFunc w
  s.vecStart c (major w == 0x35 && decide (16 ≤ fn) && decide (fn ≤ 20) && encOk {} w) true (fun s =>
    let k := s.core c
    let x := k.vctx
    let a := k.mr (fRa w)
    let b := k.mr (fRb w)
    let r := vecResult k w x.vln 1 (k.mr (fRd w)) (fun i =>
      let p := bitOf a i
      let q := bitOf b i
      let v := match fn with
        | 16 => p && q | 17 => p || q | 18 => p != q | 19 => p && !q | _ => !p
      { bits := if v then 1 else 0 })
    (s.setM c (fRd w) r.bits).vecDone c 0 (ceilDiv x.vln 512))

/-- The active elements below VLN whose bit in m[va] is 1. -/
def maskHits (k : Core) (w : Word) (vln : Nat) : List Nat :=
  (List.range vln).filter (fun i => k.active w i && bitOf (k.mr (fRa w)) i)

def semVmpopc (c : Nat) (w : Word) (s : State) : Res :=
  s.vecStart c (major w == 0x35 && fFunc w == 21 && encOk {} w) true (fun s =>
    let k := s.core c
    (s.setG c (fRd w) (BitVec.ofNat 64 (maskHits k w k.vctx.vln).length)).vecDone c 0 (ceilDiv k.vctx.vln 512))

def semVmfirst (c : Nat) (w : Word) (s : State) : Res :=
  s.vecStart c (major w == 0x35 && fFunc w == 22 && encOk {} w) true (fun s =>
    let k := s.core c
    let v : Dword := match maskHits k w k.vctx.vln with
      | i :: _ => BitVec.ofNat 64 i
      | [] => BitVec.allOnes 64
    (s.setG c (fRd w) v).vecDone c 0 (ceilDiv k.vctx.vln 512))

def semVmset (c : Nat) (w : Word) (s : State) : Res :=
  s.vecStart c (major w == 0x35 && fFunc w == 23 && encOk {} w) true (fun s =>
    let k := s.core c
    let r := vecResult k w k.vctx.vln 1 (k.mr (fRd w)) (fun _ => { bits := 1 })
    (s.setM c (fRd w) r.bits).vecDone c 0 (ceilDiv k.vctx.vln 512))

/-! ## VMISC (R160, R161) -/

def vmiscIs (w : Word) (fn : Nat) : Bool := major w == 0x36 && fFunc w == fn && encOk {} w

/-- VSETL: permitted while the shape is illegal, when VLMAX is 0. -/
def semVsetl (c : Nat) (w : Word) (s : State) : Res :=
  s.vecStart c (vmiscIs w 0) false (fun s =>
    let k := s.core c
    let n := min (k.gr (fRa w)).toNat k.vctx.vlmax
    ((s.modCtl c (fun x => { x with vln := n })).setG c (fRd w) (BitVec.ofNat 64 n)).vecDone c 0 0)

/-- A VMISC instruction that writes a group from per-element values. -/
def vmiscGroup (c : Nat) (w : Word) (fn : Nat) (srcs : List Nat) (apart : List Nat) (nbeats : VCtx → Nat)
    (f : Core → VCtx → Nat → Nat) (s : State) : Res :=
  s.vecStart c (vmiscIs w fn) true (fun s =>
    let k := s.core c
    let x := k.vctx
    if !gangOk (fRd w) x.gang || srcs.any (fun r => !gangOk r x.gang) then .fault illGang s
    else if apart.any (fun r => shareReg (fRd w) x.gang r x.gang) then .fault illOverlap s
    else
      let r := vecResult k w x.vln x.sew (k.group (fRd w) x.gang) (fun i => { bits := f k x i % 2 ^ x.sew })
      (s.setGroup c (fRd w) x.gang r.bits).vecDone c 0 (nbeats x))

def plainBeats (x : VCtx) : Nat := beats x.vln x.sew

def semVmv (c : Nat) (w : Word) (s : State) : Res :=
  vmiscGroup c w 1 [fRa w] [] plainBeats (fun k x i => elem (k.group (fRa w) x.gang) x.sew i) s

/-- VMV.X (FUNC 2) and VMV.F (FUNC 3). -/
def semVmvScalar (c : Nat) (w : Word) (s : State) : Res :=
  if fFunc w = 2 then vmiscGroup c w 2 [] [] plainBeats (fun k _ _ => (k.gr (fRb w)).toNat) s
  else vmiscGroup c w 3 [] [] plainBeats (fun k _ _ => (k.fr (fRb w)).toNat) s

/-- An element value in an f register: the upper bits are all ones (R160). -/
def fillUpper (sew v : Nat) : Dword := BitVec.ofNat 64 (2 ^ 64 - 2 ^ sew + v)

/-- VEXT.X (FUNC 4) and VEXT.F (FUNC 5). -/
def semVext (c : Nat) (w : Word) (s : State) : Res :=
  s.vecStart c (vmiscIs w 4 || vmiscIs w 5) true (fun s =>
    let k := s.core c
    let x := k.vctx
    let i := (k.gr (fRb w)).toNat
    let e := elem (k.group (fRa w) x.gang) x.sew i
    if !gangOk (fRa w) x.gang then .fault illGang s
    else if fFunc w = 4 then
      (s.setG c (fRd w) (if i ≥ x.vlmax then 0 else BitVec.ofInt 64 (signed x.sew e))).vecDone c 0 0
    else (s.setF c (fRd w) (if i ≥ x.vlmax then 0 else fillUpper x.sew e)).vecDone c 0 0)

/-- VSLIDEUP: destination elements below k are unchanged. -/
def semVslideup (c : Nat) (w : Word) (s : State) : Res :=
  s.vecStart c (vmiscIs w 6) true (fun s =>
    let k := s.core c
    let x := k.vctx
    let n := (k.gr (fRb w)).toNat
    if !gangOk (fRd w) x.gang || !gangOk (fRa w) x.gang then .fault illGang s
    else if shareReg (fRd w) x.gang (fRa w) x.gang then .fault illOverlap s
    else
      let a := k.group (fRa w) x.gang
      let old := k.group (fRd w) x.gang
      let l := (List.range x.vln).map (fun i =>
        if i < n then elem old x.sew i
        else if k.active w i then elem a x.sew (i - n)
        else if fMz w then 0 else elem old x.sew i)
      (s.setGroup c (fRd w) x.gang (packElems x.sew l (old / 2 ^ (x.sew * x.vln)))).vecDone c 0 (plainBeats x))

def semVslidedn (c : Nat) (w : Word) (s : State) : Res :=
  vmiscGroup c w 7 [fRa w] [fRa w] plainBeats (fun k x i =>
    let j := i + (k.gr (fRb w)).toNat
    if j ≥ x.vlmax then 0 else elem (k.group (fRa w) x.gang) x.sew j) s

def semVgather (c : Nat) (w : Word) (s : State) : Res :=
  vmiscGroup c w 8 [fRa w, fRb w] [fRa w, fRb w] (fun x => ceilDiv x.vln 8) (fun k x i =>
    let j := elem (k.group (fRb w) x.gang) x.sew i
    if j ≥ x.vlmax then 0 else elem (k.group (fRa w) x.gang) x.sew j) s

/-- VMERGE: every element below VLN is written. -/
def semVmerge (c : Nat) (w : Word) (s : State) : Res :=
  s.vecStart c (vmiscIs w 9) true (fun s =>
    let k := s.core c
    let x := k.vctx
    if !gangOk (fRd w) x.gang || !gangOk (fRa w) x.gang || !gangOk (fRb w) x.gang then .fault illGang s
    else
      let a := k.group (fRa w) x.gang
      let b := k.group (fRb w) x.gang
      let old := k.group (fRd w) x.gang
      let l := (List.range x.vln).map (fun i => if k.active w i then elem a x.sew i else elem b x.sew i)
      (s.setGroup c (fRd w) x.gang (packElems x.sew l (old / 2 ^ (x.sew * x.vln)))).vecDone c 0 (plainBeats x))

def semVid (c : Nat) (w : Word) (s : State) : Res := vmiscGroup c w 10 [] [] plainBeats (fun _ _ i => i) s

/-- The values of the active elements of va, in index order. -/
def activeElems (k : Core) (x : VCtx) (w : Word) : List Nat :=
  let a := k.group (fRa w) x.gang
  ((List.range x.vln).filter (k.active w)).map (elem a x.sew)

def semVredsum (c : Nat) (w : Word) (s : State) : Res :=
  s.vecStart c (vmiscIs w 11) true (fun s =>
    let k := s.core c
    let x := k.vctx
    if !gangOk (fRa w) x.gang then .fault illGang s
    else
      let sum := (activeElems k x w).foldl (fun (t : Int) e => t + signed x.sew e) 0
      (s.setG c (fRd w) (BitVec.ofInt 64 sum)).vecDone c 0 (plainBeats x))

/-- VFREDSUM (R161): exact, rounded once under RM; FP64 sums to FP64, the other formats to boxed FP32. -/
def semVfredsum (c : Nat) (w : Word) (s : State) : Res :=
  s.vecStart c (vmiscIs w 12) true (fun s =>
    let k := s.core c
    let x := k.vctx
    let f := fmtOf x.fmt
    if !x.float then .fault illVformat s
    else if !gangOk (fRa w) x.gang then .fault illGang s
    else
      let t := (activeElems k x w).foldl (fun (t : SumState) e => t.add (f.value e)) {}
      let r := t.result (if x.fmt = 1 then fp64 else fp32) k.ctl.rm
      (s.setF c (fRd w) (fpWord (x.fmt != 1) r.bits)).vecDone c r.flags (plainBeats x))

/-- VFREDMAX (FUNC 13) and VFREDMIN (FUNC 14) over the active elements. With none active the spec states no result: the
64-bit value is a free one. -/
def semVfredmaxmin (c : Nat) (w : Word) (s : State) : Res :=
  s.vecStart c (vmiscIs w 13 || vmiscIs w 14) true (fun s =>
    let k := s.core c
    let x := k.vctx
    let f := fmtOf x.fmt
    if !x.float then .fault illVformat s
    else if !gangOk (fRa w) x.gang then .fault illGang s
    else match activeElems k x w with
      | [] =>
        let d := s.draw
        (d.2.setF c (fRd w) (Config.freeDword d.1)).vecDone c 0 (plainBeats x)
      | e :: l =>
        let r := l.foldl (fun (t : Val × Nat) e =>
          let y := Val.extremum (fFunc w == 13) true t.1 (f.read k.ctl.ftz e)
          (y.1, t.2 ||| y.2)) (f.read k.ctl.ftz e, signalFlag [f.read k.ctl.ftz e])
        let b := f.put .near false r.1 r.2
        (s.setF c (fRd w) (fillUpper x.sew b.bits)).vecDone c b.flags (plainBeats x))

/-- VINT (R157). -/
def execVint (c : Nat) (w : Word) (s : State) : Host.Outcome State Fault Refusal := ok (s.execute c w (semVint c w))
/-- VFP (R158). -/
def execVfp (c : Nat) (w : Word) (s : State) : Host.Outcome State Fault Refusal := ok (s.execute c w (semVfp c w))
/-- VMASK_COMPARE (R159). -/
def execVmaskCompare (c : Nat) (w : Word) (s : State) : Host.Outcome State Fault Refusal := ok (s.execute c w (semVmaskCompare c w))
/-- MASK_LOGIC (R159). -/
def execMaskLogic (c : Nat) (w : Word) (s : State) : Host.Outcome State Fault Refusal := ok (s.execute c w (semMaskLogic c w))
/-- VMPOPC (R159). -/
def execVmpopc (c : Nat) (w : Word) (s : State) : Host.Outcome State Fault Refusal := ok (s.execute c w (semVmpopc c w))
/-- VMFIRST (R159). -/
def execVmfirst (c : Nat) (w : Word) (s : State) : Host.Outcome State Fault Refusal := ok (s.execute c w (semVmfirst c w))
/-- VMSET (R159). -/
def execVmset (c : Nat) (w : Word) (s : State) : Host.Outcome State Fault Refusal := ok (s.execute c w (semVmset c w))
/-- VSETL (R160). -/
def execVsetl (c : Nat) (w : Word) (s : State) : Host.Outcome State Fault Refusal := ok (s.execute c w (semVsetl c w))
/-- VMV (R160). -/
def execVmv (c : Nat) (w : Word) (s : State) : Host.Outcome State Fault Refusal := ok (s.execute c w (semVmv c w))
/-- VMV_SCALAR (R160). -/
def execVmvScalar (c : Nat) (w : Word) (s : State) : Host.Outcome State Fault Refusal := ok (s.execute c w (semVmvScalar c w))
/-- VEXT (R160). -/
def execVext (c : Nat) (w : Word) (s : State) : Host.Outcome State Fault Refusal := ok (s.execute c w (semVext c w))
/-- VSLIDEUP (R160). -/
def execVslideup (c : Nat) (w : Word) (s : State) : Host.Outcome State Fault Refusal := ok (s.execute c w (semVslideup c w))
/-- VSLIDEDN (R160). -/
def execVslidedn (c : Nat) (w : Word) (s : State) : Host.Outcome State Fault Refusal := ok (s.execute c w (semVslidedn c w))
/-- VGATHER (R160). -/
def execVgather (c : Nat) (w : Word) (s : State) : Host.Outcome State Fault Refusal := ok (s.execute c w (semVgather c w))
/-- VMERGE (R160). -/
def execVmerge (c : Nat) (w : Word) (s : State) : Host.Outcome State Fault Refusal := ok (s.execute c w (semVmerge c w))
/-- VID (R160). -/
def execVid (c : Nat) (w : Word) (s : State) : Host.Outcome State Fault Refusal := ok (s.execute c w (semVid c w))
/-- VREDSUM (R160). -/
def execVredsum (c : Nat) (w : Word) (s : State) : Host.Outcome State Fault Refusal := ok (s.execute c w (semVredsum c w))
/-- VFREDSUM (R161). -/
def execVfredsum (c : Nat) (w : Word) (s : State) : Host.Outcome State Fault Refusal := ok (s.execute c w (semVfredsum c w))
/-- VFREDMAXMIN (R160). -/
def execVfredmaxmin (c : Nat) (w : Word) (s : State) : Host.Outcome State Fault Refusal := ok (s.execute c w (semVfredmaxmin c w))

end Sys2Proof.Machine
end

