-- ==== Sys2Proof/Machine/Convert.lean ====
section
/-!
DEFINITION. Format conversions (R169 to R172) and microscaling (R173 to R175).
-/

namespace Sys2Proof.Machine

/-- The width that a DFMT requires, or that `vb` gives for INT (R169). -/
def dstWidth (w : Word) : Nat :=
  match fDfmt w with
  | 0 => 8 * 2 ^ (fRb w % 4)
  | 1 => 64
  | 2 => 32
  | 3 => 16
  | 4 => 16
  | _ => 8

/-- Registers of the destination group (R169). -/
def dstCount (x : VCtx) (w : Word) : Nat := max 1 (x.gang * dstWidth w / x.sew)

def isMx (n : Nat) : Bool := decide (7 ≤ n) && decide (n ≤ 0xC)
def isFloat4 (n : Nat) : Bool := decide (1 ≤ n) && decide (n ≤ 4)

/-- Is the pairing of formats legal for the KIND (R169)? -/
def pairingOk (x : VCtx) (w : Word) : Bool :=
  let d := fDfmt w
  match fKind w with
  | 0 => !isMx x.fmt && !isMx d && !(x.fmt == 0 && d == 0 && dstWidth w == x.sew)
  | 1 => !isMx x.fmt && !isMx d && !(x.fmt == 0 && d == 0 && dstWidth w == x.sew)
  | 2 => isFloat4 x.fmt && isMx d
  | _ => isMx x.fmt && isFloat4 d

/-- The checks of a conversion (R147, R150, R152, R155, R169). -/
def State.cvtStart (s : State) (c : Nat) (w : Word) (kind : Nat) (f : State → Res) : Res :=
  s.vecStart c (major w == 0x34 && fKind w == kind && encOk {} w) true (fun s =>
    let x := (s.core c).vctx
    let n := dstCount x w
    let mxd := decide (kind ≥ 2)
    if !pairingOk x w then .fault illVformat s
    else if n > 8 then .fault illVshape s
    else if !gangOk (fRd w) n || !gangOk (fRa w) x.gang then .fault illGang s
    else if (n != x.gang || mxd) && shareReg (fRd w) n (fRa w) x.gang then .fault illOverlap s
    else if mxd && shareReg (fRd w) n (fRb w) 1 then .fault illOverlap s
    else if kind == 2 && x.gang != 1 && shareReg (fRb w) 1 (fRa w) x.gang then .fault illOverlap s
    else f s)

/-- One converted element (R170, R171): `sf`, `df` are format codes and `dw` the destination width. -/
def cvtElem (sf df sew dw : Nat) (r : Rounding) (ftz : Bool) (e : Nat) : FRes :=
  if sf = 0 ∧ df = 0 then
    let y := satInt dw (signed sew e)
    { bits := y.1, flags := if y.2 then flSAT else 0 }
  else
    let v := if sf = 0 then Val.ofInt (signed sew e) else (fmtOf sf).read ftz e
    if df = 0 then
      let y := toInteger dw true r v
      { bits := wrapInt dw y.1, flags := y.2 }
    else (fmtOf df).put r ftz v (signalFlag [v])

/-- Beats of the wider side (R197). -/
def cvtBeats (x : VCtx) (w : Word) : Nat := beats x.vln (max x.sew (dstWidth w))

/-- CVT and CVT.T (R169 to R172). -/
def convert (c : Nat) (w : Word) (kind : Nat) (s : State) : Res :=
  s.cvtStart c w kind (fun s =>
    let k := s.core c
    let x := k.vctx
    let sr := kind == 0 && k.ctl.sr
    let o := s.reserveSr c sr x.vln
    let a := k.group (fRa w) x.gang
    let n := dstCount x w
    let dw := dstWidth w
    let r := vecResult k w x.vln dw (k.group (fRd w) n) (fun i =>
      let rnd := if kind = 1 then .zero else if sr then .stochastic (draw16 o.1 i) else k.ctl.rm
      cvtElem x.fmt (fDfmt w) x.sew dw rnd k.ctl.ftz (elem a x.sew i))
    (o.2.setGroup c (fRd w) n r.bits).vecDone c r.flags (cvtBeats x w))

def semCvt (c : Nat) (w : Word) (s : State) : Res := convert c w 0 s
def semCvtT (c : Nat) (w : Word) (s : State) : Res := convert c w 1 s

/-! ## Microscaling -/

/-- ⌊log2⌋ of a finite non-zero magnitude. -/
def floorLog2 (m : Nat) (e : Int) : Int := (bitLen m : Int) - 1 + e

/-- emax of an MX element format (R174). -/
def mxEmax (fmt : Nat) : Int := match fmt with | 7 => 8 | 8 => 15 | 9 => 4 | 0xA => 2 | 0xB => 2 | _ => 0

/-- The largest ⌊log2 |x|⌋ of the finite non-zero values. -/
def maxLog2 (l : List Val) : Option Int :=
  l.foldl (fun acc v => match v with
    | .fin _ m e => if m = 0 then acc else some (match acc with | some a => max a (floorLog2 m e) | none => floorLog2 m e)
    | _ => acc) none

/-- The scale code of a block (R174), from the values of its active elements; 0xFF when one is a NaN or infinite. -/
def mxScale (fmt : Nat) (l : List Val) : Nat :=
  if l.any (fun v => match v with | .fin _ _ _ => false | _ => true) then 0xFF
  else match maxLog2 l with
    | none => 0
    | some a => (max (-127) (min 127 (a - mxEmax fmt)) + 127).toNat

/-- One quantised element under a scale code other than 0xFF (R174). A result beyond the largest finite value saturates
with SAT and no other flag. -/
def mxElem (fmt scale : Nat) (r : Rounding) (v : Val) : FRes :=
  match v with
  | .fin n m e =>
    let e' := e - ((scale : Int) - 127)
    if fmt = 0xC then
      let y := roundTo r n m (e' + 6) 0 false
      let i : Int := if n then -(y.1 : Int) else (y.1 : Int)
      let z := satInt 8 i
      { bits := z.1, flags := if z.2 then flSAT else if y.2 then flNX else 0 }
    else
      let y := (fmtOf fmt).round r false n m e' false
      { y with flags := if bitOf y.flags 5 then flSAT else y.flags }
  | _ => {}

/-- The MX scale bytes in a register. -/
def scaleAt (x : VReg) (b : Nat) : Nat := bitsOf x.toNat (8 * b) 8

def semMxq (c : Nat) (w : Word) (s : State) : Res :=
  s.cvtStart c w 2 (fun s =>
    let k := s.core c
    let x := k.vctx
    let df := fDfmt w
    let o := s.reserveSr c k.ctl.sr x.vln
    let a := k.group (fRa w) x.gang
    let n := dstCount x w
    let val := fun i => (fmtOf x.fmt).read k.ctl.ftz (elem a x.sew i)
    let nblk := ceilDiv x.vln 32
    let scales := (List.range nblk).map (fun b =>
      mxScale df (((List.range 32).filter (fun j => decide (32 * b + j < x.vln) && k.active w (32 * b + j))).map (fun j => val (32 * b + j))))
    let r := vecResult k w x.vln 8 (k.group (fRd w) n) (fun i =>
      let sc := (scales.drop (i / 32)).headD 0
      if sc = 0xFF then { bits := 0, flags := 64 }
      else mxElem df sc (if k.ctl.sr then .stochastic (draw16 o.1 i) else k.ctl.rm) (val i))
    let olds := (NatMap.get 0 k.regs.v (fRb w)).toNat
    let s := o.2.setGroup c (fRb w) 1 (packElems 8 scales (olds / 2 ^ (8 * nblk)))
    (s.setGroup c (fRd w) n r.bits).vecDone c r.flags (cvtBeats x w))

/-- The exact value of an MX element code (R168). -/
def mxValue (fmt code : Nat) : Val :=
  if fmt = 0xC then
    let i := signed 8 code
    .fin (decide (i < 0)) i.natAbs (-6)
  else (fmtOf fmt).value (code % 2 ^ (fmtOf fmt).width)

/-- A value times a power of two. -/
def Val.scale (v : Val) (d : Int) : Val :=
  match v with
  | .fin n m e => .fin n m (e + d)
  | x => x

def semMxd (c : Nat) (w : Word) (s : State) : Res :=
  s.cvtStart c w 3 (fun s =>
    let k := s.core c
    let x := k.vctx
    let f := fmtOf (fDfmt w)
    let a := k.group (fRa w) x.gang
    let sc := NatMap.get 0 k.regs.v (fRb w)
    let n := dstCount x w
    let r := vecResult k w x.vln (dstWidth w) (k.group (fRd w) n) (fun i =>
      let code := scaleAt sc (i / 32)
      if code = 0xFF then { bits := f.canonNan }
      else f.put k.ctl.rm k.ctl.ftz ((mxValue x.fmt (elem a x.sew i)).scale ((code : Int) - 127)) 0)
    (s.setGroup c (fRd w) n r.bits).vecDone c r.flags (cvtBeats x w))

/-- CVT (R170). -/
def execCvt (c : Nat) (w : Word) (s : State) : Host.Outcome State Fault Refusal := ok (s.execute c w (semCvt c w))
/-- CVT_T (R169). -/
def execCvtT (c : Nat) (w : Word) (s : State) : Host.Outcome State Fault Refusal := ok (s.execute c w (semCvtT c w))
/-- MXQ (R174). -/
def execMxq (c : Nat) (w : Word) (s : State) : Host.Outcome State Fault Refusal := ok (s.execute c w (semMxq c w))
/-- MXD (R175). -/
def execMxd (c : Nat) (w : Word) (s : State) : Host.Outcome State Fault Refusal := ok (s.execute c w (semMxd c w))

end Sys2Proof.Machine
end

