-- ==== Sys2Proof/Machine/CoreEvents.lean ====
section
/-!
DEFINITION. What happens to a core besides its instructions: store-buffer entries accepted (R248), L1D fills (R241) and
instruction-line deliveries (R199), and FIXQ (R286, R287), which enters a record in the core's lane (R265).
-/

namespace Sys2Proof.Machine

/-! ## STORE_ACCEPT -/

/-- Do two entries use one path to the same bytes (R251)? -/
def SbEntry.clashes (a b : SbEntry) : Bool :=
  let vec := fun e : SbEntry => e.kind == .vector || e.kind == .tile
  vec a == vec b && a.pieces.any (fun x => b.pieces.any (fun y => decide (x.place.dev = y.place.dev)
    && decide (x.place.addr < y.place.addr + y.bytes.length) && decide (y.place.addr < x.place.addr + x.bytes.length)))

/-- May entry `i` be performed before the entries ahead of it (R248, R251)? Cacheable scalar stores keep their order, and
so do accesses of one path to the same bytes. -/
def Core.sbReady (k : Core) (i : Nat) : Bool :=
  match k.sb[i]? with
  | none => false
  | some e => (k.sb.take i).all (fun x => x.late.isSome ||
      (!(e.cacheable && x.cacheable && e.kind == .scalar && x.kind == .scalar) && !x.clashes e))

/-- STORE_ACCEPT (R248). -/
def execStoreAccept (c i : Nat) (s : State) : Host.Outcome State Fault Refusal :=
  ok (if (s.core c).sbReady i then s.acceptSb c i else s)

/-! ## L1D_FILL -/

/-- The words of the line of address `a` that errors have reached: single-bit ones and uncorrectable ones (R241). -/
def State.markL1 (s : State) (c a : Nat) (ce ue : BitVec 8) : State :=
  match (s.core c).l1Way a with
  | none => s
  | some w =>
    let x := (s.core c).l1At (l1Set a) w
    s.setL1 c (l1Set a) w { x with ce := x.ce ||| ce, ue := x.ue ||| ue }

/-- The fill that the load at the core's PC waits for returns (R241): the line is allocated, or the load faults as check 4
of R118 says. `ce` and `ue` are the words of the line in which L1D's check code meets errors from now on. -/
def State.l1dFill (s : State) (c pa : Nat) (ce ue : BitVec 8) : State :=
  let k := s.core c
  match s.coreCheck c k.ctl.priv .read pa 1 with
  | .error _ => s
  | .ok _ =>
    let pl := s.corePlace c .read pa
    if !k.cacheable pl || !k.canExecute then s
    else match k.l1Way pl.addr with
      | some _ => s.markL1 c pl.addr ce ue
      | none =>
        match s.l1Fill c pl.addr with
        | (.ok _, s) => s.markL1 c pl.addr ce ue
        | (.error e, s) => s.faultAt c (busErr e 0 pa)

/-- L1D_FILL (R241). -/
def execL1dFill (c a : Nat) (ce ue : BitVec 8) (s : State) : Host.Outcome State Fault Refusal := ok (s.l1dFill c a ce ue)

/-! ## INSTRUCTION_LINE_FILL -/

/-- A line that the core's fetch unit requested arrives (R199, R207, R246). A correct-path line of the instruction at the
PC that cannot be had faults that instruction; one fetched ahead, or on a wrong path, is dropped without a record. -/
def State.lineFill (s : State) (c a : Nat) (wrongPath late : Bool) : State :=
  let s := if late then s.bump c 0x308 1 else s
  if !(s.core c).canExecute then s
  else if wrongPath then
    match (s.bump c 0x307 1).fillLine c a with
    | (_, s) => s
  else match (s.core c).icWay a with
    | some _ => s
    | none =>
      match (s.bump c 0x306 1).fillLine c a with
      | (.ok _, s) => s
      | (.error e, s) =>
        let pc := (s.core c).ctl.pc.toNat
        if a / 64 = pc / 64 then s.faultAt c (busErr e 2 pc) else s

/-- INSTRUCTION_LINE_FILL (R199). -/
def execInstructionLineFill (c a : Nat) (wrongPath late : Bool) (s : State) : Host.Outcome State Fault Refusal :=
  ok (s.lineFill c a wrongPath late)

/-! ## FIXQ (R286, R287) -/

/-- Is the word a FIXQ with its reserved bits 0 and no reserved code? -/
def fixqOk (w : Word) : Bool :=
  let s0 := fFunc w % 4
  let s1 := fFunc w / 4 % 4
  major w == 0x3A && fRc w == 0 && decide (fFunc w < 16) && s0 != 3 && s1 != 3 && (s0 != 0 || fRd w == 0) && (s1 != 0 || fRb w == 0)

/-- The lane holds records not yet complete: those that wait and those admitted (R265). -/
def Sched.laneCount (x : Sched) (c : Nat) : Nat :=
  (NatMap.get [] x.lanes c).length + (x.cmds.filter (fun m => m.queue == 255 && m.laneCore == c)).length

/-- Read the template as 8-byte loads in ascending order (R287). -/
def fixqLoads (c pa : Nat) : Nat → List Byte → State → (List Byte → State → Res) → Res
  | 0, b, s, k => k b s
  | n + 1, b, s, k =>
    let i := 7 - n
    let a := pa + 8 * i
    let pl := s.corePlace c .read a
    (if pl.dev.isSome then s.remoteRead c i pl 8 a else s.scalarRead c a 8).andThen (fun x s => fixqLoads c pa n (b ++ x) s k)

/-- The scalar a FIXQ captures: the template's bytes, a g register or an f register. -/
def fixqScalar (k : Core) (src r : Nat) (old : List Byte) : List Byte :=
  if src = 1 then natLE 8 (k.gr r).toNat else if src = 2 then natLE 8 (k.fr r).toNat else old

/-- FIXQ: a template address that is no multiple of 64 fails check 1; with the lane full the core stalls (R265). -/
def semFixq (c : Nat) (w : Word) (s : State) : Res :=
  let k := s.core c
  let pa := (k.gr (fRa w)).toNat
  let p := s.corePart c
  if !fixqOk w then .fault illReserved s
  else if pa % 64 ≠ 0 then .fault (misaligned 1 pa) s
  else match s.coreCheck c k.ctl.priv .read pa 64 with
    | .error e => .fault (busErr e 0 pa) s
    | .ok _ =>
      if (s.sch p).laneCount c ≥ 4 then .wait s
      else fixqLoads c pa 8 [] s (fun b s =>
        let img := bytesLine (b.take 48 ++ fixqScalar k (fFunc w % 4) (fRd w) ((b.drop 48).take 8)
          ++ fixqScalar k (fFunc w / 4 % 4) (fRb w) ((b.drop 56).take 8))
        .ok (s.modSch p (fun x => { x with
          lanes := NatMap.upd [] x.lanes c (fun l => l ++ [{ image := img, verdict := s.checkRecord p (some (c / 16)) img }]) })))

/-- FIXQ (R287). -/
def execFixq (c : Nat) (w : Word) (s : State) : Host.Outcome State Fault Refusal := ok (s.execute c w (semFixq c w))

end Sys2Proof.Machine
end

