-- ==== Sys2Proof/Machine/VectorMem.lean ====
section
/-!
DEFINITION. Long-vector loads and stores (R150, R162 to R167) and tile and scale loads and stores (R187).
-/

namespace Sys2Proof.Machine

/-- What reading a run of elements gives: their values in order, the first that fails, or a wait for another device. -/
inductive Run where
  | done (l : List Nat) (s : State)
  | fail (j : Nat) (f : FaultInfo) (l : List Nat) (s : State)
  | wait (s : State)

/-- Read bytes of one line past L1D (R164, R187), after checks 1 to 3; `k` counts the reads of other devices made so far.
The core's own buffered long-vector and tile stores lie over what memory holds (R251). -/
def State.vecRead (s : State) (c k pa n : Nat) : Got :=
  let pl := s.corePlace c .read pa
  if pl.dev.isSome then s.remoteRead c k pl n pa
  else match s.coreRead c pl.addr n .core with
    | (.error e, s) => .fault (busErr e 0 pa) s
    | (.ok b, s) => .ok (overlayPieces pl.addr b (s.core c).vectorPieces) s

/-- Does a read at `pa` go to another device? -/
def State.isRemote (s : State) (c pa : Nat) : Bool := (s.corePlace c .read pa).dev.isSome

/-- Checks 1 to 3 of R118 for `n` bytes at `pa` that must be aligned to `al`. -/
def State.vecCheck (s : State) (c : Nat) (acc : Access) (pa n al : Nat) : Option FaultInfo :=
  let a := if acc = .write then 1 else 0
  if pa % al ≠ 0 then some (misaligned (a + 1) pa)
  else match s.coreCheck c (s.core c).ctl.priv acc pa n with
    | .error e => some (busErr e a pa)
    | .ok _ => none

/-- Read the given pieces in order: partition address and length. The count of reads of other devices goes with it. -/
def readRun (c : Nat) : List (Nat × Nat) → Nat → List Byte → State → Got × Nat
  | [], k, acc, s => (.ok acc s, k)
  | (pa, n) :: l, k, acc, s =>
    match s.vecRead c k pa n with
    | .ok b s => readRun c l (if s.isRemote c pa then k + 1 else k) (acc ++ b) s
    | .fault f s => (.fault f s, k)
    | .wait s => (.wait s, k)

/-! ## Element addresses (R162, R163) -/

/-- Bits per element in memory: MXFP4 and MXFP6 elements are packed. -/
def VCtx.memBits (x : VCtx) : Nat :=
  match x.fmt with
  | 0xB => 4
  | 9 => 6
  | 0xA => 6
  | _ => x.sew

def VCtx.packed (x : VCtx) : Bool := x.memBits != x.sew

/-- The partition address of element `i`, before wrapping is applied to it: AMODE 0 to 4. -/
def elemAddr (k : Core) (x : VCtx) (w : Word) (i : Nat) : Nat :=
  let a := (k.gr (fRa w)).toNat
  let idx := elem (k.group (fRb w) x.gang) x.sew i
  match fAmode w with
  | 1 => ((k.gr (fRa w)) + BitVec.ofNat 64 i * k.gr (fRb w)).toNat
  | 2 => (a + idx * 2 ^ fScale w) % 2 ^ 64
  | 3 => (BitVec.ofInt 64 ((a : Int) + signed x.sew idx * (2 ^ fScale w : Int))).toNat
  | 5 => (a + i / 8) % 2 ^ 64
  | _ => (a + i * x.memBits / 8) % 2 ^ 64

/-- How many bytes element `i` touches. -/
def elemLen (x : VCtx) (w : Word) (i : Nat) : Nat :=
  if fAmode w = 5 then 1
  else if x.packed then (i * x.memBits + x.memBits - 1) / 8 - i * x.memBits / 8 + 1
  else x.sew / 8

/-- The alignment an element must have. -/
def elemAlign (x : VCtx) (w : Word) : Nat := if fAmode w = 5 ∨ x.packed then 1 else x.sew / 8

/-- The value of element `i` from the bytes it touches. -/
def elemValue (x : VCtx) (w : Word) (i : Nat) (b : List Byte) : Nat :=
  if fAmode w = 5 then bitsOf (leNat b) (i % 8) 1
  else if x.packed then bitsOf (leNat b) (i * x.memBits % 8) x.memBits
  else leNat b

/-- Load elements `i`, `i + 1`, … in order: an active element is checked and read, an inactive one takes `off i`. -/
def loadElems (c : Nat) (k0 : Core) (x : VCtx) (w : Word) (off : Nat → Nat) : List Nat → Nat → List Nat → State → Run
  | [], _, acc, s => .done acc.reverse s
  | i :: l, r, acc, s =>
    if !k0.active w i then loadElems c k0 x w off l r (off i :: acc) s
    else
      let pa := elemAddr k0 x w i
      let n := elemLen x w i
      match s.vecCheck c .read pa n (elemAlign x w) with
      | some f => .fail i f acc.reverse s
      | none =>
        match readRun c (if x.packed then chunks 1 pa n else [(pa, n)]) r [] s with
        | (.ok b s, r) => loadElems c k0 x w off l r (elemValue x w i b :: acc) s
        | (.fault f s, _) => .fail i { f with eaddr := pa } acc.reverse s
        | (.wait s, _) => .wait s

/-- The resume element (R150). -/
def CoreCtl.resumeElem (k : CoreCtl) : Nat := if k.vresArmed then k.vresElem else 0

/-- Beats of a long-vector memory instruction (R197). -/
def memBeats (x : VCtx) (w : Word) : Nat :=
  match fAmode w with
  | 1 => x.vln | 2 => x.vln | 3 => x.vln | 5 => ceilDiv x.vln 512
  | _ => beats x.vln x.sew

/-- A long-vector load or store completes (R150). -/
def State.vecMemEnd (s : State) (c n : Nat) : State :=
  (s.modCtl c (fun x => { x with vresElem := 0, vresArmed := false })).bump c 0x30D n

def State.vecMemDone (s : State) (c n : Nat) : Res := .ok (s.vecMemEnd c n)

/-- A long-vector load or store is interrupted at element `j` (R165). -/
def State.vecInterrupt (s : State) (c j : Nat) (f : FaultInfo) : Res :=
  .fault { f with aux := j } (s.modCtl c (fun x => { x with vresElem := j, vresArmed := true }))

/-- The checks of a long-vector memory instruction before any access: reserved encodings, ILL, VFORMAT (R163), GANG. -/
def State.vmemStart (s : State) (c : Nat) (w : Word) (encoding : Bool) (f : Core → VCtx → Res) : Res :=
  let k := s.core c
  let x := k.vctx
  let m := fAmode w
  if !encoding then .fault illReserved s
  else if shapeIll k.ctl.vshapeEff then .fault illVshape s
  else if x.packed && (m == 1 || m == 2 || m == 3 || m == 5) then .fault illVformat s
  else if m != 5 && (!gangOk (fRd w) x.gang || ((m == 2 || m == 3) && !gangOk (fRb w) x.gang)) then .fault illGang s
  else f k x

/-- Put the loaded elements, from the resume element on, into the destination: a group, or m[vd] in mask mode. -/
def State.putLoaded (s : State) (c : Nat) (k : Core) (x : VCtx) (w : Word) (from_ : Nat) (l : List Nat) : State :=
  let width := if fAmode w = 5 then 1 else x.sew
  let old := if fAmode w = 5 then k.mr (fRd w) else k.group (fRd w) x.gang
  let below := old % 2 ^ (width * from_)
  let v := below + packElems width l (old / 2 ^ (width * (from_ + l.length))) * 2 ^ (width * from_)
  if fAmode w = 5 then s.setM c (fRd w) v else s.setGroup c (fRd w) x.gang v

/-- The elements from the resume element to VLN − 1. -/
def resumeRange (k : Core) (x : VCtx) : List Nat :=
  (List.range (x.vln - k.ctl.resumeElem)).map (· + k.ctl.resumeElem)

def runLoad (c : Nat) (w : Word) (k : Core) (x : VCtx) (s : State) : Run :=
  let old := k.group (fRd w) x.gang
  loadElems c k x w (fun i => if fMz w then 0 else elem old x.sew i) (resumeRange k x) 0 [] s

/-- VLD in the modes other than first-fault (R162, R165). -/
def semVld (c : Nat) (w : Word) (s : State) : Res :=
  s.vmemStart c w (major w == 0x32 && fAmode w != 4 && encOk {} w) (fun k x =>
    let r0 := k.ctl.resumeElem
    match runLoad c w k x s with
    | .done l s => (s.putLoaded c k x w r0 l).vecMemDone c (memBeats x w)
    | .fail j f l s => (s.putLoaded c k x w r0 l).vecInterrupt c j f
    | .wait s => .wait s)

/-- VLD first-fault (R167). -/
def semVldFirstFault (c : Nat) (w : Word) (s : State) : Res :=
  s.vmemStart c w (major w == 0x32 && fAmode w == 4 && encOk {} w) (fun k x =>
    let r0 := k.ctl.resumeElem
    match runLoad c w k x s with
    | .done l s => (s.putLoaded c k x w r0 l).vecMemDone c (memBeats x w)
    | .fail 0 f _ s => .fault { f with aux := 0 } s
    | .fail j _ l s => ((s.putLoaded c k x w r0 l).modCtl c (fun x => { x with vln := j })).vecMemDone c (memBeats x w)
    | .wait s => .wait s)

/-! ## Stores -/

/-- Join a piece to the one before it where their bytes follow on within one line. -/
def joinPieces : List SbPiece → List SbPiece
  | [] => []
  | q :: l =>
    match joinPieces l with
    | [] => [q]
    | r :: t =>
      if q.place.dev = r.place.dev ∧ q.place.addr + q.bytes.length = r.place.addr ∧ q.place.addr / 64 = r.place.addr / 64 then
        { q with bytes := q.bytes ++ r.bytes } :: t
      else q :: r :: t

/-- The byte at device-local address `a` as the long-vector path of this core sees it, for the part of a byte that a
packed store leaves alone. -/
def State.vecByte (s : State) (c a : Nat) (new : List SbPiece) : Byte :=
  (overlayPieces a [match regionOf a with
    | .dram g o => (match (s.wcOf (s.chanOf g o)).find? (fun e => e.line == a / 64 * 64) with
        | some e => if e.valid.getLsbD (a % 64) then ((lineBytes e.data).drop (a % 64)).headD 0#8 else s.byteAt a
        | none => s.byteAt a)
    | _ => s.byteAt a] ((s.core c).vectorPieces ++ new)).headD 0#8

/-- The bytes element `i` of a store writes, piece by piece. A packed element changes only its own bits. -/
def storePieces (s : State) (c : Nat) (x : VCtx) (w : Word) (i v pa n : Nat) (done : List SbPiece) : List SbPiece :=
  if x.packed then
    let sh := i * x.memBits % 8
    (List.range n).map (fun j =>
      let pl := s.corePlace c .write (pa + j)
      let old := (s.vecByte c pl.addr done).toNat
      let mask := ((2 ^ x.memBits - 1) * 2 ^ sh / 2 ^ (8 * j)) % 256
      let bits := (v % 2 ^ x.memBits * 2 ^ sh / 2 ^ (8 * j)) % 256
      { place := pl, bytes := [BitVec.ofNat 8 ((old &&& (255 - mask)) ||| bits)] })
  else [{ place := s.corePlace c .write pa, bytes := natLE (x.sew / 8) v }]

/-- Check the active elements in order and list what they store; the first that fails ends the list. -/
def storeElems (c : Nat) (k : Core) (x : VCtx) (w : Word) (s : State) : List Nat → List SbPiece → List SbPiece × Option (Nat × FaultInfo)
  | [], acc => (acc, none)
  | i :: l, acc =>
    if !k.active w i then storeElems c k x w s l acc
    else
      let pa := elemAddr k x w i
      let n := elemLen x w i
      match s.vecCheck c .write pa n (elemAlign x w) with
      | some f => (acc, some (i, f))
      | none =>
        let v := elem (k.group (fRd w) x.gang) x.sew i
        storeElems c k x w s l (acc ++ storePieces s c x w i v pa n acc)

/-- In mask mode, what the bytes of m[vd] store; the bits from VLN up of the last byte are not stated, and `free` gives
them (R162). -/
def storeMask (c : Nat) (k : Core) (x : VCtx) (w : Word) (free : Nat) (s : State) : List Nat → List SbPiece → List SbPiece × Option (Nat × FaultInfo)
  | [], acc => (acc, none)
  | i :: l, acc =>
    let pa := elemAddr k x w i
    if i % 8 ≠ 0 ∧ i ≠ k.ctl.resumeElem then storeMask c k x w free s l acc
    else match s.vecCheck c .write pa 1 1 with
      | some f => (acc, some (i, f))
      | none =>
        let b := bitsOf (k.mr (fRd w)) (i / 8 * 8) 8
        let n := x.vln - i / 8 * 8
        let b := if n ≥ 8 then b else b % 2 ^ n + free / 2 ^ n * 2 ^ n
        storeMask c k x w free s l (acc ++ [{ place := s.corePlace c .write pa, bytes := [BitVec.ofNat 8 b] }])

/-- The store-buffer entry of a long-vector or tile store (R166, R187). -/
def vecEntry (kind : SbKind) (addr : Nat) (l : List SbPiece) : SbEntry :=
  { kind := kind, addr := addr, pieces := joinPieces l }

/-- VST (R162 to R166): one store-buffer entry holds what the elements before a failing one store. -/
def semVst (c : Nat) (w : Word) (s : State) : Res :=
  s.vmemStart c w (major w == 0x33 && encOk {} w) (fun k x =>
    let partialByte := fAmode w = 5 && x.vln % 8 != 0
    let d := if partialByte then s.draw else (0, s)
    let free := if partialByte then (Config.freeByte d.1).toNat else 0
    let r := if fAmode w = 5 then storeMask c k x w free s (resumeRange k x) [] else storeElems c k x w s (resumeRange k x) []
    let finish := fun (s : State) => match r.2 with
      | some (j, f) => s.vecInterrupt c j f
      | none => s.vecMemDone c (memBeats x w)
    match r.1 with
    | [] => finish d.2
    | q :: l => d.2.sbRoom c (fun s => finish (s.pushSb c (vecEntry .vector (elemAddr k x w k.ctl.resumeElem) (q :: l)))))

/-- VLD (R162, R165). -/
def execVld (c : Nat) (w : Word) (s : State) : Host.Outcome State Fault Refusal := ok (s.execute c w (semVld c w))
/-- VLD_FIRST_FAULT (R167). -/
def execVldFirstFault (c : Nat) (w : Word) (s : State) : Host.Outcome State Fault Refusal := ok (s.execute c w (semVldFirstFault c w))
/-- VST (R164 to R166). -/
def execVst (c : Nat) (w : Word) (s : State) : Host.Outcome State Fault Refusal := ok (s.execute c w (semVst c w))

/-! ## Tile and scale registers (R186, R187) -/

def Core.tr (k : Core) (n : Nat) : VReg := NatMap.get 0 k.regs.t n
def Core.tsr (k : Core) (n : Nat) : Line := NatMap.get 0 k.regs.ts n
def Core.ar (k : Core) (n : Nat) : VReg := NatMap.get 0 k.regs.a n
def Core.vr (k : Core) (n : Nat) : VReg := NatMap.get 0 k.regs.v n
def State.setT (s : State) (c n : Nat) (x : VReg) : State := s.modRegs c (fun r => { r with t := NatMap.set 0 r.t n x })
def State.setTs (s : State) (c n : Nat) (x : Line) : State := s.modRegs c (fun r => { r with ts := NatMap.set 0 r.ts n x })
def State.setA (s : State) (c n : Nat) (x : VReg) : State := s.modRegs c (fun r => { r with a := NatMap.set 0 r.a n x })
def State.setV (s : State) (c n : Nat) (x : VReg) : State := s.modRegs c (fun r => { r with v := NatMap.set 0 r.v n x })

def mxferIs (w : Word) (fn : Nat) : Bool := major w == 0x39 && fFunc w == fn && encOk {} w

/-- The address of row `r`. -/
def rowAddr (k : Core) (w : Word) (r : Nat) : Nat := (k.gr (fRa w) + BitVec.ofNat 64 r * k.gr (fRb w)).toNat

/-- Read rows of `len` bytes in ascending order: any failure is that row's, and nothing changes. -/
def readRows (c : Nat) (k0 : Core) (w : Word) (len : Nat) : List Nat → Nat → List Byte → State → Got
  | [], _, acc, s => .ok acc s
  | r :: l, k, acc, s =>
    let pa := rowAddr k0 w r
    match s.vecCheck c .read pa len 16 with
    | some f => .fault { f with aux := r } s
    | none =>
      match readRun c (chunks 64 pa len) k [] s with
      | (.ok b s, k) => readRows c k0 w len l k (acc ++ b) s
      | (.fault f s, _) => .fault { f with aux := r, eaddr := pa } s
      | (.wait s, _) => .wait s

/-- Check rows of `len` bytes for a store. -/
def checkRows (s : State) (c : Nat) (k0 : Core) (w : Word) (len : Nat) (rows : List Nat) : Option FaultInfo :=
  rows.findSome? (fun r => (s.vecCheck c .write (rowAddr k0 w r) len 16).map (fun f => { f with aux := r }))

/-- A tile load of `n` rows of `len` bytes. -/
def tileLoad (c : Nat) (w : Word) (fn n len : Nat) (s : State) : Res :=
  if !mxferIs w fn then .fault illReserved s
  else (readRows c (s.core c) w len (List.range n) 0 [] s).andThen (fun b s =>
    .ok ((s.setT c (fRd w) (BitVec.ofNat 8192 (leNat b))).bump c 0x30D 16))

/-- The pieces of a row store. -/
def rowPieces (s : State) (c pa : Nat) (b : List Byte) : List SbPiece :=
  (chunks 64 pa b.length).map (fun q => { place := s.corePlace c .write q.1, bytes := (b.drop (q.1 - pa)).take q.2 })

/-- A tile store: every row is checked before any byte enters the memory path. -/
def tileStore (c : Nat) (w : Word) (fn n len : Nat) (s : State) : Res :=
  if !mxferIs w fn then .fault illReserved s
  else
    let k := s.core c
    match checkRows s c k w len (List.range n) with
    | some f => .fault f s
    | none =>
      let b := natLE 1024 (k.tr (fRd w)).toNat
      let l := (List.range n).flatMap (fun r => rowPieces s c (rowAddr k w r) ((b.drop (len * r)).take len))
      s.sbRoom c (fun s => .ok ((s.pushSb c { kind := .tile, addr := rowAddr k w 0, pieces := l }).bump c 0x30D 16))

def semTld (c : Nat) (w : Word) (s : State) : Res := tileLoad c w 0x00 16 64 s
def semTldW (c : Nat) (w : Word) (s : State) : Res := tileLoad c w 0x01 8 128 s
def semTst (c : Nat) (w : Word) (s : State) : Res := tileStore c w 0x02 16 64 s
def semTstW (c : Nat) (w : Word) (s : State) : Res := tileStore c w 0x03 8 128 s

def semTsld (c : Nat) (w : Word) (s : State) : Res :=
  if !mxferIs w 0x04 then .fault illReserved s
  else (readRows c (s.core c) w 64 [0] 0 [] s).andThen (fun b s => .ok ((s.setTs c (fRd w) (bytesLine b)).bump c 0x30D 1))

def semTsst (c : Nat) (w : Word) (s : State) : Res :=
  if !mxferIs w 0x05 then .fault illReserved s
  else
    let k := s.core c
    match checkRows s c k w 64 [0] with
    | some f => .fault f s
    | none =>
      let l := rowPieces s c (rowAddr k w 0) (lineBytes (k.tsr (fRd w)))
      s.sbRoom c (fun s => .ok ((s.pushSb c { kind := .tile, addr := rowAddr k w 0, pieces := l }).bump c 0x30D 1))

/-- TLD (R187). -/
def execTld (c : Nat) (w : Word) (s : State) : Host.Outcome State Fault Refusal := ok (s.execute c w (semTld c w))
/-- TLD_W (R187). -/
def execTldW (c : Nat) (w : Word) (s : State) : Host.Outcome State Fault Refusal := ok (s.execute c w (semTldW c w))
/-- TST (R187). -/
def execTst (c : Nat) (w : Word) (s : State) : Host.Outcome State Fault Refusal := ok (s.execute c w (semTst c w))
/-- TST_W (R187). -/
def execTstW (c : Nat) (w : Word) (s : State) : Host.Outcome State Fault Refusal := ok (s.execute c w (semTstW c w))
/-- TSLD (R187). -/
def execTsld (c : Nat) (w : Word) (s : State) : Host.Outcome State Fault Refusal := ok (s.execute c w (semTsld c w))
/-- TSST (R187). -/
def execTsst (c : Nat) (w : Word) (s : State) : Host.Outcome State Fault Refusal := ok (s.execute c w (semTsst c w))

end Sys2Proof.Machine
end

