-- ==== Sys2Proof/Machine/Matrix.lean ====
section
/-!
DEFINITION. The matrix extension (R176 to R190).
-/

namespace Sys2Proof.Machine

/-- A row of the shape table (R180): element format code of R147 (0 for INT8), whether it is an MX format, M, N, K, G and
the array cycles. -/
structure MopShape where
  fmt : Nat
  mx : Bool := false
  dbl : Bool := false
  m : Nat := 16
  n : Nat := 16
  k : Nat
  g : Nat := 4
  cycles : Nat := 32

def mopShape (mfmt : Nat) : MopShape :=
  match mfmt with
  | 0 => { fmt := 1, dbl := true, m := 8, k := 16, g := 1, cycles := 128 }
  | 1 => { fmt := 2, k := 16, g := 2, cycles := 64 }
  | 2 => { fmt := 3, k := 32 }
  | 3 => { fmt := 4, k := 32 }
  | 4 => { fmt := 5, k := 64 }
  | 5 => { fmt := 6, k := 64 }
  | 6 => { fmt := 7, mx := true, k := 64 }
  | 7 => { fmt := 8, mx := true, k := 64 }
  | 8 => { fmt := 9, mx := true, k := 64 }
  | 9 => { fmt := 0xA, mx := true, k := 64 }
  | 10 => { fmt := 0xB, mx := true, k := 128 }
  | 11 => { fmt := 0xC, mx := true, k := 64 }
  | _ => { fmt := 0, k := 64, g := 64 }

/-- Element `k` of a row held as a number (R177). -/
def tileElem (fmt row k : Nat) : Nat :=
  match fmt with
  | 1 => elem row 64 k
  | 2 => elem row 32 k
  | 3 => elem row 16 k
  | 4 => elem row 16 k
  | 0xB => elem row 4 k
  | 9 => elem row 8 k % 64
  | 0xA => elem row 8 k % 64
  | _ => elem row 8 k

/-- Row `r` of the A tile, or of the B operand, whose FP64 form is a pair of tiles (R177). -/
def Core.tileRow (k : Core) (h : MopShape) (t r : Nat) : Nat :=
  if h.dbl then bitsOf (k.tr (t + r / 8)).toNat (1024 * (r % 8)) 1024 else bitsOf (k.tr t).toNat (512 * r) 512

/-- The scale of a row's block (R179). -/
def Core.tileScale (k : Core) (h : MopShape) (t r j : Nat) : Nat := bitsOf (k.tsr t).toNat (8 * (r * (h.k / 32) + j)) 8

/-- The value of an operand element with its scale (R182, R184): none where the scale is 0xFF. -/
def mopValue (h : MopShape) (ftz : Bool) (e scale : Nat) : Val :=
  if h.mx then (if scale = 0xFF then .nan false else (mxValue h.fmt e).scale ((scale : Int) - 127)) else (fmtOf h.fmt).read ftz e

/-- One step (R182, R183): the exact sum of the accumulator and the products, rounded once into the accumulator's
format. NV comes from a signalling operand, from 0 × ∞, and from infinities of both signs. -/
def mopStep (f : FFmt) (ftz : Bool) (r : Rounding) (neg : Bool) (acc : Nat) (ps : List (Val × Val)) : FRes :=
  let a := f.read ftz acc
  let prods := ps.map (fun p => let x := p.1.mul p.2; (if neg then x.1.neg else x.1, x.2))
  let vals := a :: prods.map Prod.fst
  let both := vals.any (· == .inf true) && vals.any (· == .inf false)
  let nv := prods.foldl (fun n x => n ||| x.2) (signalFlag [a]) ||| (if both then flNV else 0)
  let sum := match prods with
    | [] => a
    | p :: l => ((l.foldl (fun (t : Val) x => (t.add .near x.1).1) p.1).add .near a).1
  f.put r ftz sum nv

/-- The steps of one output element, from step `t` on. -/
def mopSteps (f : FFmt) (ftz neg : Bool) (prod : Nat → List (Val × Val)) (rnd : Nat → Rounding) : List Nat → Nat → Nat → FRes
  | [], acc, fl => { bits := acc, flags := fl }
  | t :: l, acc, fl =>
    let r := mopStep f ftz (rnd t) neg acc (prod t)
    mopSteps f ftz neg prod rnd l r.bits (fl ||| r.flags)

/-- Accumulator element `i` = 16 m + n (R178). -/
def Core.accElem (k : Core) (h : MopShape) (ad i : Nat) : Nat :=
  if h.dbl then bitsOf (k.ar (ad + i / 16 / 4)).toNat (8 * (128 * (i / 16 % 4) + 8 * (i % 16))) 64
  else bitsOf (k.ar ad).toNat (32 * i) 32

/-- Write the accumulator elements (R178): FP64 pairs keep bytes [1,023:512] of each register. -/
def State.setAcc (s : State) (c : Nat) (h : MopShape) (ad : Nat) (l : List Nat) : State :=
  if h.dbl then
    let put := fun (s : State) (j : Nat) =>
      let old := ((s.core c).ar (ad + j)).toNat
      s.setA c (ad + j) (BitVec.ofNat 8192 (packElems 64 ((l.drop (64 * j)).take 64) (old / 2 ^ 4096)))
    put (put s 0) 1
  else s.setA c ad (BitVec.ofNat 8192 (packElems 32 l 0))

/-- An INT8 MOP (R182): exact, modulo 2^32. -/
def mopInt (k : Core) (h : MopShape) (w : Word) (set neg : Bool) (i : Nat) : Nat :=
  let ra := k.tileRow h (fRa w) (i / 16)
  let rb := k.tileRow h (fRb w) (i % 16)
  let p := (List.range h.k).foldl (fun (t : Int) j => t + signed 8 (elem ra 8 j) * signed 8 (elem rb 8 j)) 0
  let acc : Int := if set then 0 else signed 32 (k.accElem h (fRd w) i)
  wrapInt 32 (if neg then acc - p else acc + p)

/-- A MOP (R181 to R185): `op` is 0 ACC, 1 NACC, 2 SET, 3 NSET. -/
def semMop (c : Nat) (w : Word) (op : Nat) (s : State) : Res :=
  if !(major w == 0x38 && fMop w == op && encOk {} w) then .fault illReserved s
  else
    let k := s.core c
    let h := mopShape (fMfmt w)
    let set := decide (op ≥ 2)
    let neg := op % 2 == 1
    let n := h.m * h.n
    if h.fmt = 0 then
      .ok ((s.setAcc c h (fRd w) ((List.range n).map (mopInt k h w set neg))).bump c 0x30E h.cycles)
    else
      let f := if h.dbl then fp64 else fp32
      let steps := h.k / h.g
      let o := s.reserveSr c k.ctl.sr (n * steps)
      let one := fun i =>
        let ra := k.tileRow h (fRa w) (i / 16)
        let rb := k.tileRow h (fRb w) (i % 16)
        let prod := fun t => (List.range h.g).map (fun j =>
          let kk := h.g * t + j
          (mopValue h k.ctl.ftz (tileElem h.fmt ra kk) (k.tileScale h (fRa w) (i / 16) (kk / 32)),
           mopValue h k.ctl.ftz (tileElem h.fmt rb kk) (k.tileScale h (fRb w) (i % 16) (kk / 32))))
        let rnd := fun t => if k.ctl.sr then .stochastic (draw16 o.1 (t * n + i)) else .near
        mopSteps f k.ctl.ftz neg prod rnd (List.range steps) (if set then 0 else k.accElem h (fRd w) i) 0
      let l := (List.range n).map one
      .ok (((o.2.setAcc c h (fRd w) (l.map FRes.bits)).modCtl c (fun x => { x with fflags := x.fflags ||| (FRes.or l % 32) })).bump c 0x30E h.cycles)

def semMopAcc (c : Nat) (w : Word) (s : State) : Res := semMop c w 0 s
def semMopNacc (c : Nat) (w : Word) (s : State) : Res := semMop c w 1 s
def semMopSet (c : Nat) (w : Word) (s : State) : Res := semMop c w 2 s
def semMopNset (c : Nat) (w : Word) (s : State) : Res := semMop c w 3 s

/-! ## Moves (R186) -/

/-- A move that the word of MXFER function `fn` names. -/
def mxMove (w : Word) (fn : Nat) (s : State) (f : State → State) : Res :=
  if !mxferIs w fn then .fault illReserved s else .ok (f s)

def semVfromt (c : Nat) (w : Word) (s : State) : Res := mxMove w 0x08 s (fun s => s.setV c (fRd w) ((s.core c).tr (fRa w)))
def semTfromv (c : Nat) (w : Word) (s : State) : Res := mxMove w 0x09 s (fun s => s.setT c (fRd w) ((s.core c).vr (fRa w)))
def semVfroma (c : Nat) (w : Word) (s : State) : Res := mxMove w 0x0A s (fun s => s.setV c (fRd w) ((s.core c).ar (fRa w)))
def semAfromv (c : Nat) (w : Word) (s : State) : Res := mxMove w 0x0B s (fun s => s.setA c (fRd w) ((s.core c).vr (fRa w)))
def semVfromts (c : Nat) (w : Word) (s : State) : Res :=
  mxMove w 0x0C s (fun s => s.setV c (fRd w) (((s.core c).tsr (fRa w)).setWidth 8192))
def semTsfromv (c : Nat) (w : Word) (s : State) : Res :=
  mxMove w 0x0D s (fun s => s.setTs c (fRd w) (((s.core c).vr (fRa w)).setWidth 512))
def semAzero (c : Nat) (w : Word) (s : State) : Res := mxMove w 0x10 s (fun s => s.setA c (fRd w) 0)

/-! ## ARED (R189) -/

/-- The values an ARED sends, in order of index. -/
def aredValues (k : Core) (w : Word) : List Nat :=
  if fRc w = 1 then (List.range 128).map (k.accElem (mopShape 0) (fRd w))
  else (List.range 256).map (k.accElem (mopShape 1) (fRd w))

/-- ARED: one store-buffer entry holds the contribution until the tile's reduction unit takes it: the core, the tag
registers, SUB and the values. -/
def semAred (c : Nat) (w : Word) (s : State) : Res :=
  if !mxferIs w 0x11 then .fault illReserved s
  else
    let k := s.core c
    s.sbRoom c (fun s => .ok (s.pushSb c
      { kind := .ared, ared := c :: (k.gr (fRa w)).toNat :: (k.gr (fRb w)).toNat :: fRc w :: aredValues k w }))

/-- MOP_ACC (R182). -/
def execMopAcc (c : Nat) (w : Word) (s : State) : Host.Outcome State Fault Refusal := ok (s.execute c w (semMopAcc c w))
/-- MOP_NACC (R182). -/
def execMopNacc (c : Nat) (w : Word) (s : State) : Host.Outcome State Fault Refusal := ok (s.execute c w (semMopNacc c w))
/-- MOP_SET (R182). -/
def execMopSet (c : Nat) (w : Word) (s : State) : Host.Outcome State Fault Refusal := ok (s.execute c w (semMopSet c w))
/-- MOP_NSET (R182). -/
def execMopNset (c : Nat) (w : Word) (s : State) : Host.Outcome State Fault Refusal := ok (s.execute c w (semMopNset c w))
/-- VFROMT (R186). -/
def execVfromt (c : Nat) (w : Word) (s : State) : Host.Outcome State Fault Refusal := ok (s.execute c w (semVfromt c w))
/-- TFROMV (R186). -/
def execTfromv (c : Nat) (w : Word) (s : State) : Host.Outcome State Fault Refusal := ok (s.execute c w (semTfromv c w))
/-- VFROMA (R186). -/
def execVfroma (c : Nat) (w : Word) (s : State) : Host.Outcome State Fault Refusal := ok (s.execute c w (semVfroma c w))
/-- AFROMV (R186). -/
def execAfromv (c : Nat) (w : Word) (s : State) : Host.Outcome State Fault Refusal := ok (s.execute c w (semAfromv c w))
/-- VFROMTS (R186). -/
def execVfromts (c : Nat) (w : Word) (s : State) : Host.Outcome State Fault Refusal := ok (s.execute c w (semVfromts c w))
/-- TSFROMV (R186). -/
def execTsfromv (c : Nat) (w : Word) (s : State) : Host.Outcome State Fault Refusal := ok (s.execute c w (semTsfromv c w))
/-- AZERO (R186). -/
def execAzero (c : Nat) (w : Word) (s : State) : Host.Outcome State Fault Refusal := ok (s.execute c w (semAzero c w))
/-- ARED (R189). -/
def execAred (c : Nat) (w : Word) (s : State) : Host.Outcome State Fault Refusal := ok (s.execute c w (semAred c w))

end Sys2Proof.Machine
end

