-- ==== Sys2Proof/Machine/Custom.lean ====
section
/-!
DEFINITION. Custom instructions (R139, R140, R208 to R213).
-/

namespace Sys2Proof.Machine

/-- The operation of a substituted micro-op (R212): the instruction its word names, by major and function. -/
def microSem (c : Nat) (w : Word) (s : State) : Res :=
  let m := major w
  let f := fFunc w
  if !encOk {} w then .fault illReserved s
  else if m = 0x01 then semAlu c w s
  else if m = 0x02 then semMulDiv c w s
  else if m ≤ 0x0C then semImm c w s
  else if isLoad m then semLoad c w s
  else if isStore m then semStore c w s
  else match m with
    | 0x2D => semFpOp c w s
    | 0x2E => semFmaOp c w s
    | 0x2F =>
      if f = 3 ∨ f = 7 then semFkind c w s
      else if f ≤ 6 then semFpCompare c w s
      else if f = 8 then semFnarrow c w s
      else if f = 9 then semFwiden c w s
      else if f ≤ 0x1F then semFtoi c w s
      else if f ≤ 0x27 then semItof c w s
      else if f = 0x30 then semFmovg c w s
      else semFmovf c w s
    | 0x30 => semVint c w s
    | 0x31 => semVfp c w s
    | 0x32 => if fAmode w = 4 then semVldFirstFault c w s else semVld c w s
    | 0x33 => semVst c w s
    | 0x34 => match fKind w with
      | 0 => semCvt c w s
      | 1 => semCvtT c w s
      | 2 => semMxq c w s
      | _ => semMxd c w s
    | 0x35 =>
      if f % 32 ≤ 9 then semVmaskCompare c w s
      else if f ≤ 20 then semMaskLogic c w s
      else if f = 21 then semVmpopc c w s
      else if f = 22 then semVmfirst c w s
      else semVmset c w s
    | 0x36 => match f with
      | 0 => semVsetl c w s
      | 1 => semVmv c w s
      | 2 => semVmvScalar c w s
      | 3 => semVmvScalar c w s
      | 4 => semVext c w s
      | 5 => semVext c w s
      | 6 => semVslideup c w s
      | 7 => semVslidedn c w s
      | 8 => semVgather c w s
      | 9 => semVmerge c w s
      | 10 => semVid c w s
      | 11 => semVredsum c w s
      | 12 => semVfredsum c w s
      | _ => semVfredmaxmin c w s
    | 0x37 => match f % 8 with
      | 6 => semSvcvt c w s
      | 7 => semSvshuf c w s
      | _ => semSvArith c w s
    | 0x38 => semMop c w (fMop w) s
    | 0x39 => match f with
      | 0x00 => semTld c w s
      | 0x01 => semTldW c w s
      | 0x02 => semTst c w s
      | 0x03 => semTstW c w s
      | 0x04 => semTsld c w s
      | 0x05 => semTsst c w s
      | 0x08 => semVfromt c w s
      | 0x09 => semTfromv c w s
      | 0x0A => semVfroma c w s
      | 0x0B => semAfromv c w s
      | 0x0C => semVfromts c w s
      | 0x0D => semTsfromv c w s
      | 0x10 => semAzero c w s
      | _ => semAred c w s
    | _ => .fault illReserved s

/-- The register a micro-op's condition tests (R209), as its instruction left it. -/
def testReg (u : MicroOp) (w : Word) (k : Core) : Dword := k.gr (if u.tsel = 0 then u.treg else custField w u.tsel)

/-- Where execution goes after micro-op `j` (R210): the next index, or none at the end. -/
def nextUop (u : MicroOp) (w : Word) (k : Core) (j : Nat) : Option Nat :=
  let next := if j ≥ 31 then none else some (j + 1)
  let z := testReg u w k == 0
  match u.cond with
  | 0 => next
  | 1 => none
  | 2 => some u.tgt
  | 3 => if z then some u.tgt else next
  | 4 => if z then next else some u.tgt
  | 5 => if z then none else next
  | _ => if z then next else none

/-- Execute micro-ops from index `j` (R212, R213): targets only move forward, so 32 steps suffice. A fault at micro-op
`j` carries `j`; a wait there resumes there. -/
def runUops (c : Nat) (w : Word) (uops : List MicroOp) : Nat → Nat → State → Res
  | 0, _, s => .ok s
  | fuel + 1, j, s =>
    let u := (uops.drop j).headD 0#64
    let r := if u.isNop then .ok s else microSem c (u.substitute w) s
    match r with
    | .ok t =>
      let t := (t.endRemote c).bump c 0x302 1
      match nextUop u w (t.core c) j with
      | none => .ok t
      | some i => runUops c w uops fuel i t
    | .fault f t => .fault { f with uidx := some j } t
    | .wait t => .wait (t.modCtl c (fun x => { x with resumeUop := some (x.pc.toNat, j) }))

/-- The decode entry a custom instruction selects (R139), in the bank current for the core. -/
def State.customEntry (s : State) (c : Nat) (w : Word) : Bool × List MicroOp :=
  let cl := s.cluster (c / 16)
  let t := if (s.core c).bank = 0 then cl.bank0 else cl.bank1
  let e := 4 * (major w - 0x3C) + custFn w
  (bitOf t.valid e, entryUops t.uops e)

/-- A custom instruction (R139, R140, R208). -/
def semCustom (c : Nat) (w : Word) (s : State) : Res :=
  let k := s.core c
  let e := s.customEntry c w
  let dests := (List.range 32).flatMap (fun j =>
    let u := (e.2.drop j).headD 0#64
    if u.isNop then [] else gDests (u.substitute w))
  if major w < 0x3C then .fault illReserved s
  else if !k.ctl.priv && !k.sre.dtabUen then .fault illPriv s
  else if !e.1 then .fault illEmpty s
  else if (match k.ctl.delay with | some d => d.blocks dests | none => false) then .fault illSlot s
  else
    let j := match k.ctl.resumeUop with
      | some (a, j) => if a = k.ctl.pc.toNat then j else 0
      | none => 0
    runUops c w e.2 32 j s

/-- CUSTOM_INSTRUCTION (R212). -/
def execCustomInstruction (c : Nat) (w : Word) (s : State) : Host.Outcome State Fault Refusal := ok (s.execute c w (semCustom c w))

end Sys2Proof.Machine
end

