-- ==== Sys2Proof/Machine/Errors.lean ====
section
/-!
DEFINITION. Internal errors, the mesh and the flash log (R523, R524, R528, R530, R535).
-/

namespace Sys2Proof.Machine

/-- A partition enters HELD at once, as step 5 of R58 would hold it (R524). -/
def State.holdNow (s : State) (p : Nat) : State :=
  match (s.part p).state with
  | .loading => (s.leaveLoading p).enterHeld p 3
  | .running => s.enterHeld p 3
  | .migrating => (if (s.part p).migFailed then s else s.migFail p 1).enterHeld p 6
  | _ => s

/-- Ports whose forwarding path passes through a failed unit go dark with reason HOST (R524). -/
def State.portsDark (s : State) (l : List Nat) : State := l.foldl (fun s q => s.portDown q .dark 8) s

/-- PARITY_ERROR (R528), of a cluster (kind 0, its granule), a scheduler instance (1), a tile (2) or an I/O die (any other kind,
die 0 or 1). What passes between the I/O dies for a port crosses its row, port mod 4 (R25, R417). -/
def State.parity (s : State) (kind unit : Nat) : State :=
  if kind = 0 then s.logErr { cls := 2, source := 0x0F, code := 1, part := s.ownerByte unit, unit := unit }
  else if kind = 1 then
    s.logErr { cls := 2, source := 0x0F, code := 2, part := if s.pageDefined unit then unit else 255, unit := unit }
  else if kind = 2 then
    (s.logErr { cls := 3, source := 0x0F, code := 3, unit := unit }).portsDark ((List.range 16).filter (fun q => q % 4 == unit / 4))
  else
    let s := (s.logErr { cls := 3, source := 0x0F, code := 4, unit := 17 + unit }).portsDark ((List.range 16).filter (fun q => q / 8 == unit))
    (List.range 16).foldl State.holdNow s

def execParityError (kind unit t : Nat) (s : State) : Host.Outcome State Fault Refusal := ok ((s.advance t).parity kind unit)

/-- MESH_EDGE_FAILURE (R528): an edge loses a module; the loss of its second is FATAL, and the ports whose forwarding path passes
through it, `ports`, go dark (R524). -/
def State.edgeFails (s : State) (e : Nat) (ports : List Nat) : State :=
  let n := NatMap.get 0 s.units.edgeLost e
  if 2 ≤ n then s
  else
    let s := { s with units := { s.units with edgeLost := NatMap.set 0 s.units.edgeLost e (n + 1) }, boot := { s.boot with degraded := true } }
    if n = 0 then s.logErr { cls := 0, source := 7, code := 2, unit := e }
    else (s.logErr { cls := 3, source := 7, code := 3, unit := e }).portsDark ports

def execMeshEdgeFailure (e : Nat) (ports : List Nat) (t : Nat) (s : State) : Host.Outcome State Fault Refusal :=
  ok ((s.advance t).edgeFails e ports)

/-- MESH_FLIT_RETRY (R528). -/
def execMeshFlitRetry (e t : Nat) (s : State) : Host.Outcome State Fault Refusal :=
  ok ((s.advance t).logErr { cls := 1, source := 7, code := 1, unit := e })

/-! ## The flash log (R535) -/

/-- The record that is written next: the oldest FATAL one, or the oldest. -/
def nextLogged (l : List StreamEntry) : Option ErrRec :=
  let rs := l.filterMap (fun e => match e with | .record r => some r | .event _ _ => none)
  (rs.find? (fun r => r.cls == 3)).or rs.head?

/-- Remove the first entry that is a record. -/
def dropRecord (r : ErrRec) : List StreamEntry → List StreamEntry
  | [] => []
  | e :: l => if e = .record r then l else e :: dropRecord r l

/-- Is the entry a copy of an event bit? -/
def StreamEntry.isEvent : StreamEntry → Bool
  | .event _ _ => true
  | .record _ => false

/-- Append a record to the log of 4,096 sectors of 64 records; a sector is erased before it is used again. -/
def ErrSt.logRecord (e : ErrSt) (r : ErrRec) : ErrSt :=
  let n := e.flashBase + e.flash.length
  if 262144 ≤ n ∧ n % 64 = 0 then { e with flash := e.flash.drop 64 ++ [r], flashBase := e.flashBase + 64 }
  else { e with flash := e.flash ++ [r] }

/-- FLASH_LOG_WRITE: Safelight takes the next record from its stream, and with it the copies of event
bits that have come to its head; `stores` says whether the flash takes it. -/
def State.flashLog (s : State) (stores : Bool) : State :=
  if !s.mgmt.up then s
  else match nextLogged s.err.stream with
    | none => { s with err := { s.err with stream := [] } }
    | some r =>
      let e := { s.err with stream := (dropRecord r s.err.stream).dropWhile StreamEntry.isEvent }
      { s with err := if stores then e.logRecord r else { e with flashLost := satInc e.flashLost } }

def execFlashLogWrite (stores : Bool) (s : State) : Host.Outcome State Fault Refusal := ok (s.flashLog stores)

end Sys2Proof.Machine
end

