-- ==== Sys2Proof/Machine/Real.lean ====
section
/-!
DEFINITION. Elementary functions to 512 fractional bits, from which the correctly rounded values of R345 and R347 and the
bounds of R296 are taken. A value is an integer that counts units of 2^−512; no input of the device's formats comes that
close to a rounding boundary.
-/

namespace Sys2Proof.Machine

/-- The fractional bits of a fixed-point value. -/
def fixP : Nat := 512
/-- One. -/
def fixOne : Int := 2 ^ 512

/-- The product and quotient of fixed-point values. -/
def fixMul (x y : Int) : Int := x * y / fixOne
def fixDiv (x y : Int) : Int := x * fixOne / y

/-- (−1)^neg · m · 2^e as a fixed-point value with `w` fractional bits. -/
def toFix (w : Nat) (neg : Bool) (m : Nat) (e : Int) : Int :=
  let k := e + w
  let x : Int := if 0 ≤ k then m * 2 ^ k.toNat else m / 2 ^ (-k).toNat
  if neg then -x else x

/-- Terms `t·z2^i/(2i + 1)` summed, from index `i` on: the series of atanh, and of atan where `z2` is negative. -/
def oddSeries (w : Nat) (z2 : Int) : Nat → Nat → Int → Int
  | 0, _, _ => 0
  | n + 1, i, t => t / (2 * i + 1 : Nat) + oddSeries w z2 n (i + 1) (t * z2 / 2 ^ w)

/-- ln 2 = 2 atanh(1/3). -/
def fixLn2 : Int := 2 * oddSeries fixP (fixOne / 9) 180 0 (fixOne / 3)

/-- π with `w` fractional bits, by Machin's formula. -/
def piAt (w : Nat) : Int :=
  let one : Int := 2 ^ w
  4 * (4 * oddSeries w (-(one / 25)) (w / 4) 0 (one / 5) - oddSeries w (-(one / 57121)) (w / 14) 0 (one / 239))

/-- ln of m · 2^e, m not 0. -/
def fixLn (m : Nat) (e : Int) : Int :=
  let k := bitLen m - 1
  let t : Int := toFix fixP false m (-(k : Int))
  let z := fixDiv (t - fixOne) (t + fixOne)
  2 * oddSeries fixP (fixMul z z) 180 0 z + (e + k) * fixLn2

/-- The Taylor series of exp from its n-th term on. -/
def expSeries (r : Int) : Nat → Nat → Int → Int
  | 0, _, _ => 0
  | f + 1, n, t => t + expSeries r f (n + 1) (fixMul t r / ((n + 1 : Nat) : Int))

/-- exp of a fixed-point value of at most 2^9 in magnitude. -/
def fixExp (x : Int) : Int :=
  let k := (x + fixLn2 / 2) / fixLn2
  let t := expSeries (x - k * fixLn2) 120 0 fixOne
  if 0 ≤ k then t * 2 ^ k.toNat else t / 2 ^ (-k).toNat

/-- The alternating Taylor series whose next term is `t`, its index `n`. -/
def trigSeries (r2 : Int) : Nat → Nat → Int → Int
  | 0, _, _ => 0
  | f + 1, n, t => t - trigSeries r2 f (n + 2) (fixMul t r2 / (((n + 1) * (n + 2) : Nat) : Int))

/-- Sine and cosine of a fixed-point angle of at most 1 in magnitude. -/
def fixSinSmall (r : Int) : Int := trigSeries (fixMul r r) 70 1 r
def fixCosSmall (r : Int) : Int := trigSeries (fixMul r r) 70 0 fixOne

/-- The cosine of the angle `q` quarter turns and `r`. -/
def quarterCos (q r : Int) : Int :=
  if q % 4 = 0 then fixCosSmall r else if q % 4 = 1 then -fixSinSmall r else if q % 4 = 2 then -fixCosSmall r else fixSinSmall r

/-- An angle m · 2^e, with sign, as quarter turns and a remainder; finite values of FP32 are below 2^128. -/
def reduceAngle (neg : Bool) (m : Nat) (e : Int) : Int × Int :=
  let w := fixP + 192
  let half := piAt w / 2
  let x := toFix w neg m e
  let q := (2 * x + half) / (2 * half)
  (q, (x - q * half) / 2 ^ 192)

def fixCos (neg : Bool) (m : Nat) (e : Int) : Int := let a := reduceAngle neg m e; quarterCos a.1 a.2
def fixSin (neg : Bool) (m : Nat) (e : Int) : Int := let a := reduceAngle neg m e; quarterCos (a.1 - 1) a.2

/-- cos(π j / 2^k). -/
def fixCosPi (j k : Nat) : Int :=
  let x : Int := (j : Int) * 2 ^ (fixP + 1 - k)
  let q := (x + fixOne / 2) / fixOne
  quarterCos q (fixMul ((x - q * fixOne) / 2) (piAt fixP))

/-- The series of erf · √π / 2 at x, from its n-th term on; `t` is (−1)^n x^(2n+1) / n!. -/
def erfSeries (x2 : Int) : Nat → Nat → Int → Int
  | 0, _, _ => 0
  | f + 1, n, t => t / ((2 * n + 1 : Nat) : Int) + erfSeries x2 f (n + 1) (-(fixMul t x2) / ((n + 1 : Nat) : Int))

/-- erf of a fixed-point value; beyond 8 it is just below 1. -/
def fixErf (x : Int) : Int :=
  if x ≥ 8 * fixOne then fixOne - 1
  else if x ≤ -(8 * fixOne) then 1 - fixOne
  else 2 * fixDiv (erfSeries (fixMul x x) 420 0 x) (isqrt ((piAt fixP).toNat * 2 ^ fixP) : Nat)

/-- Round a fixed-point value that stands for an inexact one. -/
def FFmt.ofFix (f : FFmt) (r : Rounding) (x : Int) : FRes :=
  f.round r false (decide (x < 0)) x.natAbs (-512) true

end Sys2Proof.Machine
end

