-- ==== Sys2Proof/Machine/Fixer.lean ====
section
/-!
DEFINITION. The Fixer (R285, R288 to R298).
-/

namespace Sys2Proof.Machine

/-! ## Formats (R290) -/

def ffmtSize (c : Nat) : Nat :=
  match c with
  | 0 => 8 | 1 => 4 | 2 => 2 | 3 => 2 | 4 => 1 | 5 => 1 | 6 => 1 | 7 => 4 | 8 => 8 | _ => 1
def ffmtFloat (c : Nat) : Bool := decide (c ≤ 5)
def ffmtInt (c : Nat) : Bool := decide (6 ≤ c) && decide (c ≤ 8)
def ffmtBits (c : Nat) : Nat := 8 * ffmtSize c
def ffmtOf (c : Nat) : FFmt := svFmt c

/-- The value an operand of format `c` holds. -/
def fixVal (c : Nat) (ftz : Bool) (bits : Nat) : Val :=
  if ffmtInt c then Val.ofInt (signed (ffmtBits c) bits) else (ffmtOf c).read ftz bits

/-- A value rounded into format `d` (R295). -/
def fixPut (d : Nat) (r : Rounding) (ftz : Bool) (v : Val) (fl : Nat) : FRes :=
  if ffmtInt d then
    let y := toInteger (ffmtBits d) true r v
    { bits := wrapInt (ffmtBits d) y.1, flags := fl ||| y.2 }
  else (ffmtOf d).put r ftz v fl

/-- An integer saturated to format `d`, with SAT. -/
def fixPutInt (d : Nat) (i : Int) : FRes :=
  let y := satInt (ffmtBits d) i
  { bits := y.1, flags := if y.2 then flSAT else 0 }

/-! ## The descriptor block (R288 to R291, R293) -/

/-- Descriptor block fields. -/
def blkSize (b : List Byte) (j : Nat) : Nat := fieldLE b (4 * j) 4
def blkNdim (b : List Byte) : Nat := byteAt b 20
def blkRnd (b : List Byte) : Nat := byteAt b 21
def blkCtrl (b : List Byte) : Nat := byteAt b 22
def blkStream (b : List Byte) : Nat := byteAt b 23
def blkStat (b : List Byte) : Nat := fieldLE b 24 6
/-- A tensor descriptor at `o`: BASE, FFMT and STRIDE_j. -/
def tBase (b : List Byte) (o : Nat) : Nat := fieldLE b o 6
def tFmt (b : List Byte) (o : Nat) : Nat := byteAt b (o + 6)
def tStride (b : List Byte) (o j : Nat) : Int := signed 64 (fieldLE b (o + 8 + 8 * j) 8)

/-- The operations of R294 that exist. -/
def fixOps : List Nat :=
  [0, 1, 2, 3, 4, 5, 0x10, 0x11, 0x12, 0x13, 0x14, 0x15, 0x16, 0x17, 0x18, 0x19, 0x20, 0x21, 0x22, 0x23, 0x24, 0x25, 0x30, 0x31,
   0x32, 0x33, 0x40, 0x41, 0x42, 0x43, 0x50, 0x51, 0x52]
def fixUsesB (op : Nat) : Bool := decide (op ≥ 0x20)
def fixUsesC (op : Nat) : Bool := decide (0x30 ≤ op) && decide (op ≤ 0x33)
def fixTrans (op : Nat) : Bool := decide (0x10 ≤ op) && decide (op ≤ 0x19)

/-- May operand `which` (0 D, 1 A, 2 B, 3 C) of an operation have format `c`, the formats of D and A being `d` and `a`
(R294)? -/
def fixKind (op which c d a : Nat) : Bool :=
  let known := ffmtFloat c || ffmtInt c
  let same := fun x => ffmtFloat c == ffmtFloat x
  known &&
    (if op = 0 ∨ op = 0x32 then true
     else if fixTrans op then (if which = 0 then decide (1 ≤ c) && decide (c ≤ 3) else ffmtFloat c)
     else if 0x40 ≤ op ∧ op ≤ 0x43 then which != 2 || same a
     else if op ≥ 0x50 then ffmtInt c
     else if op = 1 ∨ op = 2 ∨ op = 3 ∨ op = 0x24 ∨ op = 0x25 ∨ op = 0x33 then which == 0 || same d
     else ffmtFloat c)

/-- The dimension at which the product of the sizes reaches 2^48, if it does. -/
def sizeOver (b : List Byte) : Option Nat :=
  (List.range 5).find? (fun j => decide (((List.range (j + 1)).map (blkSize b)).foldl (· * ·) 1 ≥ 2 ^ 48))

/-- The checks of the shape block, in ascending offset order. -/
def shapeFields (b : List Byte) : List (Option Nat) :=
  (List.range 5).map (fun j => need (decide (1 ≤ blkSize b j) && (decide (j < blkNdim b) || blkSize b j == 1) && sizeOver b != some j) (4 * j))
  ++ [need (decide (1 ≤ blkNdim b) && decide (blkNdim b ≤ 5)) 20, need (decide (blkRnd b ≤ 4)) 21, need (decide (blkCtrl b < 8)) 22,
      need (decide (blkStream b < 32)) 23, need (blkStat b % 16 == 0) 24, need (zeroAt b 30 34) 30]

/-- The checks of the tensor descriptor at `o`, or of its FFMT alone where a scalar replaces it. -/
def tensorFields (b : List Byte) (o : Nat) (scalar kind : Bool) : List (Option Nat) :=
  let n := ffmtSize (tFmt b o)
  if scalar then [need kind (o + 6)]
  else [need (tBase b o % n == 0) o, need kind (o + 6), need (zeroAt b (o + 7) 1) (o + 7)]
    ++ (List.range 5).map (fun j => need (decide (tStride b o j % n = 0)) (o + 8 + 8 * j)) ++ [need (zeroAt b (o + 48) 16) (o + 48)]

/-- The first failing field of a block for an operation (R291). -/
def blockError (op : Nat) (b : List Byte) : Option Nat :=
  let d := tFmt b 64
  let a := tFmt b 128
  let ctrl := blkCtrl b
  firstFail (shapeFields b ++ tensorFields b 64 false (fixKind op 0 d d a) ++ tensorFields b 128 false (fixKind op 1 a d a)
    ++ (if fixUsesB op then tensorFields b 192 (bitOf ctrl 1) (fixKind op 2 (tFmt b 192) d a) else [])
    ++ (if fixUsesC op then tensorFields b 256 (bitOf ctrl 2) (fixKind op 3 (tFmt b 256) d a) else []))

/-! ## Transcendentals (R296, R297) -/

/-- Is m · 2^e a power of two, and which? -/
def powerOfTwo (m : Nat) (e : Int) : Option Int := if m ≠ 0 ∧ m = 2 ^ (bitLen m - 1) then some (e + bitLen m - 1) else none

/-- A finite value as an integer, if it is one of moderate size. -/
def asInt (neg : Bool) (m : Nat) (e : Int) : Option Int :=
  let x := toFix fixP neg m (min e 200)
  if x % fixOne = 0 then some (x / fixOne) else none

/-- The special values of R297: the result and its flags, where the table gives one. -/
def transSpecial (op : Nat) (v : Val) : Option (Val × Nat) :=
  let one : Val := .fin false 1 0
  let zero : Val := .fin false 0 0
  match v with
  | .nan b => some (.nan false, if b then flNV else 0)
  | .inf n =>
    match op with
    | 0x10 => some (if n then zero else .inf false, 0)
    | 0x11 => some (if n then zero else .inf false, 0)
    | 0x12 => some (if n then (.nan false, flNV) else (.inf false, 0))
    | 0x13 => some (if n then (.nan false, flNV) else (.inf false, 0))
    | 0x14 => some (if n then (.nan false, flNV) else (zero, 0))
    | 0x17 => some (.fin n 1 0, 0)
    | 0x18 => some (if n then zero else one, 0)
    | 0x19 => some (.fin n 1 0, 0)
    | _ => some (.nan false, flNV)
  | .fin n m e =>
    if m = 0 then
      match op with
      | 0x10 => some (one, 0)
      | 0x11 => some (one, 0)
      | 0x12 => some (.inf true, flDZ)
      | 0x13 => some (.inf true, flDZ)
      | 0x14 => some (.inf n, flDZ)
      | 0x16 => some (one, 0)
      | 0x18 => some (.fin false 1 (-1), 0)
      | _ => some (v, 0)
    else if n && (op == 0x12 || op == 0x13 || op == 0x14) then some (.nan false, flNV)
    else if op = 0x12 then (if powerOfTwo m e = some 0 then some (zero, 0) else none)
    else if op = 0x13 then (powerOfTwo m e).map (fun k => (Val.ofInt k, 0))
    else none

/-- A non-zero finite value the function takes at a point of no special value, to 512 fractional bits; beyond a
magnitude of 300 an exponential is out of every format's range. -/
def transFix (op : Nat) (n : Bool) (m : Nat) (e : Int) : Int :=
  let big := decide ((bitLen m : Int) + e > 8)
  let x := toFix fixP n m (min e 200)
  let expOf := fun (y : Int) => if y > 300 * fixOne then 2 ^ 900 else if y < -(300 * fixOne) then 1 else fixExp y
  match op with
  | 0x10 => expOf x
  | 0x11 => if big then (if n then 1 else 2 ^ 900) else expOf (fixMul x fixLn2)
  | 0x12 => fixLn m e
  | 0x13 => fixDiv (fixLn m e) fixLn2
  | 0x14 => (isqrt (toFix (2 * fixP) false 1 (fixP - e)).toNat : Nat) * fixOne / (isqrt (m * 2 ^ (2 * fixP)) : Nat) / 2 ^ (fixP / 2)
  | 0x15 => fixSin n m e
  | 0x16 => fixCos n m e
  | 0x17 =>
    if big then (if n then 1 - fixOne else fixOne - 1)
    else let t := expOf (2 * x); fixDiv (t - fixOne) (t + fixOne)
  | 0x18 => if big then (if n then 1 else fixOne - 1) else fixDiv fixOne (fixOne + expOf (-x))
  | _ => fixErf x

/-- Codes of a format in the order of their values. -/
def codeOrd (f : FFmt) (b : Nat) : Int := if bitOf b (f.width - 1) then -((b % 2 ^ (f.width - 1) : Nat) : Int) else (b : Int)
def ordCode (f : FFmt) (i : Int) : Nat := f.pack (decide (i < 0)) i.natAbs

/-- Where a code lies, to 512 fractional bits. -/
def codeFix (f : FFmt) (b : Nat) : Int :=
  match f.value b with
  | .fin n m e => toFix fixP n m e
  | _ => 0

/-- The codes within `k` units in the last place of a value whose correct rounding is `b` (R296). -/
def nearCodes (f : FFmt) (k : Nat) (x : Int) (b : Nat) : List Nat :=
  let ulp : Int := 2 ^ (max ((bitLen x.natAbs : Int) - 1 - f.mb) (fixP + 1 - f.bias - f.mb)).toNat
  ((List.range (2 * k + 3)).map (fun (i : Nat) => ordCode f (codeOrd f b + (i : Int) - ((k + 1 : Nat) : Int)))).filter (fun c =>
    decide (c % 2 ^ (f.width - 1) ≤ f.maxCode) && decide ((codeFix f c - x).natAbs ≤ k * ulp.natAbs))

/-- A transcendental result (R296, R297). -/
def transResult (op a d : Nat) (ftz : Bool) (bits : Nat) : FRes :=
  let f := ffmtOf d
  let v := (ffmtOf a).read ftz bits
  let v := if a = 0 then fp32.read ftz (fp32.put .near ftz v 0).bits else v
  let v := match (ffmtOf a).read ftz bits with | .nan b => .nan b | _ => v
  match transSpecial op v with
  | some (y, fl) => f.put .near ftz y fl
  | none =>
    match v with
    | .fin n m e =>
      let whole := if op = 0x11 then asInt n m e else none
      match whole with
      | some k =>
        if (1 - (f.bias : Int) - f.mb ≤ k) && decide (k ≤ f.bias) then f.put .near ftz (.fin false 1 k) 0
        else f.round .near ftz false 1 (max (-400) (min 400 k)) true
      | none =>
        let x := transFix op n m e
        let b := f.ofFix .near x
        if bitOf b.flags 2 then b
        else
          let l := nearCodes f (if d = 1 then 2 else 1) x b.bits
          let c := (l.drop (Config.transcendental op a bits d ftz % l.length)).headD b.bits
          let exact := decide (op = 0x14) && decide (codeFix f c = x)
            && (match powerOfTwo m e with | some k => decide (k % 2 = 0) | none => false)
          if exact then { bits := c }
          else if ftz && f.isSubnormal c then { bits := f.pack (decide (x < 0)) 0, flags := flUF + flNX }
          else { bits := c, flags := b.flags ||| flNX }
    | _ => {}

/-! ## The operations (R294, R295) -/

/-- What an operation's element is made from. -/
structure FixEl where
  op : Nat
  d : Nat
  a : Nat
  b : Nat
  c : Nat
  ftz : Bool
  rnd : Rounding

/-- One element: the bits of D and the flags, from the bits of A, B and C. -/
def FixEl.result (x : FixEl) (ab bb cb : Nat) : FRes :=
  let va := fixVal x.a x.ftz ab
  let vb := fixVal x.b x.ftz bb
  let vc := fixVal x.c x.ftz cb
  let ia := signed (ffmtBits x.a) ab
  let ib := signed (ffmtBits x.b) bb
  let ic := signed (ffmtBits x.c) cb
  let int := ffmtInt x.a
  let put := fun (y : Val × Nat) => fixPut x.d x.rnd x.ftz y.1 y.2
  let conv := fun (c : Nat) (v : Val) (i : Int) => if ffmtInt c && ffmtInt x.d then fixPutInt x.d i else put (v, signalFlag [v])
  let bool := fun (p : Bool × Nat) => { fixPut x.d .near false (Val.ofInt (if p.1 then 1 else 0)) 0 with flags := p.2 }
  match x.op with
  | 0 => conv x.a va ia
  | 1 => if int then fixPutInt x.d (-ia) else put (va.neg, signalFlag [va])
  | 2 => if int then fixPutInt x.d ia.natAbs else put (va.abs, signalFlag [va])
  | 3 =>
    if int then fixPutInt x.d (max ia 0)
    else if va.isNan then put (va, signalFlag [va])
    else if va.sign || va.isZero then put (.fin false 0 0, 0) else put (va, 0)
  | 4 => (ffmtOf x.d).sqrt x.rnd x.ftz va
  | 5 => (ffmtOf x.d).div x.rnd x.ftz (.fin false 1 0) va
  | 0x20 => put (va.add x.rnd vb)
  | 0x21 => put (va.add x.rnd vb.neg)
  | 0x22 => put (va.mul vb)
  | 0x23 => (ffmtOf x.d).div x.rnd x.ftz va vb
  | 0x24 => if int then fixPutInt x.d (min ia ib) else put (va.extremum false true vb)
  | 0x25 => if int then fixPutInt x.d (max ia ib) else put (va.extremum true true vb)
  | 0x30 => put (va.fma x.rnd vb vc)
  | 0x31 => put (va.fma x.rnd vb vc.neg)
  | 0x32 => if vc.isZero then conv x.b vb ib else conv x.a va ia
  | 0x33 =>
    if int then fixPutInt x.d (min (max ia ib) ic)
    else
      let m := va.extremum true true vb
      let n := m.1.extremum false true vc
      put (n.1, m.2 ||| n.2)
  | 0x40 => bool (va.compare 0 vb)
  | 0x41 => bool (va.compare 1 vb)
  | 0x42 => bool (va.compare 2 vb)
  | 0x43 => let r := va.compare 0 vb; bool (!r.1, r.2)
  | 0x50 => fixPutInt x.d (ia + ib)
  | 0x51 => fixPutInt x.d (ia - ib)
  | 0x52 => fixPutInt x.d (ia * ib)
  | op => transResult op x.a x.d x.ftz ab

/-! ## The loop (R292) -/

/-- The address of the element numbered `n` in loop order. -/
def tAddr (b : List Byte) (o n : Nat) : Nat :=
  let go := (List.range 5).foldl (fun (acc : Int × Nat) j =>
    (acc.1 + ((acc.2 % blkSize b j : Nat) : Int) * tStride b o j, acc.2 / blkSize b j)) ((tBase b o : Int), n)
  (go.1 % (2 ^ 48 : Int)).toNat

/-- How many elements a block has. -/
def blkCount (b : List Byte) : Nat := ((List.range 5).map (blkSize b)).foldl (· * ·) 1

/-- A source: its descriptor's offset, whether it shares base, strides and size with D, and, where its distinct bytes total
at most 4 KiB, the bytes read so far. -/
structure FixSrc where
  o : Nat
  same : Bool
  reuse : Bool
  got : NatMap (Option Byte) := []

/-- Do the distinct bytes of a source total at most 4 KiB? -/
def smallSource (b : List Byte) (o count : Nat) : Bool :=
  let n := ffmtSize (tFmt b o)
  let addrs := (List.range count).foldl (fun (m : NatMap Bool) i =>
    if m.length * n > 4096 then m else NatMap.set false m (tAddr b o i) true) []
  decide (addrs.length * n ≤ 4096)

def fixSrc (b : List Byte) (o count : Nat) : FixSrc :=
  { o := o, reuse := smallSource b o count,
    same := tBase b o == tBase b 64 && ffmtSize (tFmt b o) == ffmtSize (tFmt b 64)
      && (List.range 5).all (fun j => decide (tStride b o j = tStride b 64 j)) }

/-- Read element `i` of a source. -/
def Eng.source (e : Eng) (b : List Byte) (x : FixSrc) (i : Nat) : Nat × FixSrc × Eng :=
  let n := ffmtSize (tFmt b x.o)
  let a := tAddr b x.o i
  let held := (List.range n).map (fun j => NatMap.get none x.got (a + j))
  if x.reuse && held.all Option.isSome then (leNat (held.map (·.getD 0)), x, e)
  else
    let r := if x.same then
        let q := e.read .read a n
        ((q.1.zip (List.range n)).map (fun y =>
          match q.2.localAddr .read (a + y.2) with
          | some l => (NatMap.get [] q.2.written l).headD y.1
          | none => y.1), q.2)
      else e.readOpen a n
    let got := if x.reuse then
        (r.1.zip (List.range n)).foldl (fun m y => NatMap.set none m (a + y.2) (some y.1)) x.got
      else x.got
    (leNat r.1, { x with got := got }, r.2)

/-- The work so far: the engine, the sources, the flags and the elements written. -/
structure FixRun where
  e : Eng
  a : FixSrc
  b : FixSrc
  c : FixSrc
  flags : Nat := 0
  count : Nat := 0

/-- A scalar operand or an element of its source (R293). -/
def fixOperand (blk : List Byte) (use scalar : Bool) (val : Nat) (x : FixSrc) (i : Nat) (e : Eng) : Nat × FixSrc × Eng :=
  if !use then (0, x, e)
  else if scalar then (val % 2 ^ ffmtBits (tFmt blk x.o), x, e)
  else e.source blk x i

/-- Element `i` of a command: read the sources, then write D. -/
def FixRun.element (r : FixRun) (rec : Line) (blk : List Byte) (draws : List (List Dword)) (i : Nat) : FixRun :=
  if r.e.err.isSome then r
  else
    let op := fld rec 34 2
    let ctrl := blkCtrl blk
    let x := r.e.source blk r.a i
    let y := fixOperand blk (fixUsesB op) (bitOf ctrl 1) (fld rec 48 8) r.b i x.2.2
    let z := fixOperand blk (fixUsesC op) (bitOf ctrl 2) (fld rec 56 8) r.c i y.2.2
    if z.2.2.err.isSome then { r with e := z.2.2 }
    else
      let rnd := if blkRnd blk = 4 then .stochastic (draw16 draws i) else Rounding.ofCode (blkRnd blk)
      let el : FixEl := { op := op, d := tFmt blk 64, a := tFmt blk 128, b := tFmt blk 192, c := tFmt blk 256, ftz := bitOf ctrl 0, rnd := rnd }
      let res := el.result x.1 y.1 z.1
      let e := z.2.2.writeNoted (tAddr blk 64 i) (natLE (ffmtSize (tFmt blk 64)) res.bits)
      if e.err.isSome then { r with e := e }
      else { e := e, a := x.2.1, b := y.2.1, c := z.2.1, flags := r.flags ||| res.flags, count := r.count + 1 }

/-- The 16-byte status (R298). -/
def fixStatus (flags count : Nat) : List Byte := natLE 1 (flags % 64) ++ natLE 7 0 ++ natLE 8 count

/-- A FIX command (R285 to R298). -/
def runFix (id : Nat) (r : Line) (e : Eng) : State :=
  let op := fld r 34 2
  if !fixOps.contains op then e.finish id (5, 0)
  else
    let t := e.read .read (fld r 40 6) 320
    match t.2.err with
    | some x => Eng.finish { t.2 with moved := if x = MemErr.segment ∨ x = MemErr.window then 0 else t.2.moved } id (0, 0)
    | none =>
      let blk := t.1
      match blockError op blk with
      | some o => t.2.finish id (6, 64 + o)
      | none =>
        let n := blkCount blk
        let g := fld r 32 1
        let d := if blkRnd blk = 4 then t.2.s.reserve g (blkStream blk) (ceilDiv n 256) else ([], t.2.s)
        let run0 : FixRun := { e := { t.2 with s := d.2 }, a := fixSrc blk 128 n, b := fixSrc blk 192 n, c := fixSrc blk 256 n }
        let run := (List.range n).foldl (fun x i => x.element r blk d.1 i) run0
        if blkStat blk = 0 then run.e.finish id (0, 0)
        else
          let st := Eng.write { run.e with err := none } (blkStat blk) (fixStatus run.flags run.count)
          match run.e.err with
          | some x => Eng.finish { run.e with s := st.s, err := some x } id (0, 0)
          | none => st.finish id (0, 0)

def execFixTensor (p id : Nat) (s : State) : Host.Outcome State Fault Refusal := ok (s.runEngine p id 2 0 (runFix id))

end Sys2Proof.Machine
end

