-- ==== Sys2Proof/Machine/Fwu.lean ====
section
/-!
DEFINITION. Firmware update (chapter 20): transfer, verification, activation, the trial's end and the recovery service, by the
mailbox of the FWU block and by PLDM.
-/

namespace Sys2Proof.Machine

/-! ## Results (R511, R512) -/

/-- A command's result is known: FWU_RESULT holds it, and DONE is raised. -/
def State.fwuAnswer (s : State) (code detail : Nat) : State :=
  ({ s with fwu := { s.fwu with result := code, detail := detail } }).fwuEvent 0

/-- A command of the update's own path has been taken (R507). -/
def State.fwuHeard (s : State) : State := { s with fwu := { s.fwu with lastCmd := s.now } }

/-- Does the update belong to the other path, or await a reset once ACTIVATED? -/
def State.fwuTaken (s : State) (path : Nat) : Bool :=
  s.fwu.state == .activated || (s.fwu.state != .idle && s.fwu.path != path)

def State.anyMigrating (s : State) : Bool := (List.range 16).any (fun p => (s.part p).state == .migrating)

/-- The first code of a list of conditions that hold, 0 where none does. -/
def firstResult : List (Bool × Nat) → Nat
  | [] => 0
  | (b, c) :: l => if b then c else firstResult l

/-- The checks of BEGIN but the last. -/
def State.beginChecks (s : State) (path : Nat) : Nat :=
  firstResult [(s.fwuTaken path, 2), (s.fwu.state != .idle, 1), (s.trial, 6), (s.env.holdup, 3), (s.anyMigrating, 4), (s.held.lock, 5)]

def lenOk (len : Nat) : Bool := decide (0 < len) && len % 4096 == 0 && decide (len ≤ 48 * 2 ^ 20)

/-! ## BEGIN and erasure (R507) -/

/-- BEGIN: its code, and the update that begins with the erasure of the target's manifest block. -/
def State.fwuBegin (s : State) (path session len : Nat) : Nat × State :=
  let c := s.beginChecks path
  if c ≠ 0 then (c, s)
  else if !lenOk len then (7, s)
  else
    let target := s.fwuTarget
    let s := s.eraseFlash (slotBase target) 4096
    (0, { s with fwu := { s.fwu with
      state := .erasing, path := path, session := session, target := target, len := len, written := [], digest := 0, svn := 0,
      lastCmd := s.now, resetAt := none, partBlock := [], pldmNext := 0 } })

/-- RequestFirmwareData for the bytes expected next. -/
def State.requestData (s : State) : State := s.emit (.pldm 0x15 0 (natLE 4 s.fwu.pldmNext ++ natLE 4 s.fwu.xfer))

/-- ERASE_COMPLETE. -/
def execEraseComplete (t : Nat) (s : State) : Host.Outcome State Fault Refusal :=
  ok (if s.fwu.state ≠ .erasing then s
    else
      let s := s.advance t
      let s := s.eraseFlash (slotBase s.fwu.target) (ceilDiv s.fwu.len 65536 * 65536)
      let s := { s with fwu := { s.fwu with state := .receiving, lastCmd := s.now } }
      if s.fwu.path = 2 then s.requestData else s)

/-! ## Blocks (R508) -/

/-- Draw `n` free bytes. -/
def State.drawBytes (s : State) (n : Nat) : List Byte × State :=
  ((List.range n).map (fun i => Config.freeByte (s.drawn + i)), { s with drawn := s.drawn + n })

/-- A block of 4 KiB: its code. One that the flash holds already is not written; where program and read-back fail twice, what the
sector then holds is open. -/
def State.putBlock (s : State) (off : Nat) (data : List Byte) (stores : Bool) : Nat × State :=
  let a := slotBase s.fwu.target + off
  let same := decide (s.flashBytes a 4096 = data)
  if !same && !stores then
    let r := s.drawBytes 4096
    (9, r.2.program a r.1)
  else
    let s := if same then s else (s.eraseFlash a 4096).program a data
    let w := s.fwu.written
    (0, { s with fwu := { s.fwu with written := if w.contains off then w else insertBy (fun a b => decide (a ≤ b)) off w } })

/-- The bytes of FWU_DATA. -/
def State.fwuData (s : State) : List Byte := (List.range 1024).flatMap (fun i => natLE 4 (s.reg (fwuKey (0x1000 + 4 * i))).toNat)

/-- WRITE_BLOCK on the mailbox path. -/
def State.fwuWriteBlock (s : State) (stores : Bool) : Nat × State :=
  let off := (s.reg (fwuKey 0x24)).toNat
  let data := s.fwuData
  let c := firstResult [(s.fwuTaken 1, 2), (s.fwu.state != .receiving, 1), (s.env.holdup, 3),
    (off % 4096 != 0 || decide (s.fwu.len ≤ off), 7), (decide (s.reg (fwuKey 0x28) ≠ crc32With 0x82F63B78#32 data), 8)]
  if c ≠ 0 then (c, s) else s.fwuHeard.putBlock off data stores

/-! ## VERIFY (R510) -/

/-- VERIFY: its code; the slot is read until VERIFY_COMPLETE. -/
def State.fwuVerify (s : State) (path : Nat) : Nat × State :=
  let c := firstResult [(s.fwuTaken path, 2), (s.fwu.state != .receiving, 1)]
  if c ≠ 0 then (c, s) else (0, { s.fwuHeard with fwu := { s.fwuHeard.fwu with state := .verifying } })

/-- The checks of R510 in order: the code and the detail of the first that fails. -/
def State.verifyResult (s : State) : Nat × Nat :=
  let f := s.fwu
  let m := s.manifest f.target
  if f.written.length ≠ f.len / 4096 then (0x0E, 0)
  else match manifestFault m f.len with
    | some o => (0x0A, o / 16)
    | none =>
      if !signatureOk m then (0x0B, 0)
      else if manifestSvn m < s.fuseVersion then (0x0C, manifestSvn m)
      else if manifestSetver m < s.held.setver then (0x13, 0)
      else match (List.range 7).find? (fun i => !s.componentOk f.target (i + 1)) with
        | some i => (0x0D, i + 1)
        | none => (0, 0)

/-- VERIFY_COMPLETE. -/
def State.verifyDone (s : State) : State :=
  if s.fwu.state ≠ .verifying then s
  else
    let (code, detail) := s.verifyResult
    let m := s.manifest s.fwu.target
    let s := if code = 0 then
        ({ s with fwu := { s.fwu with state := .verified, digest := manifestDigest m, svn := manifestSvn m, lastCmd := s.now } }).fwuEvent 1
      else { s with fwu := { s.fwu with state := .receiving, lastCmd := s.now } }
    let s := s.fwuAnswer code detail
    if s.fwu.path = 2 then
      let s := s.emit (.pldm 0x17 code [])
      if code = 0 then s.emit (.pldm 0x18 0 []) else s
    else s

def execVerifyComplete (t : Nat) (s : State) : Host.Outcome State Fault Refusal := ok (if s.fwu.state = .verifying then (s.advance t).verifyDone else s)

/-! ## ACTIVATE (R513, R519) -/

/-- The selector an activation writes. -/
def State.newSelector (s : State) (autoconf : Bool) : Selector :=
  if s.boot.svcReason = 2 then { active := s.fwu.target, activeDigest := s.fwu.digest }
  else { active := s.fwu.target, trial := true, previous := some s.boot.slot, autoconf := autoconf, activeDigest := s.fwu.digest,
         previousDigest := manifestDigest (s.manifest s.boot.slot) }

/-- The UPDATE assent that covers the verified image. -/
def State.updateAssent (s : State) : Option Nat :=
  if s.boot.svcReason = 2 then none else s.completeAssent 6 (s.assentDigest 6 (digestBytes s.fwu.digest))

/-- ACTIVATE: its code. -/
def State.fwuActivate (s : State) (path : Nat) (autoconf reset stores : Bool) : Nat × State :=
  let need := s.held.updatePolicy == 1
  let c := firstResult [(s.fwuTaken path, 2), (s.fwu.state != .verified, 1), (s.env.holdup, 3), (s.anyMigrating, 4), (s.held.lock, 5),
    (decide (s.fwu.svn < s.fuseVersion), 0x0C), (need && s.updateAssent.isNone, 0x0F)]
  if c ≠ 0 then (c, s)
  else
    let s := s.fwuHeard
    let a := if need then s.updateAssent else none
    let s := match a with | some n => s.reserveAssent n | none => s
    match s.writeSelector stores (s.newSelector autoconf) with
    | (false, s) => (0x10, s.returnAssent a)
    | (true, s) =>
      let s := match a with | some n => s.useAssent n | none => s
      let at_ := if reset || s.boot.svcReason = 2 then some (s.now + 10 * cyclesPerMs) else none
      (0, ({ s with fwu := { s.fwu with state := .activated, resetAt := at_ } }).fwuEvent 2)

/-- ACTIVATE_RESET (R513): 10 ms after the activation. -/
def execActivateReset (s : State) : Host.Outcome State Fault Refusal :=
  ok (match s.fwu.resetAt with
    | some d => (s.advance d).deviceReset 8
    | none => s)

/-! ## ABORT, CONFIRM and REVERT -/

/-- An update ends with no image (R507). -/
def State.fwuEnd (s : State) : State :=
  let s := s.dropImage
  ({ s with fwu := { s.fwu with state := .idle, path := 0, session := 0, pldm := 0, partBlock := [], pldmNext := 0 } }).fwuEvent 5

def State.fwuAbort (s : State) (path : Nat) : Nat × State :=
  let c := firstResult [(s.fwuTaken path, 2), (s.fwu.state == .idle, 1)]
  if c ≠ 0 then (c, s) else (0, s.fwuEnd)

def State.fwuConfirm (s : State) (stores : Bool) (bad : Option Nat) : Nat × State :=
  if !s.trial ∨ !s.boot.onActive then (1, s) else s.confirm stores bad

def State.fwuRevert (s : State) (stores : Bool) : Nat × State :=
  match s.selector with
  | none => (1, s)
  | some x =>
    if !x.trial then (1, s)
    else if s.env.holdup then (3, s)
    else match s.writeSelector stores x.reverted with
      | (true, s) => (0, s.tellRevert x.reverted.active)
      | (false, s) => (0x10, s)

/-- UPDATE_TIMEOUT (R507): 600 s in RECEIVING or VERIFIED without a command. -/
def State.updateTimeout (s : State) : State :=
  if (s.fwu.state = .receiving ∨ s.fwu.state = .verified) ∧ s.fwu.lastCmd + 600 * cyclesPerSecond ≤ s.now then s.fwuEnd.fwuAnswer 0x12 0 else s

def execUpdateTimeout (t : Nat) (s : State) : Host.Outcome State Fault Refusal := ok ((s.advance t).updateTimeout)

/-! ## The mailbox (R519 to R521) -/

/-- A write of a command to FWU_CMD: ignored while EN is 0; while another is in progress, or for a command the recovery service
does not take, it sets BADCMD. -/
def State.fwuCmd (s : State) (recovery : Bool) (f : State → State) : State :=
  s.pfWrite 0 (fun s =>
    if !s.fwu.en then s
    else if s.fwuBusy ∨ (s.boot.svcReason = 2 ∧ !recovery) then { s with fwu := { s.fwu with badCmd := true } }
    else
      let s := if s.fwu.path = 1 then s.fwuHeard else s
      f { s with fwu := { s.fwu with badCmd := false } })

/-- A command that has been carried out reports its code. -/
def fwuReport (r : Nat × State) : State := r.2.fwuAnswer r.1 0

def execFwuBegin (t : Nat) (s : State) : Host.Outcome State Fault Refusal :=
  ok ((s.advance t).fwuCmd true (fun s => fwuReport (s.fwuBegin 1 0 (s.reg (fwuKey 0x1C)).toNat)))

def execFwuWriteBlock (t : Nat) (stores : Bool) (s : State) : Host.Outcome State Fault Refusal :=
  ok ((s.advance t).fwuCmd true (fun s => fwuReport (s.fwuWriteBlock stores)))

/-- FWU_VERIFY: one that is accepted reports when it has finished. -/
def execFwuVerify (t : Nat) (s : State) : Host.Outcome State Fault Refusal :=
  ok ((s.advance t).fwuCmd true (fun s =>
    let r := s.fwuVerify 1
    if r.1 = 0 then r.2 else fwuReport r))

def execFwuActivate (t : Nat) (stores : Bool) (s : State) : Host.Outcome State Fault Refusal :=
  ok ((s.advance t).fwuCmd true (fun s =>
    let m := s.reg (fwuKey 0x20)
    fwuReport (s.fwuActivate 1 (m.getLsbD 0) (m.getLsbD 1) stores)))

def execFwuAbort (t : Nat) (s : State) : Host.Outcome State Fault Refusal :=
  ok ((s.advance t).fwuCmd true (fun s => fwuReport (s.fwuAbort 1)))

def execFwuConfirm (stores : Bool) (bad : Option Nat) (s : State) : Host.Outcome State Fault Refusal :=
  ok (s.fwuCmd false (fun s => fwuReport (s.fwuConfirm stores bad)))

def execFwuRevert (stores : Bool) (s : State) : Host.Outcome State Fault Refusal :=
  ok (s.fwuCmd false (fun s => fwuReport (s.fwuRevert stores)))

/-! ## PLDM (R509) -/

/-- A PLDM message: not ready until Safelight runs, and acted on only inside a live OWNER session (R458, R506). -/
def State.hearPldm (s : State) (q : Ask) (cmd : Nat) (f : State → State) : State :=
  s.hear q (fun s => s.emit (.pldm cmd 4 [])) (fun s =>
    match s.mgmtSession q with
    | none => s
    | some x =>
      if !q.auth then (s.violates q.partner 9 (fun s => s.spdmError errDecrypt)).endMgmt q.session
      else if x.live ∧ x.role = 1 then
        let s := s.touch q.session
        f (if s.fwu.path = 2 then s.fwuHeard else s)
      else s)

/-- The completion code of DSP0267 for a refusal with a code of R511. -/
def pldmCode (cmd code : Nat) : Nat :=
  if code = 1 then 0x84 else if code = 7 then 0x82 else if cmd = 0x10 ∨ cmd = 0x14 then 0x8A else 1

/-- A PLDM command is answered: success, or a refusal whose code goes into FWU_RESULT and the record; one that is invalid for the
update state or malformed is a violation (R536). -/
def State.pldmReply (s : State) (q : Ask) (cmd code : Nat) (body : List Byte) : State :=
  let s := s.fwuAnswer code 0
  if code = 0 then s.emit (.pldm cmd 0 body)
  else if code = 1 ∨ code = 2 ∨ code = 7 then s.violates q.partner 10 (fun s => s.emit (.pldm cmd (pldmCode cmd code) [])) code
  else (s.logErr { cls := 0, source := 0x0C, code := 3, detail := 10, aux := code }).emit (.pldm cmd (pldmCode cmd code) [])

/-- REQUEST_UPDATE: the checks of BEGIN; `maxXfer` is the maximum transfer size the partner names. -/
def execRequestUpdate (q : Ask) (maxXfer : Nat) (s : State) : Host.Outcome State Fault Refusal :=
  ok (s.hearPldm q 0x10 (fun s =>
    let c := s.beginChecks 2
    let s := if c = 0 then { s with fwu := { s.fwu with pldm := 1, xfer := 2 ^ Nat.log2 (min 4096 (max 1 maxXfer)) } } else s
    s.pldmReply q 0x10 c []))

/-- PASS_COMPONENT_TABLE: one component, of identifier 0x4616. -/
def execPassComponentTable (q : Ask) (ident : Nat) (s : State) : Host.Outcome State Fault Refusal :=
  ok (s.hearPldm q 0x13 (fun s =>
    let c := firstResult [(s.fwu.pldm == 0, 1), (s.beginChecks 2 != 0, s.beginChecks 2), (ident != 0x4616, 7)]
    let s := if c = 0 then { s with fwu := { s.fwu with pldm := 2 } } else s
    s.pldmReply q 0x13 c []))

/-- UPDATE_COMPONENT: BEGIN with ComponentImageSize as IMAGE_LEN. -/
def execUpdateComponent (q : Ask) (ident size : Nat) (s : State) : Host.Outcome State Fault Refusal :=
  ok (s.hearPldm q 0x14 (fun s =>
    if s.fwu.pldm < 2 then s.pldmReply q 0x14 1 []
    else if ident ≠ 0x4616 then s.pldmReply q 0x14 7 []
    else
      let r := s.fwuBegin 2 q.session size
      r.2.pldmReply q 0x14 r.1 []))

/-- A block has arrived whole: it is written, and the next one asked for, or the image is verified once it is complete. One that
is not written is asked for again. -/
def State.pldmBlock (s : State) (stores : Bool) : State :=
  let off := s.fwu.pldmNext - 4096
  let data := s.fwu.partBlock
  let r := if s.env.holdup then (3, s) else s.putBlock off data stores
  let s := r.2
  if r.1 = 0 then
    let s := ({ s with fwu := { s.fwu with partBlock := [] } }).fwuAnswer 0 0
    if s.fwu.len ≤ s.fwu.pldmNext then { s.emit (.pldm 0x16 0 []) with fwu := { s.fwu with state := .verifying } }
    else s.requestData
  else
    let s := { s with fwu := { s.fwu with partBlock := [], pldmNext := off } }
    ((s.fwuAnswer r.1 0).logErr { cls := 0, source := 0x0C, code := 3, detail := 10, aux := r.1 }).requestData

/-- FIRMWARE_DATA_RECEIVE: the bytes that RequestFirmwareData asked for. -/
def execFirmwareDataReceive (q : Ask) (data : List Byte) (stores : Bool) (s : State) : Host.Outcome State Fault Refusal :=
  ok (s.hearPldm q 0x15 (fun s =>
    if s.fwu.state ≠ .receiving ∨ s.fwu.path ≠ 2 then s.pldmReply q 0x15 (if s.fwuTaken 2 then 2 else 1) []
    else if data.length ≠ s.fwu.xfer then s.pldmReply q 0x15 7 []
    else
      let s := s.fwuHeard
      let s := { s with fwu := { s.fwu with partBlock := s.fwu.partBlock ++ data, pldmNext := s.fwu.pldmNext + data.length } }
      if s.fwu.partBlock.length < 4096 then s.requestData else s.pldmBlock stores))

/-- ACTIVATE_FIRMWARE: ACTIVATE with AUTOCONF and without RESET; self-contained activation is refused. -/
def execActivateFirmware (q : Ask) (selfContained stores : Bool) (s : State) : Host.Outcome State Fault Refusal :=
  ok (s.hearPldm q 0x1A (fun s =>
    if selfContained then
      (s.logErr { cls := 0, source := 0x0C, code := 3, detail := 10 }).emit (.pldm 0x1A 0x8C [])
    else
      let r := s.fwuActivate 2 true false stores
      r.2.pldmReply q 0x1A r.1 []))

/-- Both cancellations act as ABORT. -/
def State.pldmCancel (s : State) (q : Ask) (cmd : Nat) : State :=
  let r := s.fwuAbort 2
  r.2.pldmReply q cmd r.1 []

def execCancelUpdateComponent (q : Ask) (s : State) : Host.Outcome State Fault Refusal :=
  ok (s.hearPldm q 0x1C (fun s => s.pldmCancel q 0x1C))

def execCancelUpdate (q : Ask) (s : State) : Host.Outcome State Fault Refusal :=
  ok (s.hearPldm q 0x1D (fun s => s.pldmCancel q 0x1D))

/-- GET_STATUS: the update state of R507 and the last result. -/
def execGetStatus (q : Ask) (s : State) : Host.Outcome State Fault Refusal :=
  ok (s.hearPldm q 0x1B (fun s => s.emit (.pldm 0x1B 0 (natLE 1 s.fwu.state.code ++ natLE 1 s.fwu.result))))

/-- The slot that the next reset boots, where it is not the one running. -/
def State.pendingSlot (s : State) : Option Nat :=
  match s.selector with
  | some x => if x.active = s.boot.slot then none else some x.active
  | none => none

def State.versionOf (s : State) (slot : Option Nat) : List Byte :=
  match slot with
  | some n => manifestVersion (s.manifest n)
  | none => natLE 4 0

/-- GET_FIRMWARE_PARAMETERS: the running, pending and previous VERSION. -/
def execGetFirmwareParameters (q : Ask) (s : State) : Host.Outcome State Fault Refusal :=
  ok (s.hearPldm q 0x02 (fun s => s.emit (.pldm 0x02 0
    (s.versionOf (some s.boot.slot) ++ s.versionOf s.pendingSlot ++ s.versionOf (match s.selector with | some x => x.previous | none => none)))))

end Sys2Proof.Machine
end

