-- ==== Sys2Proof/Machine/GrainCmds.lean ====
section
/-!
DEFINITION. The Grain's commands (R276, R342 to R348).
-/

namespace Sys2Proof.Machine

/-- Reserve rounds for a command. -/
def Eng.reserve (e : Eng) (r : Line) (rounds : Nat) : List (List Dword) × Eng :=
  let x := e.s.reserve (fld r 32 1) (grnStream r) rounds
  (x.1, { e with s := x.2 })

/-- Write elements one after another from `dst`. -/
def Eng.writeAll (e : Eng) (dst : Nat) (bs : List Byte) : Eng :=
  (chunks 64 dst bs.length).foldl (fun e c => e.write c.1 ((bs.drop (c.1 - dst)).take c.2)) e

/-! ## SEED (R343) -/

/-- The image of a stream. -/
def GStream.image (x : GStream) : List Byte :=
  natLE 8 x.rounds.toNat ++ natLE 8 0
    ++ x.all.flatMap (fun l => natLE 8 l.s0.toNat ++ natLE 8 l.s1.toNat ++ natLE 8 l.s2.toNat ++ natLE 8 l.s3.toNat)

def dwordAt (b : List Byte) (o : Nat) : Dword := BitVec.ofNat 64 (fieldLE b o 8)

/-- The stream an image holds. -/
def streamOf (b : List Byte) : GStream :=
  { rounds := BitVec.ofNat 64 (fieldLE b 0 8),
    lanes := (List.range 64).map (fun l =>
      Lane.fix { s0 := dwordAt b (16 + 32 * l), s1 := dwordAt b (24 + 32 * l), s2 := dwordAt b (32 + 32 * l), s3 := dwordAt b (40 + 32 * l) }) }

def runSeed (id : Nat) (r : Line) (e : Eng) : State :=
  Eng.finish { e with s := e.s.setGrain (fld r 32 1) (grnStream r) (seedStream (grnStream r) (BitVec.ofNat 64 (grnPa r + 2 ^ 32 * grnPb r))) } id (0, 0)

def runSeedSave (id : Nat) (r : Line) (e : Eng) : State :=
  (e.writeAll (grnDst r) (e.s.grain (fld r 32 1) (grnStream r)).image).finish id (0, 0)

def runSeedLoad (id : Nat) (r : Line) (e : Eng) : State :=
  let b := e.read .read (grnSrc r) 2064
  if b.2.err.isSome then b.2.finish id (0, 0)
  else Eng.finish { b.2 with s := b.2.s.setGrain (fld r 32 1) (grnStream r) (streamOf b.1) } id (0, 0)

/-! ## BITS, MASK, UNIFORM and NORMAL (R344, R345) -/

def runBits (id : Nat) (r : Line) (e : Eng) : State :=
  let n := grnCount r
  let x := e.reserve r (ceilDiv n 64)
  (x.2.writeAll (grnDst r) ((List.range n).flatMap (fun i => natLE 8 (draw64 x.1 i).toNat))).finish id (0, 0)

def runMask (id : Nat) (r : Line) (e : Eng) : State :=
  let n := grnCount r
  let x := e.reserve r (ceilDiv n 256)
  let bit := fun i => decide (i < n) && decide (draw16 x.1 i < grnPa r)
  (x.2.writeAll (grnDst r) ((List.range (ceilDiv n 8)).map (fun j =>
    BitVec.ofNat 8 ((List.range 8).foldl (fun b k => if bit (8 * j + k) then b + 2 ^ k else b) 0)))).finish id (0, 0)

/-- The format of a GRN format code. -/
def grnFmt (k : Nat) : FFmt := match k with | 0 => fp64 | 1 => fp32 | 2 => fp16 | _ => bf16

/-- The bits of a UNIFORM value that a draw gives (R344). -/
def uniformBits (k w : Nat) : Nat :=
  let b : Nat := match k with | 0 => 53 | 1 => 24 | 2 => 11 | _ => 8
  ((grnFmt k).round .near false false (w / 2 ^ (64 - b)) (-(b : Int)) false).bits

def runUniform (id : Nat) (r : Line) (e : Eng) : State :=
  let n := grnCount r
  let x := e.reserve r (ceilDiv n 64)
  (x.2.writeAll (grnDst r) ((List.range n).flatMap (fun i =>
    natLE (grnSize (grnK r)) (uniformBits (grnK r) (draw64 x.1 i).toNat)))).finish id (0, 0)

/-- A value correctly rounded to FP64 (R345). -/
def rn64 (v : Val) : Val := fp64.value (fp64.put .near false v 0).bits
def rn64Fix (x : Int) : Val := fp64.value (fp64.ofFix .near x).bits

/-- The NORMAL value of a paired draw (R345). -/
def normalBits (k mean sd a b : Nat) : Nat :=
  let u := a / 2 ^ 11 + 1
  let t := if u = 2 ^ 53 then .fin false 0 0 else rn64Fix (fixLn u (-53))
  let m := rn64 (t.mul (.fin true 1 1)).1
  let r := fp64.value (fp64.sqrt .near false (if m.isZero then .fin false 0 0 else m)).bits
  let j := b / 2 ^ 11
  let c : Val :=
    if j % 2 ^ 51 = 0 then
      (match j / 2 ^ 51 with | 0 => .fin false 1 0 | 2 => .fin true 1 0 | _ => .fin false 0 0)
    else rn64Fix (fixCosPi j 52)
  let p := (((fp32.value sd).mul r).1.mul c).1
  let z := if (fp32.value sd).isZero then fp32.value mean else ((fp32.value mean).add .near p).1
  ((grnFmt k).put .near false z 0).bits

def runNormal (id : Nat) (r : Line) (e : Eng) : State :=
  let n := grnCount r
  let x := e.reserve r (2 * ceilDiv n 64)
  (x.2.writeAll (grnDst r) ((List.range n).flatMap (fun i =>
    let d := drawPair x.1 i
    natLE (grnSize (grnK r)) (normalBits (grnK r) (grnPa r) (grnPb r) d.1.toNat d.2.toNat)))).finish id (0, 0)

/-! ## DISCRETE (R346) -/

/-- A row of FP32 bit patterns. -/
def Eng.row (e : Eng) (src n : Nat) : List Nat × Eng :=
  let b := e.read .read src (4 * n)
  ((List.range (b.1.length / 4)).map (fun i => fieldLE b.1 (4 * i) 4), b.2)

/-- A positive finite FP32 value in units of 2^−149, and 0 for every other. -/
def weightOf (b : Nat) : Nat :=
  match fp32.value b with
  | .fin false m e => m * 2 ^ (e + 149).toNat
  | _ => 0

/-- The position of the first weight at which the running sum, times 2^64, exceeds `t`. -/
def firstAbove (t : Nat) : List Nat → Nat → Nat → Option Nat
  | [], _, _ => none
  | w :: l, j, sum => if 2 ^ 64 * (sum + w) > t then some j else firstAbove t l (j + 1) (sum + w)

/-- One DISCRETE sample. -/
def discrete (ws : List Nat) (u : Nat) : Nat :=
  let s := ws.foldl (· + ·) 0
  if s = 0 then 0xFFFFFFFF else (firstAbove (u * s) ws 0 0).getD 0xFFFFFFFF

def runDiscrete (id : Nat) (r : Line) (e : Eng) : State :=
  let n := grnPa r
  let x := e.reserve r (ceilDiv n 64)
  let row := x.2.row (grnSrc r) (grnCount r)
  let again := row.2.row (grnSrc r) (grnCount r)
  if again.2.err.isSome then again.2.finish id (0, 0)
  else
    let ws := row.1.map weightOf
    (again.2.writeAll (grnDst r) ((List.range n).flatMap (fun i => natLE 4 (discrete ws (draw64 x.1 i).toNat)))).finish id (0, 0)

/-! ## SAMPLE and TOPK_EXPORT (R347, R348) -/

/-- An entry of a row: its index and bits. -/
abbrev Entry := Nat × Nat

/-- Does one logit rank before another (step 3)? -/
def logitBefore (a b : Entry) : Bool :=
  let x := fp32.value a.2
  let y := fp32.value b.2
  if y.below x then true else if x.below y then false else decide (a.1 ≤ b.1)

/-- The eligible entries of a row, ranked (steps 1 and 3). -/
def ranked (row : List Nat) : List Entry :=
  sortBy logitBefore (((List.range row.length).zip row).filter (fun x =>
    match fp32.value x.2 with | .nan _ => false | .inf n => !n | _ => true))

def rn32 (v : Val) : Val := fp32.value (fp32.put .near false v 0).bits

/-- EXP32 of a value that is not positive (step 6), in units of 2^−149. -/
def exp32 (v : Val) : Nat :=
  match v with
  | .fin n m e =>
    if m = 0 then 2 ^ 149
    else weightOf (fp32.ofFix .near (if (bitLen m : Int) + e > 8 then 1 else fixExp (toFix fixP n m e))).bits
  | _ => 0

/-- The weight of a candidate under the largest value `m` and temperature `t`. -/
def sampleWeight (m t x : Nat) : Nat :=
  let d := rn32 ((fp32.value x).add .near (fp32.value m).neg).1
  exp32 (fp32.value (fp32.div .near false d (fp32.value t)).bits)

/-- The kept set: the fewest candidates, in rank order, whose weights reach p × S; p counts units of 2^−149. -/
def keptCount (p total : Nat) : List Nat → Nat → Nat → Nat
  | [], q, _ => q
  | w :: l, q, sum => if (sum + w) * 2 ^ 149 ≥ p * total then q + 1 else keptCount p total l (q + 1) (sum + w)

/-- The result of SAMPLE: the entry chosen and the size of the kept set; with top-p 1 every candidate is kept (step 7). -/
def sample (row : List Nat) (t p k u : Nat) : Option (Entry × Nat) :=
  let l := ranked row
  match l with
  | [] => none
  | top :: _ =>
    if fp32.value top.2 = .inf false ∨ t = 0 then some (top, 1)
    else
      let cand := if k ≥ 1 then l.take k else l
      let ws := cand.map (fun x => sampleWeight top.2 t x.2)
      let q := if p = 0x3F800000 then cand.length else keptCount (weightOf p) (ws.foldl (· + ·) 0) ws 0 0
      let kept := sortBy (fun a b : Entry × Nat => decide (a.1.1 ≤ b.1.1)) ((cand.zip ws).take q)
      let kws := kept.map Prod.snd
      (firstAbove (u * kws.foldl (· + ·) 0) kws 0 0).map (fun j => (((kept.drop j).headD (top, 0)).1, q))

/-- The 16 bytes of a SAMPLE's result. -/
def sampleBytes (x : Option (Entry × Nat)) : List Byte :=
  match x with
  | some (e, q) => natLE 4 e.1 ++ natLE 4 e.2 ++ natLE 4 q ++ natLE 4 0
  | none => natLE 4 0xFFFFFFFF ++ natLE 4 0x7FC00000 ++ natLE 4 0 ++ natLE 4 0

def runSample (id : Nat) (r : Line) (e : Eng) : State :=
  let x := e.reserve r 1
  let row := x.2.row (grnSrc r) (grnCount r)
  if row.2.err.isSome then row.2.finish id (0, 0)
  else (row.2.writeAll (grnDst r) (sampleBytes (sample row.1 (grnPa r) (grnPb r) (grnK r) (draw64 x.1 0).toNat))).finish id (0, 0)

def runTopkExport (id : Nat) (r : Line) (e : Eng) : State :=
  let row := e.row (grnSrc r) (grnCount r)
  if row.2.err.isSome then row.2.finish id (0, 0)
  else
    let l := (ranked row.1).take (grnK r)
    let all := l ++ List.replicate (grnK r - l.length) (0xFFFFFFFF, 0x7FC00000)
    (row.2.writeAll (grnDst r) (all.flatMap (fun x => natLE 4 x.1 ++ natLE 4 x.2))).finish id (0, 0)

/-! ## The rows; SEED's mode is COUNT -/

/-- The SEED command in mode `m`. -/
def State.runSeedMode (s : State) (p id m : Nat) (f : Line → Eng → State) : State :=
  s.runEngine p id 4 0 (fun r e => if grnCount r = m then f r e else e.s)

def execGrnSeed (p id : Nat) (s : State) : Host.Outcome State Fault Refusal := ok (s.runSeedMode p id 0 (runSeed id))
def execGrnSeedLoad (p id : Nat) (s : State) : Host.Outcome State Fault Refusal := ok (s.runSeedMode p id 1 (runSeedLoad id))
def execGrnSeedSave (p id : Nat) (s : State) : Host.Outcome State Fault Refusal := ok (s.runSeedMode p id 2 (runSeedSave id))
def execGrnBits (p id : Nat) (s : State) : Host.Outcome State Fault Refusal := ok (s.runEngine p id 4 1 (runBits id))
def execGrnMask (p id : Nat) (s : State) : Host.Outcome State Fault Refusal := ok (s.runEngine p id 4 2 (runMask id))
def execGrnUniform (p id : Nat) (s : State) : Host.Outcome State Fault Refusal := ok (s.runEngine p id 4 3 (runUniform id))
def execGrnNormal (p id : Nat) (s : State) : Host.Outcome State Fault Refusal := ok (s.runEngine p id 4 4 (runNormal id))
def execGrnDiscrete (p id : Nat) (s : State) : Host.Outcome State Fault Refusal := ok (s.runEngine p id 4 5 (runDiscrete id))
def execGrnSample (p id : Nat) (s : State) : Host.Outcome State Fault Refusal := ok (s.runEngine p id 4 6 (runSample id))
def execGrnTopkExport (p id : Nat) (s : State) : Host.Outcome State Fault Refusal := ok (s.runEngine p id 4 7 (runTopkExport id))

end Sys2Proof.Machine
end

