-- ==== Sys2Proof/Machine/Signals.lean ====
section
/-!
DEFINITION. The levels of the module's output signals, as functions of the state (R66, R555, R562).
-/

namespace Sys2Proof.Machine

/-- The causes for which ALERT_N is asserted (R555), in the order of its table. -/
def State.alertCauses (s : State) : List Bool :=
  [s.boot.service, s.boot.halted, s.err.fatal, s.env.trip, s.stackTab.any (fun e => e.2.halted), !s.env.junctionHot.isEmpty,
    s.env.warning]

/-- ALERT_N is asserted. -/
def State.alert (s : State) : Bool := s.alertCauses.any id

/-- EVT_OUT0 to EVT_OUT3 (R562). -/
def State.evtOut (s : State) (n : Nat) : Bool :=
  match n with
  | 0 => s.boot.ready
  | 1 => (List.range 16).any (fun p => (s.part p).state == .held)
  | 2 => s.stackTab.any (fun e => decide (1 ≤ e.2.level))
  | 3 => s.err.fatal
  | _ => false

/-- SHUTTER_OUT (R66): high for 1,000 ns from a tick. -/
def State.shutterOut (s : State) : Bool := s.sht.started && decide (s.nowThirds < s.sht.outUntil)

end Sys2Proof.Machine
end

