-- ==== Sys2Proof/Machine/Manage.lean ====
section
/-!
DEFINITION. Management commands (R457, R460 to R470): their roles, bodies and RESULT codes (R462).
-/

namespace Sys2Proof.Machine

/-- The RESULT codes of R462. -/
def resOk : Nat := 0
def resRole : Nat := 1
def resField : Nat := 2
def resNoAssent : Nat := 3
def resLocked : Nat := 4
def resPolicy : Nat := 5
def resState : Nat := 8
def resStore : Nat := 9

/-- A management command reaches Safelight (R460): outside a live session it is answered STATE (R462), a role that may not
issue it ROLE, and a body that is not sound FIELD. -/
def State.manage (s : State) (q : Ask) (roles : List Nat) (sound : Bool) (f : MSess → State → State) : State :=
  s.hear q (fun s => s.spdmError errBusy) (fun s =>
    if q.session = 0 then s.emit (.mgmt 0 resState [])
    else if !q.auth then (s.violates q.partner 9 (fun s => s.spdmError errDecrypt)).endMgmt q.session
    else match s.mgmtSession q with
      | none => s.emit (.mgmt 0 resState [])
      | some x =>
        if !x.live then s.emit (.mgmt 0 resState [])
        else
          let s := s.touch x.id
          if !roles.contains x.role then s.emit (.mgmt x.id resRole [])
          else if !sound then s.emit (.mgmt x.id resField [])
          else f x s)

/-- The response of a command. -/
def State.result (s : State) (x : MSess) (code : Nat) (bytes : List Byte) : State := s.emit (.mgmt x.id code bytes)

/-! ## Reading state -/

/-- SESSION_INFO: role, partition, DEVICE_NUM, CLAIMED, lock and debug state, then the causes of ALERT_N (R555). -/
def execSessionInfo (q : Ask) (body : List Byte) (s : State) : Host.Outcome State Fault Refusal :=
  ok (s.manage q [1, 2, 3, 4] body.isEmpty (fun x s => s.result x resOk
    (natLE 1 x.role ++ natLE 1 x.part ++ natLE 1 s.plate.sysInForce.deviceNum ++ natLE 1 (flag s.held.claimed 0)
      ++ natLE 1 (flag s.held.lock 0) ++ natLE 1 (flag s.mgmt.debugUnlocked 0)
      ++ natLE 1 (maskOf 7 (fun i => (s.alertCauses.drop i).headD false)))))

/-- One record as ASSENT_STATUS returns it. -/
def State.assentBytes (s : State) (n : Nat) : List Byte :=
  match s.assent n with
  | none => List.replicate 52 0#8
  | some a => natLE 1 a.code ++ natLE 1 a.kind ++ natLE 2 (min 0xFFFF ((a.deadline - s.now) / cyclesPerSecond)) ++ digestBytes a.digest

def execAssentStatus (q : Ask) (body : List Byte) (s : State) : Host.Outcome State Fault Refusal :=
  ok (s.manage q [1, 2] body.isEmpty (fun x s =>
    let s := s.expireAssents
    s.result x resOk ((List.range 8).flatMap s.assentBytes)))

/-- How many records the flash log holds at once: 4,096 sectors of 64. -/
def logRecords : Nat := 262144

/-- A byte of the flash log area (R535); an erased one is 0xFF. -/
def State.logByte (s : State) (a : Nat) : Byte :=
  let slot := a / 64
  let first := s.err.flashBase % logRecords
  let k := if first ≤ slot then slot - first else slot + logRecords - first
  match (s.err.flash.drop k).head? with
  | some r => (r.bytes.drop (a % 64)).headD 0#8
  | none => 0xFF#8

/-- GET_LOG (R535): an offset and a length in the log area, 4 bytes each. -/
def execGetLog (q : Ask) (body : List Byte) (s : State) : Host.Outcome State Fault Refusal :=
  let off := fieldLE body 0 4
  let n := fieldLE body 4 4
  ok (s.manage q [1, 2, 3, 4] (decide (body.length = 8) && decide (n < 65536) && decide (off + n ≤ 64 * logRecords))
    (fun x s => s.result x resOk ((List.range n).map (fun i => s.logByte (off + i)))))

/-! ## Assent (R463 to R468) -/

/-- A digest as 48 bytes spell it. -/
def digestOf (bs : List Byte) : BitVec 384 := BitVec.ofNat 384 (beNat bs)

/-- The digest of a kind of assent for the kind's body (R463), where the body is one. -/
def State.kindDigest (s : State) (k : Nat) (body : List Byte) : Option (BitVec 384) :=
  match k with
  | 1 =>
    if (checkHeader body body.length).isNone && (checkStructure body).isNone then some (protectedDigest (plateSections body)) else none
  | 2 => if body.length = 50 then some (s.assentDigest 2 body) else none
  | 3 => if body.length = 8 then some (s.assentDigest 3 body) else none
  | 4 => if body.length = 8 then some (s.assentDigest 4 body) else none
  | 5 => if body.length = 16 then some (s.repairDigest body) else none
  | 6 => if body.length = 48 then some (s.assentDigest 6 body) else none
  | _ => none

def execPrepareDigest (q : Ask) (body : List Byte) (s : State) : Host.Outcome State Fault Refusal :=
  ok (s.manage q [1, 2] (1 ≤ body.length) (fun x s =>
    match s.kindDigest (byteAt body 0) (body.drop 1) with
    | some d => s.result x resOk (digestBytes d ++ natLE 4 s.held.assentSeq.toNat)
    | none => s.result x resField []))

/-- Is the body of ASSENT or WITHDRAW a kind and a digest? -/
def assentBody (body : List Byte) : Bool := decide (body.length = 49) && decide (1 ≤ byteAt body 0) && decide (byteAt body 0 ≤ 6)

/-- Does the owner lock refuse assents of this kind (R466)? -/
def lockedKind (k : Nat) : Bool := k == 1 || k == 2 || k == 4 || k == 6

def execAssent (q : Ask) (body : List Byte) (s : State) : Host.Outcome State Fault Refusal :=
  ok (s.manage q [1, 2] (assentBody body) (fun x s =>
    let k := byteAt body 0
    if s.held.lock && lockedKind k then s.result x resLocked []
    else
      let r := s.giveAssent (x.role == 1) k (digestOf (body.drop 1))
      r.2.result x r.1 []))

/-- WITHDRAW: a record that the caller's role alone has assented to is removed. -/
def execWithdraw (q : Ask) (body : List Byte) (s : State) : Host.Outcome State Fault Refusal :=
  ok (s.manage q [1, 2] (assentBody body) (fun x s =>
    let s := s.expireAssents
    let mine : AssentState := if x.role = 1 then .owner else .custodian
    match s.findAssent (byteAt body 0) (digestOf (body.drop 1)) with
    | none => s.result x resState []
    | some n =>
      match s.assent n with
      | some a => if a.state = mine then (s.setAssent n none).result x resOk [] else s.result x resState []
      | none => s.result x resState []))

/-- The installed GENERATION, 8 bytes little-endian (R463). -/
def State.genBytes (s : State) : List Byte := natLE 8 (match s.plate.installed with | some pl => pl.generation | none => 0)

/-- ASSENT_SEQ rises when an assent of kind 2, 3 or 4 is consumed (R463). -/
def Archive.nextSeq (a : Archive) : Archive := { a with assentSeq := a.assentSeq + 1 }

/-! ## Keys (R461, R456) -/

/-- Is the body of SET_PSK sound: a role, its partition or 0xFF, and 48 bytes? -/
def pskBody (body : List Byte) : Bool := decide (body.length = 50) && hintOk (byteAt body 0) (byteAt body 1)

/-- Who may name a target (R461). -/
def mayName (x : MSess) (role part : Nat) : Bool :=
  if role = 1 ∨ role = 2 then x.role == 1 || x.role == 2
  else if role = 3 then x.role == 1 || (x.role == 3 && x.part == part)
  else x.role == 1

/-- Every session of a role ends. -/
def State.endRole (s : State) (role part : Nat) : State :=
  ((s.mgmt.sessions.filter (fun x => x.role == role && x.part == part)).map MSess.id).foldl State.endMgmt s

/-- SET_PSK: the PSK is stored, the response sent, and the role's sessions end. -/
def State.setPsk (s : State) (x : MSess) (body : List Byte) (stores : Bool) : State :=
  let role := Sys2Proof.byteAt body 0
  let part := Sys2Proof.byteAt body 1
  let needs := decide (role ≤ 2)
  let rec_ := s.completeAssent 2 (s.assentDigest 2 body)
  let put := fun a : Archive => { a with psks := NatMap.set none a.psks (pskKey role part) (some (digestOf (body.drop 2))) }
  if !mayName x role part then s.result x resRole []
  else if needs && s.held.lock then s.result x resLocked []
  else if needs && rec_.isNone then s.result x resNoAssent []
  else match s.writeArchive stores (fun a => if needs then (put a).nextSeq else put a) with
    | none => s.result x resStore []
    | some s =>
      let s := match needs, rec_ with | true, some n => s.useAssent n | _, _ => s
      (s.result x resOk []).endRole role part

def execSetPsk (q : Ask) (body : List Byte) (stores : Bool) (s : State) : Host.Outcome State Fault Refusal :=
  ok (s.manage q [1, 2, 3] (pskBody body) (fun x s => s.expireAssents.setPsk x body stores))

/-- Set or erase a partition key: its KEY_GEN rises (R456). -/
def Archive.setKey (a : Archive) (p : Nat) (key : BitVec 384) : Archive :=
  { a with keys := NatMap.set 0 a.keys p key, keyGens := NatMap.upd 0 a.keyGens p (fun g => (g + 1) % 2 ^ 32) }

/-- SET_PART_KEY: a new KEY_GEN closes the partition's session (R473). -/
def execSetPartKey (q : Ask) (body : List Byte) (stores : Bool) (s : State) : Host.Outcome State Fault Refusal :=
  let p := byteAt body 0
  ok (s.manage q [1, 3] (decide (body.length = 49) && decide (p < 16)) (fun x s =>
    if x.role = 3 ∧ x.part ≠ p then s.result x resRole []
    else match s.writeArchive stores (fun a => a.setKey p (digestOf (body.drop 1))) with
      | none => s.result x resStore []
      | some s => (s.closeSess p).result x resOk []))

/-! ## Owner lock and debug (R466 to R470) -/

/-- LOCK_RELEASE: the lock is cleared and stored, and then answered. -/
def State.lockRelease (s : State) (x : MSess) (stores : Bool) : State :=
  match s.completeAssent 3 (s.assentDigest 3 s.genBytes) with
  | none => s.result x resNoAssent []
  | some n =>
    match s.writeArchive stores (fun a => { a.nextSeq with lock := false }) with
    | none => s.result x resStore []
    | some s => ((s.useAssent n).sesEvent 7).result x resOk []

def execLockRelease (q : Ask) (body : List Byte) (stores : Bool) (s : State) : Host.Outcome State Fault Refusal :=
  ok (s.manage q [1] body.isEmpty (fun x s => s.expireAssents.lockRelease x stores))

/-- DEBUG_UNLOCK: the record is consumed; the unlock takes effect at the next tick, and is then answered. `erases` says whether
the archive then takes the erasure of the keys. -/
def State.debugUnlock (s : State) (x : MSess) (stores erases : Bool) : State :=
  if s.held.lock then s.result x resLocked []
  else if s.held.debugPolicy = 0 then s.result x resPolicy []
  else match s.completeAssent 4 (s.assentDigest 4 s.genBytes) with
    | none => s.result x resNoAssent []
    | some n =>
      match s.writeArchive stores Archive.nextSeq with
      | none => s.result x resStore []
      | some s =>
        let s := s.useAssent n
        { s with mgmt := { s.mgmt with unlockAt := some (x.id, erases) } }

def execDebugUnlock (q : Ask) (body : List Byte) (stores erases : Bool) (s : State) : Host.Outcome State Fault Refusal :=
  ok (s.manage q [1] body.isEmpty (fun x s => s.expireAssents.debugUnlock x stores erases))

/-- DEBUG_LOCK: Loupe closes at once; erased keys are not restored (R470). -/
def execDebugLock (q : Ask) (body : List Byte) (s : State) : Host.Outcome State Fault Refusal :=
  ok (s.manage q [1, 2] body.isEmpty (fun x s =>
    let open_ := s.mgmt.debugUnlocked
    let s := { s with mgmt := { s.mgmt with debugUnlocked := false } }
    (if open_ then s.sesEvent 6 else s).result x resOk []))

/-! ## Repair and claim -/

/-- MGMT_REPAIR: a repair as the REPAIR block would carry it out; its RESULT is a code of R393. -/
def execMgmtRepair (q : Ask) (body : List Byte) (stores : Bool) (s : State) : Host.Outcome State Fault Refusal :=
  let cmd := byteAt body 0
  ok (s.manage q [1] (decide (body.length = 17) && (cmd == 1 || cmd == 2)) (fun x s =>
    let o : RepairOp := { request := body.drop 1, origin := 2, session := x.id }
    if s.repair.op.isSome then s.result x 1 []
    else if cmd = 1 then s.repairApply o stores
    else s.repairRemove o stores))

/-- What a CLAIM's plaintext makes of the archive (R457). -/
def Archive.claim (a : Archive) (plain : List Byte) : Archive :=
  let at_ := fun n : Nat => digestOf ((plain.drop (48 * n)).take 48)
  let psks := NatMap.set none (NatMap.set none (NatMap.set none [] 1 (some (at_ 2))) 2 (some (at_ 3))) 4 (some (at_ 4))
  { a with
    claimed := true, ownerHash := some (at_ 0), custodianHash := some (at_ 1), psks := psks, lock := false, window := 120,
    debugPolicy := 0, updatePolicy := 0 }

/-- CLAIM, in session `id` or outside any. -/
def State.claim (s : State) (id : Nat) (body : List Byte) (stores : Bool) : State :=
  let no := (s.emit (.mgmt id resState [])).logErr { cls := 0, source := 0x0C, code := 2 }
  if s.held.claimed then no
  else if id ≠ 0 then s.emit (.mgmt id resRole [])
  else if body.length ≠ 365 then s.emit (.mgmt 0 resField [])
  else match Config.claimPlain body with
    | none => no
    | some plain =>
      match s.writeArchive stores (fun a => a.claim plain) with
      | none => s.emit (.mgmt 0 resStore [])
      | some s => s.emit (.mgmt 0 resOk [])

def execClaim (q : Ask) (body : List Byte) (stores : Bool) (s : State) : Host.Outcome State Fault Refusal :=
  ok (s.hear q (fun s => s.spdmError errBusy) (fun s =>
    if q.session = 0 then s.claim 0 body stores
    else match s.mgmtSession q with
      | some x => (s.touch x.id).claim x.id body stores
      | none => s.emit (.mgmt 0 resState [])))

end Sys2Proof.Machine
end

