-- ==== Sys2Proof/Machine/Condenser.lean ====
section
/-!
DEFINITION. The Condensed Tensor Format (R313 to R325) and MOV COMPRESS and DECOMPRESS (R326 to R328).
-/

namespace Sys2Proof.Machine

/-! ## Bit streams (R318) -/

/-- The bits of bytes, bit 0 of byte 0 first. -/
def bitsOfBytes (bs : List Byte) : List Bool := bs.flatMap (fun b => (List.range 8).map b.getLsbD)

/-- The number that bits spell, bit 0 first. -/
def natOfBits : List Bool → Nat
  | [] => 0
  | b :: l => (if b then 1 else 0) + 2 * natOfBits l

/-- Pack bits into bytes, the unused high bits of the last byte 0. -/
def packBits (l : List Bool) : List Byte := natLE (ceilDiv l.length 8) (natOfBits l)

/-- The low `n` bits of a value, bit 0 first, and most significant first. -/
def bitsLow (n v : Nat) : List Bool := (List.range n).map (bitOf v)
def bitsHigh (n v : Nat) : List Bool := (bitsLow n v).reverse

/-! ## Element classes (R316) and code tables (R320, R321) -/

def ctfSize (c : Nat) : Nat := if c ≤ 2 then 1 else if c ≤ 5 then 2 else if c = 6 then 4 else 8
def ctfExp (c : Nat) : Bool := decide (1 ≤ c) && decide (c ≤ 4)
def ctfEw (c : Nat) : Nat := match c with | 1 => 4 | 2 => 5 | 3 => 5 | _ => 8
def ctfMw (c : Nat) : Nat := match c with | 1 => 3 | 2 => 2 | 3 => 10 | _ => 7
def ctfE0 (c : Nat) : Nat := match c with | 1 => 7 | 2 => 15 | 3 => 15 | _ => 127
def ctfD (c : Nat) : Nat := if c ≤ 2 then 4 else 8

/-- The codewords both tables share, as length, codeword and delta. -/
def codesCommon : List (Nat × Nat × Int) :=
  [(2, 0b00, 0), (2, 0b01, 1), (2, 0b10, -1), (4, 0b1100, 2), (4, 0b1101, -2), (5, 0b11100, 3), (5, 0b11101, -3)]

/-- The delta codewords of a class. -/
def ctfCodes (c : Nat) : List (Nat × Nat × Int) :=
  codesCommon ++ (if c ≤ 2 then [(7, 0b1111010, 4), (7, 0b1111011, -4)]
    else [(6, 0b111100, 4), (6, 0b111101, -4), (7, 0b1111100, 5), (7, 0b1111101, -5), (8, 0b11111100, 6), (8, 0b11111101, -6),
          (10, 0b1111111100, 7), (10, 0b1111111101, -7), (12, 0b111111111000, 8), (12, 0b111111111001, -8)])

/-- The escape of a class, as length and codeword. -/
def ctfEsc (c : Nat) : Nat × Nat := if c ≤ 2 then (6, 0b111100) else (8, 0b11111110)

/-- Strip a codeword from the front of a stream. -/
def strip (n v : Nat) (l : List Bool) : Option (List Bool) :=
  if l.take n = bitsHigh n v then some (l.drop n) else none

/-- The next symbol of an exponent stream: a delta, or none for an escape; and what follows. -/
def nextCode (c : Nat) (l : List Bool) : Option (Option Int × List Bool) :=
  match strip (ctfEsc c).1 (ctfEsc c).2 l with
  | some r => some (none, r)
  | none => (ctfCodes c).findSome? (fun x => (strip x.1 x.2.1 l).map (fun r => (some x.2.2, r)))

/-- The next exponent after `e`, with what follows; none where the stream is damaged (R319, R322). -/
def nextExp (c e : Nat) (l : List Bool) : Option (Nat × List Bool) :=
  match nextCode c l with
  | none => none
  | some (some d, r) =>
    let x := (e : Int) + d
    if x < 0 ∨ x > ((2 ^ ctfEw c - 1 : Nat) : Int) then none else some (x.toNat, r)
  | some (none, r) =>
    if r.length < ctfEw c then none
    else
      let x := natOfBits ((r.take (ctfEw c)).reverse)
      if ((x : Int) - (e : Int)).natAbs ≤ ctfD c then none else some (x, r.drop (ctfEw c))

/-- `n` exponents; none where the stream is damaged or does not end with the last of them. -/
def decodeExps (c : Nat) : Nat → Nat → List Bool → Option (List Nat)
  | 0, _, l => if l.isEmpty then some [] else none
  | n + 1, e, l =>
    match nextExp c e l with
    | none => none
    | some (x, r) => (decodeExps c n x r).map (fun xs => x :: xs)

/-! ## Decoding a block (R315 to R317, R322, R323) -/

/-- The fields of a header. -/
structure CtfHead where
  mode : Nat
  cls : Nat
  spare : Nat
  rawlen : Nat
  clen : Nat
  crc : Nat

def ctfHead (bs : List Byte) : CtfHead :=
  let b := byteAt bs 0
  { mode := b % 4, cls := b / 4 % 16, spare := b / 64, rawlen := byteAt bs 1, clen := fieldLE bs 2 2, crc := fieldLE bs 4 4 }

/-- The Header check. -/
def CtfHead.sound (h : CtfHead) : Bool :=
  decide (h.mode ≠ 3) && decide (h.cls < 8) && decide (h.spare = 0) && (h.mode != 2 || ctfExp h.cls)
    && decide (1 ≤ h.clen) && decide (h.clen ≤ h.rawlen + 2)

def CtfHead.rawBytes (h : CtfHead) : Nat := 16 * (h.rawlen + 1)
def CtfHead.elems (h : CtfHead) : Nat := h.rawBytes / ctfSize h.cls

/-- Spread values over the elements the bitmap marks. -/
def spread (size : Nat) : List Bool → List Nat → List Byte
  | [], _ => []
  | false :: m, vs => List.replicate size 0#8 ++ spread size m vs
  | true :: m, vs => natLE size (vs.headD 0) ++ spread size m vs.tail

/-- Split a list into runs of `n`. -/
def runsOf {α : Type} (n : Nat) : Nat → List α → List (List α)
  | 0, _ => []
  | k + 1, l => l.take n :: runsOf n k (l.drop n)

/-- The values a ZMAP or ZMAP-EXP block stores and the length of its content; none where a stream is damaged. `nz` is NZ. -/
def ctfValues (h : CtfHead) (bs : List Byte) (nz : Nat) : Option (List Nat × Nat) :=
  let size := ctfSize h.cls
  let at_ := 12 + ceilDiv h.elems 8
  if h.mode = 1 then some ((runsOf size nz (bs.drop at_)).map leNat, at_ + nz * size)
  else
    let w := 1 + ctfMw h.cls
    let smLen := ceilDiv (nz * w) 8
    let elen := fieldLE bs 10 2
    let sm := bitsOfBytes ((bs.drop at_).take smLen)
    let es := bitsOfBytes ((bs.drop (at_ + smLen)).take (ceilDiv elen 8))
    let spare := (sm.drop (nz * w)) ++ (es.drop elen)
    if spare.any id then none
    else match decodeExps h.cls nz (ctfE0 h.cls) (es.take elen) with
      | none => none
      | some xs =>
        let sms := (runsOf w nz sm).map natOfBits
        some ((xs.zip sms).map (fun p => (p.2 / 2 ^ ctfMw h.cls) * 2 ^ (ctfEw h.cls + ctfMw h.cls) + p.1 * 2 ^ ctfMw h.cls
          + p.2 % 2 ^ ctfMw h.cls), at_ + smLen + ceilDiv elen 8)

/-- Decode a block whose index and header are sound (R322); `last` where it is the last one named. -/
def decodeBlock (bs : List Byte) (last : Bool) : Option (List Byte) :=
  let h := ctfHead bs
  let raw :=
    if h.rawlen ≠ 255 ∧ !last then none
    else if h.mode = 0 then
      if h.clen ≠ h.rawlen + 2 ∨ !zeroAt bs (8 + h.rawBytes) 8 then none else some ((bs.drop 8).take h.rawBytes)
    else
      let nz := fieldLE bs 8 2
      let map := bitsOfBytes ((bs.drop 12).take (ceilDiv h.elems 8))
      if nz > h.elems ∨ (map.take h.elems).countP id ≠ nz ∨ (map.drop h.elems).any id ∨ (h.mode = 1 ∧ !zeroAt bs 10 2) then none
      else match ctfValues h bs nz with
        | none => none
        | some (vs, len) =>
          if h.clen ≠ ceilDiv len 16 ∨ !zeroAt bs len (16 * h.clen - len) ∨ vs.contains 0 then none
          else some (spread (ctfSize h.cls) (map.take h.elems) vs)
  match raw with
  | some r => if (crc32With 0x82F63B78#32 r).toNat = h.crc then some r else none
  | none => none

/-! ## The encoder (R325) -/

/-- The exponent stream of a class over exponents (R319). -/
def encodeExps (c : Nat) : Nat → List Nat → List Bool
  | _, [] => []
  | e, x :: xs =>
    let d := (x : Int) - (e : Int)
    (match (ctfCodes c).find? (fun k => k.2.2 == d) with
      | some k => bitsHigh k.1 k.2.1
      | none => bitsHigh (ctfEsc c).1 (ctfEsc c).2 ++ bitsHigh (ctfEw c) x) ++ encodeExps c x xs

/-- Pad bytes to a multiple of 16. -/
def pad16 (bs : List Byte) : List Byte := bs ++ List.replicate (16 * ceilDiv bs.length 16 - bs.length) 0#8

/-- The block of a mode, its header given the length it comes to. -/
def ctfBlock (mode cls : Nat) (raw body : List Byte) : List Byte :=
  let len := ceilDiv (8 + body.length) 16
  pad16 (natLE 1 (mode + 4 * cls) ++ natLE 1 (raw.length / 16 - 1) ++ natLE 2 len
    ++ natLE 4 (crc32With 0x82F63B78#32 raw).toNat ++ body)

/-- The blocks of every mode the class allows, in mode order. -/
def ctfModes (cls : Nat) (raw : List Byte) : List (List Byte) :=
  let size := ctfSize cls
  let els := (runsOf size (raw.length / size) raw).map leNat
  let vs := els.filter (· ≠ 0)
  let map := packBits (els.map (fun v => decide (v ≠ 0)))
  let mw := ctfMw cls
  let ew := ctfEw cls
  let es := encodeExps cls (ctfE0 cls) (vs.map (fun v => bitsOf v mw ew))
  let sm := vs.flatMap (fun v => bitsLow (1 + mw) ((if bitOf v (ew + mw) then 2 ^ mw else 0) + v % 2 ^ mw))
  [ctfBlock 0 cls raw (raw ++ List.replicate 8 0#8),
   ctfBlock 1 cls raw (natLE 2 vs.length ++ natLE 2 0 ++ map ++ vs.flatMap (natLE size))]
    ++ (if ctfExp cls then [ctfBlock 2 cls raw (natLE 2 vs.length ++ natLE 2 es.length ++ map ++ packBits sm ++ packBits es)] else [])

/-- The shortest of the blocks, the first of equals. -/
def shortest : List (List Byte) → List Byte
  | [] => []
  | [b] => b
  | b :: l => let r := shortest l; if b.length ≤ r.length then b else r

def encodeBlock (cls : Nat) (raw : List Byte) : List Byte := shortest (ctfModes cls raw)

/-! ## COMPRESS and DECOMPRESS -/

/-- Compress the blocks whose raw bytes start at each of the addresses (R326, R328): block, then index entry. `off` is the
offset of the next block in 16-byte units and `i` its index. -/
def Eng.compressBlocks (e : Eng) (cls stream table : Nat) : List (Nat × Nat) → Nat → Nat → Nat × Eng
  | [], off, i =>
    (off, e.writeWhole (table + 4 * i) (natLE 4 off))
  | (a, n) :: l, off, i =>
    let r := e.read .read a n
    let b := encodeBlock cls r.1
    let f := (r.2.writeWhole (stream + 16 * off) b).writeWhole (table + 4 * i) (natLE 4 off)
    if r.2.err.isNone && f.err.isSome then (off, { r.2 with err := f.err })
    else if f.err.isSome then (off, f)
    else Eng.compressBlocks f cls stream table l (off + b.length / 16) (i + 1)

/-- The raw blocks of `n` bytes at `a`. -/
def rawBlocks (a n : Nat) : List (Nat × Nat) :=
  (List.range (ceilDiv n 4096)).map (fun b => (a + 4096 * b, min 4096 (n - 4096 * b)))

/-- MOV COMPRESS (R326). -/
def runCompress (id : Nat) (r : Line) (e : Eng) : State :=
  let x := e.compressBlocks (movAux r) (movB r) (movC r) (rawBlocks (movA r) (movN r)) 0 0
  x.2.finish id (0, x.1)

/-- Decode block `b` and write its raw bytes at `dst` (R323, R327, R328): the flag says that it is damaged. -/
def Eng.decompressBlock (e : Eng) (base o1 o2 dst : Nat) (last : Bool) : Bool × Eng :=
  let r := e.read .read (base + 16 * o1) 16
  let h := ctfHead r.1
  if r.2.err.isSome then (false, r.2)
  else if !h.sound ∨ o1 + h.clen ≠ o2 then (true, r.2)
  else
    let x := r.2.read .read (base + 16 * o1 + 16) (16 * (h.clen - 1))
    if x.2.err.isSome then (false, x.2)
    else match decodeBlock (r.1 ++ x.1) last with
      | none => (true, x.2)
      | some raw => (false, x.2.writeWhole dst raw)

/-- Decode blocks in ascending order; the index of the first damaged one. -/
def Eng.decompressBlocks (e : Eng) (base dst : Nat) : List Nat → Nat → Option Nat × Eng
  | o1 :: o2 :: l, b =>
    let r := e.decompressBlock base o1 o2 dst l.isEmpty
    if r.1 then (some b, r.2)
    else if r.2.err.isSome then (none, r.2)
    else Eng.decompressBlocks r.2 base (dst + 4096) (o2 :: l) (b + 1)
  | _, _ => (none, e)

/-- MOV DECOMPRESS (R327): the index entries, then the blocks. -/
def runDecompress (id : Nat) (r : Line) (e : Eng) : State :=
  let t := e.read .read (movC r + 4 * movP r) (4 * (movN r + 1))
  if t.2.err.isSome then t.2.finish id (0, 0)
  else
    let d := t.2.decompressBlocks (movA r) (movB r) ((runsOf 4 (movN r + 1) t.1).map leNat) (movP r)
    d.2.finish id (match d.1 with | some b => (0x0B, b) | none => (0, 0))

end Sys2Proof.Machine
end

