-- ==== Sys2Proof/Machine/Mover.lean ====
section
/-!
DEFINITION. The data mover's commands (R273, R281, R326, R327).
-/

namespace Sys2Proof.Machine

/-- MOV COPY. -/
def runCopy (id : Nat) (r : Line) (e : Eng) : State := (e.copy (movA r) (movB r) (movN r)).finish id (0, 0)

/-- MOV COPY2D: row `i` lies at `i` times the signed strides. -/
def runCopy2d (id : Nat) (r : Line) (e : Eng) : State :=
  let ss := signed 32 (movQ r)
  let ds := signed 32 (movC r)
  ((List.range (movP r)).foldl (fun (e : Eng) (i : Nat) =>
    e.copy (addrOf ((movA r : Int) + i * ss)) (addrOf ((movB r : Int) + i * ds)) (movN r)) e).finish id (0, 0)

/-- The element number at entry `i` of an index list. -/
def Eng.index (e : Eng) (list i : Nat) : Nat × Eng :=
  let r := e.readOpen (list + 4 * i) 4
  (leNat r.1, r.2)

/-- MOV GATHER. -/
def runGather (id : Nat) (r : Line) (e : Eng) : State :=
  let size := 2 ^ movAux r
  ((List.range (movN r)).foldl (fun (e : Eng) i =>
    let x := e.index (movC r) i
    x.2.copy (movA r + size * x.1) (movB r + size * i) size) e).finish id (0, 0)

/-- MOV SCATTER. -/
def runScatter (id : Nat) (r : Line) (e : Eng) : State :=
  let size := 2 ^ movAux r
  ((List.range (movN r)).foldl (fun (e : Eng) i =>
    let x := e.index (movC r) i
    x.2.copy (movA r + size * i) (movB r + size * x.1) size) e).finish id (0, 0)

/-- Byte `j` of the 8-byte pattern P:Q. -/
def fillByte (r : Line) (j : Nat) : Byte := BitVec.ofNat 8 (bytesOf (movP r + 2 ^ 32 * movQ r) (j % 8) 1)

/-- MOV FILL. -/
def runFill (id : Nat) (r : Line) (e : Eng) : State :=
  ((chunks 64 (movB r) (movN r)).foldl (fun (e : Eng) c =>
    e.write c.1 ((List.range c.2).map (fun i => fillByte r (c.1 - movB r + i)))) e).finish id (0, 0)

/-- MOV KSLOAD: the source needs PERM bit 2 alone (R358), and the kernel store is that of the target cluster. -/
def runKsload (id : Nat) (r : Line) (e : Eng) : State :=
  ((chunks 64 (movA r) (movN r)).foldl (fun (e : Eng) c =>
    let x := e.read .ksload c.1 c.2
    x.2.writeLocal (ksBase (fld r 32 1) + movB r % 2 ^ 18 + (c.1 - movA r)) x.1) e).finish id (0, 0)

def execMovCopy (p id : Nat) (s : State) : Host.Outcome State Fault Refusal := ok (s.runEngine p id 1 0 (runCopy id))
def execMovCopy2d (p id : Nat) (s : State) : Host.Outcome State Fault Refusal := ok (s.runEngine p id 1 1 (runCopy2d id))
def execMovGather (p id : Nat) (s : State) : Host.Outcome State Fault Refusal := ok (s.runEngine p id 1 2 (runGather id))
def execMovScatter (p id : Nat) (s : State) : Host.Outcome State Fault Refusal := ok (s.runEngine p id 1 3 (runScatter id))
def execMovFill (p id : Nat) (s : State) : Host.Outcome State Fault Refusal := ok (s.runEngine p id 1 4 (runFill id))
def execMovCompress (p id : Nat) (s : State) : Host.Outcome State Fault Refusal := ok (s.runEngine p id 1 5 (runCompress id))
def execMovDecompress (p id : Nat) (s : State) : Host.Outcome State Fault Refusal := ok (s.runEngine p id 1 6 (runDecompress id))
def execMovKsload (p id : Nat) (s : State) : Host.Outcome State Fault Refusal := ok (s.runEngine p id 1 7 (runKsload id))

end Sys2Proof.Machine
end

