-- ==== Sys2Proof/Machine/Shutter.lean ====
section
/-!
DEFINITION. The Shutter (chapter 02): the steps of a tick (R58), the guard band (R36), flywheel ticks (R64), tick messages
(R60 to R62, R65) and SHUTTER_IN (R560).
-/

namespace Sys2Proof.Machine

/-! ## OVX (R49, R50) -/

/-- Is the command still running (R49)? -/
def State.stillRuns (s : State) (p : Nat) (c : Cmd) : Bool :=
  !c.stopped && recClass c.image != 6 && ((s.part p).state != .held || recClass c.image != 0
    || c.units.any (fun u => NatMap.get .notStarted c.ends u == .running && decide ((s.core u).run = .running)))

/-- The bytes a command has moved, those of the kernels it runs included (R48). -/
def State.movedNow (s : State) (c : Cmd) : Nat :=
  if recClass c.image = 0 then
    c.moved + ((c.units.filter (fun u => NatMap.get .notStarted c.ends u == .running)).map (fun u => (s.core u).kernel.traffic)).sum
  else c.moved

/-- The traffic a carried command brings into the new frame, in 64-byte units (R50). -/
def State.trafficCarry (s : State) (c : Cmd) : Nat := ceilDiv (recDeclBytes c.image - s.movedNow c) 64

/-- Step 2 for one partition: is the frame overexposed, and what is carried? A completion recorded at the tick itself is late. -/
def State.assess (s : State) (p : Nat) : State :=
  let run := (s.sch p).cmds.filter (s.stillRuns p)
  let ovx := !run.isEmpty || (match (s.part p).lastDone with | some t => decide (cycleOf s.sht.lastTick ≤ t) | none => false)
  let s := s.settleAll p
  let ids := run.map Cmd.id
  let s := s.modSch p (fun x => { x with cmds := x.cmds.map (fun c => if ids.contains c.id then { c with carriedTo := some s.now } else c) })
  s.modPart p (fun x => { x with
    ovxPrev := x.ovxLast, ovxLast := ovx, ovxTotal := if ovx then min 0xFFFF (x.ovxTotal + 1) else x.ovxTotal })

/-- The traffic carried into the new frame, by partition and class. -/
def State.carries (s : State) (p cls : Nat) : Nat :=
  (((s.sch p).cmds.filter (fun c => s.stillRuns p c && recClass c.image == cls)).map s.trafficCarry).sum

/-- Step 2 of R58. -/
def State.step2 (s : State) : State :=
  let s := (List.range 16).foldl State.assess s
  if (List.range 16).any (fun p => (s.part p).ovxLast) then s.shtEvent 5 else s

/-! ## Step 3 -/

/-- Two frames in a row were overexposed: the partition enters HELD (R51). -/
def State.heldOvx (s : State) (p : Nat) : State :=
  let x := s.part p
  if x.state = .running ∧ x.ovxLast ∧ x.ovxPrev then
    (((s.logErr { cls := 2, source := 4, code := 4, part := p }).enterHeld p 1).shtEvent 6)
  else s

/-- A spanning partition enters HELD (R64, R65) with DETAIL `d`. -/
def State.heldSpan (s : State) (d p : Nat) : State :=
  let x := s.part p
  if (s.psecD p).spanning ∧ (x.state = .running ∨ x.state = .loading) then
    let s := if x.state = .loading then s.leaveLoading p else s
    (((s.logErr { cls := 2, source := 9, code := 1, part := p, detail := d }).enterHeld p 2).shtEvent 7)
  else s

def State.step3 (s : State) : State :=
  let s := (List.range 16).foldl State.heldOvx s
  match s.sht.spanHold with
  | none => s
  | some d => (List.range 16).foldl (fun s p => s.heldSpan d p) { s with sht := { s.sht with spanHold := none } }

/-! ## Steps 7 to 11 -/

/-- Step 7 (R42, R58): the apertures are refilled, and the traffic carry is debited; a partition that RELEASE returned at this
tick, one of `held`, has none (R98). -/
def State.refill (held : List Nat) (s : State) (p : Nat) : State :=
  let x := s.part p
  let q := s.psecD p
  if x.state = .running ∨ x.state = .loading ∨ x.state = .migrating then
    s.modPart p (fun x => { x with
      remTime := (List.range 6).foldl (fun m c => NatMap.set 0 m c (nsThirds (scaled ((q.aperTime.drop c).headD 0) x.throttle))) [],
      remTraf := (List.range 6).foldl (fun m c => NatMap.set 0 m c (scaled ((q.aperTraf.drop c).headD 0) x.throttle - (if held.contains p then 0 else s.carries p c))) [] })
  else s

/-- Step 9 (R53, R54): TICK on every core, and FRAME OVERRUN for kernels of an earlier frame. -/
def State.step9 (s : State) : State :=
  { s with cores := s.cores.map (fun e =>
      let k := e.2
      (e.1, { k with
        ctl := { k.ctl with evpend := k.ctl.evpend ||| 1 },
        kernel := { k.kernel with
          overrun := k.kernel.overrun || (decide (k.run = .running) && k.kernel.admitFrame != s.sht.frame.toNat) } })) }

/-- Step 10 (R56): frame-align commands of partitions that are not HELD complete. -/
def State.alignDone (s : State) (p : Nat) : State :=
  if (s.part p).state = .held then s
  else (s.cmdIds p (fun c => recClass c.image == 6 && recOpcode c.image == 4 && !c.stopped && c.result.isNone)).foldl
    (fun s id => (s.modCmd p id (fun c => { c with began := c.began.or (some s.now) })).completeCmd p id 0 0) s

/-- The steps of R58 after the first, in the new frame; the OPEN window is open when they are done. -/
def State.frameWork (s : State) (flywheel installs : Bool) : State :=
  let s := s.step2.step3
  let held := (List.range 16).filter (fun p => (s.part p).state == .held)
  let s := if installs then s.step4 else s
  let s := s.bootInstall.applyUnlock
  let s := (List.range 16).foldl State.step5 s
  let s := { s with err := { s.err with fatalHold := false } }
  let s := s.applyThrottle
  let s := (List.range 16).foldl (State.refill held) s
  let s := (List.range 16).foldl State.flushPart s
  let s := s.step9
  let s := (List.range 16).foldl State.migPump ((List.range 16).foldl State.alignDone s)
  { s with sht := { s.sht with open_ := true, guardBand := false, flywheel := flywheel, started := true } }

/-- The steps of R58, for the frame `f`. -/
def State.tickSteps (s : State) (f : Dword) (flywheel installs : Bool) : State :=
  ({ s with sht := { s.sht with frame := f } }).frameWork flywheel installs

/-- What a tick that is no flywheel tick says of the clock: its deviation from the prediction (R63). -/
def State.noteSkew (s : State) (time : Thirds) : State :=
  let d : Int := ((time : Int) - ((s.sht.lastTick + usThirds s.sht.period : Nat) : Int)).tdiv 3
  let d := if s.sht.started then d else 0
  let s := { s with sht := { s.sht with skew := d } }
  if d > 200 ∨ d < -200 then
    (s.shtEvent 4).logErr { cls := 0, source := 9, code := 2, detail := (d % 4294967296).toNat }
  else s

/-- What a tick does before its steps: device time moves to it; where it installs a plate, the timers due at it expire
first (R94); and its skew is noted. -/
def State.tickStart (s : State) (time : Thirds) (flywheel installs : Bool) : State :=
  let s := s.advance (cycleOf time)
  let s := if installs then (List.range 16).foldl State.fireDue s else s
  if flywheel then { s with sht := { s.sht with skew := 0 } } else s.noteSkew time

/-- A tick at a time, in thirds of a nanosecond, that begins frame `f`. Timers due by then fire first where a plate is
installed (R94). -/
def State.tick (s : State) (time : Thirds) (f : Dword) (flywheel msgInstalls : Bool) : State :=
  let installs := s.installsAt f flywheel msgInstalls
  let s := s.tickStart time flywheel installs
  let s := { s with sht := { s.sht with lastTick := time, outUntil := time + nsThirds 1000 } }
  let s := s.tickSteps f flywheel installs
  if flywheel then s else { s with plate := { s.plate with masterFlag := false } }

/-- The time of the next tick of the device's own base. -/
def State.nextTick (s : State) : Thirds := if s.sht.started then s.sht.lastTick + usThirds s.sht.period else s.nowThirds

/-- The number of the next frame by the device's own count (R37). -/
def State.nextFrame (s : State) : Dword := if s.sht.started then s.sht.frame + 1#64 else s.sht.frame

/-- Does the device take its ticks from its own time base: INTERNAL, or a source not heard yet (R492)? -/
def State.ownTicks (s : State) : Bool := s.sht.source == 0 || s.sht.ownBase

/-- A planned tick: it ends a run of missed ones (R65). -/
def State.plannedTick (s : State) (p : TickPlan) : State :=
  let missed := decide (s.sht.missRun > 0)
  let s := { s with sht := { s.sht with plan := none, ownBase := false, missRun := 0 } }
  let s := if missed then s.shtEvent 1 else s
  let own := s.nextFrame
  let f := BitVec.ofNat 64 p.frame
  let differs := s.sht.started && f != own && p.period != 0
  let mismatch := p.period != 0 && p.period != s.sht.period && missed
  let s := if mismatch then { (s.shtEvent 3) with sht := { (s.shtEvent 3).sht with spanHold := some 2 } } else s
  let s := s.tick p.time f false p.installs
  if differs then s.shtEvent 2 else s

/-- TICK (R58): a planned tick, or one of the device's own time base, once boot step SHUTTER is done. -/
def State.tickNow (s : State) : State :=
  match s.sht.plan with
  | some p => if s.boot.step < 12 then s else s.plannedTick p
  | none => if s.sht.en && s.ownTicks then s.tick s.nextTick s.nextFrame false false else s

def execTick (s : State) : Host.Outcome State Fault Refusal := ok s.tickNow

/-- FLYWHEEL_TICK (R64): the sixteenth in a row unlocks the device. -/
def State.flywheelTick (s : State) : State :=
  if !s.sht.en ∨ s.ownTicks ∨ !s.sht.started ∨ s.sht.plan.isSome then s
  else
    let n := s.sht.missRun + 1
    let s := (s.incReg (shtKey 0x2C)).shtEvent 0
    let s := { s with sht := { s.sht with
      missRun := n, goodRun := 0, locked := s.sht.locked && n != 16, spanHold := if n = 16 then some 1 else s.sht.spanHold } }
    s.tick (s.sht.lastTick + usThirds s.sht.period) (s.sht.frame + 1#64) true false

def execFlywheelTick (s : State) : Host.Outcome State Fault Refusal := ok s.flywheelTick

/-- GUARD_BAND_START (R36): device time reaches the end of the open phase, and admission stops. -/
def execGuardBandStart (s : State) : Host.Outcome State Fault Refusal :=
  ok (if s.sht.started ∧ s.sht.open_ then
      let s := s.advance (cycleOf s.openEnd)
      { s with sht := { s.sht with guardBand := true, open_ := false } }
    else s)

/-! ## Tick messages (R60 to R62) -/

/-- The payload of a TICK flit (R60). -/
def tickPayload (frame age period master flags : Nat) : List Byte :=
  natLE 8 frame ++ natLE 4 age ++ natLE 2 period ++ natLE 1 master ++ natLE 1 flags

/-- The port that carries tick messages in a direction (R61): the lower-numbered of its two, or the other if that is dark. -/
def State.tickPort (s : State) (dir : Nat) : Option Nat := (s.dirUp dir).head?

/-- The directions a message goes on in (R61): from the master in both of x; along a dimension while it is fewer than half
the ring from the master, and from there in both directions of the next dimension. A ring of one device has no hops. -/
def State.tickDirs (s : State) (inDir : Nat) (master : Nat) : List Nat :=
  let y := s.plate.sysInForce
  let at_ := fun (l : List Nat) (i : Nat) => (l.drop i).headD 0
  let both := fun i : Nat => [2 * i + 1, 2 * i + 2]
  let dims := if inDir = 0 then [0] else
    let d := (inDir - 1) / 2
    if d = 0 then [1] else if d = 1 then [2] else []
  -- a dimension with a single device passes the message on to the next dimension at once
  let rec spread : Nat → List Nat → List Nat
    | 0, l => l.flatMap both
    | n + 1, l => l.flatMap (fun i => if at_ y.dims i = 1 then (if i < 2 then spread n [i + 1] else []) else both i)
  let straight :=
    if inDir = 0 then []
    else
      let i := (inDir - 1) / 2
      let n := at_ y.dims i
      let a := at_ (y.coords s.dev) i
      let m := at_ (y.coords master) i
      let steps := if inDir % 2 = 1 then (a + n - m) % n else (m + n - a) % n
      if steps < n / 2 then [inDir] else []
  straight ++ spread 2 dims

/-- Send a tick message on. -/
def State.sendTicks (s : State) (dirs : List Nat) (payload : List Byte) : State :=
  dirs.foldl (fun s d => match s.tickPort d with
    | some q => s.sendFlit q 3 0 0 0 payload
    | none => s) s

/-- TICK_MESSAGE_SEND (R60, R89): the master announces its next tick once, 10 µs ahead, and so sets the time of its first one; a
MASTER-mode plate that is staged by then installs at that tick. -/
def State.tickSend (s : State) : State :=
  let at_ := if s.sht.started then s.nextTick - usThirds 10 else s.nowThirds
  if !s.sht.en ∨ !s.sht.master ∨ cycleOf at_ < s.now ∨ s.sht.announced = some s.nextFrame then s
  else
    let s := s.advance (cycleOf at_)
    let flag := match s.plate.stage, s.plate.staged with | .staged, some g => g.mode == 2 | _, _ => false
    let first : Option TickPlan := if s.sht.started then none
      else some { time := s.nowThirds + usThirds 10, frame := s.nextFrame.toNat, period := 0, installs := false }
    let s := { s with plate := { s.plate with masterFlag := flag }, sht := { s.sht with announced := some s.nextFrame, plan := first } }
    s.sendTicks (s.tickDirs 0 s.dev) (tickPayload s.nextFrame.toNat 0 s.sht.period s.dev (if flag then 1 else 0))

def execTickMessageSend (s : State) : Host.Outcome State Fault Refusal := ok s.tickSend

/-- How long a source has agreed with the prediction (R64), and the lock that follows from two in a row. -/
def State.judgeLock (s : State) (predicted : Option Thirds) (time : Thirds) (needed : Nat) : State :=
  let near := match predicted with
    | some t => decide (time ≤ t + nsThirds 200) && decide (t ≤ time + nsThirds 200)
    | none => false
  let n := if near then s.sht.goodRun + 1 else 0
  { s with sht := { s.sht with goodRun := n, locked := s.sht.locked || decide (n ≥ needed) } }

/-- The tick that the last message or edge announced. -/
def State.lastPlan (s : State) : Option Thirds :=
  match s.sht.plan with
  | some p => some p.time
  | none => if s.sht.started ∧ !s.sht.ownBase then some s.sht.lastTick else none

/-- A tick message is taken (R62, R65): a LINK device plans its tick by it, a PIN device its frame number. -/
def State.takeTick (s : State) (p : TickPlan) : State :=
  if s.sht.source = 1 then
    match s.sht.plan with
    | some o => if o.frame = p.frame then s else { s with sht := { s.sht with plan := some p } }
    | none =>
      let s := s.judgeLock (if s.sht.missRun = 0 then s.lastPlan.map (· + usThirds s.sht.period) else none) p.time 2
      { s with sht := { s.sht with plan := some p } }
  else if s.sht.source = 2 then { s with sht := { s.sht with heard := some p } }
  else s

/-- A TICK flit's payload, received on a port at the present time; it goes on after `res` nanoseconds (R62). -/
def State.tickFlit (s : State) (q : Nat) (f : List Byte) (res : Nat) : State :=
  let frame := fieldLE f 12 8
  let age := fieldLE f 20 4 + (s.port q).delay
  let master := Sys2Proof.byteAt f 26
  let flags := Sys2Proof.byteAt f 27
  if age ≥ 9000 ∨ s.boot.step < 12 then s
  else
    let s := s.takeTick { time := s.nowThirds + nsThirds (10000 - age), frame := frame, period := fieldLE f 24 2, installs := flags % 2 == 1 }
    s.sendTicks (s.tickDirs (inDirOf ((s.plate.linksInForce.roles.drop q).headD 0)) master)
      (tickPayload frame (age + res) (fieldLE f 24 2) master flags)

/-- TICK_MESSAGE_RECEIVE (R62). -/
def execTickMessageReceive (q : Nat) (block : List Byte) (t res : Nat) (s : State) : Host.Outcome State Fault Refusal :=
  ok ((s.advance t).receive q 3 block (fun s f => s.tickFlit q f res))

/-! ## SHUTTER_IN (R64, R560) -/

/-- A counted edge: the device fires its tick by it. Without tick messages, frames are numbered from 0 at the first. -/
def State.countEdge (s : State) (time : Thirds) : State :=
  let s := s.judgeLock (s.sht.lastEdge.map (· + usThirds s.sht.period)) time 1
  let frame := match s.sht.heard with
    | some h => if s.sht.started ∧ h.time + usThirds 1 < time then s.nextFrame.toNat else h.frame
    | none => if s.sht.lastEdge.isNone then 0 else s.nextFrame.toNat
  let installs := match s.sht.heard with | some h => h.installs && h.frame == frame | none => false
  let period := match s.sht.heard with | some h => h.period | none => 0
  { s with sht := { s.sht with
    lastEdge := some time, heard := none, plan := some { time := time, frame := frame, period := period, installs := installs } } }

/-- A rising edge on SHUTTER_IN as a tick: before lock every one counts, then those within 1 µs of the prediction. -/
def State.pinEdge (s : State) : State :=
  let time := s.nowThirds + s.sht.pinComp * 3 / 1000
  let next := s.sht.lastTick + usThirds s.sht.period
  if s.sht.source ≠ 2 ∨ s.boot.step < 12 then s
  else if s.sht.locked ∧ !(next ≤ time + usThirds 1 ∧ time ≤ next + usThirds 1) then s
  else s.countEdge time

/-- SHUTTER_IN_EDGE (R560). -/
def execShutterInEdge (t : Nat) (s : State) : Host.Outcome State Fault Refusal :=
  ok (((s.advance t).pinEdge).latchEdge 4 true)

end Sys2Proof.Machine
end

