-- ==== Sys2Proof/Machine/Dispatch.lean ====
section
/-!
DEFINITION. The one dispatch: every command's meaning, one arm per row of the operation table.
-/

namespace Sys2Proof.Machine

open Sys2Proof

def exec (i : Instr) (s : State) : Host.Outcome State Fault Refusal :=
  match i with
  | .tick => Sys2Proof.Machine.execTick s
  | .flywheelTick => Sys2Proof.Machine.execFlywheelTick s
  | .guardBandStart => Sys2Proof.Machine.execGuardBandStart s
  | .tickMessageSend => Sys2Proof.Machine.execTickMessageSend s
  | .tickMessageReceive q block t res => Sys2Proof.Machine.execTickMessageReceive q block t res s
  | .shutterInEdge t => Sys2Proof.Machine.execShutterInEdge t s
  | .heldCoreStop p => Sys2Proof.Machine.execHeldCoreStop p s
  | .periodicTimerExpiry p i0 => Sys2Proof.Machine.execPeriodicTimerExpiry p i0 s
  | .oneshotTimerExpiry p i0 => Sys2Proof.Machine.execOneshotTimerExpiry p i0 s
  | .watchdogExpiry p i0 => Sys2Proof.Machine.execWatchdogExpiry p i0 s
  | .inputEdge input rising => Sys2Proof.Machine.execInputEdge input rising s
  | .edgeDeliver input => Sys2Proof.Machine.execEdgeDeliver input s
  | .qTailWrite p q x => Sys2Proof.Machine.execQTailWrite p q x s
  | .qCtrlWrite p q x => Sys2Proof.Machine.execQCtrlWrite p q x s
  | .cqCtrlWrite p c x => Sys2Proof.Machine.execCqCtrlWrite p c x s
  | .cqHeadWrite p c x => Sys2Proof.Machine.execCqHeadWrite p c x s
  | .mkAdd p x => Sys2Proof.Machine.execMkAdd p x s
  | .recordCopy p q host => Sys2Proof.Machine.execRecordCopy p q host s
  | .commandAdmit p q core t => Sys2Proof.Machine.execCommandAdmit p q core t s
  | .commandComplete p id t => Sys2Proof.Machine.execCommandComplete p id t s
  | .krnLaunch p id => Sys2Proof.Machine.execKrnLaunch p id s
  | .kernelStart p id core => Sys2Proof.Machine.execKernelStart p id core s
  | .movCopy p id => Sys2Proof.Machine.execMovCopy p id s
  | .movCopy2d p id => Sys2Proof.Machine.execMovCopy2d p id s
  | .movGather p id => Sys2Proof.Machine.execMovGather p id s
  | .movScatter p id => Sys2Proof.Machine.execMovScatter p id s
  | .movFill p id => Sys2Proof.Machine.execMovFill p id s
  | .movCompress p id => Sys2Proof.Machine.execMovCompress p id s
  | .movDecompress p id => Sys2Proof.Machine.execMovDecompress p id s
  | .movKsload p id => Sys2Proof.Machine.execMovKsload p id s
  | .fixTensor p id => Sys2Proof.Machine.execFixTensor p id s
  | .rduOpen p id => Sys2Proof.Machine.execRduOpen p id s
  | .rduContribute p id => Sys2Proof.Machine.execRduContribute p id s
  | .grnSeed p id => Sys2Proof.Machine.execGrnSeed p id s
  | .grnSeedLoad p id => Sys2Proof.Machine.execGrnSeedLoad p id s
  | .grnSeedSave p id => Sys2Proof.Machine.execGrnSeedSave p id s
  | .grnBits p id => Sys2Proof.Machine.execGrnBits p id s
  | .grnMask p id => Sys2Proof.Machine.execGrnMask p id s
  | .grnUniform p id => Sys2Proof.Machine.execGrnUniform p id s
  | .grnNormal p id => Sys2Proof.Machine.execGrnNormal p id s
  | .grnDiscrete p id => Sys2Proof.Machine.execGrnDiscrete p id s
  | .grnSample p id => Sys2Proof.Machine.execGrnSample p id s
  | .grnTopkExport p id => Sys2Proof.Machine.execGrnTopkExport p id s
  | .lnkPut p id => Sys2Proof.Machine.execLnkPut p id s
  | .lnkGet p id => Sys2Proof.Machine.execLnkGet p id s
  | .synNop p id => Sys2Proof.Machine.execSynNop p id s
  | .synMarkAdd p id => Sys2Proof.Machine.execSynMarkAdd p id s
  | .synMarkSet p id => Sys2Proof.Machine.execSynMarkSet p id s
  | .synTimestamp p id => Sys2Proof.Machine.execSynTimestamp p id s
  | .synFrameAlign p id => Sys2Proof.Machine.execSynFrameAlign p id s
  | .synWatchdog p id => Sys2Proof.Machine.execSynWatchdog p id s
  | .synEvent p id => Sys2Proof.Machine.execSynEvent p id s
  | .loadingComplete p => Sys2Proof.Machine.execLoadingComplete p s
  | .drainComplete p => Sys2Proof.Machine.execDrainComplete p s
  | .migrationLastAck p => Sys2Proof.Machine.execMigrationLastAck p s
  | .pltStage host => Sys2Proof.Machine.execPltStage host s
  | .pltAbort => Sys2Proof.Machine.execPltAbort s
  | .plateValidationDone t => Sys2Proof.Machine.execPlateValidationDone t s
  | .pltStart p => Sys2Proof.Machine.execPltStart p s
  | .pltStop p => Sys2Proof.Machine.execPltStop p s
  | .pltRelease p => Sys2Proof.Machine.execPltRelease p s
  | .migrateOut p dev part => Sys2Proof.Machine.execMigrateOut p dev part s
  | .pgRelease p => Sys2Proof.Machine.execPgRelease p s
  | .alu c w => Sys2Proof.Machine.execAlu c w s
  | .muldiv c w => Sys2Proof.Machine.execMuldiv c w s
  | .immediateOp c w => Sys2Proof.Machine.execImmediateOp c w s
  | .load c w => Sys2Proof.Machine.execLoad c w s
  | .store c w => Sys2Proof.Machine.execStore c w s
  | .branch c w => Sys2Proof.Machine.execBranch c w s
  | .j c w => Sys2Proof.Machine.execJ c w s
  | .jal c w => Sys2Proof.Machine.execJal c w s
  | .jalr c w => Sys2Proof.Machine.execJalr c w s
  | .gate c w => Sys2Proof.Machine.execGate c w s
  | .retg c w => Sys2Proof.Machine.execRetg c w s
  | .rete c w => Sys2Proof.Machine.execRete c w s
  | .yield c w => Sys2Proof.Machine.execYield c w s
  | .endk c w => Sys2Proof.Machine.execEndk c w s
  | .breakpoint c w => Sys2Proof.Machine.execBreakpoint c w s
  | .waitev c w => Sys2Proof.Machine.execWaitev c w s
  | .mfc c w => Sys2Proof.Machine.execMfc c w s
  | .mtc c w => Sys2Proof.Machine.execMtc c w s
  | .swc c w => Sys2Proof.Machine.execSwc c w s
  | .setc c w => Sys2Proof.Machine.execSetc c w s
  | .clrc c w => Sys2Proof.Machine.execClrc c w s
  | .fenceS c w => Sys2Proof.Machine.execFenceS c w s
  | .fenceL c w => Sys2Proof.Machine.execFenceL c w s
  | .fenceA c w => Sys2Proof.Machine.execFenceA c w s
  | .fenceE c w => Sys2Proof.Machine.execFenceE c w s
  | .sync c w => Sys2Proof.Machine.execSync c w s
  | .cleanA c w => Sys2Proof.Machine.execCleanA c w s
  | .invA c w => Sys2Proof.Machine.execInvA c w s
  | .clinvA c w => Sys2Proof.Machine.execClinvA c w s
  | .cleanSw c w => Sys2Proof.Machine.execCleanSw c w s
  | .invSw c w => Sys2Proof.Machine.execInvSw c w s
  | .clinvSw c w => Sys2Proof.Machine.execClinvSw c w s
  | .iinvAll c w => Sys2Proof.Machine.execIinvAll c w s
  | .fpOp c w => Sys2Proof.Machine.execFpOp c w s
  | .fmaOp c w => Sys2Proof.Machine.execFmaOp c w s
  | .fpCompare c w => Sys2Proof.Machine.execFpCompare c w s
  | .fkind c w => Sys2Proof.Machine.execFkind c w s
  | .fnarrow c w => Sys2Proof.Machine.execFnarrow c w s
  | .fwiden c w => Sys2Proof.Machine.execFwiden c w s
  | .ftoi c w => Sys2Proof.Machine.execFtoi c w s
  | .itof c w => Sys2Proof.Machine.execItof c w s
  | .fmovg c w => Sys2Proof.Machine.execFmovg c w s
  | .fmovf c w => Sys2Proof.Machine.execFmovf c w s
  | .svArith c w => Sys2Proof.Machine.execSvArith c w s
  | .svcvt c w => Sys2Proof.Machine.execSvcvt c w s
  | .svshuf c w => Sys2Proof.Machine.execSvshuf c w s
  | .vint c w => Sys2Proof.Machine.execVint c w s
  | .vfp c w => Sys2Proof.Machine.execVfp c w s
  | .vmaskCompare c w => Sys2Proof.Machine.execVmaskCompare c w s
  | .maskLogic c w => Sys2Proof.Machine.execMaskLogic c w s
  | .vmpopc c w => Sys2Proof.Machine.execVmpopc c w s
  | .vmfirst c w => Sys2Proof.Machine.execVmfirst c w s
  | .vmset c w => Sys2Proof.Machine.execVmset c w s
  | .vsetl c w => Sys2Proof.Machine.execVsetl c w s
  | .vmv c w => Sys2Proof.Machine.execVmv c w s
  | .vmvScalar c w => Sys2Proof.Machine.execVmvScalar c w s
  | .vext c w => Sys2Proof.Machine.execVext c w s
  | .vslideup c w => Sys2Proof.Machine.execVslideup c w s
  | .vslidedn c w => Sys2Proof.Machine.execVslidedn c w s
  | .vgather c w => Sys2Proof.Machine.execVgather c w s
  | .vmerge c w => Sys2Proof.Machine.execVmerge c w s
  | .vid c w => Sys2Proof.Machine.execVid c w s
  | .vredsum c w => Sys2Proof.Machine.execVredsum c w s
  | .vfredsum c w => Sys2Proof.Machine.execVfredsum c w s
  | .vfredmaxmin c w => Sys2Proof.Machine.execVfredmaxmin c w s
  | .vld c w => Sys2Proof.Machine.execVld c w s
  | .vldFirstFault c w => Sys2Proof.Machine.execVldFirstFault c w s
  | .vst c w => Sys2Proof.Machine.execVst c w s
  | .cvt c w => Sys2Proof.Machine.execCvt c w s
  | .cvtT c w => Sys2Proof.Machine.execCvtT c w s
  | .mxq c w => Sys2Proof.Machine.execMxq c w s
  | .mxd c w => Sys2Proof.Machine.execMxd c w s
  | .mopAcc c w => Sys2Proof.Machine.execMopAcc c w s
  | .mopNacc c w => Sys2Proof.Machine.execMopNacc c w s
  | .mopSet c w => Sys2Proof.Machine.execMopSet c w s
  | .mopNset c w => Sys2Proof.Machine.execMopNset c w s
  | .tld c w => Sys2Proof.Machine.execTld c w s
  | .tldW c w => Sys2Proof.Machine.execTldW c w s
  | .tst c w => Sys2Proof.Machine.execTst c w s
  | .tstW c w => Sys2Proof.Machine.execTstW c w s
  | .tsld c w => Sys2Proof.Machine.execTsld c w s
  | .tsst c w => Sys2Proof.Machine.execTsst c w s
  | .vfromt c w => Sys2Proof.Machine.execVfromt c w s
  | .tfromv c w => Sys2Proof.Machine.execTfromv c w s
  | .vfroma c w => Sys2Proof.Machine.execVfroma c w s
  | .afromv c w => Sys2Proof.Machine.execAfromv c w s
  | .vfromts c w => Sys2Proof.Machine.execVfromts c w s
  | .tsfromv c w => Sys2Proof.Machine.execTsfromv c w s
  | .azero c w => Sys2Proof.Machine.execAzero c w s
  | .ared c w => Sys2Proof.Machine.execAred c w s
  | .fixq c w => Sys2Proof.Machine.execFixq c w s
  | .customInstruction c w => Sys2Proof.Machine.execCustomInstruction c w s
  | .asyncException c => Sys2Proof.Machine.execAsyncException c s
  | .storeAccept c i0 => Sys2Proof.Machine.execStoreAccept c i0 s
  | .l1dFill c a ce ue => Sys2Proof.Machine.execL1dFill c a ce ue s
  | .instructionLineFill c a wrongPath late => Sys2Proof.Machine.execInstructionLineFill c a wrongPath late s
  | .channelRead ch l flip die req => Sys2Proof.Machine.execChannelRead ch l flip die req s
  | .channelWrite ch l data => Sys2Proof.Machine.execChannelWrite ch l data s
  | .partialWrite ch l data valid core => Sys2Proof.Machine.execPartialWrite ch l data valid core s
  | .wcAgeFlush ch t => Sys2Proof.Machine.execWcAgeFlush ch t s
  | .wcMarker c ch => Sys2Proof.Machine.execWcMarker c ch s
  | .sramAccess g kind i0 flip off data => Sys2Proof.Machine.execSramAccess g kind i0 flip off data s
  | .refresh t => Sys2Proof.Machine.execRefresh t s
  | .thermalReading tile temp t => Sys2Proof.Machine.execThermalReading tile temp t s
  | .warningClear t => Sys2Proof.Machine.execWarningClear t s
  | .sensorSilence tile t => Sys2Proof.Machine.execSensorSilence tile t s
  | .iodieJunctionReading die temp t => Sys2Proof.Machine.execIodieJunctionReading die temp t s
  | .agStart ch => Sys2Proof.Machine.execAgStart ch s
  | .agStop ch => Sys2Proof.Machine.execAgStop ch s
  | .agClear ch => Sys2Proof.Machine.execAgClear ch s
  | .atpCtrlWrite ch x => Sys2Proof.Machine.execAtpCtrlWrite ch x s
  | .agitatorIssue ch t => Sys2Proof.Machine.execAgitatorIssue ch t s
  | .proofCheck ch => Sys2Proof.Machine.execProofCheck ch s
  | .agitatorRunEnd ch t => Sys2Proof.Machine.execAgitatorRunEnd ch t s
  | .rprApply stores => Sys2Proof.Machine.execRprApply stores s
  | .rprRemove stores => Sys2Proof.Machine.execRprRemove stores s
  | .rprDigest => Sys2Proof.Machine.execRprDigest s
  | .dataFlit q block t => Sys2Proof.Machine.execDataFlit q block t s
  | .nullFlit q block t => Sys2Proof.Machine.execNullFlit q block t s
  | .nakFlit q block t => Sys2Proof.Machine.execNakFlit q block t s
  | .badBlock q tick t => Sys2Proof.Machine.execBadBlock q tick t s
  | .trainFlit q m t => Sys2Proof.Machine.execTrainFlit q m t s
  | .flitTransmit q t => Sys2Proof.Machine.execFlitTransmit q t s
  | .retryTimeout q t => Sys2Proof.Machine.execRetryTimeout q t s
  | .trainingComplete q t => Sys2Proof.Machine.execTrainingComplete q t s
  | .trainingFail q t => Sys2Proof.Machine.execTrainingFail q t s
  | .retrainDeadline q t => Sys2Proof.Machine.execRetrainDeadline q t s
  | .mbxRetrain q => Sys2Proof.Machine.execMbxRetrain q s
  | .mbxDark q => Sys2Proof.Machine.execMbxDark q s
  | .msgWrite i0 => Sys2Proof.Machine.execMsgWrite i0 s
  | .msgRead i0 => Sys2Proof.Machine.execMsgRead i0 s
  | .msgWriteSys i0 => Sys2Proof.Machine.execMsgWriteSys i0 s
  | .msgReadSys i0 => Sys2Proof.Machine.execMsgReadSys i0 s
  | .msgMarkAdd i0 => Sys2Proof.Machine.execMsgMarkAdd i0 s
  | .msgMigWrite i0 => Sys2Proof.Machine.execMsgMigWrite i0 s
  | .msgMigCtl i0 => Sys2Proof.Machine.execMsgMigCtl i0 s
  | .msgRedDelta i0 => Sys2Proof.Machine.execMsgRedDelta i0 s
  | .msgRedResult i0 => Sys2Proof.Machine.execMsgRedResult i0 s
  | .msgViolation i0 => Sys2Proof.Machine.execMsgViolation i0 s
  | .msgMgmt i0 => Sys2Proof.Machine.execMsgMgmt i0 s
  | .msgWriteAck i0 => Sys2Proof.Machine.execMsgWriteAck i0 s
  | .msgReadData i0 => Sys2Proof.Machine.execMsgReadData i0 s
  | .msgMarkAck i0 => Sys2Proof.Machine.execMsgMarkAck i0 s
  | .msgRefuse i0 => Sys2Proof.Machine.execMsgRefuse i0 s
  | .msgRedAck i0 => Sys2Proof.Machine.execMsgRedAck i0 s
  | .deltaSend p rid u => Sys2Proof.Machine.execDeltaSend p rid u s
  | .deltaRetry p rid => Sys2Proof.Machine.execDeltaRetry p rid s
  | .transactionTimeout dst tag t => Sys2Proof.Machine.execTransactionTimeout dst tag t s
  | .tagQuarantineEnd dst tag t => Sys2Proof.Machine.execTagQuarantineEnd dst tag t s
  | .pfW2Read rid off n => Sys2Proof.Machine.execPfW2Read rid off n s
  | .pfW2Write rid off data poisoned => Sys2Proof.Machine.execPfW2Write rid off data poisoned s
  | .vfW2Read p rid off n => Sys2Proof.Machine.execVfW2Read p rid off n s
  | .vfW2Write p rid off data poisoned => Sys2Proof.Machine.execVfW2Write p rid off data poisoned s
  | .atomicop path rid => Sys2Proof.Machine.execAtomicop path rid s
  | .vendorDefinedMessage rid kind mctp => Sys2Proof.Machine.execVendorDefinedMessage rid kind mctp s
  | .vfFlr p => Sys2Proof.Machine.execVfFlr p s
  | .pfFlr => Sys2Proof.Machine.execPfFlr s
  | .hotReset linkDown => Sys2Proof.Machine.execHotReset linkDown s
  | .d3hotEntry fn => Sys2Proof.Machine.execD3hotEntry fn s
  | .d0Return fn => Sys2Proof.Machine.execD0Return fn s
  | .hostLinkRetrain speed width flitMode => Sys2Proof.Machine.execHostLinkRetrain speed width flitMode s
  | .cxlMemRead addr rid => Sys2Proof.Machine.execCxlMemRead addr rid s
  | .cxlMemWrite addr rid data => Sys2Proof.Machine.execCxlMemWrite addr rid data s
  | .identifyMemoryDevice => Sys2Proof.Machine.execIdentifyMemoryDevice s
  | .getEventRecords => Sys2Proof.Machine.execGetEventRecords s
  | .clearEventRecords n => Sys2Proof.Machine.execClearEventRecords n s
  | .getPoisonList addr n => Sys2Proof.Machine.execGetPoisonList addr n s
  | .msixUnmask fn v => Sys2Proof.Machine.execMsixUnmask fn v s
  | .registerWrite path rid off en data poisoned => Sys2Proof.Machine.execRegisterWrite path rid off en data poisoned s
  | .rcRegisterRead path rid off n en => Sys2Proof.Machine.execRcRegisterRead path rid off n en s
  | .loRegisterRead path rid off n en => Sys2Proof.Machine.execLoRegisterRead path rid off n en s
  | .errHeadWrite x => Sys2Proof.Machine.execErrHeadWrite x s
  | .getVersion q => Sys2Proof.Machine.execGetVersion q s
  | .getCapabilities q version largest => Sys2Proof.Machine.execGetCapabilities q version largest s
  | .negotiateAlgorithms q offered => Sys2Proof.Machine.execNegotiateAlgorithms q offered s
  | .getDigests q => Sys2Proof.Machine.execGetDigests q s
  | .getCertificate q slot off n => Sys2Proof.Machine.execGetCertificate q slot off n s
  | .spdmChallenge q slot nonce => Sys2Proof.Machine.execSpdmChallenge q slot nonce s
  | .getMeasurements q index sign nonce => Sys2Proof.Machine.execGetMeasurements q index sign nonce s
  | .pskExchange q role part => Sys2Proof.Machine.execPskExchange q role part s
  | .pskFinish q key => Sys2Proof.Machine.execPskFinish q key s
  | .heartbeat q => Sys2Proof.Machine.execHeartbeat q s
  | .keyUpdate q tag => Sys2Proof.Machine.execKeyUpdate q tag s
  | .endSession q => Sys2Proof.Machine.execEndSession q s
  | .chunkSend q handle seq last chunk => Sys2Proof.Machine.execChunkSend q handle seq last chunk s
  | .chunkGet q handle seq => Sys2Proof.Machine.execChunkGet q handle seq s
  | .heartbeatTimeout session t => Sys2Proof.Machine.execHeartbeatTimeout session t s
  | .mctpControlMessage q cmd body => Sys2Proof.Machine.execMctpControlMessage q cmd body s
  | .sessionInfo q body => Sys2Proof.Machine.execSessionInfo q body s
  | .prepareDigest q body => Sys2Proof.Machine.execPrepareDigest q body s
  | .assent q body => Sys2Proof.Machine.execAssent q body s
  | .assentStatus q body => Sys2Proof.Machine.execAssentStatus q body s
  | .withdraw q body => Sys2Proof.Machine.execWithdraw q body s
  | .setPsk q body stores => Sys2Proof.Machine.execSetPsk q body stores s
  | .setPartKey q body stores => Sys2Proof.Machine.execSetPartKey q body stores s
  | .lockRelease q body stores => Sys2Proof.Machine.execLockRelease q body stores s
  | .debugUnlock q body stores erases => Sys2Proof.Machine.execDebugUnlock q body stores erases s
  | .debugLock q body => Sys2Proof.Machine.execDebugLock q body s
  | .mgmtRepair q body stores => Sys2Proof.Machine.execMgmtRepair q body stores s
  | .getLog q body => Sys2Proof.Machine.execGetLog q body s
  | .claim q body stores => Sys2Proof.Machine.execClaim q body stores s
  | .assentExpiry t => Sys2Proof.Machine.execAssentExpiry t s
  | .psChallenge p t => Sys2Proof.Machine.execPsChallenge p t s
  | .psOpen p t => Sys2Proof.Machine.execPsOpen p t s
  | .psClose p => Sys2Proof.Machine.execPsClose p s
  | .nonceExpiry p t => Sys2Proof.Machine.execNonceExpiry p t s
  | .lockoutEnd p t => Sys2Proof.Machine.execLockoutEnd p t s
  | .smbusClockTimeout partner t => Sys2Proof.Machine.execSmbusClockTimeout partner t s
  | .partnerIgnoreEnd partner t => Sys2Proof.Machine.execPartnerIgnoreEnd partner t s
  | .powerOn => Sys2Proof.Machine.execPowerOn s
  | .pwrgdDeassert => Sys2Proof.Machine.execPwrgdDeassert s
  | .pwrgdAssert t hottest => Sys2Proof.Machine.execPwrgdAssert t hottest s
  | .perstAssert => Sys2Proof.Machine.execPerstAssert s
  | .perstRelease t strap => Sys2Proof.Machine.execPerstRelease t strap s
  | .holdupChange asserted => Sys2Proof.Machine.execHoldupChange asserted s
  | .stepRom t sound => Sys2Proof.Machine.execStepRom t sound s
  | .stepFlash t fails stores => Sys2Proof.Machine.execStepFlash t fails stores s
  | .stepImage t stores => Sys2Proof.Machine.execStepImage t stores s
  | .stepClocks t locked stores => Sys2Proof.Machine.execStepClocks t locked stores s
  | .stepHost t stores => Sys2Proof.Machine.execStepHost t stores s
  | .stepSettings t stores => Sys2Proof.Machine.execStepSettings t stores s
  | .stepTiles t sound stores => Sys2Proof.Machine.execStepTiles t sound stores s
  | .stepStacks t fail80 fail64 chans refused remaps stores => Sys2Proof.Machine.execStepStacks t fail80 fail64 chans refused remaps stores s
  | .stepCores t failed stores => Sys2Proof.Machine.execStepCores t failed stores s
  | .stepMesh t half dead stores => Sys2Proof.Machine.execStepMesh t half dead stores s
  | .stepLinks t stores => Sys2Proof.Machine.execStepLinks t stores s
  | .stepShutter t stores => Sys2Proof.Machine.execStepShutter t stores s
  | .stepPlate t stores => Sys2Proof.Machine.execStepPlate t stores s
  | .stepReady t stores bad => Sys2Proof.Machine.execStepReady t stores bad s
  | .stepWatchdogExpiry units => Sys2Proof.Machine.execStepWatchdogExpiry units s
  | .safelightWatchdogExpiry t stores => Sys2Proof.Machine.execSafelightWatchdogExpiry t stores s
  | .bootReset => Sys2Proof.Machine.execBootReset s
  | .clearFailrun stores => Sys2Proof.Machine.execClearFailrun stores s
  | .fwuBegin t => Sys2Proof.Machine.execFwuBegin t s
  | .eraseComplete t => Sys2Proof.Machine.execEraseComplete t s
  | .fwuWriteBlock t stores => Sys2Proof.Machine.execFwuWriteBlock t stores s
  | .fwuVerify t => Sys2Proof.Machine.execFwuVerify t s
  | .fwuActivate t stores => Sys2Proof.Machine.execFwuActivate t stores s
  | .fwuAbort t => Sys2Proof.Machine.execFwuAbort t s
  | .fwuConfirm stores bad => Sys2Proof.Machine.execFwuConfirm stores bad s
  | .fwuRevert stores => Sys2Proof.Machine.execFwuRevert stores s
  | .updateTimeout t => Sys2Proof.Machine.execUpdateTimeout t s
  | .activateReset => Sys2Proof.Machine.execActivateReset s
  | .requestUpdate q maxXfer => Sys2Proof.Machine.execRequestUpdate q maxXfer s
  | .passComponentTable q ident => Sys2Proof.Machine.execPassComponentTable q ident s
  | .updateComponent q ident size => Sys2Proof.Machine.execUpdateComponent q ident size s
  | .firmwareDataReceive q data stores => Sys2Proof.Machine.execFirmwareDataReceive q data stores s
  | .activateFirmware q selfContained stores => Sys2Proof.Machine.execActivateFirmware q selfContained stores s
  | .cancelUpdateComponent q => Sys2Proof.Machine.execCancelUpdateComponent q s
  | .cancelUpdate q => Sys2Proof.Machine.execCancelUpdate q s
  | .getStatus q => Sys2Proof.Machine.execGetStatus q s
  | .getFirmwareParameters q => Sys2Proof.Machine.execGetFirmwareParameters q s
  | .parityError kind unit t => Sys2Proof.Machine.execParityError kind unit t s
  | .meshEdgeFailure e ports t => Sys2Proof.Machine.execMeshEdgeFailure e ports t s
  | .flashLogWrite stores => Sys2Proof.Machine.execFlashLogWrite stores s
  | .blockLockLoss q t => Sys2Proof.Machine.execBlockLockLoss q t s
  | .signalOnDarkPort q => Sys2Proof.Machine.execSignalOnDarkPort q s
  | .meshFlitRetry e t => Sys2Proof.Machine.execMeshFlitRetry e t s
  | .configurationRequest r => Sys2Proof.Machine.execConfigurationRequest r s
  | .ideKmRequest q r => Sys2Proof.Machine.execIdeKmRequest q r s
  | .loupeRequest r => Sys2Proof.Machine.execLoupeRequest r s
  | .repairOperationComplete code lines stores => Sys2Proof.Machine.execRepairOperationComplete code lines stores s
  | .verifyComplete t => Sys2Proof.Machine.execVerifyComplete t s
  | .safelightRestartComplete t => Sys2Proof.Machine.execSafelightRestartComplete t s

end Sys2Proof.Machine
end

