-- ==== Sys2Proof/Machine/Step.lean ====
section
/-!
DEFINITION. One step of the block: the command at the front of the queue runs with the queue's rest; with nothing
waiting, device time moves on by one core-clock cycle (R5, R38).
-/

namespace Sys2Proof.Machine

open Sys2Proof

/-- The step. -/
def step (s : State) : Host.Outcome State Fault Refusal :=
  match s.pending with
  | [] => .next (s.advance (s.now + 1))
  | i :: rest => exec i { s with pending := rest }

/-- `s` with the command the word spells at the front of its queue; no row of the operation table has bits, so no word
spells one. -/
def State.withFetchWord (s : State) (nbits w : Nat) : State :=
  match decodeTableWord nbits w with
  | some i => { s with pending := i :: s.pending }
  | none => s

end Sys2Proof.Machine
end

