-- ==== Sys2Proof/WellFormed.lean ====
section
/-!
DEFINITION. When a command is well formed: every unit, partition, queue, port and function it names is one of those the device
has (R11, R22, R23, R258, R433, R445, R526).
-/

namespace Sys2Proof

/-- A management message breaks no row of R536 or one of those that a packet can break. -/
def Ask.sound (q : Ask) : Bool := q.packet == 0 || q.packet == 4 || q.packet == 6

/-- Is the command well formed? -/
def Instr.wf (i : Instr) : Bool :=
  match i with
  | .tick => true
  | .flywheelTick => true
  | .guardBandStart => true
  | .tickMessageSend => true
  | .tickMessageReceive q _ _ _ => decide (q < 16)
  | .shutterInEdge _ => true
  | .heldCoreStop p => decide (p < 16)
  | .periodicTimerExpiry p i => decide (p < 16) && decide (i < 8)
  | .oneshotTimerExpiry p i => decide (p < 16) && decide (i < 8)
  | .watchdogExpiry p i => decide (p < 16) && decide (i < 8)
  | .inputEdge input _ => decide (input < 5)
  | .edgeDeliver input => decide (input < 5)
  | .qTailWrite p q _ => decide (p < 16) && decide (q < 32)
  | .qCtrlWrite p q _ => decide (p < 16) && decide (q < 32)
  | .cqCtrlWrite p c _ => decide (p < 16) && decide (c < 32)
  | .cqHeadWrite p c _ => decide (p < 16) && decide (c < 32)
  | .mkAdd p _ => decide (p < 16)
  | .recordCopy p q _ => decide (p < 16) && decide (q < 32)
  | .commandAdmit p q core _ => decide (p < 16) && decide (q < 32 ∨ q = 255) && decide (core < 4096)
  | .commandComplete p _ _ => decide (p < 16)
  | .krnLaunch p _ => decide (p < 16)
  | .kernelStart p _ core => decide (p < 16) && decide (core < 4096)
  | .movCopy p _ => decide (p < 16)
  | .movCopy2d p _ => decide (p < 16)
  | .movGather p _ => decide (p < 16)
  | .movScatter p _ => decide (p < 16)
  | .movFill p _ => decide (p < 16)
  | .movCompress p _ => decide (p < 16)
  | .movDecompress p _ => decide (p < 16)
  | .movKsload p _ => decide (p < 16)
  | .fixTensor p _ => decide (p < 16)
  | .rduOpen p _ => decide (p < 16)
  | .rduContribute p _ => decide (p < 16)
  | .grnSeed p _ => decide (p < 16)
  | .grnSeedLoad p _ => decide (p < 16)
  | .grnSeedSave p _ => decide (p < 16)
  | .grnBits p _ => decide (p < 16)
  | .grnMask p _ => decide (p < 16)
  | .grnUniform p _ => decide (p < 16)
  | .grnNormal p _ => decide (p < 16)
  | .grnDiscrete p _ => decide (p < 16)
  | .grnSample p _ => decide (p < 16)
  | .grnTopkExport p _ => decide (p < 16)
  | .lnkPut p _ => decide (p < 16)
  | .lnkGet p _ => decide (p < 16)
  | .synNop p _ => decide (p < 16)
  | .synMarkAdd p _ => decide (p < 16)
  | .synMarkSet p _ => decide (p < 16)
  | .synTimestamp p _ => decide (p < 16)
  | .synFrameAlign p _ => decide (p < 16)
  | .synWatchdog p _ => decide (p < 16)
  | .synEvent p _ => decide (p < 16)
  | .loadingComplete p => decide (p < 16)
  | .drainComplete p => decide (p < 16)
  | .migrationLastAck p => decide (p < 16)
  | .pltStage _ => true
  | .pltAbort => true
  | .plateValidationDone _ => true
  | .pltStart p => decide (p < 16)
  | .pltStop p => decide (p < 16)
  | .pltRelease p => decide (p < 16)
  | .migrateOut p dev part => decide (p < 16) && decide (dev < 256) && decide (part < 16)
  | .pgRelease p => decide (p < 16)
  | .alu c _ => decide (c < 4096)
  | .muldiv c _ => decide (c < 4096)
  | .immediateOp c _ => decide (c < 4096)
  | .load c _ => decide (c < 4096)
  | .store c _ => decide (c < 4096)
  | .branch c _ => decide (c < 4096)
  | .j c _ => decide (c < 4096)
  | .jal c _ => decide (c < 4096)
  | .jalr c _ => decide (c < 4096)
  | .gate c _ => decide (c < 4096)
  | .retg c _ => decide (c < 4096)
  | .rete c _ => decide (c < 4096)
  | .yield c _ => decide (c < 4096)
  | .endk c _ => decide (c < 4096)
  | .breakpoint c _ => decide (c < 4096)
  | .waitev c _ => decide (c < 4096)
  | .mfc c _ => decide (c < 4096)
  | .mtc c _ => decide (c < 4096)
  | .swc c _ => decide (c < 4096)
  | .setc c _ => decide (c < 4096)
  | .clrc c _ => decide (c < 4096)
  | .fenceS c _ => decide (c < 4096)
  | .fenceL c _ => decide (c < 4096)
  | .fenceA c _ => decide (c < 4096)
  | .fenceE c _ => decide (c < 4096)
  | .sync c _ => decide (c < 4096)
  | .cleanA c _ => decide (c < 4096)
  | .invA c _ => decide (c < 4096)
  | .clinvA c _ => decide (c < 4096)
  | .cleanSw c _ => decide (c < 4096)
  | .invSw c _ => decide (c < 4096)
  | .clinvSw c _ => decide (c < 4096)
  | .iinvAll c _ => decide (c < 4096)
  | .fpOp c _ => decide (c < 4096)
  | .fmaOp c _ => decide (c < 4096)
  | .fpCompare c _ => decide (c < 4096)
  | .fkind c _ => decide (c < 4096)
  | .fnarrow c _ => decide (c < 4096)
  | .fwiden c _ => decide (c < 4096)
  | .ftoi c _ => decide (c < 4096)
  | .itof c _ => decide (c < 4096)
  | .fmovg c _ => decide (c < 4096)
  | .fmovf c _ => decide (c < 4096)
  | .svArith c _ => decide (c < 4096)
  | .svcvt c _ => decide (c < 4096)
  | .svshuf c _ => decide (c < 4096)
  | .vint c _ => decide (c < 4096)
  | .vfp c _ => decide (c < 4096)
  | .vmaskCompare c _ => decide (c < 4096)
  | .maskLogic c _ => decide (c < 4096)
  | .vmpopc c _ => decide (c < 4096)
  | .vmfirst c _ => decide (c < 4096)
  | .vmset c _ => decide (c < 4096)
  | .vsetl c _ => decide (c < 4096)
  | .vmv c _ => decide (c < 4096)
  | .vmvScalar c _ => decide (c < 4096)
  | .vext c _ => decide (c < 4096)
  | .vslideup c _ => decide (c < 4096)
  | .vslidedn c _ => decide (c < 4096)
  | .vgather c _ => decide (c < 4096)
  | .vmerge c _ => decide (c < 4096)
  | .vid c _ => decide (c < 4096)
  | .vredsum c _ => decide (c < 4096)
  | .vfredsum c _ => decide (c < 4096)
  | .vfredmaxmin c _ => decide (c < 4096)
  | .vld c _ => decide (c < 4096)
  | .vldFirstFault c _ => decide (c < 4096)
  | .vst c _ => decide (c < 4096)
  | .cvt c _ => decide (c < 4096)
  | .cvtT c _ => decide (c < 4096)
  | .mxq c _ => decide (c < 4096)
  | .mxd c _ => decide (c < 4096)
  | .mopAcc c _ => decide (c < 4096)
  | .mopNacc c _ => decide (c < 4096)
  | .mopSet c _ => decide (c < 4096)
  | .mopNset c _ => decide (c < 4096)
  | .tld c _ => decide (c < 4096)
  | .tldW c _ => decide (c < 4096)
  | .tst c _ => decide (c < 4096)
  | .tstW c _ => decide (c < 4096)
  | .tsld c _ => decide (c < 4096)
  | .tsst c _ => decide (c < 4096)
  | .vfromt c _ => decide (c < 4096)
  | .tfromv c _ => decide (c < 4096)
  | .vfroma c _ => decide (c < 4096)
  | .afromv c _ => decide (c < 4096)
  | .vfromts c _ => decide (c < 4096)
  | .tsfromv c _ => decide (c < 4096)
  | .azero c _ => decide (c < 4096)
  | .ared c _ => decide (c < 4096)
  | .fixq c _ => decide (c < 4096)
  | .customInstruction c _ => decide (c < 4096)
  | .asyncException c => decide (c < 4096)
  | .storeAccept c _ => decide (c < 4096)
  | .l1dFill c _ _ _ => decide (c < 4096)
  | .instructionLineFill c _ _ _ => decide (c < 4096)
  | .channelRead ch l _ die _ => decide (ch < 512) && decide (l < 2 ^ 25) && die.all (fun x => decide (x < 16))
  | .channelWrite ch l _ => decide (ch < 512) && decide (l < 2 ^ 25)
  | .partialWrite ch l _ _ core => decide (ch < 512) && decide (l < 2 ^ 25) && core.all (fun x => decide (x < 4096))
  | .wcAgeFlush ch _ => decide (ch < 512)
  | .wcMarker c ch => decide (c < 4096) && decide (ch < 512)
  | .sramAccess g kind i _ _ _ => decide (g < 256) && decide (kind < 2) && decide (i < (if kind = 0 then 2 ^ 18 else 2 ^ 15))
  | .refresh _ => true
  | .thermalReading tile _ _ => decide (tile < 16)
  | .warningClear _ => true
  | .sensorSilence tile _ => decide (tile < 16)
  | .iodieJunctionReading die _ _ => decide (die < 2)
  | .agStart ch => decide (ch < 512)
  | .agStop ch => decide (ch < 512)
  | .agClear ch => decide (ch < 512)
  | .atpCtrlWrite ch _ => decide (ch < 512)
  | .agitatorIssue ch _ => decide (ch < 512)
  | .proofCheck ch => decide (ch < 512)
  | .agitatorRunEnd ch _ => decide (ch < 512)
  | .rprApply _ => true
  | .rprRemove _ => true
  | .rprDigest => true
  | .dataFlit q _ _ => decide (q < 16)
  | .nullFlit q _ _ => decide (q < 16)
  | .nakFlit q _ _ => decide (q < 16)
  | .badBlock q _ _ => decide (q < 16)
  | .trainFlit q _ _ => decide (q < 16)
  | .flitTransmit q _ => decide (q < 16)
  | .retryTimeout q _ => decide (q < 16)
  | .trainingComplete q _ => decide (q < 16)
  | .trainingFail q _ => decide (q < 16)
  | .retrainDeadline q _ => decide (q < 16)
  | .mbxRetrain q => decide (q < 16)
  | .mbxDark q => decide (q < 16)
  | .msgWrite _ => true
  | .msgRead _ => true
  | .msgWriteSys _ => true
  | .msgReadSys _ => true
  | .msgMarkAdd _ => true
  | .msgMigWrite _ => true
  | .msgMigCtl _ => true
  | .msgRedDelta _ => true
  | .msgRedResult _ => true
  | .msgViolation _ => true
  | .msgMgmt _ => true
  | .msgWriteAck _ => true
  | .msgReadData _ => true
  | .msgMarkAck _ => true
  | .msgRefuse _ => true
  | .msgRedAck _ => true
  | .deltaSend p rid u => decide (p < 16) && decide (rid < 65536) && decide (u < 17)
  | .deltaRetry p rid => decide (p < 16) && decide (rid < 65536)
  | .transactionTimeout dst tag _ => decide (dst < 256) && decide (tag < 65536)
  | .tagQuarantineEnd dst tag _ => decide (dst < 256) && decide (tag < 65536)
  | .pfW2Read rid _ _ => decide (rid < 65536)
  | .pfW2Write rid _ _ _ => decide (rid < 65536)
  | .vfW2Read p rid _ _ => decide (p < 16) && decide (rid < 65536)
  | .vfW2Write p rid _ _ _ => decide (p < 16) && decide (rid < 65536)
  | .atomicop path rid => decide (path < 19) && decide (rid < 65536)
  | .vendorDefinedMessage rid _ _ => decide (rid < 65536)
  | .vfFlr p => decide (p < 16)
  | .pfFlr => true
  | .hotReset _ => true
  | .d3hotEntry fn => decide (fn < 17)
  | .d0Return fn => decide (fn < 17)
  | .hostLinkRetrain _ _ _ => true
  | .cxlMemRead _ rid => decide (rid < 65536)
  | .cxlMemWrite _ rid _ => decide (rid < 65536)
  | .identifyMemoryDevice => true
  | .getEventRecords => true
  | .clearEventRecords _ => true
  | .getPoisonList _ _ => true
  | .msixUnmask fn v => decide (fn < 17) && decide (v < 2048)
  | .registerWrite path rid _ _ _ _ => decide (path < 19) && decide (rid < 65536)
  | .rcRegisterRead path rid _ _ _ => decide (path < 19) && decide (rid < 65536)
  | .loRegisterRead path rid _ _ _ => decide (path < 19) && decide (rid < 65536)
  | .errHeadWrite _ => true
  | .getVersion q => q.sound
  | .getCapabilities q _ _ => q.sound
  | .negotiateAlgorithms q _ => q.sound
  | .getDigests q => q.sound
  | .getCertificate q _ _ _ => q.sound
  | .spdmChallenge q _ _ => q.sound
  | .getMeasurements q _ _ _ => q.sound
  | .pskExchange q _ part => q.sound && decide (part < 16 ∨ part = 255)
  | .pskFinish q _ => q.sound
  | .heartbeat q => q.sound
  | .keyUpdate q tag => q.sound && decide (tag < 65536)
  | .endSession q => q.sound
  | .chunkSend q _ _ _ _ => q.sound
  | .chunkGet q _ _ => q.sound
  | .heartbeatTimeout _ _ => true
  | .mctpControlMessage q _ _ => q.sound
  | .sessionInfo q _ => q.sound
  | .prepareDigest q _ => q.sound
  | .assent q _ => q.sound
  | .assentStatus q _ => q.sound
  | .withdraw q _ => q.sound
  | .setPsk q _ _ => q.sound
  | .setPartKey q _ _ => q.sound
  | .lockRelease q _ _ => q.sound
  | .debugUnlock q _ _ _ => q.sound
  | .debugLock q _ => q.sound
  | .mgmtRepair q _ _ => q.sound
  | .getLog q _ => q.sound
  | .claim q _ _ => q.sound
  | .assentExpiry _ => true
  | .psChallenge p _ => decide (p < 16)
  | .psOpen p _ => decide (p < 16)
  | .psClose p => decide (p < 16)
  | .nonceExpiry p _ => decide (p < 16)
  | .lockoutEnd p _ => decide (p < 16)
  | .smbusClockTimeout _ _ => true
  | .partnerIgnoreEnd _ _ => true
  | .powerOn => true
  | .pwrgdDeassert => true
  | .pwrgdAssert _ _ => true
  | .perstAssert => true
  | .perstRelease _ _ => true
  | .holdupChange _ => true
  | .stepRom _ _ => true
  | .stepFlash _ _ _ => true
  | .stepImage _ _ => true
  | .stepClocks _ _ _ => true
  | .stepHost _ _ => true
  | .stepSettings _ _ => true
  | .stepTiles _ _ _ => true
  | .stepStacks _ fail80 fail64 chans _ remaps _ => fail80.all (fun x => decide (x < 16)) && fail64.all (fun x => decide (x < 16)) && chans.all (fun x => decide (x < 512)) && remaps.all (fun r => decide (r.length = 16))
  | .stepCores _ failed _ => failed.all (fun x => decide (x / 32 < 256) && decide (x % 32 < 18))
  | .stepMesh _ half dead _ => half.all (fun x => decide (x < 32)) && dead.all (fun x => decide (x < 32))
  | .stepLinks _ _ => true
  | .stepShutter _ _ => true
  | .stepPlate _ _ => true
  | .stepReady _ _ _ => true
  | .stepWatchdogExpiry _ => true
  | .safelightWatchdogExpiry _ _ => true
  | .bootReset => true
  | .clearFailrun _ => true
  | .fwuBegin _ => true
  | .eraseComplete _ => true
  | .fwuWriteBlock _ _ => true
  | .fwuVerify _ => true
  | .fwuActivate _ _ => true
  | .fwuAbort _ => true
  | .fwuConfirm _ _ => true
  | .fwuRevert _ => true
  | .updateTimeout _ => true
  | .activateReset => true
  | .requestUpdate q _ => q.sound
  | .passComponentTable q _ => q.sound
  | .updateComponent q _ _ => q.sound
  | .firmwareDataReceive q _ _ => q.sound
  | .activateFirmware q _ _ => q.sound
  | .cancelUpdateComponent q => q.sound
  | .cancelUpdate q => q.sound
  | .getStatus q => q.sound
  | .getFirmwareParameters q => q.sound
  | .parityError kind unit _ => decide (kind < 4) && decide (unit < (if kind = 0 then 256 else if kind = 3 then 2 else 16))
  | .meshEdgeFailure e ports _ => decide (e < 32) && ports.all (fun x => decide (x < 16))
  | .flashLogWrite _ => true
  | .blockLockLoss q _ => decide (q < 16)
  | .signalOnDarkPort q => decide (q < 16)
  | .meshFlitRetry e _ => decide (e < 32)
  | .configurationRequest _ => true
  | .ideKmRequest q _ => q.sound
  | .loupeRequest _ => true
  | .repairOperationComplete _ lines _ => lines.all (fun x => decide (x < 2 ^ 25))
  | .verifyComplete _ => true
  | .safelightRestartComplete _ => true

end Sys2Proof
end

