-- ==== Sys2Proof/Safety.lean ====
section
/-!
DEFINITION. What counts as a safe run, in the terms the statements use: the canonical form of what State holds sparsely,
the invariant that every step keeps, and what a step may do to the parts of State that no command owns.
-/

namespace Sys2Proof

/-! ## The commands that may begin a frame -/

/-- The commands that may move the frame number: the two kinds of tick, and those that can end in a device reset (R477). -/
def Instr.mayTick : Instr → Bool
  | .tick | .flywheelTick | .powerOn | .pwrgdDeassert | .perstAssert | .bootReset | .stepWatchdogExpiry _ | .safelightWatchdogExpiry _ _ | .activateReset | .stepRom _ _
  | .stepSettings _ _ | .stepImage _ _ | .stepClocks _ _ _ | .stepFlash _ _ _ | .stepHost _ _ | .stepTiles _ _ _ | .stepStacks _ _ _ _ _ _ _
  | .stepMesh _ _ _ _ | .stepCores _ _ _ | .stepLinks _ _ | .stepShutter _ _ | .stepPlate _ _ | .stepReady _ _ _ => true
  | _ => false

end Sys2Proof

namespace Sys2Proof.Machine

open Sys2Proof

/-- The memory is in its canonical form: rising addresses, and no entry that says what an unlisted one reads as. -/
def Mem.wf (m : Mem) : Bool :=
  NatMap.wf 0#8 m.bytes && NatMap.wf false m.poisoned && NatMap.wf 0 m.flips && NatMap.wf [] m.wc

/-- The stored registers of control space and of the partition pages are in their canonical form. -/
def State.regsWf (s : State) : Bool := NatMap.wf 0#32 s.regs

/-- The invariant of the block: memory and registers are in canonical form, and every command that waits is well
formed. -/
def State.Inv (s : State) : Prop :=
  s.mem.wf = true ∧ s.regsWf = true ∧ s.pending.all Instr.wf = true

/-- A step is safe where it ends in a next state, with the queue that follows and the invariant kept: no command of this
device ends a run. -/
def SafeStep (s : State) : Prop := ∃ t, step s = .next t ∧ t.pending = s.pending.tail ∧ (s.Inv → t.Inv)

/-! ## The paths that are served -/

/-- The PF's writes to a block of control space take effect (R436, R482, R524): `kind` is 0 for the blocks always served,
1 for PLATE and 2 for the rest. -/
def State.pfServes (s : State) (kind : Nat) : Prop :=
  s.host.en = true ∧ (kind = 0 ∨ (s.boot.ready = true ∧ s.err.fatal = false ∧ (kind = 1 ∨ s.host.serviceReason = 0)))

/-- A partition's page is there, served, defined, and its session is open (R433, R437, R454). -/
def State.pageOpen (s : State) (p : Nat) : Prop :=
  s.vfThere p = true ∧ s.vfServed p = true ∧ s.pageDefined p = true ∧ s.sessionOpen p = true

/-- Safelight's firmware hears a sound message of a partner it does not ignore (R482, R536, R537). -/
def State.hears (s : State) (q : Ask) : Prop :=
  s.boot.held = false ∧ s.boot.halted = false ∧ (s.advance q.t).ignoring q.partner = false ∧ q.packet = 0 ∧ s.mgmt.up = true

/-- The message comes, authentic, inside the live management session `x` (R459). -/
def State.inLive (s : State) (q : Ask) (x : MSess) : Prop :=
  s.hears q ∧ q.session ≠ 0 ∧ q.auth = true ∧ s.mgmtSession q = some x ∧ x.live = true

/-! ## Boot -/

/-- Boot step `n` is in progress at time `t`, and its watchdog has not expired (R479, R480). -/
def State.inStep (s : State) (n t : Nat) : Prop :=
  s.boot.held = false ∧ s.boot.halted = false ∧ s.boot.ready = false ∧ s.boot.step = n ∧ t ≤ s.boot.since + stepMax n * cyclesPerMs

/-! ## Routes -/

/-- The device one step in a direction (R74, R415). -/
def SysSec.neighbour (y : SysSec) (here dir : Nat) : Nat :=
  let step := fun (i a n : Nat) => if (dir - 1) / 2 ≠ i then a else if dir % 2 = 1 then (a + 1) % n else (a + n - 1) % n
  step 0 (here % y.dimX) y.dimX + y.dimX * step 1 (here / y.dimX % y.dimY) y.dimY
    + y.dimX * y.dimY * step 2 (here / (y.dimX * y.dimY)) y.dimZ

/-- The steps between two devices by the shorter way round each ring (R415). -/
def SysSec.distance (y : SysSec) (a b : Nat) : Nat :=
  let ring := fun (a b n : Nat) => min ((b + n - a) % n) (n - (b + n - a) % n)
  ring (a % y.dimX) (b % y.dimX) y.dimX + ring (a / y.dimX % y.dimY) (b / y.dimX % y.dimY) y.dimY
    + ring (a / (y.dimX * y.dimY)) (b / (y.dimX * y.dimY)) y.dimZ

/-! ## A core that executes -/

/-- Core `c` runs a kernel, waits for nothing, and its PC lies in the kernel store, aligned (R118, R279). -/
def State.ready (s : State) (c : Nat) : Prop :=
  (s.core c).canExecute = true ∧ (s.core c).ctl.pc.toNat % 4 = 0 ∧ (s.core c).ctl.pc.toNat < 2 ^ 18

/-- The instruction stands in no delay slot, or in that of a branch or jump (R121): not of a GATE, RETG or RETE. -/
def CoreCtl.plain (k : CoreCtl) : Prop := ∀ d, k.delay = some d → d.act = .plain ∧ d.gateSlot = false

/-- Where a core goes on after an instruction that is no transfer: from a delay slot at the transfer's target, else at the
next word (R121). -/
def CoreCtl.nextPc (k : CoreCtl) : Dword := match k.delay with
  | some d => BitVec.ofNat 64 d.target
  | none => k.pc + 4

/-- A core that may execute an instruction that is no transfer. -/
def State.executes (s : State) (c : Nat) : Prop := s.ready c ∧ (s.core c).ctl.plain

/-- A core that may execute a transfer: its PC is in no delay slot (R122). -/
def State.transfers (s : State) (c : Nat) : Prop := s.ready c ∧ (s.core c).ctl.delay = none

/-- `t` is `u` after core `c` has gone on past one instruction, and nothing else of the device has changed. -/
structure Advanced (u t : State) (c : Nat) : Prop where
  device : t = { u with cores := t.cores }
  others : ∀ d, d ≠ c → t.core d = u.core d
  pc : (t.core c).ctl.pc = (u.core c).ctl.nextPc
  slot : (t.core c).ctl.delay = none
  regs : (t.core c).regs = (u.core c).regs
  level : (t.core c).ctl.priv = (u.core c).ctl.priv ∧ (t.core c).ctl.ie = (u.core c).ctl.ie
  flags : (t.core c).ctl.fflags = (u.core c).ctl.fflags ∧ (t.core c).ctl.vstat = (u.core c).ctl.vstat
  written : (t.core c).ctl.mode = (u.core c).ctl.mode ∧ (t.core c).ctl.vshape = (u.core c).ctl.vshape
  sync : (t.core c).sr = (u.core c).sr ∧ (t.core c).sre = (u.core c).sre ∧ (t.core c).bank = (u.core c).bank
  events : (t.core c).even = (u.core c).even ∧ (t.core c).ctl.evpend = (u.core c).ctl.evpend ∧ (t.core c).ssp = (u.core c).ssp
  stores : (t.core c).sb = (u.core c).sb
  caches : (t.core c).l1d = (u.core c).l1d ∧ (t.core c).ic = (u.core c).ic ∧ (t.core c).btb = (u.core c).btb
  runs : (t.core c).run = (u.core c).run ∧ (t.core c).kernel = (u.core c).kernel
  retired : NatMap.get 0 (t.core c).perf 0x301 = NatMap.get 0 (u.core c).perf 0x301 + 1
  counters : ∀ n, n ≠ 0x301 → NatMap.get 0 (t.core c).perf n = NatMap.get 0 (u.core c).perf n

/-- `t` is `u` after core `c` has executed a transfer, with `d` for what its delay slot leads to (R121): nothing else of the
device has changed. -/
structure Transferred (u t : State) (c : Nat) (d : Delay) : Prop where
  device : t = { u with cores := t.cores }
  others : ∀ e, e ≠ c → t.core e = u.core e
  pc : (t.core c).ctl.pc = (u.core c).ctl.pc + 4
  goes : (t.core c).ctl.delay = some d
  regs : (t.core c).regs = (u.core c).regs
  level : (t.core c).ctl.priv = (u.core c).ctl.priv ∧ (t.core c).ctl.ie = (u.core c).ctl.ie
  flags : (t.core c).ctl.fflags = (u.core c).ctl.fflags ∧ (t.core c).ctl.vstat = (u.core c).ctl.vstat
  stores : (t.core c).sb = (u.core c).sb
  runs : (t.core c).run = (u.core c).run ∧ (t.core c).kernel = (u.core c).kernel
  retired : NatMap.get 0 (t.core c).perf 0x301 = NatMap.get 0 (u.core c).perf 0x301 + 1

/-- Command `i` completes in `s`: it answers a next state, which is `u` with core `c` gone on past one instruction. -/
def CompletesAs (i : Instr) (s u : State) (c : Nat) : Prop := ∃ t, exec i s = .next t ∧ Advanced u t c

/-- Command `i` transfers control in `s`: it answers a next state, which is `u` with `d` to come after the delay slot. -/
def TransfersAs (i : Instr) (s u : State) (c : Nat) (d : Delay) : Prop := ∃ t, exec i s = .next t ∧ Transferred u t c d

/-- Command `i` of core `c` raises `f` in `s`: it answers the state in which the core has entered that exception (R224), or
stopped as R224 says. -/
def Raises (i : Instr) (s : State) (c : Nat) (f : FaultInfo) : Prop := exec i s = .next ((s.endRemote c).faultAt c f)

end Sys2Proof.Machine
end

