-- ==== Sys2Proof/Certificates/Slice0/Obligations.lean ====
section
/-!
DEFINITION. The statements for the provers.
-/

open Sys2Proof Sys2Proof.Machine

/-- For every command i, every rest of the queue and every state s, a step with i at the front of the queue is exec of i
on s with the queue's rest. On an empty queue a step moves device time on by one core-clock cycle and takes no command
(the model's choice, assumption log entry 1). (spec/00_scope.md, spec/02_shutter_and_frames.md) -/
def Obligations.StepRunsFrontCommand : Prop :=
  (∀ (i : Instr) (rest : List Instr) (s : State), step { s with pending := i :: rest } = exec i { s with pending := rest }) ∧
  (∀ s : State, s.pending = [] → step s = .next { s with now := s.now + 1 })

/-- After reset every control register of every core that the spec gives a reset value reads as that value: MODE, FFLAGS
and VRESUME 0, VSHAPE FMT 1 and SEW 64, STATUS PRIV 1 and IE 0, EVBASE, GATEBASE, SLIMIT, SSP, EVEN and EVPEND 0,
SEGEN 0xFFFF, WINCTL 0, DTAB_CTRL UEN 1, KS_WAIT WAIT 4 and EFF 4, L1D_CFG DRAM_EN and WALLOC 1, IC_CFG EN 1. No
command waits and nothing has been sent. General registers read zero, which is the model's choice of a power-up value
(assumption log entry 3). (R107, R147, R150, R201, R208, R218, R219, R242, R362) -/
def Obligations.ResetState : Prop :=
  (∀ c : Nat,
    (∀ n ∈ [0x000, 0x001, 0x003, 0x101, 0x102, 0x103, 0x104, 0x105, 0x106, 0x171, 0x200, 0x201], State.reset.creg c n = some 0) ∧
    State.reset.creg c 0x002 = some 0x31 ∧ State.reset.creg c 0x100 = some 1 ∧ State.reset.creg c 0x170 = some 0xFFFF ∧
    State.reset.creg c 0x180 = some 1 ∧ State.reset.creg c 0x181 = some 0x404 ∧ State.reset.creg c 0x190 = some 5 ∧
    State.reset.creg c 0x191 = some 1 ∧ ∀ r, (State.reset.core c).gr r = 0) ∧
  State.reset.pending = [] ∧ State.reset.out = [] ∧ State.reset.mem.bytes = []

/-- After reset, memory and the stored registers are in their canonical form and every waiting command is well formed.
(spec/14_stack_memory_system.md, spec/17_host_interface.md) -/
def Obligations.ResetSatisfiesInvariant : Prop := State.reset.Inv

/-- From every state, whatever command is at the front and whatever its operands, a step answers a next state (never a
fault or a refusal); the queue then holds exactly the commands that waited behind it, in their order; and where the
state met the invariant (canonical memory, canonical registers, well-formed waiting commands), the next state meets
it. (spec/14_stack_memory_system.md, spec/17_host_interface.md) -/
def Obligations.EveryStepIsSafe : Prop := ∀ s : State, SafeStep s

/-- Whatever command runs in whatever state: the waiting commands stay as they are, every fuse cell that reads as blown
still does, what the device has sent stays sent and new sendings follow it, and the count of drawn free values never
falls (so no free value is used for two questions; the count is the model's own field). (R475,
spec/18_sessions_roles_assent.md, spec/17_host_interface.md) -/
def Obligations.NothingIsTakenBack : Prop :=
  ∀ (i : Instr) (s t : State), exec i s = .next t →
    t.pending = s.pending ∧ s.nv.fuses &&& t.nv.fuses = s.nv.fuses ∧ s.out <+: t.out ∧ s.drawn ≤ t.drawn

/-- After an instruction that is no transfer has done its operation (state u), outside the delay slot of a GATE, RETG or
RETE, its core goes on at the next word, or, from a delay slot, at the transfer's target; registers, privilege, flags,
store buffer, caches, events and the kernel stay as the operation left them, RETIRED counts one, every other counter
stays, and nothing else of the device changes. (R121, R205, R216) -/
def Obligations.RetirementFrame : Prop :=
  ∀ (u : State) (c : Nat), (u.core c).ctl.plain → Advanced u (u.finish c) c

/-- g0 reads zero and a write to it changes nothing; a write of any other g register makes it read as the value written
and every other g register as before; a write of an f register makes it read as the value and every other f register
as before; neither changes another core, and a g write leaves the f registers alone. (R104, R105,
spec/04_scalar_instruction_set.md) -/
def Obligations.RegisterFile : Prop :=
  ∀ (s : State) (c r q d : Nat) (v : Dword),
    (s.core c).gr 0 = 0 ∧ s.setG c 0 v = s ∧
    ((s.setG c r v).core c).gr q = (if q = r ∧ r ≠ 0 then v else (s.core c).gr q) ∧
    ((s.setF c r v).core c).fr q = (if q = r then v else (s.core c).fr q) ∧
    ((s.setG c r v).core c).fr q = (s.core c).fr q ∧ ((s.setF c r v).core c).gr q = (s.core c).gr q ∧
    (d ≠ c → (s.setG c r v).core d = s.core d ∧ (s.setF c r v).core d = s.core d)

/-- For every core that may execute and every ALU word whose unused fields are 0: the function completes with rd given the
result of R115 (sums and differences wrap modulo 2^64, or 2^32 for the W forms; shifts take rb[5:0] or rb[4:0]; CLZ,
CTZ and POPC are characterised by the bits of ra; BSWAP reverses the bytes), and nothing else changes but the PC and
the count of retired instructions. A reserved function, or a nonzero rb or bits [10:6] where they must be 0, raises
RESERVED. (R115) -/
def Obligations.AluResults : Prop :=
  ∀ (c : Nat) (w : Word) (s : State), s.executes c → major w = 0x01 →
    let a := (s.core c).gr (fRa w)
    let b := (s.core c).gr (fRb w)
    let gives := fun v : Dword => CompletesAs (.alu c w) s (s.setG c (fRd w) v) c
    let low := fun v : Dword => v.setWidth 32
    let sh := b.toNat % 64
    (fRc w = 0 →
      (fFunc w = 0x00 → gives (BitVec.ofNat 64 (a.toNat + b.toNat))) ∧
      (fFunc w = 0x01 → gives (BitVec.ofInt 64 ((a.toNat : Int) - b.toNat))) ∧
      (fFunc w = 0x02 → gives (a &&& b)) ∧ (fFunc w = 0x03 → gives (a ||| b)) ∧ (fFunc w = 0x04 → gives (a ^^^ b)) ∧
      (fFunc w = 0x05 → gives (a &&& ~~~ b)) ∧ (fFunc w = 0x06 → gives (a ||| ~~~ b)) ∧ (fFunc w = 0x07 → gives (~~~ (a ^^^ b))) ∧
      (fFunc w = 0x08 → gives (BitVec.ofNat 64 (a.toNat * 2 ^ sh))) ∧ (fFunc w = 0x09 → gives (BitVec.ofNat 64 (a.toNat / 2 ^ sh))) ∧
      (fFunc w = 0x0A → gives (BitVec.ofInt 64 (a.toInt / (2 ^ sh : Int)))) ∧ (fFunc w = 0x0B → gives (a.rotateRight sh)) ∧
      (fFunc w = 0x0C → gives (if a.toInt < b.toInt then 1 else 0)) ∧ (fFunc w = 0x0D → gives (if a.toNat < b.toNat then 1 else 0)) ∧
      (fFunc w = 0x0E → gives (BitVec.ofInt 64 (min a.toInt b.toInt))) ∧ (fFunc w = 0x0F → gives (BitVec.ofInt 64 (max a.toInt b.toInt))) ∧
      (fFunc w = 0x10 → gives (BitVec.ofNat 64 (min a.toNat b.toNat))) ∧ (fFunc w = 0x11 → gives (BitVec.ofNat 64 (max a.toNat b.toNat))) ∧
      (fFunc w = 0x12 → gives ((low a + low b).signExtend 64)) ∧ (fFunc w = 0x13 → gives ((low a - low b).signExtend 64)) ∧
      (fFunc w = 0x14 → gives ((low a <<< (b.toNat % 32)).signExtend 64)) ∧ (fFunc w = 0x15 → gives ((low a >>> (b.toNat % 32)).signExtend 64)) ∧
      (fFunc w = 0x16 → gives (((low a).sshiftRight (b.toNat % 32)).signExtend 64))) ∧
    (fRc w = 0 → fRb w = 0 →
      (fFunc w = 0x18 → ∃ v, gives v ∧ (if a = 0 then v = 64 else 2 ^ (63 - v.toNat) ≤ a.toNat ∧ a.toNat < 2 ^ (64 - v.toNat) ∧ v.toNat < 64)) ∧
      (fFunc w = 0x19 → ∃ v, gives v ∧ (if a = 0 then v = 64 else v.toNat < 64 ∧ a.getLsbD v.toNat = true ∧ ∀ i < v.toNat, a.getLsbD i = false)) ∧
      (fFunc w = 0x1A → gives (BitVec.ofNat 64 ((List.range 64).countP a.getLsbD))) ∧
      (fFunc w = 0x1B → gives ((a.setWidth 8).signExtend 64)) ∧ (fFunc w = 0x1C → gives ((a.setWidth 16).signExtend 64)) ∧
      (fFunc w = 0x1D → gives ((low a).signExtend 64)) ∧ (fFunc w = 0x1E → gives ((low a).setWidth 64)) ∧
      (fFunc w = 0x1F → ∃ v, gives v ∧ ∀ i < 8, v.extractLsb' (8 * i) 8 = a.extractLsb' (8 * (7 - i)) 8)) ∧
    (fRc w ≠ 0 ∨ fFunc w = 0x17 ∨ 0x20 ≤ fFunc w ∨ (0x18 ≤ fFunc w ∧ fRb w ≠ 0) →
      Raises (.alu c w) s c illReserved)

/-- For every core that may execute and every MULDIV word whose bits [10:6] are 0: the products and their high halves are
those of the exact 128-bit product; a division by zero gives all ones and leaves the dividend as remainder; the signed
overflow gives the dividend and remainder 0; every other division truncates toward zero, with remainder dividend minus
quotient times divisor; the W forms do the same on the low 32 bits and sign-extend. The divide unit's busy cycles
count in their counter; nothing else changes. A reserved function raises RESERVED. (R116) -/
def Obligations.MulDivResults : Prop :=
  ∀ (c : Nat) (w : Word) (s : State), s.executes c → major w = 0x02 →
    let a := (s.core c).gr (fRa w)
    let b := (s.core c).gr (fRb w)
    let gives := fun v : Dword => CompletesAs (.muldiv c w) s ((s.setG c (fRd w) v).bump c 0x30F (divBusy w)) c
    let low := fun v : Dword => v.setWidth 32
    let sq := if b = 0 then BitVec.allOnes 64 else if a.toInt = -2 ^ 63 ∧ b.toInt = -1 then a else BitVec.ofInt 64 (a.toInt.tdiv b.toInt)
    let uq := if b = 0 then BitVec.allOnes 64 else BitVec.ofNat 64 (a.toNat / b.toNat)
    let sqw := if low b = 0 then BitVec.allOnes 32
      else if (low a).toInt = -2 ^ 31 ∧ (low b).toInt = -1 then low a else BitVec.ofInt 32 ((low a).toInt.tdiv (low b).toInt)
    let uqw := if low b = 0 then BitVec.allOnes 32 else BitVec.ofNat 32 ((low a).toNat / (low b).toNat)
    (fRc w = 0 →
      (fFunc w = 0x00 → gives (BitVec.ofNat 64 (a.toNat * b.toNat))) ∧
      (fFunc w = 0x01 → gives (BitVec.ofInt 64 (a.toInt * b.toInt / 2 ^ 64))) ∧
      (fFunc w = 0x02 → gives (BitVec.ofNat 64 (a.toNat * b.toNat / 2 ^ 64))) ∧
      (fFunc w = 0x03 → gives (BitVec.ofInt 64 (a.toInt * b.toNat / 2 ^ 64))) ∧
      (fFunc w = 0x04 → gives ((low a * low b).signExtend 64)) ∧
      (fFunc w = 0x08 → gives sq) ∧ (fFunc w = 0x09 → gives uq) ∧
      (fFunc w = 0x0A → gives (if b = 0 then a else a - sq * b)) ∧ (fFunc w = 0x0B → gives (if b = 0 then a else a - uq * b)) ∧
      (fFunc w = 0x0C → gives (sqw.signExtend 64)) ∧ (fFunc w = 0x0D → gives (uqw.signExtend 64)) ∧
      (fFunc w = 0x0E → gives ((if low b = 0 then low a else low a - sqw * low b).signExtend 64)) ∧
      (fFunc w = 0x0F → gives ((if low b = 0 then low a else low a - uqw * low b).signExtend 64))) ∧
    (fRc w ≠ 0 ∨ (0x05 ≤ fFunc w ∧ fFunc w ≤ 0x07) ∨ 0x10 ≤ fFunc w → Raises (.muldiv c w) s c illReserved)

/-- For every core that may execute: ADDI, ANDI, ORI, XORI, SLTI, SLTIU, the four shifts of SHIFTI, LUI, ADDPC and ADDIW
complete with rd given the value of R114, sext and zext being sign and zero extension to 64 bits, and nothing else
changes. SHIFTI with IMM16[15:8] not 0, and LUI and ADDPC with ra not 0, raise RESERVED. (R114) -/
def Obligations.ImmediateResults : Prop :=
  ∀ (c : Nat) (w : Word) (s : State), s.executes c →
    let a := (s.core c).gr (fRa w)
    let pc := (s.core c).ctl.pc
    let sext : Dword := (w.setWidth 16).signExtend 64
    let zext : Dword := (w.setWidth 16).setWidth 64
    let n := w.toNat % 2 ^ 16
    let gives := fun v : Dword => CompletesAs (.immediateOp c w) s (s.setG c (fRd w) v) c
    let reserved := Raises (.immediateOp c w) s c illReserved
    (major w = 0x03 → gives (a + sext)) ∧ (major w = 0x04 → gives (a &&& zext)) ∧ (major w = 0x05 → gives (a ||| zext)) ∧
    (major w = 0x06 → gives (a ^^^ zext)) ∧
    (major w = 0x07 → gives (if a.toInt < sext.toInt then 1 else 0)) ∧
    (major w = 0x08 → gives (if a.toNat < sext.toNat then 1 else 0)) ∧
    (major w = 0x09 →
      (n < 0x40 → gives (a <<< n)) ∧ (0x40 ≤ n → n < 0x80 → gives (a >>> (n - 0x40))) ∧
      (0x80 ≤ n → n < 0xC0 → gives (BitVec.ofInt 64 (a.toInt / (2 ^ (n - 0x80) : Int)))) ∧
      (0xC0 ≤ n → n < 0x100 → gives (a.rotateRight (n - 0xC0))) ∧ (0x100 ≤ n → reserved)) ∧
    (major w = 0x0A → (fRa w = 0 → gives (sext <<< 16)) ∧ (fRa w ≠ 0 → reserved)) ∧
    (major w = 0x0B → (fRa w = 0 → gives (pc + (sext <<< 16))) ∧ (fRa w ≠ 0 → reserved)) ∧
    (major w = 0x0C → gives (((a + sext).setWidth 32).signExtend 64))

/-- For every core that may execute and every load or store word, with ea = ra + sext(IMM16): where the load of the width
at ea answers bytes, the load completes with them sign-extended, zero-extended, whole or boxed as R117 says, written
to rd (g0 discards them); where a store's ea is aligned and passes checks 2 and 3 and the store buffer has a free
entry, the store completes with one entry that holds the low bytes of its source, and neither registers nor memory
change. An ea that is no multiple of the width raises MISALIGNED with its subcode, and a check of segments or windows
that fails raises BUSERR with its subcode, at ea. (R117, R118, R119, R105, R112) -/
def Obligations.LoadsAndStores : Prop :=
  ∀ (c : Nat) (w : Word) (s : State), s.executes c →
    let m := major w
    let ea := ((s.core c).gr (fRa w) + ((w.setWidth 16).signExtend 64 : Dword)).toNat
    let lw := fun n : Nat => (n = 1 → m = 0x10 ∨ m = 0x11) ∧ (n = 2 → m = 0x12 ∨ m = 0x13) ∧
      (n = 4 → m = 0x14 ∨ m = 0x15 ∨ m = 0x1C) ∧ (n = 8 → m = 0x16 ∨ m = 0x1D) ∧ n ∈ [1, 2, 4, 8]
    let sw := fun n : Nat => (n = 1 → m = 0x18) ∧ (n = 2 → m = 0x19) ∧ (n = 4 → m = 0x1A ∨ m = 0x1E) ∧
      (n = 8 → m = 0x1B ∨ m = 0x1F) ∧ n ∈ [1, 2, 4, 8]
    (∀ n b u, lw n → s.load c ea n = .ok b u →
      let v := leNat b
      let t := if m = 0x10 then u.setG c (fRd w) ((BitVec.ofNat 8 v).signExtend 64)
        else if m = 0x12 then u.setG c (fRd w) ((BitVec.ofNat 16 v).signExtend 64)
        else if m = 0x14 then u.setG c (fRd w) ((BitVec.ofNat 32 v).signExtend 64)
        else if m = 0x1C then u.setF c (fRd w) (BitVec.ofNat 64 (v % 2 ^ 32 + 0xFFFFFFFF00000000))
        else if m = 0x1D then u.setF c (fRd w) (BitVec.ofNat 64 v)
        else u.setG c (fRd w) (BitVec.ofNat 64 v)
      exec (.load c w) s = .next (t.finish c)) ∧
    (∀ n, lw n → ea % n ≠ 0 → Raises (.load c w) s c (misaligned 1 ea)) ∧
    (∀ n e, lw n → ea % n = 0 → s.coreCheck c (s.core c).ctl.priv .read ea n = .error e → Raises (.load c w) s c (busErr e 0 ea)) ∧
    (∀ n, sw n → ea % n = 0 → s.coreCheck c (s.core c).ctl.priv .write ea n = .ok () → (s.core c).sb.length < 8 →
      let v := if m = 0x1E ∨ m = 0x1F then (s.core c).fr (fRd w) else (s.core c).gr (fRd w)
      CompletesAs (.store c w) s (s.pushSb c (s.scalarEntry c ea (natLE n v.toNat))) c) ∧
    (∀ n, sw n → ea % n ≠ 0 → Raises (.store c w) s c (misaligned 2 ea)) ∧
    (∀ n e, sw n → ea % n = 0 → s.coreCheck c (s.core c).ctl.priv .write ea n = .error e → Raises (.store c w) s c (busErr e 1 ea))

/-- After a scalar store of the core has entered its store buffer, a load of the same width at the same address, which
lies on this device, returns the bytes stored, whatever memory and L1D hold. (R117, R251,
spec/09_caches_and_memory_order.md) -/
def Obligations.LoadSeesOwnStore : Prop :=
  ∀ (s v : State) (c ea : Nat) (bs b : List Byte), (s.corePlace c .read ea).dev = none →
    s.corePlace c .write ea = s.corePlace c .read ea →
    (s.pushSb c (s.scalarEntry c ea bs)).load c ea bs.length = .ok b v → b = bs

/-- For every core that may execute a transfer at A: BEQ, BNE, BLT, BGE, BLTU and BGEU go to A + sext(DISP16) x 4 when
their comparison of ra and rb holds and to A + 8 when it does not; J and JAL go to A + sext(DISP26) x 4, JAL with g1 =
A + 8; JALR goes to ra + sext(IMM16), with rd = A + 8. The instruction at A + 4 comes first in every case. JALR with
rd equal to ra and not g0 raises RESERVED; a JALR target that is no multiple of 4 raises MISALIGNED FETCH and writes
no link. Each transfer, GATE, RETG and RETE in a delay slot raises SLOT, but a JALR with rd equal to ra and not g0,
which is no transfer, raises RESERVED there too. Resolving a transfer changes only its core's branch-target buffer and
counters. (R120, R121, R122, R124, R112) -/
def Obligations.TransfersOfControl : Prop :=
  (∀ (c : Nat) (w : Word) (s : State), s.transfers c →
    let A := (s.core c).ctl.pc
    let x := (s.core c).gr (w.extractLsb' 21 5).toNat
    let y := (s.core c).gr (w.extractLsb' 16 5).toNat
    let near := A + 4 * (w.setWidth 16).signExtend 64
    let far := A + 4 * (w.setWidth 26).signExtend 64
    let branches := fun taken : Bool =>
      let g := if taken then near else A + 8
      TransfersAs (.branch c w) s (s.btbResolve c A.toNat taken g.toNat) c
        { addr := A.toNat, target := g.toNat, guard := [fRd w, fRa w] }
    (major w = 0x20 → branches (decide (x = y))) ∧ (major w = 0x21 → branches (decide (x ≠ y))) ∧
    (major w = 0x22 → branches (decide (x.toInt < y.toInt))) ∧ (major w = 0x23 → branches (decide (y.toInt ≤ x.toInt))) ∧
    (major w = 0x24 → branches (decide (x.toNat < y.toNat))) ∧ (major w = 0x25 → branches (decide (y.toNat ≤ x.toNat))) ∧
    (major w = 0x26 → TransfersAs (.j c w) s (s.btbResolve c A.toNat true far.toNat) c { addr := A.toNat, target := far.toNat }) ∧
    (major w = 0x27 → TransfersAs (.jal c w) s ((s.btbResolve c A.toNat true far.toNat).setG c 1 (A + 8)) c
      { addr := A.toNat, target := far.toNat, guard := [1] }) ∧
    (major w = 0x28 →
      let g := y + (w.setWidth 16).signExtend 64
      (fRd w = fRa w → fRd w ≠ 0 → Raises (.jalr c w) s c illReserved) ∧
      (¬ (fRd w = fRa w ∧ fRd w ≠ 0) →
        (g.toNat % 4 ≠ 0 → Raises (.jalr c w) s c (misaligned 3 g.toNat)) ∧
        (g.toNat % 4 = 0 → TransfersAs (.jalr c w) s ((s.btbResolve c A.toNat true g.toNat).setG c (fRd w) (A + 8)) c
          { addr := A.toNat, target := g.toNat, guard := [fRa w, fRd w] })))) ∧
  (∀ (c : Nat) (w : Word) (s : State) (d : Delay), s.ready c → (s.core c).ctl.delay = some d →
    let raises := fun (i : Instr) (f : FaultInfo) => exec i s = .next (s.enterExc c f d.addr true false)
    (0x20 ≤ major w → major w ≤ 0x25 → raises (.branch c w) illSlot) ∧
    (major w = 0x26 → raises (.j c w) illSlot) ∧ (major w = 0x27 → raises (.jal c w) illSlot) ∧
    (major w = 0x28 → raises (.jalr c w) (if fRd w = fRa w ∧ fRd w ≠ 0 then illReserved else illSlot)) ∧
    (sysIs w 0 = true → raises (.gate c w) illSlot) ∧ (sysIs w 1 = true → raises (.retg c w) illSlot) ∧
    (sysIs w 2 = true → raises (.rete c w) illSlot)) ∧
  (∀ (s : State) (c a g d : Nat) (taken : Bool),
    let u := s.btbResolve c a taken g
    u = { s with cores := u.cores } ∧ (d ≠ c → u.core d = s.core d) ∧
    u.core c = { s.core c with btb := (u.core c).btb, perf := (u.core c).perf, useCount := (u.core c).useCount })

/-- For every core that may execute a transfer: a GATE whose table entry can be read, is valid and well formed, may be
called from the core's level, whose arguments pass and whose frame fits goes, after its delay slot, to HANDLER; there
the gate frame is pushed at new_sp with the return address A + 8, g2 becomes new_sp, PRIV 1 and IE 0. RETE (frame KIND
0) and RETG (KIND 1), at system level, read the frame at g2 & ~63 and go to EPC; there STATUS and g2 come from the
frame. At user level both raise PRIV; a frame of the other KIND raises FRAME. (R231, R233, R234, R236, R237, R223) -/
def Obligations.GatesAndReturns : Prop :=
  (∀ (c : Nat) (w : Word) (s u : State) (b : List Byte), s.transfers c → sysIs w 0 = true →
    s.tableRead c ((s.core c).sre.gatebase.toNat + 32 * sysN w) 32 = (.ok b, u) →
    let e := gateEntry b
    let k := u.core c
    let sp := if e.newStack ≠ 0 then e.newStack else if k.ctl.priv then (k.gr 2).toNat else k.ssp.toNat
    let nsp := sp / 64 * 64 - 64
    bitOf e.ctrl 0 = true → e.malformed = false → (k.ctl.priv = true ∨ bitOf e.ctrl 1 = true) →
    (∀ i < e.nargs, u.gateArgOk c e i = true) → 64 ≤ sp → k.sre.slimit.toNat ≤ nsp →
    u.coreCheck c true .write nsp 64 = .ok () →
    TransfersAs (.gate c w) s (u.btbResolve c (s.core c).ctl.pc.toNat true e.handler) c
      { addr := (s.core c).ctl.pc.toNat, target := e.handler,
        act := .gate nsp (sysN w) ((s.core c).ctl.pc.toNat + 8) k.ctl.status (u.now % 2 ^ 64) u.sht.frame.toNat,
        guard := [2, 10, 11, 12, 13, 14, 15], gateSlot := true }) ∧
  (∀ (c : Nat) (u : State) (d : Delay) (nsp n ret st time frame : Nat), d.act = .gate nsp n ret st time frame →
    (u.core c).ctl.delay = some d → (u.core c).sb.length < 8 →
    let t := u.moveOn c
    (t.core c).ctl = { (u.core c).ctl with priv := true, ie := false, pc := BitVec.ofNat 64 d.target, delay := none } ∧
    (t.core c).gr 2 = BitVec.ofNat 64 nsp ∧ (∀ r, r ≠ 2 → (t.core c).gr r = (u.core c).gr r) ∧
    (t.core c).sb = (u.core c).sb ++ [u.scalarEntry c nsp
      (frameBytes ret st ((u.core c).gr 2).toNat 0 (2 ^ 24) time frame n)]) ∧
  (∀ (c : Nat) (w : Word) (s u : State) (b : List Byte) (gate : Bool), s.transfers c → (s.core c).ctl.priv = true →
    sysIs w (if gate then 1 else 2) = true → s.load c (((s.core c).gr 2).toNat / 64 * 64) 64 = .ok b u →
    let i : Instr := if gate then .retg c w else .rete c w
    (bitOf (fieldLE b 32 8) 24 ≠ gate → exec i s = .next ((u.endRemote c).faultAt c illFrame)) ∧
    (bitOf (fieldLE b 32 8) 24 = gate → ∃ uop,
      TransfersAs i s (u.btbResolve c (s.core c).ctl.pc.toNat true (fieldLE b 0 8)) c
        { addr := (s.core c).ctl.pc.toNat, target := fieldLE b 0 8, guard := [2],
          act := .ret (BitVec.ofNat 64 (fieldLE b 8 8)) (BitVec.ofNat 64 (fieldLE b 16 8)) uop })) ∧
  (∀ (c : Nat) (u : State) (d : Delay) (st g2 : Dword) (uop : Option (Nat × Nat)), d.act = .ret st g2 uop →
    (u.core c).ctl.delay = some d →
    let t := u.moveOn c
    (t.core c).ctl = { (u.core c).ctl with priv := st.getLsbD 0, ie := st.getLsbD 1, pc := BitVec.ofNat 64 d.target,
                                           delay := none, resumeUop := uop } ∧
    (t.core c).gr 2 = g2 ∧ (∀ r, r ≠ 2 → (t.core c).gr r = (u.core c).gr r) ∧ (t.core c).sb = (u.core c).sb) ∧
  (∀ (c : Nat) (w : Word) (s : State), s.transfers c → (s.core c).ctl.priv = false →
    (sysIs w 1 = true → Raises (.retg c w) s c illPriv) ∧ (sysIs w 2 = true → Raises (.rete c w) s c illPriv))

/-- For every state, core and fault: the frame goes to new_sp = (sp // 64) x 64 - 64, sp being SSP at user level and g2 at
system level. Where new_sp lies below SLIMIT the core stops with reason STACK (1), where a 64-byte store there fails a
check with PUSH (2), where the vector cannot be read with VECTOR (3). Otherwise, with a free store-buffer entry, one
whole frame of R223 is appended to the store buffer, g2 is new_sp, PRIV 1, IE 0, the PC is the vector, every shadow is
completed and every other g register is as before. A fault outside a delay slot is entered with EPC the instruction,
one inside with EPC the transfer and DS set. (R223, R224, R225, R227) -/
def Obligations.ExceptionEntry : Prop :=
  (∀ (s : State) (c epc : Nat) (f : FaultInfo) (ds async : Bool),
    let k := s.core c
    let sp := if k.ctl.priv then (k.gr 2).toNat else k.ssp.toNat
    let nsp := sp / 64 * 64 - 64
    (sp < 64 ∨ nsp < k.sre.slimit.toNat → s.enterExc c f epc ds async = s.stopCore c 1) ∧
    (64 ≤ sp → k.sre.slimit.toNat ≤ nsp →
      (∀ e, s.coreCheck c true .write nsp 64 = .error e → s.enterExc c f epc ds async = s.stopCore c 2) ∧
      (s.coreCheck c true .write nsp 64 = .ok () →
        (∀ e u, s.tableRead c (k.sre.evbase.toNat + 8 * f.cause) 8 = (.error e, u) → s.enterExc c f epc ds async = u.stopCore c 3) ∧
        (∀ v u, s.tableRead c (k.sre.evbase.toNat + 8 * f.cause) 8 = (.ok v, u) → (u.core c).sb.length < 8 →
          let t := s.enterExc c f epc ds async
          (t.core c).ctl.pc = BitVec.ofNat 64 (leNat v) ∧ (t.core c).ctl.priv = true ∧ (t.core c).ctl.ie = false ∧
          (t.core c).ctl.delay = none ∧ (t.core c).ctl.modePend = [] ∧ (t.core c).ctl.vshapePend = [] ∧
          (t.core c).gr 2 = BitVec.ofNat 64 nsp ∧ (∀ r, r ≠ 2 → (t.core c).gr r = (u.core c).gr r) ∧
          (t.core c).sb = (u.core c).sb ++ [u.scalarEntry c nsp (frameBytes epc k.ctl.status (k.gr 2).toNat f.eaddr
            (infoWord f.cause f.sub f.access ds async f.uidx 0) (u.now % 2 ^ 64) u.sht.frame.toNat f.aux)] ∧
          t = { u with cores := t.cores })))) ∧
  (∀ (s : State) (c : Nat) (f : FaultInfo),
    ((s.core c).ctl.delay = none → s.faultAt c f = s.enterExc c f (s.core c).ctl.pc.toNat false false) ∧
    (∀ d, (s.core c).ctl.delay = some d → s.faultAt c f = s.enterExc c f d.addr true false))

/-- YIELD and ENDK, outside a delay slot and with nothing dirty in L1D and nothing in the store buffer, invalidate L1D,
end the kernel as yielded or as ended, and retire. BREAK N raises BREAK with subcode N. WAITEV completes when an
enabled event, FRAME or LATEBUS is pending and otherwise leaves the core waiting in it. ASYNC_EXCEPTION at a boundary
of a core that does not wait: a late store error is taken first, then FRAME HELD, then FRAME OVERRUN, whatever IE is;
with none of them and IE 1 the lowest enabled pending event, whose EVPEND bit is cleared; else nothing happens. (R125,
R222, R228, R230, R253) -/
def Obligations.KernelEndsBreaksAndWaits : Prop :=
  ∀ (c : Nat) (w : Word) (s : State),
    (s.executes c →
      ((s.core c).ctl.delay = none → (s.core c).dirtyLines = [] → (s.core c).sb = [] →
        let u := s.modCore c (fun x => { x with l1d := [] })
        (sysIs w 3 = true → exec (.yield c w) s = .next ((u.endKernel c .yielded).finish c)) ∧
        (sysIs w 4 = true → exec (.endk c w) s = .next ((u.endKernel c .ended).finish c))) ∧
      (sysIs w 5 = true → Raises (.breakpoint c w) s c { cause := 7, sub := sysN w })) ∧
    ((s.core c).run = .running → (s.core c).ctl.pc.toNat % 4 = 0 → (s.core c).ctl.pc.toNat < 2 ^ 18 → (s.core c).ctl.plain →
      sysIs w 6 = true →
      (s.evReady c = true → CompletesAs (.waitev c w) s (s.setWaiting c false) c) ∧
      (s.evReady c = false → exec (.waitev c w) s = .next (s.setWaiting c true) ∧ ((s.setWaiting c true).core c).kernel.waitEv = true)) ∧
    ((s.core c).atBoundary = true → (s.core c).kernel.waitEv = false →
      let k := s.core c
      let takes := fun (u : State) (f : FaultInfo) => exec (.asyncException c) s = .next (u.enterExc c f k.ctl.pc.toNat false true)
      (∀ x, s.oldestLate c = some x → takes (s.takeLate c) { cause := 4, sub := x.1, eaddr := x.2 }) ∧
      (s.oldestLate c = none →
        (k.kernel.heldPending = true → takes (s.modCore c (fun k => { k with kernel := { k.kernel with heldTaken := true } })) { cause := 8, sub := 2 }) ∧
        (k.kernel.heldPending = false → k.kernel.overrunPending = true →
          takes (s.modCore c (fun k => { k with kernel := { k.kernel with overrunTaken := true } })) { cause := 8, sub := 1 }) ∧
        (k.kernel.heldPending = false → k.kernel.overrunPending = false →
          (k.ctl.ie = false → exec (.asyncException c) s = .next s) ∧
          (k.ctl.ie = true →
            (∀ i < 9, bitOf k.even i = true → bitOf k.ctl.evpend i = true → (∀ j < i, ¬ (bitOf k.even j = true ∧ bitOf k.ctl.evpend j = true)) →
              takes (s.modCtl c (fun x => { x with evpend := x.evpend - 2 ^ i })) { cause := 9 + i }) ∧
            ((∀ i < 9, ¬ (bitOf k.even i = true ∧ bitOf k.ctl.evpend i = true)) → exec (.asyncException c) s = .next s)))))

/-- For every core that may execute and every CREG word naming register n: MFC writes rd with what n reads as; MTC writes
ra to n; SWC writes ra, SETC old | ra, CLRC old & ~ra, each with rd given the value before; nothing else changes. A
reserved number raises CREG; else a register denied to user level raises PRIV there; else a write to a register
read-only at the level raises CREG. (R106, R126, R216, R360) -/
def Obligations.ControlRegisterInstructions : Prop :=
  ∀ (c : Nat) (w : Word) (s : State), s.executes c → major w = 0x2A → (cregOp w = 1 → fRd w = 0) →
    let n := cregNum w
    let k := s.core c
    let a := k.gr (fRa w)
    let rows : List (Nat × Instr) := [(0, .mfc c w), (1, .mtc c w), (2, .swc c w), (3, .setc c w), (4, .clrc c w)]
    (s.creg c n = none → ∀ x ∈ rows, cregOp w = x.1 → Raises x.2 s c illCreg) ∧
    (∀ old, s.creg c n = some old →
      (k.ctl.priv = false → cregSystemOnly n = true → ∀ x ∈ rows, cregOp w = x.1 → Raises x.2 s c illPriv) ∧
      ((k.ctl.priv = true ∨ cregSystemOnly n = false) →
        (cregOp w = 0 → CompletesAs (.mfc c w) s (s.setG c (fRd w) old) c) ∧
        (cregReadOnly k.ctl.priv n = true → ∀ x ∈ rows.drop 1, cregOp w = x.1 → Raises x.2 s c illCreg) ∧
        (cregReadOnly k.ctl.priv n = false →
          (cregOp w = 1 → CompletesAs (.mtc c w) s (s.setCreg c n a) c) ∧
          (cregOp w = 2 → CompletesAs (.swc c w) s ((s.setCreg c n a).setG c (fRd w) old) c) ∧
          (cregOp w = 3 → CompletesAs (.setc c w) s ((s.setCreg c n (old ||| a)).setG c (fRd w) old) c) ∧
          (cregOp w = 4 → CompletesAs (.clrc c w) s ((s.setCreg c n (old &&& ~~~ a)).setG c (fRd w) old) c))))

/-- After a write of v a control register reads v with its reserved bits cleared: MODE [8:0], FFLAGS [4:0], VLN min(v,
VLMAX), EVBASE [63:9], GATEBASE [63:13], SLIMIT and SSP [63:6], EVEN and EVPEND [8:0], SEGEN [15:0], WINCTL [1:0],
KS_WAIT's WAIT [5:0], L1D_CFG [2:0], IC_CFG [0], VRESUME [13:0], VSTAT [1:0], a performance counter whole; STATUS
takes IE alone. No write changes PRIV, the registers, another core or, but for the core, anything else; a SYNC-class
register keeps its value in effect, and MODE and VSHAPE keep theirs, the new one pending for the fourth instruction.
(R106, R109, R148, R150, R151, R205, R216, R217, R218, R219, R242, R360) -/
def Obligations.ControlRegisterWrites : Prop :=
  ∀ (s : State) (c n : Nat) (v : Dword),
    let t := s.setCreg c n v
    let k := s.core c
    t = { s with cores := t.cores } ∧ (∀ d, d ≠ c → t.core d = s.core d) ∧
    (t.core c).ctl.priv = k.ctl.priv ∧ (t.core c).ctl.pc = k.ctl.pc ∧ (t.core c).regs = k.regs ∧ (t.core c).sre = k.sre ∧
    (t.core c).ctl.modeEff = k.ctl.modeEff ∧ (t.core c).ctl.vshapeEff = k.ctl.vshapeEff ∧ (t.core c).sb = k.sb ∧
    (∀ x ∈ [(0x000, 0x1FF#64), (0x001, 0x1F#64), (0x101, 0xFFFFFFFFFFFFFE00#64), (0x102, 0xFFFFFFFFFFFFE000#64),
        (0x103, 0xFFFFFFFFFFFFFFC0#64), (0x104, 0xFFFFFFFFFFFFFFC0#64), (0x105, 0x1FF#64), (0x106, 0x1FF#64), (0x170, 0xFFFF#64),
        (0x171, 0x3#64), (0x190, 0x7#64), (0x191, 0x1#64), (0x200, 0x3FFF#64), (0x201, 0x3#64)],
      n = x.1 → t.creg c n = some (v &&& x.2)) ∧
    (0x300 ≤ n → n ≤ 0x30F → t.creg c n = some v) ∧
    (n = 0x003 → t.creg c n = some (BitVec.ofNat 64 (min v.toNat (vlmaxOf k.ctl.vshapeEff)))) ∧
    (n = 0x100 → (t.core c).ctl.ie = v.getLsbD 1) ∧
    (n = 0x000 → (t.core c).ctl.modePend = k.ctl.modePend ++ [(v.toNat % 512, 4)]) ∧
    (n = 0x002 → (t.core c).ctl.vshape = v.toNat % 256 ∧ (t.core c).ctl.vshapePend = k.ctl.vshapePend ++ [(v.toNat % 256, 4)]) ∧
    (n = 0x181 → (t.core c).sr.ksWait = v.toNat % 64 ∧ (t.core c).ksEff = k.ksEff)

/-- With one change of MODE or VSHAPE pending, written by an instruction that is about to retire: after that instruction
and after each of the next two the old value is in force, and after the third that follows it, so for the fourth, the
new one is; a SYNC in between completes the change at once, with VLN clamped to the new VLMAX. (R205, R106) -/
def Obligations.ModeShadow : Prop :=
  ∀ (k : CoreCtl) (v : Nat), k.modePend = [(v, 4)] → k.vshapePend = [] →
    k.pass.modeEff = k.modeEff ∧ k.pass.pass.modeEff = k.modeEff ∧ k.pass.pass.pass.modeEff = k.modeEff ∧
    k.pass.pass.pass.pass.modeEff = v ∧ k.pass.pass.pass.pass.modePend = [] ∧
    k.settle.modeEff = k.mode ∧ k.settle.modePend = [] ∧ k.settle.vshapeEff = k.vshape ∧
    k.settle.vln = min k.vln (vlmaxOf k.vshape)

/-- For every core that may execute: FENCE.S completes once accepting the store buffer's entries, oldest first, has
emptied it; FENCE.L completes; FENCE.A completes once every entry has been accepted or holds an error; FENCE.E
completes once the buffer is empty and the write-combining entries of the core's channels are flushed. SYNC, where
DRAM_EN and TRAY_EN do not change, completes with the SYNC-class registers in effect as written, MODE and VSHAPE
changes completed, KS_WAIT's EFF clamped to 2 to 7 and the installed decode bank current; it leaves the store buffer
and L1D alone. (R127, R128, R206, R242, R252) -/
def Obligations.FencesAndSync : Prop :=
  ∀ (c : Nat) (w : Word) (s : State), s.executes c →
    (fenceIs w 0 = true → ∀ u, s.drainFrom c ((s.core c).sb.length + 1) = u → (u.core c).sb = [] →
      exec (.fenceS c w) s = .next (u.finish c)) ∧
    (fenceIs w 1 = true → CompletesAs (.fenceL c w) s s c) ∧
    (fenceIs w 2 = true → ∀ u, s.acceptAll c = u → (∀ e ∈ (u.core c).sb, e.late.isSome = true) →
      exec (.fenceA c w) s = .next (u.finish c)) ∧
    (fenceIs w 3 = true → ∀ u v, s.drainFrom c ((s.core c).sb.length + 1) = u → (u.core c).sb = [] →
      flushForFence c (u.fenceEntries c) u = .ok v → exec (.fenceE c w) s = .next (v.finish c)) ∧
    (fenceIs w 0x10 = true → (s.core c).sr.l1dCfg % 4 = (s.core c).sre.l1dCfg % 4 →
      exec (.sync c w) s = .next ((s.syncEffect c).finish c) ∧
      ((s.core c).sr.dtabCmd = 0 →
        let t := s.syncEffect c
        t = { s with cores := t.cores } ∧ (t.core c).sre = (s.core c).sr ∧ (t.core c).ctl = (s.core c).ctl.settle ∧
        (t.core c).bank = (s.cluster (c / 16)).installed ∧ (t.core c).ksEff = max 2 (min 7 (s.core c).sr.ksWait) ∧
        (t.core c).sb = (s.core c).sb ∧ (t.core c).l1d = (s.core c).l1d ∧ (t.core c).regs = (s.core c).regs))

/-- For every core that may execute: a by-address operation whose address passes its checks does nothing where the target
is not cacheable or no line holds it, and otherwise cleans the line (CLEAN.A), discards it (INV.A) or does both
(CLINV.A); a set-and-way operation at system level does the same to the named way, and at user level raises PRIV. With
a free store-buffer entry a clean of a dirty line appends one write-back and leaves the line clean. IINV.ALL
invalidates the instruction cache and the branch-target buffer. A by-address operation whose address fails a check
raises BUSERR with ACCESS CACHE. (R129, R243, R244, R245, R247) -/
def Obligations.CacheMaintenance : Prop :=
  ∀ (c : Nat) (w : Word) (s : State), s.executes c →
    let k := s.core c
    let pa := effAddr k w
    let byAddr : List (Instr × Nat × Bool × Bool) := [(.cleanA c w, 0, true, false), (.invA c w, 1, false, true), (.clinvA c w, 2, true, true)]
    let bySet : List (Instr × Nat × Bool × Bool) := [(.cleanSw c w, 4, true, false), (.invSw c w, 5, false, true), (.clinvSw c w, 6, true, true)]
    let done := fun (clean inv : Bool) (set way : Nat) =>
      let x := k.l1At set way
      let u := if clean && x.valid && x.dirty then s.l1Clean c set way else s
      if inv then u.l1Drop c set way else u
    (∀ x ∈ byAddr, cacheIs w x.2.1 = true →
      let acc : Access := if x.2.2.2 then .write else .read
      let pl := s.corePlace c acc pa
      (∀ e, s.coreCheck c k.ctl.priv acc pa 1 = .error e → Raises x.1 s c (busErr e 3 pa)) ∧
      (s.coreCheck c k.ctl.priv acc pa 1 = .ok () →
        (k.cacheable pl = false ∨ k.l1Way pl.addr = none → CompletesAs x.1 s s c) ∧
        (∀ way, k.cacheable pl = true → k.l1Way pl.addr = some way → k.sb.length < 8 →
          exec x.1 s = .next ((done x.2.2.1 x.2.2.2 (l1Set pl.addr) way).finish c)))) ∧
    (∀ x ∈ bySet, cacheIs w x.2.1 = true →
      (k.ctl.priv = false → Raises x.1 s c illPriv) ∧
      (k.ctl.priv = true → k.sb.length < 8 →
        exec x.1 s = .next ((done x.2.2.1 x.2.2.2 (bitsOf pa 6 6) (bitsOf pa 12 3)).finish c))) ∧
    (cacheIs w 8 = true → w.extractLsb' 0 21 = 0#21 →
      CompletesAs (.iinvAll c w) s (s.modCore c (fun k => { k with ic := [], btb := [] })) c) ∧
    (∀ set way, (k.l1At set way).valid = true → (k.l1At set way).dirty = true → (k.l1At set way).ue = 0 →
      let u := s.l1Clean c set way
      (u.core c).sb = k.sb ++ [writeBackEntry (k.l1At set way)] ∧ (u.core c).l1At set way = { k.l1At set way with dirty := false } ∧
      u = { s with cores := u.cores })

/-- For every core that may execute and every scalar floating-point word that is not reserved: the arithmetic, fused,
comparison and conversion forms write the result of the operation on their operands as read under FTZ, rounded under
RM, and OR their flags into FFLAGS; where a raised flag's trap is enabled the instruction raises FPTRAP with its flags
and writes nothing. The sign operations, FKIND and the moves raise no flag and change nothing but their destination.
The T forms of FTOI truncate whatever RM holds. (R105, R107, R108, R132, R134, R135, R136, R137, R138) -/
def Obligations.ScalarFloatInstructions : Prop :=
  ∀ (c : Nat) (w : Word) (s : State), s.executes c → encOk {} w = true →
    let k := s.core c
    let z := k.ctl.ftz
    let r := k.ctl.rm
    let rd := fun (single : Bool) (n : Nat) => (fpFmt single).read z (fpBits single (k.fr n))
    let ends := fun (i : Instr) (fl : Nat) (u : State) =>
      (fl % 32 &&& k.ctl.traps = 0 → CompletesAs i s u c) ∧ (fl % 32 &&& k.ctl.traps ≠ 0 → Raises i s c { cause := 5, sub := fl % 32 })
    (major w = 0x2D →
      let single := bitOf (fFunc w) 5
      let op := fFunc w % 32
      (9 ≤ op → CompletesAs (.fpOp c w) s
        (s.setF c (fRd w) (fpWord single (signOp (fpFmt single) op (fpBits single (k.fr (fRa w))) (fpBits single (k.fr (fRb w)))))) c) ∧
      (op < 9 →
        let x := fpArith (fpFmt single) r z op (rd single (fRa w)) (rd single (fRb w))
        ends (.fpOp c w) x.flags (((s.fpEnd c x.flags).setF c (fRd w) (fpWord single x.bits)).bump c 0x30F (fpDivBusy single op)))) ∧
    (major w = 0x2E →
      let single := bitOf (fFunc w) 5
      let v := fmaValue r (fFunc w % 4) (rd single (fRa w)) (rd single (fRb w)) (rd single (fRc w))
      let x := (fpFmt single).put r z v.1 v.2
      ends (.fmaOp c w) x.flags ((s.fpEnd c x.flags).setF c (fRd w) (fpWord single x.bits))) ∧
    (major w = 0x2F →
      let f := fFunc w
      (f ≤ 6 → f ≠ 3 →
        let x := Val.compare (f % 4) (rd (bitOf f 2) (fRa w)) (rd (bitOf f 2) (fRb w))
        ends (.fpCompare c w) x.2 ((s.fpEnd c x.2).setG c (fRd w) (if x.1 then 1 else 0))) ∧
      (f = 3 ∨ f = 7 → CompletesAs (.fkind c w) s
        (s.setG c (fRd w) (BitVec.ofNat 64 (kindWord (fpFmt (bitOf f 2)) (fpBits (bitOf f 2) (k.fr (fRa w)))))) c) ∧
      (f = 8 →
        let v := fp64.read z (k.fr (fRa w)).toNat
        let x := fp32.put r z v (signalFlag [v])
        ends (.fnarrow c w) x.flags ((s.fpEnd c x.flags).setF c (fRd w) (fpWord true x.bits))) ∧
      (f = 9 →
        let v := rd true (fRa w)
        let x := fp64.put r z v (signalFlag [v])
        ends (.fwiden c w) x.flags ((s.fpEnd c x.flags).setF c (fRd w) (BitVec.ofNat 64 x.bits))) ∧
      (0x10 ≤ f → f ≤ 0x1F →
        let x := toInteger (intWidth f) (intSigned f) (if bitOf f 2 then .zero else r) (rd (bitOf f 3) (fRa w))
        ends (.ftoi c w) x.2 ((s.fpEnd c x.2).setG c (fRd w)
          (if f % 4 < 2 then ((BitVec.ofInt 32 x.1).signExtend 64) else BitVec.ofInt 64 x.1))) ∧
      (0x20 ≤ f → f ≤ 0x27 →
        let a := k.gr (fRa w)
        let i : Int := if f % 4 = 0 then (a.setWidth 32).toInt else if f % 4 = 1 then (a.setWidth 32).toNat
          else if f % 4 = 2 then a.toInt else a.toNat
        let x := (fpFmt (bitOf f 2)).put r z (Val.ofInt i) 0
        ends (.itof c w) x.flags ((s.fpEnd c x.flags).setF c (fRd w) (fpWord (bitOf f 2) x.bits))) ∧
      (f = 0x30 → CompletesAs (.fmovg c w) s (s.setG c (fRd w) (k.fr (fRa w))) c) ∧
      (f = 0x31 → CompletesAs (.fmovf c w) s (s.setF c (fRd w) (k.gr (fRa w))) c))

/-- Rounding an exact magnitude m x 2^e to a multiple of 2^q leaves a multiple that differs from it by less than one unit:
toward zero never above it, to nearest by at most half a unit and to an even multiple on a tie, toward minus infinity
above it only for a negative value and toward plus infinity above it only for a positive one; the inexact mark is set
exactly where the result differs from the value. (R107, R132, R133, spec/04_scalar_instruction_set.md) -/
def Obligations.RoundingIsCorrect : Prop :=
  ∀ (r : Rounding) (neg : Bool) (m : Nat) (d : Nat),
    let y := roundTo r neg m (-(d : Int)) 0 false
    (y.2 = true ↔ y.1 * 2 ^ d ≠ m) ∧
    (y.1 * 2 ^ d < m + 2 ^ d ∧ m < y.1 * 2 ^ d + 2 ^ d) ∧
    (r = .zero → y.1 * 2 ^ d ≤ m) ∧
    (r = .near → 2 * (y.1 * 2 ^ d) ≤ 2 * m + 2 ^ d ∧ 2 * m ≤ 2 * (y.1 * 2 ^ d) + 2 ^ d ∧
      (2 * (y.1 * 2 ^ d) = 2 * m + 2 ^ d ∨ 2 * m = 2 * (y.1 * 2 ^ d) + 2 ^ d → y.1 % 2 = 0)) ∧
    (r = .down → if neg then m ≤ y.1 * 2 ^ d else y.1 * 2 ^ d ≤ m) ∧
    (r = .up → if neg then y.1 * 2 ^ d ≤ m else m ≤ y.1 * 2 ^ d)

/-- For every core that may execute and every short-vector word that is not reserved: the arithmetic forms write to q[d],
element by element in ascending order, the result of their operation on the elements of their sources, OR the flags of
all elements into FFLAGS, and trap as scalar instructions do; SVCVT writes the elements converted to the destination
format, zeros above them; SVSHUF writes the elements that the nibbles of q[b] choose. A q register is read and written
as its two f registers. (R142, R143, R144, R145, R138) -/
def Obligations.ShortVectorInstructions : Prop :=
  (∀ (c : Nat) (w : Word) (s : State), s.executes c → major w = 0x37 → encOk {} w = true →
    let k := s.core c
    let f := svFmt (fFunc w / 8)
    let op := fFunc w % 8
    let n := 128 / f.width
    let el := fun q i : Nat => bitsOf (k.qr q) (f.width * i) f.width
    let val := fun q i : Nat => f.read k.ctl.ftz (el q i)
    let ends := fun (i : Instr) (l : List FRes) (t u : State) =>
      (FRes.or l % 32 &&& k.ctl.traps = 0 → CompletesAs i s u c) ∧
      (FRes.or l % 32 &&& k.ctl.traps ≠ 0 → exec i s = .next ((t.endRemote c).faultAt c { cause := 5, sub := FRes.or l % 32 }))
    (op ≤ 5 →
      let l := (List.range n).map (fun i =>
        if op ≤ 2 then fpArith f k.ctl.rm k.ctl.ftz op (val (fRa w) i) (val (fRb w) i)
        else if op = 3 then
          f.put k.ctl.rm k.ctl.ftz (Val.fma k.ctl.rm (val (fRa w) i) (val (fRb w) i) (val (fRc w) i)).1
            (Val.fma k.ctl.rm (val (fRa w) i) (val (fRb w) i) (val (fRc w) i)).2
        else fpArith f k.ctl.rm k.ctl.ftz (op + 3) (val (fRa w) i) (val (fRb w) i))
      ends (.svArith c w) l s ((s.fpEnd c (FRes.or l)).setQ c (fRd w) (packElems f.width (l.map FRes.bits) 0))) ∧
    (op = 6 → k.ctl.sr = false →
      let d := svFmt (fRc w)
      let l := (List.range (min n (128 / d.width))).map (fun i =>
        d.put k.ctl.rm k.ctl.ftz (val (fRa w) i) (signalFlag [val (fRa w) i]))
      ends (.svcvt c w) l s ((s.fpEnd c (FRes.or l)).setQ c (fRd w) (packElems d.width (l.map FRes.bits) 0))) ∧
    (op = 7 → CompletesAs (.svshuf c w) s
      (s.setQ c (fRd w) (packElems f.width ((List.range n).map (fun i => el (fRa w) (bitsOf (k.qr (fRb w)) (4 * i) 4 % n))) 0)) c)) ∧
  (∀ (s : State) (c n x : Nat), ((s.setQ c n x).core c).qr n = x % 2 ^ 128 ∧
    ∀ r, r ≠ 2 * n → r ≠ 2 * n + 1 → ((s.setQ c n x).core c).fr r = (s.core c).fr r)

/-- For every core that may execute, with a legal shape in force and VRESUME not armed, a VINT word that is not reserved,
on groups that start at a multiple of their length, completes with every element of the destination group below VLN
and active given its integer result (wrapping, saturating or shifting as R157 says), inactive ones kept or zeroed as
MZ says, elements from VLN up kept, VRESUME 0, and every other vector register kept. (R149, R152, R154, R157) -/
def Obligations.VectorIntegerElements : Prop :=
  ∀ (c : Nat) (w : Word) (s : State), s.executes c → major w = 0x30 → encOk {} w = true →
    let k := s.core c
    let x := k.vctx
    let scalar := bitOf (fFunc w) 5
    shapeIll k.ctl.vshapeEff = false → k.ctl.vresArmed = false → gangOk (fRd w) x.gang = true → gangOk (fRa w) x.gang = true →
    (scalar = false → gangOk (fRb w) x.gang = true) →
    ∃ t, exec (.vint c w) s = .next t ∧
      (∀ i < x.vlmax,
        elem ((t.core c).group (fRd w) x.gang) x.sew i =
          if i < x.vln ∧ k.active w i = true then
            (vintElem x.sew (fFunc w % 32) (elem (k.group (fRa w) x.gang) x.sew i)
              (if scalar then (k.gr (fRb w)).toNat % 2 ^ x.sew else elem (k.group (fRb w) x.gang) x.sew i)).bits
          else if i < x.vln ∧ fMz w = true then 0
          else elem (k.group (fRd w) x.gang) x.sew i) ∧
      (∀ v, v < fRd w ∨ fRd w + x.gang ≤ v → NatMap.get 0 (t.core c).regs.v v = NatMap.get 0 k.regs.v v) ∧
      (t.core c).regs.g = k.regs.g ∧ (t.core c).regs.f = k.regs.f ∧ (t.core c).regs.m = k.regs.m ∧
      (t.core c).ctl.fflags = k.ctl.fflags ∧ (t.core c).ctl.pc = k.ctl.nextPc ∧ t = { s with cores := t.cores }

/-- For every core that may execute, with a legal shape in force and VRESUME not armed, a VINT, VFP or mask word that is
not reserved completes, where its groups start at multiples of their length and, for a floating-point operation, the
format is FP64, FP32, FP16 or BF16, with the element results of R157 to R159 over the old destination, the flags of
all active elements in FFLAGS or VSTAT, and VRESUME 0. An illegal shape raises VSHAPE, an armed VRESUME raises
VRESUME, another format VFORMAT, a misplaced group GANG. (R147, R150, R152, R154, R157, R158, R159) -/
def Obligations.VectorArithmeticAndMasks : Prop :=
  ∀ (c : Nat) (w : Word) (s : State), s.executes c → encOk {} w = true →
    let k := s.core c
    let x := k.vctx
    let f := fmtOf x.fmt
    let op := fFunc w % 32
    let scalar := bitOf (fFunc w) 5
    let a := k.group (fRa w) x.gang
    let b := k.group (fRb w) x.gang
    let d := k.group (fRd w) x.gang
    let rd := fun n => f.read k.ctl.ftz n
    let mask := fun (i : Instr) (n : Nat) (g : Nat → FRes) =>
      let r := vecResult k w x.vln 1 (k.mr (fRd w)) g
      CompletesAs i s ((s.setM c (fRd w) r.bits).vecEnd c r.flags n) c
    let regOk := gangOk (fRa w) x.gang = true ∧ (scalar = false → gangOk (fRb w) x.gang = true)
    (∀ y ∈ [(0x30, Instr.vint c w), (0x31, .vfp c w)], major w = y.1 →
      (shapeIll k.ctl.vshapeEff = true → Raises y.2 s c illVshape) ∧
      (shapeIll k.ctl.vshapeEff = false → k.ctl.vresArmed = true → Raises y.2 s c illVresume)) ∧
    (shapeIll k.ctl.vshapeEff = false → k.ctl.vresArmed = false →
      (major w = 0x30 →
        (gangOk (fRd w) x.gang = false → Raises (.vint c w) s c illGang) ∧
        (gangOk (fRd w) x.gang = true → regOk →
          let r := vecResult k w x.vln x.sew d (fun i =>
            vintElem x.sew op (elem a x.sew i) (if scalar then (k.gr (fRb w)).toNat % 2 ^ x.sew else elem b x.sew i))
          CompletesAs (.vint c w) s ((s.setGroup c (fRd w) x.gang r.bits).vecEnd c r.flags (beats x.vln x.sew)) c)) ∧
      (major w = 0x31 →
        (x.float = false → Raises (.vfp c w) s c illVformat) ∧
        (x.float = true → gangOk (fRd w) x.gang = true → gangOk (fRa w) x.gang = true → (op ≠ 4 → scalar = false → gangOk (fRb w) x.gang = true) →
          let r := vecResult k w x.vln x.sew d (fun i =>
            let va := rd (elem a x.sew i)
            let vb := rd (if scalar then (k.fr (fRb w)).toNat % 2 ^ x.sew else elem b x.sew i)
            if op ≤ 8 then fpArith f k.ctl.rm k.ctl.ftz op va vb
            else f.put k.ctl.rm k.ctl.ftz (fmaValue k.ctl.rm (op - 9) va vb (rd (elem d x.sew i))).1
              (fmaValue k.ctl.rm (op - 9) va vb (rd (elem d x.sew i))).2)
          CompletesAs (.vfp c w) s ((s.setGroup c (fRd w) x.gang r.bits).vecEnd c r.flags (beats x.vln x.sew)) c)) ∧
      (major w = 0x35 → op ≤ 5 → regOk → mask (.vmaskCompare c w) (beats x.vln x.sew) (fun i =>
        { bits := if intCompare x.sew op (elem a x.sew i) (if scalar then (k.gr (fRb w)).toNat % 2 ^ x.sew else elem b x.sew i) then 1 else 0 })) ∧
      (major w = 0x35 → 6 ≤ op → op ≤ 9 → x.float = true → regOk → mask (.vmaskCompare c w) (beats x.vln x.sew) (fun i =>
        floatCompare op (rd (elem a x.sew i)) (rd (if scalar then (k.fr (fRb w)).toNat % 2 ^ x.sew else elem b x.sew i)))) ∧
      (major w = 0x35 → 16 ≤ fFunc w → fFunc w ≤ 20 → mask (.maskLogic c w) (ceilDiv x.vln 512) (fun i =>
        let p := bitOf (k.mr (fRa w)) i
        let q := bitOf (k.mr (fRb w)) i
        { bits := if (if fFunc w = 16 then p && q else if fFunc w = 17 then p || q else if fFunc w = 18 then p != q
                     else if fFunc w = 19 then p && !q else !p) then 1 else 0 })) ∧
      (major w = 0x35 → fFunc w = 23 → mask (.vmset c w) (ceilDiv x.vln 512) (fun _ => { bits := 1 })) ∧
      (major w = 0x35 → fFunc w = 21 → CompletesAs (.vmpopc c w) s
        ((s.setG c (fRd w) (BitVec.ofNat 64 ((List.range x.vln).countP (fun i => k.active w i && bitOf (k.mr (fRa w)) i)))).vecEnd c 0 (ceilDiv x.vln 512)) c) ∧
      (major w = 0x35 → fFunc w = 22 →
        let hit := fun i => k.active w i = true ∧ bitOf (k.mr (fRa w)) i = true
        (∀ i < x.vln, hit i → (∀ j < i, ¬ hit j) → CompletesAs (.vmfirst c w) s
          ((s.setG c (fRd w) (BitVec.ofNat 64 i)).vecEnd c 0 (ceilDiv x.vln 512)) c) ∧
        ((∀ i < x.vln, ¬ hit i) → CompletesAs (.vmfirst c w) s
          ((s.setG c (fRd w) (BitVec.allOnes 64)).vecEnd c 0 (ceilDiv x.vln 512)) c)))

/-- For every core that may execute, with VRESUME not armed: VSETL sets VLN and rd to min(ra, VLMAX), even under an
illegal shape. With a legal shape and well-placed groups, VMV, VMV.X, VMV.F, VSLIDEUP, VSLIDEDN, VGATHER, VMERGE and
VID write their groups from the elements, registers and indexes of R160, sources and destination kept apart where R155
asks; VEXT writes one element to a g or f register; VREDSUM writes the sum of the active elements modulo 2^64,
VFREDSUM their exact sum rounded once, VFREDMAX and VFREDMIN their extremum (with no element active the value is a
free one). (R148, R152, R155, R160, R161) -/
def Obligations.VectorMovesAndReductions : Prop :=
  ∀ (c : Nat) (w : Word) (s : State), s.executes c → major w = 0x36 → encOk {} w = true → (s.core c).ctl.vresArmed = false →
    let k := s.core c
    let x := k.vctx
    let f := fmtOf x.fmt
    let fn := fFunc w
    let a := k.group (fRa w) x.gang
    let b := k.group (fRb w) x.gang
    let d := k.group (fRd w) x.gang
    let g := (k.gr (fRb w)).toNat
    let okd := gangOk (fRd w) x.gang = true
    let oka := gangOk (fRa w) x.gang = true
    let okb := gangOk (fRb w) x.gang = true
    let act := ((List.range x.vln).filter (k.active w)).map (elem a x.sew)
    let writes := fun (i : Instr) (n : Nat) (v : Nat → Nat) =>
      let r := vecResult k w x.vln x.sew d (fun i => { bits := v i % 2 ^ x.sew })
      CompletesAs i s ((s.setGroup c (fRd w) x.gang r.bits).vecEnd c 0 n) c
    let n := beats x.vln x.sew
    (fn = 0 →
      let m := min (k.gr (fRa w)).toNat x.vlmax
      CompletesAs (.vsetl c w) s (((s.modCtl c (fun y => { y with vln := m })).setG c (fRd w) (BitVec.ofNat 64 m)).vecEnd c 0 0) c) ∧
    (shapeIll k.ctl.vshapeEff = false →
      (fn = 1 → okd → oka → writes (.vmv c w) n (elem a x.sew)) ∧
      (fn = 2 → okd → writes (.vmvScalar c w) n (fun _ => g)) ∧
      (fn = 3 → okd → writes (.vmvScalar c w) n (fun _ => (k.fr (fRb w)).toNat)) ∧
      (fn = 4 → oka → CompletesAs (.vext c w) s
        ((s.setG c (fRd w) (if x.vlmax ≤ g then 0 else BitVec.ofInt 64 (signed x.sew (elem a x.sew g)))).vecEnd c 0 0) c) ∧
      (fn = 5 → oka → CompletesAs (.vext c w) s
        ((s.setF c (fRd w) (if x.vlmax ≤ g then 0 else BitVec.ofNat 64 (2 ^ 64 - 2 ^ x.sew + elem a x.sew g))).vecEnd c 0 0) c) ∧
      (fn = 6 → okd → oka → shareReg (fRd w) x.gang (fRa w) x.gang = false → CompletesAs (.vslideup c w) s
        ((s.setGroup c (fRd w) x.gang (packElems x.sew ((List.range x.vln).map (fun i =>
          if i < g then elem d x.sew i else if k.active w i then elem a x.sew (i - g) else if fMz w then 0 else elem d x.sew i))
          (d / 2 ^ (x.sew * x.vln)))).vecEnd c 0 n) c) ∧
      (fn = 7 → okd → oka → shareReg (fRd w) x.gang (fRa w) x.gang = false →
        writes (.vslidedn c w) n (fun i => if x.vlmax ≤ i + g then 0 else elem a x.sew (i + g))) ∧
      (fn = 8 → okd → oka → okb → shareReg (fRd w) x.gang (fRa w) x.gang = false → shareReg (fRd w) x.gang (fRb w) x.gang = false →
        writes (.vgather c w) (ceilDiv x.vln 8) (fun i =>
          if x.vlmax ≤ elem b x.sew i then 0 else elem a x.sew (elem b x.sew i))) ∧
      (fn = 9 → okd → oka → okb → CompletesAs (.vmerge c w) s
        ((s.setGroup c (fRd w) x.gang (packElems x.sew ((List.range x.vln).map (fun i =>
          if k.active w i then elem a x.sew i else elem b x.sew i)) (d / 2 ^ (x.sew * x.vln)))).vecEnd c 0 n) c) ∧
      (fn = 10 → okd → writes (.vid c w) n (fun i => i)) ∧
      (fn = 11 → oka → CompletesAs (.vredsum c w) s
        ((s.setG c (fRd w) (BitVec.ofInt 64 ((act.map (signed x.sew)).foldl (· + ·) 0))).vecEnd c 0 n) c) ∧
      (fn = 12 → x.float = true → oka →
        let r := (act.foldl (fun (t : SumState) e => t.add (f.value e)) {}).result (if x.fmt = 1 then fp64 else fp32) k.ctl.rm
        CompletesAs (.vfredsum c w) s ((s.setF c (fRd w) (fpWord (x.fmt != 1) r.bits)).vecEnd c r.flags n) c) ∧
      (fn = 13 ∨ fn = 14 → x.float = true → oka →
        let rd := f.read k.ctl.ftz
        (act = [] → ∃ v, CompletesAs (.vfredmaxmin c w) s ((s.draw.2.setF c (fRd w) v).vecEnd c 0 n) c) ∧
        (∀ e l, act = e :: l → ∃ r : Val × Nat,
          r = l.foldl (fun t y => ((Val.extremum (fn == 13) true t.1 (rd y)).1, t.2 ||| (Val.extremum (fn == 13) true t.1 (rd y)).2))
            (rd e, signalFlag [rd e]) ∧
          CompletesAs (.vfredmaxmin c w) s
            ((s.setF c (fRd w) (BitVec.ofNat 64 (2 ^ 64 - 2 ^ x.sew + (f.put .near false r.1 r.2).bits))).vecEnd c (f.put .near false r.1 r.2).flags n) c)))

/-- For every core that may execute, with a legal shape, VRESUME not armed, a legal pairing of formats, well-placed and
separate groups, and MODE.SR 0: CVT converts every active element to the destination format under RM and CVT.T
truncating; MXQ writes one scale byte for each block of 32 elements from its largest magnitude and the elements under
it (a block with a NaN or infinity gets scale 0xFF and zero elements); MXD multiplies every element by its block's
scale and rounds, giving NaN under scale 0xFF. A pairing outside R169 raises VFORMAT. (R169, R170, R171, R173, R174,
R175, R172) -/
def Obligations.FormatConversions : Prop :=
  ∀ (c : Nat) (w : Word) (s : State), s.executes c → major w = 0x34 → encOk {} w = true → (s.core c).ctl.vresArmed = false →
    shapeIll (s.core c).ctl.vshapeEff = false →
    let k := s.core c
    let x := k.vctx
    let n := dstCount x w
    let df := fDfmt w
    let a := k.group (fRa w) x.gang
    let d := k.group (fRd w) n
    let rows : List (Nat × Instr) := [(0, .cvt c w), (1, .cvtT c w), (2, .mxq c w), (3, .mxd c w)]
    (pairingOk x w = false → ∀ y ∈ rows, fKind w = y.1 → Raises y.2 s c illVformat) ∧
    (pairingOk x w = true → n ≤ 8 → gangOk (fRd w) n = true → gangOk (fRa w) x.gang = true →
      shareReg (fRd w) n (fRa w) x.gang = false → shareReg (fRd w) n (fRb w) 1 = false → shareReg (fRb w) 1 (fRa w) x.gang = false →
      k.ctl.sr = false →
      (∀ y ∈ rows.take 2, fKind w = y.1 →
        let r := vecResult k w x.vln (dstWidth w) d (fun i =>
          cvtElem x.fmt df x.sew (dstWidth w) (if fKind w = 1 then .zero else k.ctl.rm) k.ctl.ftz (elem a x.sew i))
        CompletesAs y.2 s ((s.setGroup c (fRd w) n r.bits).vecEnd c r.flags (cvtBeats x w)) c) ∧
      (fKind w = 2 →
        let val := fun i => (fmtOf x.fmt).read k.ctl.ftz (elem a x.sew i)
        let scales := (List.range (ceilDiv x.vln 32)).map (fun b =>
          mxScale df (((List.range 32).filter (fun j => decide (32 * b + j < x.vln) && k.active w (32 * b + j))).map (fun j => val (32 * b + j))))
        let r := vecResult k w x.vln 8 d (fun i =>
          if (scales.drop (i / 32)).headD 0 = 0xFF then { bits := 0, flags := 64 }
          else mxElem df ((scales.drop (i / 32)).headD 0) k.ctl.rm (val i))
        CompletesAs (.mxq c w) s
          (((s.setGroup c (fRb w) 1 (packElems 8 scales ((NatMap.get 0 k.regs.v (fRb w)).toNat / 2 ^ (8 * ceilDiv x.vln 32)))).setGroup c (fRd w) n
            r.bits).vecEnd c r.flags (cvtBeats x w)) c) ∧
      (fKind w = 3 →
        let f := fmtOf df
        let r := vecResult k w x.vln (dstWidth w) d (fun i =>
          let code := bitsOf (NatMap.get 0 k.regs.v (fRb w)).toNat (8 * (i / 32)) 8
          if code = 0xFF then { bits := f.canonNan }
          else f.put k.ctl.rm k.ctl.ftz ((mxValue x.fmt (elem a x.sew i)).scale ((code : Int) - 127)) 0)
        CompletesAs (.mxd c w) s ((s.setGroup c (fRd w) n r.bits).vecEnd c r.flags (cvtBeats x w)) c))

/-- For every core that may execute, with a legal shape and a word that is not reserved: a VLD whose elements from the
resume element on can all be read completes with them in its destination and VRESUME 0; one that fails at element j
writes the elements below j, sets VRESUME to j and ARMED, and raises the fault with AUX j; a first-fault load that
fails at an element other than 0 instead completes with VLN = j. A VST whose active elements pass their checks
completes with one store-buffer entry of their bytes (none for no active element), VRESUME 0; in mask mode it stores
the bytes of m[vd], the bits from VLN up of the last byte being free (the spec states no value). Unit-stride, strided
and indexed addresses are those of R162. (R150, R152, R162, R163, R164, R165, R166, R167) -/
def Obligations.LongVectorMemory : Prop :=
  ∀ (c : Nat) (w : Word) (s : State), s.executes c → encOk {} w = true →
    let k := s.core c
    let x := k.vctx
    let m := fAmode w
    let r0 := if k.ctl.vresArmed then k.ctl.vresElem else 0
    shapeIll k.ctl.vshapeEff = false → (x.packed = false ∨ m = 0 ∨ m = 4) → (m ≠ 5 → gangOk (fRd w) x.gang = true) →
    (m = 2 ∨ m = 3 → gangOk (fRb w) x.gang = true) →
    (major w = 0x32 → m ≠ 4 →
      (∀ l u, runLoad c w k x s = .done l u →
        exec (.vld c w) s = .next (((u.putLoaded c k x w r0 l).vecMemEnd c (memBeats x w)).finish c)) ∧
      (∀ j f l u, runLoad c w k x s = .fail j f l u → exec (.vld c w) s = .next
        ((((u.putLoaded c k x w r0 l).modCtl c (fun y => { y with vresElem := j, vresArmed := true })).endRemote c).faultAt c { f with aux := j }))) ∧
    (major w = 0x32 → m = 4 →
      (∀ l u, runLoad c w k x s = .done l u →
        exec (.vldFirstFault c w) s = .next (((u.putLoaded c k x w r0 l).vecMemEnd c (memBeats x w)).finish c)) ∧
      (∀ j f l u, runLoad c w k x s = .fail j f l u → j ≠ 0 → exec (.vldFirstFault c w) s = .next
        ((((u.putLoaded c k x w r0 l).modCtl c (fun y => { y with vln := j })).vecMemEnd c (memBeats x w)).finish c)) ∧
      (∀ f l u, runLoad c w k x s = .fail 0 f l u → exec (.vldFirstFault c w) s = .next ((u.endRemote c).faultAt c { f with aux := 0 }))) ∧
    (major w = 0x33 → m = 5 → k.sb.length < 8 →
      (x.vln % 8 = 0 → ∀ l, storeMask c k x w 0 s (resumeRange k x) [] = (l, none) → l ≠ [] → CompletesAs (.vst c w) s
        ((s.pushSb c (vecEntry .vector (elemAddr k x w r0) l)).vecMemEnd c (memBeats x w)) c) ∧
      (x.vln % 8 ≠ 0 → ∀ l, storeMask c k x w (Config.freeByte s.draw.1).toNat s (resumeRange k x) [] = (l, none) → l ≠ [] →
        CompletesAs (.vst c w) s
          ((s.draw.2.pushSb c (vecEntry .vector (elemAddr k x w r0) l)).vecMemEnd c (memBeats x w)) c)) ∧
    (major w = 0x33 → m ≠ 5 → k.sb.length < 8 →
      (∀ l, storeElems c k x w s (resumeRange k x) [] = (l, none) → l ≠ [] → CompletesAs (.vst c w) s
        ((s.pushSb c (vecEntry .vector (elemAddr k x w r0) l)).vecMemEnd c (memBeats x w)) c) ∧
      (storeElems c k x w s (resumeRange k x) [] = ([], none) → CompletesAs (.vst c w) s (s.vecMemEnd c (memBeats x w)) c)) ∧
    (∀ i, (m = 0 → x.packed = false → elemAddr k x w i = ((k.gr (fRa w)).toNat + i * (x.sew / 8)) % 2 ^ 64) ∧
      (m = 1 → elemAddr k x w i = ((k.gr (fRa w)).toNat + i * (k.gr (fRb w)).toNat) % 2 ^ 64) ∧
      (m = 2 → elemAddr k x w i = ((k.gr (fRa w)).toNat + elem (k.group (fRb w) x.gang) x.sew i * 2 ^ fScale w) % 2 ^ 64))

/-- For every core that may execute and every tile-memory word that is not reserved: TLD reads 16 rows of 64 bytes and
TLD.W 8 rows of 128 into t[d], TSLD one row of 64 into ts[d], where every row can be read; TST, TST.W and TSST, where
every row passes its checks and the store buffer has a free entry, append one tile entry with the rows' bytes. A row
that fails a check raises its fault with AUX the row, before any byte is stored. (R187, R248, R164) -/
def Obligations.TileMemory : Prop :=
  ∀ (c : Nat) (w : Word) (s : State), s.executes c → major w = 0x39 → encOk {} w = true →
    let k := s.core c
    let row := fun n r : Nat => ((natLE 1024 (k.tr (fRd w)).toNat).drop (n * r)).take n
    let pieces := fun n rows : Nat => (List.range rows).flatMap (fun r => rowPieces s c (rowAddr k w r) (row n r))
    let loads := fun (i : Instr) (n rows : Nat) => ∀ b u, readRows c k w n (List.range rows) 0 [] s = .ok b u →
      exec i s = .next (((u.setT c (fRd w) (BitVec.ofNat 8192 (leNat b))).bump c 0x30D 16).finish c)
    let stores := fun (i : Instr) (n rows : Nat) =>
      (∀ f, checkRows s c k w n (List.range rows) = some f → Raises i s c f) ∧
      (checkRows s c k w n (List.range rows) = none → k.sb.length < 8 → CompletesAs i s
        ((s.pushSb c { kind := .tile, addr := rowAddr k w 0, pieces := pieces n rows }).bump c 0x30D 16) c)
    (fFunc w = 0x00 → loads (.tld c w) 64 16) ∧ (fFunc w = 0x01 → loads (.tldW c w) 128 8) ∧
    (fFunc w = 0x02 → stores (.tst c w) 64 16) ∧ (fFunc w = 0x03 → stores (.tstW c w) 128 8) ∧
    (fFunc w = 0x04 → ∀ b u, readRows c k w 64 [0] 0 [] s = .ok b u →
      exec (.tsld c w) s = .next (((u.setTs c (fRd w) (bytesLine b)).bump c 0x30D 1).finish c)) ∧
    (fFunc w = 0x05 → checkRows s c k w 64 [0] = none → k.sb.length < 8 → CompletesAs (.tsst c w) s
      ((s.pushSb c { kind := .tile, addr := rowAddr k w 0,
                     pieces := rowPieces s c (rowAddr k w 0) (lineBytes (k.tsr (fRd w))) }).bump c 0x30D 1) c)

/-- For every core that may execute and every matrix word that is not reserved: an INT8 MOP gives accumulator element 16 m
+ n the old element (0 for SET and NSET) plus, or for NACC and NSET minus, the sum over k of A[m,k] B[n,k], modulo
2^32; a floating-point MOP (MODE.SR 0) gives every element the chain of its exact steps, each rounded once, and ORs
their flags; the array's cycles are counted and nothing else changes. The seven moves copy or zero one register. ARED
appends one store-buffer entry with the core, its tags and the accumulator's values. (R178, R180, R181, R182, R183,
R185, R186, R189) -/
def Obligations.MatrixInstructions : Prop :=
  ∀ (c : Nat) (w : Word) (s : State), s.executes c → encOk {} w = true →
    let k := s.core c
    let h := mopShape (fMfmt w)
    (∀ x ∈ [(0, Instr.mopAcc c w), (1, .mopNacc c w), (2, .mopSet c w), (3, .mopNset c w)], major w = 0x38 → fMop w = x.1 →
      let set := decide (2 ≤ x.1)
      let neg := x.1 % 2 == 1
      (fMfmt w = 12 → CompletesAs x.2 s ((s.setAcc c h (fRd w) ((List.range 256).map (fun i =>
        let a := bitsOf (k.tr (fRa w)).toNat (512 * (i / 16)) 512
        let b := bitsOf (k.tr (fRb w)).toNat (512 * (i % 16)) 512
        let p := (List.range 64).foldl (fun (t : Int) j => t + signed 8 (elem a 8 j) * signed 8 (elem b 8 j)) 0
        let old : Int := if set then 0 else signed 32 (bitsOf (k.ar (fRd w)).toNat (32 * i) 32)
        wrapInt 32 (if neg then old - p else old + p)))).bump c 0x30E 32) c) ∧
      (fMfmt w < 12 → k.ctl.sr = false →
        let l := (List.range (h.m * h.n)).map (fun i =>
          mopSteps (if h.dbl then fp64 else fp32) k.ctl.ftz neg (fun t => (List.range h.g).map (fun j =>
            (mopValue h k.ctl.ftz (tileElem h.fmt (k.tileRow h (fRa w) (i / 16)) (h.g * t + j)) (k.tileScale h (fRa w) (i / 16) ((h.g * t + j) / 32)),
             mopValue h k.ctl.ftz (tileElem h.fmt (k.tileRow h (fRb w) (i % 16)) (h.g * t + j)) (k.tileScale h (fRb w) (i % 16) ((h.g * t + j) / 32)))))
            (fun _ => .near) (List.range (h.k / h.g)) (if set then 0 else k.accElem h (fRd w) i) 0)
        CompletesAs x.2 s (((s.setAcc c h (fRd w) (l.map FRes.bits)).modCtl c (fun y =>
          { y with fflags := y.fflags ||| (FRes.or l % 32) })).bump c 0x30E h.cycles) c)) ∧
    (major w = 0x39 →
      (fFunc w = 0x08 → CompletesAs (.vfromt c w) s (s.setV c (fRd w) (k.tr (fRa w))) c) ∧
      (fFunc w = 0x09 → CompletesAs (.tfromv c w) s (s.setT c (fRd w) (k.vr (fRa w))) c) ∧
      (fFunc w = 0x0A → CompletesAs (.vfroma c w) s (s.setV c (fRd w) (k.ar (fRa w))) c) ∧
      (fFunc w = 0x0B → CompletesAs (.afromv c w) s (s.setA c (fRd w) (k.vr (fRa w))) c) ∧
      (fFunc w = 0x0C → CompletesAs (.vfromts c w) s (s.setV c (fRd w) (BitVec.ofNat 8192 (k.tsr (fRa w)).toNat)) c) ∧
      (fFunc w = 0x0D → CompletesAs (.tsfromv c w) s (s.setTs c (fRd w) (BitVec.ofNat 512 (k.vr (fRa w)).toNat)) c) ∧
      (fFunc w = 0x10 → CompletesAs (.azero c w) s (s.setA c (fRd w) 0) c) ∧
      (fFunc w = 0x11 → k.sb.length < 8 → CompletesAs (.ared c w) s
        (s.pushSb c { kind := .ared, ared := c :: (k.gr (fRa w)).toNat :: (k.gr (fRb w)).toNat :: fRc w :: aredValues k w }) c))

/-- For every core that may execute, outside a delay slot and with no micro-op to resume at: a custom instruction whose
entry is valid, at a level that may run it, completes with the state its micro-ops leave, run from index 0 under R210;
an entry whose micro-op 0 ends it runs that micro-op's own operation alone. Without a valid entry it raises EMPTY; at
user level with UEN 0 it raises PRIV. FIXQ with an aligned template that passes its checks, fewer than four records in
its lane, and template loads that answer, completes with one record more at the end of the lane: the template with its
two captured scalars. (R139, R140, R208, R209, R210, R212, R265, R287) -/
def Obligations.CustomAndFixq : Prop :=
  ∀ (c : Nat) (w : Word) (s : State), s.executes c →
    let k := s.core c
    let e := s.customEntry c w
    let pa := (k.gr (fRa w)).toNat
    let p := s.corePart c
    (0x3C ≤ major w → k.ctl.delay = none → k.ctl.resumeUop = none →
      (k.ctl.priv = false → k.sre.dtabUen = false → Raises (.customInstruction c w) s c illPriv) ∧
      (k.ctl.priv = true ∨ k.sre.dtabUen = true →
        (e.1 = false → Raises (.customInstruction c w) s c illEmpty) ∧
        (e.1 = true → ∀ u, runUops c w e.2 32 0 s = .ok u → exec (.customInstruction c w) s = .next (u.finish c)) ∧
        (e.1 = true → ∀ m l t, e.2 = m :: l → m.isNop = false → m.cond = 1 → microSem c (m.substitute w) s = .ok t →
          exec (.customInstruction c w) s = .next (((t.endRemote c).bump c 0x302 1).finish c)))) ∧
    (fixqOk w = true → pa % 64 = 0 → s.coreCheck c k.ctl.priv .read pa 64 = .ok () → (s.sch p).laneCount c < 4 →
      ∀ b u, (∀ f, fixqLoads c pa 8 [] s f = f b u) →
        let img := bytesLine (b.take 48 ++ fixqScalar k (fFunc w % 4) (fRd w) ((b.drop 48).take 8)
          ++ fixqScalar k (fFunc w / 4 % 4) (fRb w) ((b.drop 56).take 8))
        exec (.fixq c w) s = .next ((u.modSch p (fun x => { x with
          lanes := NatMap.upd [] x.lanes c (fun l => l ++ [{ image := img, verdict := u.checkRecord p (some (c / 16)) img }]) })).finish c)) ∧
    (fixqOk w = true → pa % 64 ≠ 0 → Raises (.fixq c w) s c (misaligned 1 pa))

/-- An entry that may be performed before those ahead of it, holds no late error, has not been sent and lies on this
device leaves the store buffer once its target has taken it. A fill of a cacheable address that no line holds, whose
read succeeds, leaves the line allocated with the given word errors marked. An instruction line that the core's fetch
has requested and no way holds is read from the kernel store and, with IC_CFG.EN, allocated; one on a wrong path
counts as wasted, and one that comes late counts so. (R199, R241, R246, R248, R251) -/
def Obligations.CoreSideEvents : Prop :=
  ∀ (c : Nat) (s : State),
    (∀ i e u, (s.core c).sb[i]? = some e → (s.core c).sbReady i = true → e.late = none → e.sent = none → e.remote = false →
      s.performSb c e = (.ok (), u) → exec (.storeAccept c i) s = .next (u.dropSb c i)) ∧
    (∀ pa ce ue way u, s.coreCheck c (s.core c).ctl.priv .read pa 1 = .ok () →
      (s.core c).cacheable (s.corePlace c .read pa) = true → (s.core c).canExecute = true →
      (s.core c).l1Way (s.corePlace c .read pa).addr = none → s.l1Fill c (s.corePlace c .read pa).addr = (.ok way, u) →
      exec (.l1dFill c pa ce ue) s = .next (u.markL1 c (s.corePlace c .read pa).addr ce ue)) ∧
    (∀ a d u, (s.core c).canExecute = true → (s.core c).icWay a = none →
      ((s.bump c 0x306 1).fillLine c a = (.ok d, u) → exec (.instructionLineFill c a false false) s = .next u) ∧
      ((s.bump c 0x307 1).fillLine c a = (.ok d, u) → exec (.instructionLineFill c a true false) s = .next u) ∧
      (((s.bump c 0x308 1).bump c 0x306 1).fillLine c a = (.ok d, u) → exec (.instructionLineFill c a false true) s = .next u))

/-- For every state: where no source has announced a tick and an enabled device keeps its own time base, TICK begins the
next frame by its own count, at one period after the tick before (at the present time for the first); where a source
has announced one and boot step SHUTTER is reached, TICK begins the frame of that number at that time. FLYWHEEL_TICK
of an enabled device that hears its ticks from elsewhere, and has heard none for this frame, begins the next frame at
exactly one period after the tick before. Each leaves the OPEN phase begun, FLYWHEEL saying which kind of tick it was.
GUARD_BAND_START in an open phase moves device time to its end, ends it, and changes nothing else of the device. (R36,
R37, R58, R64, spec/02_shutter_and_frames.md) -/
def Obligations.TicksAndFrames : Prop :=
  ∀ s : State,
    (s.sht.plan = none → s.sht.en = true → s.ownTicks = true → ∃ t, exec .tick s = .next t ∧
      t.sht.frame = (if s.sht.started then s.sht.frame + 1 else s.sht.frame) ∧
      t.sht.lastTick = (if s.sht.started then s.sht.lastTick + usThirds s.sht.period else s.nowThirds) ∧
      t.sht.open_ = true ∧ t.sht.guardBand = false ∧ t.sht.flywheel = false ∧ t.sht.started = true) ∧
    (∀ p, s.sht.plan = some p → 12 ≤ s.boot.step → ∃ t, exec .tick s = .next t ∧
      t.sht.frame = BitVec.ofNat 64 p.frame ∧ t.sht.lastTick = p.time ∧
      t.sht.open_ = true ∧ t.sht.guardBand = false ∧ t.sht.flywheel = false ∧ t.sht.started = true) ∧
    (s.sht.plan = none → s.sht.en = true → s.ownTicks = false → s.sht.started = true → ∃ t, exec .flywheelTick s = .next t ∧
      t.sht.frame = s.sht.frame + 1 ∧ t.sht.lastTick = s.sht.lastTick + usThirds s.sht.period ∧
      t.sht.open_ = true ∧ t.sht.guardBand = false ∧ t.sht.flywheel = true ∧ t.sht.started = true) ∧
    (s.sht.started = true → s.sht.open_ = true → exec .guardBandStart s =
      .next { s.advance (cycleOf s.openEnd) with sht := { s.sht with guardBand := true, open_ := false } })

/-- Whatever command runs in whatever state, unless it is TICK, FLYWHEEL_TICK, or one of the commands that can end in a
device reset (the signals POWER_ON, PWRGD_DEASSERT and PERST_ASSERT, the fourteen boot steps, BOOT_RESET, the two
watchdogs of boot, ACTIVATE_RESET), the frame number and the time of the last tick stay as they are: the frame that a
core, a queue or a message sees is the same throughout the frame. (R37, R53, R58, spec/02_shutter_and_frames.md) -/
def Obligations.FramesBeginAtTicksAlone : Prop :=
  ∀ (i : Instr) (s t : State), i.mayTick = false → exec i s = .next t →
    t.sht.frame = s.sht.frame ∧ t.sht.lastTick = s.sht.lastTick

/-- TICK_MESSAGE_SEND of an enabled tick master that has not announced its next tick yet moves time to 10 us before that
tick (a master that has not ticked yet plans its first tick 10 us after the message) and sends in both directions of x
(of the next dimension where a ring has one device) the number of that frame, AGE 0, its period, its own number, and
bit 0 of FLAGS where a MASTER-mode plate is staged. TICK_MESSAGE_RECEIVE takes a TICK flit of an UP port: one whose
AGE with the port's delay reaches 9,000 ns changes nothing; else a LINK device that awaits a tick plans it at arrival
+ (10,000 - AGE) ns with the message's frame, and the message goes on along the tree with the residence time added.
SHUTTER_IN_EDGE in a locked PIN device counts when its compensated time lies within 1 us of the predicted tick: it
plans the tick at that time; every edge is also latched by its input's detector. (R60, R61, R62, R64, R65, R560,
spec/16_mbx_links.md) -/
def Obligations.TickMessagesAndEdges : Prop :=
  ∀ s : State,
    (s.sht.en = true → s.sht.master = true →
      let w := if s.sht.started then s.nextTick - usThirds 10 else s.nowThirds
      (s.now ≤ cycleOf w → s.sht.announced ≠ some s.nextFrame →
        let u := s.advance (cycleOf w)
        let flag := s.plate.stage == .staged && (s.plate.staged.map (·.mode)) == some 2
        let plan : Option TickPlan := if s.sht.started then none
          else some { time := u.nowThirds + usThirds 10, frame := s.nextFrame.toNat, period := 0, installs := false }
        exec .tickMessageSend s = .next (({ u with
          plate := { u.plate with masterFlag := flag }, sht := { u.sht with announced := some s.nextFrame, plan := plan } }).sendTicks
          (s.tickDirs 0 s.dev) (natLE 8 s.nextFrame.toNat ++ natLE 4 0 ++ natLE 2 s.sht.period ++ natLE 1 s.dev ++
            natLE 1 (if flag then 1 else 0)))) ∧
      (cycleOf w < s.now ∨ s.sht.announced = some s.nextFrame → exec .tickMessageSend s = .next s)) ∧
    (s.nextFrame = if s.sht.started then s.sht.frame + 1 else s.sht.frame) ∧
    (∀ m, s.plate.sysInForce.dims.headD 0 ≠ 1 → s.tickDirs 0 m = [1, 2]) ∧
    (∀ q block t res, exec (.tickMessageReceive q block t res) s =
      .next ((s.advance t).receive q 3 block (fun u f => u.tickFlit q f res))) ∧
    (∀ q f res, 9000 ≤ fieldLE f 20 4 + (s.port q).delay → s.tickFlit q f res = s) ∧
    (∀ q f res, fieldLE f 20 4 + (s.port q).delay < 9000 → 12 ≤ s.boot.step → s.sht.source = 1 → s.sht.plan = none →
      let age := fieldLE f 20 4 + (s.port q).delay
      let master := Sys2Proof.byteAt f 26
      let flags := Sys2Proof.byteAt f 27
      let p : TickPlan := { time := s.nowThirds + nsThirds (10000 - age), frame := fieldLE f 12 8, period := fieldLE f 24 2, installs := flags % 2 == 1 }
      let u := s.takeTick p
      u.sht.plan = some p ∧ s.tickFlit q f res = u.sendTicks
        (u.tickDirs (inDirOf ((s.plate.linksInForce.roles.drop q).headD 0)) master)
        (natLE 8 p.frame ++ natLE 4 (age + res) ++ natLE 2 p.period ++ natLE 1 master ++ natLE 1 flags)) ∧
    (∀ t, s.sht.source = 2 → s.sht.locked = true → 12 ≤ s.boot.step →
      let time := (s.advance t).nowThirds + s.sht.pinComp * 3 / 1000
      let next := s.sht.lastTick + usThirds s.sht.period
      let u := if next ≤ time + usThirds 1 ∧ time ≤ next + usThirds 1 then (s.advance t).countEdge time else s.advance t
      exec (.shutterInEdge t) s = .next (u.latchEdge 4 true) ∧
      (∀ v : State, (v.countEdge time).sht.plan.map (·.time) = some time ∧ (v.countEdge time).sht.lastEdge = some time))

/-- For every partition p and state. An active timer of a RUNNING partition that expires moves device time to its expiry:
PERIODIC adds 1 to its mark and reloads from that expiry, ONESHOT adds 1 and stops, WATCHDOG stops and logs a
contained error with its ID. An edge on an input that the installed plate maps with an EDGE that accepts it is latched
after those waiting; an edge nobody maps changes nothing. A delivered edge leaves its queue and adds 1 to the mark its
partition still names; one that lost its partition adds nothing. 10 us after entry into HELD every core that still
runs a kernel of the partition is stopped with reason HELD. LOADING_COMPLETE of a partition that is no migration
target leaves its memory clear and its loading done; DRAIN_COMPLETE with no command left flushes its channels and is
noted; so is the last acknowledgement of a migration whose stream is finished and has not failed. (R55, R79, R95, R97,
R99, R100, R561) -/
def Obligations.TimersEdgesAndPartitionWork : Prop :=
  ∀ (p i : Nat) (s : State),
    (∀ tm : Timer, (s.part p).timers[i]? = some tm → (s.part p).state = .running → tm.active = true →
      let set := fun x : Timer => (s.advance tm.due).modPart p (fun q => { q with timers := q.timers.set i x })
      (tm.cfg.kind = 2 → exec (.periodicTimerExpiry p i) s =
        .next ((set { tm with due := tm.due + cyclesPerMicro * tm.cfg.period }).addMark p tm.cfg.mark 1)) ∧
      (tm.cfg.kind = 3 → exec (.oneshotTimerExpiry p i) s = .next ((set { tm with active := false }).addMark p tm.cfg.mark 1)) ∧
      (tm.cfg.kind = 1 → exec (.watchdogExpiry p i) s = .next ((set { tm with active := false }).logErr
        { cls := 2, source := 4, code := 5, part := p, detail := tm.cfg.id }))) ∧
    (∀ (rising : Bool) (pl : Plate), s.plate.installed = some pl →
      (∀ q, pl.parts.find? (fun q => ((q.inputs.drop i).headD {}).accepts rising) = some q → exec (.inputEdge i rising) s =
        .next { s with edges := NatMap.set [] s.edges i (NatMap.get [] s.edges i ++ [{ part := q.num, rising := rising }]) }) ∧
      (pl.parts.find? (fun q => ((q.inputs.drop i).headD {}).accepts rising) = none → exec (.inputEdge i rising) s = .next s)) ∧
    (∀ e l, NatMap.get [] s.edges i = e :: l →
      let u : State := { s with edges := NatMap.set [] s.edges i l }
      exec (.edgeDeliver i) s = .next (if s.edgeKept i e then u.addMark e.part (((s.psecD e.part).inputs.drop i).headD {}).mark 1 else u)) ∧
    ((s.part p).state = .held → exec (.heldCoreStop p) s = .next ((s.partRunning p).foldl (fun u c => u.stopCore c 4)
      (s.advance ((s.part p).heldAt + 10 * cyclesPerMicro)))) ∧
    (∀ c, ((s.stopCore c 4).core c).run = .stopped 4 ∧ ((s.stopCore c 4).core c).regs = (s.core c).regs) ∧
    ((s.part p).state = .loading → (s.part p).migPeer = none → (s.part p).loadDone = false →
      ∃ t, exec (.loadingComplete p) s = .next t ∧ (t.part p).loadDone = true ∧ t.mem = (s.zeroPart p).mem) ∧
    ((s.part p).state = .draining → (s.sch p).cmds = [] →
      ∃ t, exec (.drainComplete p) s = .next t ∧ (t.part p).drainDone = true ∧ t.mem = (s.flushPart p).mem) ∧
    ((s.part p).state = .migrating → (s.migProg p).finished = true → (s.part p).migFailed = false →
      exec (.migrationLastAck p) s = .next (s.modPart p (fun x => { x with migLastAck := true })))

/-- For every partition and state, at step 5 of a tick: an OFF partition that may start enters LOADING on START; a LOADING
one that nothing holds or has failed enters OFF on STOP, and RUNNING when its loading is done, nothing is requested
and it is device-local or the Shutter is locked; a RUNNING one enters DRAINING on STOP and MIGRATING on MIGRATE_OUT
when nothing holds it, and HELD when something does and nothing is requested; a HELD one whose cause has cleared
enters RUNNING on RELEASE, or LOADING if it was held while LOADING, and stays HELD while the cause persists; a
DRAINING one whose draining is complete enters OFF, and a MIGRATING one that has its last acknowledgement and that
nothing holds enters OFF with reason 7. (R90, R96, R97, R98, R99, R100) -/
def Obligations.PartitionStates : Prop :=
  ∀ (p : Nat) (s : State),
    let x := s.part p
    let t := s.step5 p
    (x.state = .off → x.migFailed = false → x.request = some .start → s.mayStart p = true → (t.part p).state = .loading) ∧
    (x.state = .loading → s.mustHold p = false → x.migFailed = false →
      (x.request = some .stop → (t.part p).state = .off) ∧
      (x.request = none → x.loadDone = true → (s.psecD p).spanning = false ∨ s.sht.locked = true → (t.part p).state = .running)) ∧
    (x.state = .running → s.mustHold p = false →
      (x.request = some .stop → (t.part p).state = .draining) ∧
      (∀ d q, x.request = some (.migrateOut d q) → (t.part p).state = .migrating)) ∧
    (x.state = .running → s.mustHold p = true → x.request = none → (t.part p).state = .held) ∧
    (x.state = .held → x.request = some .release →
      (s.causePersists p = false → (t.part p).state = if x.heldFromLoading then .loading else .running) ∧
      (s.causePersists p = true → (t.part p).state = .held)) ∧
    (x.state = .draining → x.request = none → x.drainDone = true → (t.part p).state = .off) ∧
    (x.state = .migrating → s.mustHold p = false → x.migLastAck = true → (t.part p).state = .off ∧ (t.part p).reason = 7)

/-- For every partition whose page is there and served, with its session open. Q_TAIL_WRITE of an enabled queue takes x as
TAIL when (x - HEAD) mod 2^32 is at most the ring's size and (x - TAIL) mod 2^32 is below 2^31, and otherwise leaves
TAIL and sets TAILBAD. Q_CTRL_WRITE with EN enables a disabled queue of good configuration with TAIL = HEAD = 0,
LASTSEQ = 0xFFFFFFFF and no errors, sets CFGERR for a bad one, and without EN disables it. CQ_CTRL_WRITE does so with
completion queues. CQ_HEAD_WRITE takes x when (CQ_TAIL - x) mod 2^32 is at most the ring's size, and ignores it
otherwise. MK_ADD adds its amount to its mark and no other mark changes. Without a session each of them only counts
and reports NO_SESSION. RECORD_COPY of a record read from host memory counts HEAD up by one and enters the record
behind those copied: with LASTSEQ its SEQ where it is newer, and as a duplicate, with LASTSEQ kept, where it is not.
(R259, R260, R262, R267, R283, R284) -/
def Obligations.QueuesAndMarks : Prop :=
  ∀ (p q : Nat) (x : Word) (s : State),
    (s.vfThere p = true → s.vfServed p = true → s.sessionOpen p = true →
      let k := s.sq p q
      let c := s.cq p q
      (k.en = true → (x - k.head).toNat ≤ 2 ^ cfgLog k.cfg → (x - k.tail).toNat < 2 ^ 31 →
        exec (.qTailWrite p q x) s = .next (s.modSq p q (fun k => { k with tail := x }))) ∧
      (k.en = true → ¬ ((x - k.head).toNat ≤ 2 ^ cfgLog k.cfg ∧ (x - k.tail).toNat < 2 ^ 31) →
        ∃ t, exec (.qTailWrite p q x) s = .next t ∧ t.sq p q = { k with tailBad := true }) ∧
      (x.getLsbD 0 = true → k.en = false → cfgOk k.cfg = true → k.baseLo.toNat % 64 = 0 → ∃ t, exec (.qCtrlWrite p q x) s = .next t ∧
        (t.sq p q).en = true ∧ (t.sq p q).state = .active ∧ (t.sq p q).tail = 0 ∧ (t.sq p q).head = 0 ∧
        (t.sq p q).lastSeq = 0xFFFFFFFF ∧ (t.sq p q).tailBad = false ∧ (t.sq p q).cfgErr = false ∧ (t.sq p q).copied = []) ∧
      (x.getLsbD 0 = true → k.en = false → ¬ (cfgOk k.cfg = true ∧ k.baseLo.toNat % 64 = 0) →
        exec (.qCtrlWrite p q x) s = .next (s.modSq p q (fun k => { k with cfgErr := true }))) ∧
      (x.getLsbD 0 = false → ∃ t, exec (.qCtrlWrite p q x) s = .next t ∧ (t.sq p q).en = false ∧ (t.sq p q).state = .off ∧
        (t.sq p q).copied = []) ∧
      (x.getLsbD 0 = true → c.en = false → cfgOk c.cfg = true → c.baseLo.toNat % 32 = 0 → exec (.cqCtrlWrite p q x) s =
        .next (s.modCq p q (fun c => { c with
          en := true, wign := false, cfgErr := false, writeErr := false, tail := 0, head := 0, reserved := 0, run := c.run + 1 }))) ∧
      (x.getLsbD 0 = true → c.en = false → ¬ (cfgOk c.cfg = true ∧ c.baseLo.toNat % 32 = 0) →
        exec (.cqCtrlWrite p q x) s = .next (s.modCq p q (fun c => { c with cfgErr := true }))) ∧
      (x.getLsbD 0 = false → exec (.cqCtrlWrite p q x) s = .next (s.modCq p q (fun c => { c with en := false, wign := false }))) ∧
      (exec (.cqHeadWrite p q x) s =
        .next (if (c.tail - x).toNat ≤ 2 ^ cfgLog c.cfg then s.modCq p q (fun c => { c with head := x }) else s)) ∧
      (∃ t, exec (.mkAdd p x) s = .next t ∧
        t.mark p (x.toNat % 4096) = s.mark p (x.toNat % 4096) + BitVec.ofNat 64 (x.toNat / 65536) ∧
        ∀ m, m ≠ x.toNat % 4096 → t.mark p m = s.mark p m)) ∧
    (s.vfThere p = true → s.vfServed p = true → s.sessionOpen p = false →
      exec (.qTailWrite p q x) s = .next (s.noSession p (0x1000 + 64 * q + 0x1C)) ∧
      exec (.qCtrlWrite p q x) s = .next (s.noSession p (0x1000 + 64 * q + 4)) ∧
      exec (.cqCtrlWrite p q x) s = .next (s.noSession p (0x1800 + 64 * q + 4)) ∧
      exec (.cqHeadWrite p q x) s = .next (s.noSession p (0x1800 + 64 * q + 0x20)) ∧
      exec (.mkAdd p x) s = .next (s.noSession p 0x1C)) ∧
    (∀ img, s.mayCopy p q = true → cfgSpace (s.sq p q).cfg = false → (s.fn (p + 1)).busMaster = true →
      let k := s.sq p q
      let d := (BitVec.ofNat 32 (recSeq img) - k.lastSeq).toNat
      ∃ t, exec (.recordCopy p q (some img)) s = .next t ∧ (t.sq p q).head = k.head + 1 ∧ (t.sq p q).tail = k.tail ∧
        (1 ≤ d ∧ d < 2 ^ 31 → (t.sq p q).lastSeq = BitVec.ofNat 32 (recSeq img) ∧
          (t.sq p q).copied = k.copied ++ [{ image := img, verdict := s.checkRecord p none img }]) ∧
        (¬ (1 ≤ d ∧ d < 2 ^ 31) → (t.sq p q).lastSeq = k.lastSeq ∧ (t.sq p q).copied = k.copied ++ [{ image := img, verdict := .dup }]))

/-- For every partition and state. A record that passed its checks and stands at the head of its queue or FIXQ lane, in a
RUNNING partition whose admission is not stopped and with its wait-marks reached: with the state u after device time,
its aperture mark and the carries are settled, it is admitted when the frame's open phase lasts, its class is ready, a
completion slot is to be had and it fits its units, window and apertures; where one of these fails it is not, and u is
the next state. An admitted record is the last of the partition's commands, under a fresh identifier, committed to its
units until start + DECL_NS. A command with a result completes with it; one without is left alone. (R44, R45, R46,
R264, R267, spec/10_engines_queues_command_lists.md) -/
def Obligations.AdmissionAndCompletion : Prop :=
  ∀ (p q core t : Nat) (s : State),
    (∀ h, s.headRec p q core = some h → h.verdict = .pass → (s.part p).state = .running → (s.part p).admStopped = false →
      s.marksReady p h.image = true →
      let units := s.unitsOf h.image
      let u := ((s.advance t).flagHead p q core (s.overScaled p h.image (unitCount h.image))).settleAll p
      (u.isOpen = true → u.classReady p q h.image = true → u.slotReady p q = true → u.fits p h.image units = true →
        ∃ v, exec (.commandAdmit p q core t) s = .next v ∧ (v.sch p).nextId = (u.sch p).nextId + 1 ∧
          (v.sch p).cmds.map (fun c => (c.id, c.image, c.units, c.start)) = (u.sch p).cmds.map (fun c => (c.id, c.image, c.units, c.start))
            ++ [((u.sch p).nextId, h.image, units, u.startOf p units)] ∧
          ∀ n ∈ units, NatMap.get 0 (v.sch p).ends n = u.startOf p units + nsThirds (recDeclNs h.image)) ∧
      (¬ (u.isOpen = true ∧ u.classReady p q h.image = true ∧ u.slotReady p q = true ∧ u.fits p h.image units = true) →
        exec (.commandAdmit p q core t) s = .next u)) ∧
    (∀ c, (s.sch p).cmd? q = some c → exec (.commandComplete p q t) s =
      .next (match c.result with | none => s | some r => (s.advance t).completeCmd p q r.1 r.2))

/-- For every partition, admitted command id and state in which its unit may work on it. KRN_LAUNCH marks the launch
begun. KERNEL_START of a begun launch on a named core that is free and first in line starts the kernel: PC is ENTRY,
PRIV is 1 - USER, IE is LMODE.IE, g2 holds SSP, g10 and g11 the arguments, g12 the core's number in its cluster, g13
its cluster's position, every other g register zero, SEGEN 0xFFFF, flags, VSHAPE FMT 1 with SEW 64, events and caches
as after a core reset; other cores keep everything. SYN NOP, MARK_ADD, MARK_SET and WATCHDOG have their effect and
complete OK, EVENT completes and then raises its event on the named cores, TIMESTAMP writes device time and frame
number and completes with what the write gave, FRAME_ALIGN begins and waits for the tick. (R56, R79, R267, R272, R277,
R278, R279) -/
def Obligations.KernelsAndSynchronisation : Prop :=
  ∀ (p id : Nat) (s : State) (c : Cmd),
    let begun := s.modCmd p id (fun c => { c with began := some s.now })
    let r := c.image
    (s.engineCmd p id 0 0 = some c → exec (.krnLaunch p id) s = .next (s.modCmd p id (fun c => { c with began := c.began.or (some s.now) }))) ∧
    (∀ core, (s.sch p).cmd? id = some c → (s.part p).state ∈ [.running, .draining, .migrating] → s.err.fatal = false → recClass r = 0 →
      c.began.isSome = true → c.result = none → core ∈ c.units → NatMap.get .notStarted c.ends core = .notStarted →
      (s.core core).free = true → s.firstFor p id core = true →
      ∃ t, exec (.kernelStart p id core) s = .next t ∧
        (t.core core).ctl.pc = BitVec.ofNat 64 (fld r 32 4) ∧ (t.core core).ctl.priv = !(fld r 40 1).testBit 0 ∧
        (t.core core).ctl.ie = (fld r 40 1).testBit 1 ∧ (t.core core).run = .running ∧
        (t.core core).gr 2 = (s.core core).ssp ∧ (t.core core).gr 10 = BitVec.ofNat 64 (fld r 48 8) ∧
        (t.core core).gr 11 = BitVec.ofNat 64 (fld r 56 8) ∧ (t.core core).gr 12 = BitVec.ofNat 64 (core % 16) ∧
        (t.core core).gr 13 = BitVec.ofNat 64 (core / 16 - fld r 36 1) ∧
        (∀ n, n ∉ [2, 10, 11, 12, 13] → (t.core core).gr n = 0) ∧ (∀ n, (t.core core).fr n = 0) ∧
        (t.core core).ctl.mode = 0 ∧ (t.core core).ctl.fflags = 0 ∧ (t.core core).ctl.vshape = 0x31 ∧ (t.core core).ctl.evpend = 0 ∧
        (t.core core).sr.segen = 0xFFFF ∧ (t.core core).l1d = [] ∧ (t.core core).sb = [] ∧
        (t.core core).even = (s.core core).even ∧ (t.core core).perf = (s.core core).perf ∧ ∀ d, d ≠ core → t.core d = s.core d) ∧
    (s.engineCmd p id 6 0 = some c → exec (.synNop p id) s = .next (begun.completeCmd p id 0 0)) ∧
    (s.engineCmd p id 6 1 = some c → exec (.synMarkAdd p id) s =
      .next ((begun.addMark p (fld r 32 2) (fld r 36 4)).completeCmd p id 0 0)) ∧
    (s.engineCmd p id 6 2 = some c → exec (.synMarkSet p id) s =
      .next ((begun.setMark p (fld r 32 2) (BitVec.ofNat 64 (fld r 40 8))).completeCmd p id 0 0)) ∧
    (s.engineCmd p id 6 3 = some c →
      (∀ u, s.writePart p .engine (fld r 32 6) (natLE 8 (s.now % 2 ^ 64) ++ natLE 8 s.sht.frame.toNat) = (.ok (), u) →
        exec (.synTimestamp p id) s = .next ((u.finishCmd p id 16 0 0).completeCmd p id 0 0)) ∧
      (∀ u e n, s.writePart p .engine (fld r 32 6) (natLE 8 (s.now % 2 ^ 64) ++ natLE 8 s.sht.frame.toNat) = (.error (e, n), u) →
        exec (.synTimestamp p id) s = .next ((u.finishCmd p id n (e.status n).1 (e.status n).2).completeCmd p id (e.status n).1 (e.status n).2))) ∧
    (s.engineCmd p id 6 4 = some c → exec (.synFrameAlign p id) s = .next (s.modCmd p id (fun c => { c with began := c.began.or (some s.now) }))) ∧
    (s.engineCmd p id 6 5 = some c → exec (.synWatchdog p id) s =
      .next ((begun.modPart p (fun q => { q with timers := q.timers.map (fun t =>
        if t.cfg.kind = 1 ∧ t.cfg.id = fld r 32 2 then t.load s.now else t) })).completeCmd p id 0 0)) ∧
    (s.engineCmd p id 6 6 = some c → exec (.synEvent p id) s =
      .next ((onesOf 16 (fld r 34 2)).foldl (fun u k => u.raiseEv (16 * fld r 32 1 + k) (1 + fld r 36 1)) (begun.completeCmd p id 0 0)))

/-- For every partition and admitted mover command its unit may work on: COPY copies N bytes from A to B; COPY2D copies
row i of N bytes from A plus i times the signed source stride to B plus i times the signed destination stride, P rows;
GATHER reads element number i of list C and copies that element of A to element i of B, SCATTER the reverse; FILL
gives destination byte B + j pattern byte j mod 8; KSLOAD writes N bytes of A into the target cluster's kernel store;
COMPRESS and DECOMPRESS code and decode blocks. Each ends with its command's result: OK, or ADDR_FAULT or DATA_ERROR
of the first failed access with the 64-byte units moved before it, and after a failure no engine reads or writes.
COMPRESS reports the stream length, DECOMPRESS the first damaged block. (R270, R273, R281, R326, R327, R328) -/
def Obligations.MoverCommands : Prop :=
  ∀ (p id : Nat) (s : State) (c : Cmd),
    let r := c.image
    let aux := fld r 33 1
    let A := fld r 34 6
    let B := fld r 40 6
    let C := fld r 46 6
    let N := fld r 52 4
    let P := fld r 56 4
    let Q := fld r 60 4
    let e0 : Eng := { s := s, p := p }
    let ends := fun (e : Eng) (ok : Nat × Nat) =>
      let st := match e.err with | some x => x.status e.moved | none => ok
      e.s.finishCmd e.p id e.moved st.1 st.2
    (s.engineCmd p id 1 0 = some c → exec (.movCopy p id) s = .next (ends (e0.copy A B N) (0, 0))) ∧
    (s.engineCmd p id 1 1 = some c → exec (.movCopy2d p id) s = .next (ends ((List.range P).foldl (fun (e : Eng) (i : Nat) =>
      e.copy (addrOf ((A : Int) + i * signed 32 Q)) (addrOf ((B : Int) + i * signed 32 C)) N) e0) (0, 0))) ∧
    (s.engineCmd p id 1 2 = some c → exec (.movGather p id) s = .next (ends ((List.range N).foldl (fun e i =>
      let x := e.readOpen (C + 4 * i) 4
      x.2.copy (A + 2 ^ aux * leNat x.1) (B + 2 ^ aux * i) (2 ^ aux)) e0) (0, 0))) ∧
    (s.engineCmd p id 1 3 = some c → exec (.movScatter p id) s = .next (ends ((List.range N).foldl (fun e i =>
      let x := e.readOpen (C + 4 * i) 4
      x.2.copy (A + 2 ^ aux * i) (B + 2 ^ aux * leNat x.1) (2 ^ aux)) e0) (0, 0))) ∧
    (s.engineCmd p id 1 4 = some c → exec (.movFill p id) s = .next (ends ((chunks 64 B N).foldl (fun e k =>
      e.write k.1 ((List.range k.2).map (fun i => BitVec.ofNat 8 (bytesOf (P + 2 ^ 32 * Q) ((k.1 - B + i) % 8) 1)))) e0) (0, 0))) ∧
    (s.engineCmd p id 1 5 = some c → exec (.movCompress p id) s = .next (
      let x := e0.compressBlocks aux B C (rawBlocks A N) 0 0
      ends x.2 (0, x.1))) ∧
    (s.engineCmd p id 1 6 = some c →
      let t := e0.read .read (C + 4 * P) (4 * (N + 1))
      let d := t.2.decompressBlocks A B ((runsOf 4 (N + 1) t.1).map leNat) P
      exec (.movDecompress p id) s = .next (if t.2.err.isSome then ends t.2 (0, 0)
        else ends d.2 (match d.1 with | some b => (0x0B, b) | none => (0, 0)))) ∧
    (s.engineCmd p id 1 7 = some c → exec (.movKsload p id) s = .next (ends ((chunks 64 A N).foldl (fun e k =>
      let x := e.read .ksload k.1 k.2
      x.2.writeLocal (ksBase (fld r 32 1) + B % 2 ^ 18 + (k.1 - A)) x.1) e0) (0, 0))) ∧
    (∀ (e : Eng) (a b n : Nat) (bs : List Byte), e.err.isSome = true →
      e.copy a b n = e ∧ e.write b bs = e ∧ e.writeLocal b bs = e ∧ e.read .read a n = ([], e)) ∧
    (∀ (e : Eng) (a : Nat) (bs : List Byte) (u : State), e.err = none → e.s.writePart e.p .engine a bs = (.ok (), u) →
      e.write a bs = { e with s := u, moved := e.moved + bs.length }) ∧
    (∀ (e : Eng) (a : Nat) (bs : List Byte) (u : State) (x : MemErr) (n : Nat), e.err = none →
      e.s.writePart e.p .engine a bs = (.error (x, n), u) → e.write a bs = { e with s := u, moved := e.moved + n, err := some x })

/-- For every element class and every raw block of 16 to 4,096 bytes, a multiple of 16: the block that the encoder of R325
writes has a sound header, is as long as its header says and at most 16 bytes longer than the raw bytes, and the
decoder, with every check of R322 and R323, answers exactly the raw bytes (a block of less than 4,096 bytes as the
last one named). (R315, R316, R318, R319, R320, R321, R322, R323, R325, spec/12_condenser_compression.md) -/
def Obligations.CompressionRoundTrip : Prop :=
  ∀ (cls : Nat) (raw : List Byte) (last : Bool), cls < 8 → raw.length % 16 = 0 → 16 ≤ raw.length → raw.length ≤ 4096 →
    raw.length = 4096 ∨ last = true →
    let b := encodeBlock cls raw
    decodeBlock b last = some raw ∧ (ctfHead b).sound = true ∧ (ctfHead b).rawBytes = raw.length ∧
      b.length = 16 * (ctfHead b).clen ∧ b.length ≤ raw.length + 16

/-- For every partition and admitted command its unit may work on. FIX: a reserved OP ends BAD_OPCODE; a descriptor that
cannot be read ends with that access's status; one with a bad field ends BAD_FIELD with 64 plus its offset; else the
elements are worked on in loop order and, with STATADDR, the flags and the count of elements are written last. RDU
OPEN of a RID open at a unit it uses ends REDUCTION_REFUSED 6, any other opens the reduction at each unit it uses.
CONTRIBUTE refused by R306 ends REDUCTION_REFUSED with the code, a duplicate ends OK and counts as one, an accepted
one whose values are read is merged. Sums do not depend on the order in which values or partial states are merged.
DELTA_SEND at a tile unit merges what it holds into its device's root, DELTA_RETRY sends the kept delta again at its
time under a free tag. A LNK command begins, sends what may be sent and ends once every response has come. (R270,
R285, R291, R298, R304, R305, R306, R307, R310, R420) -/
def Obligations.FixerReductionsAndLinks : Prop :=
  ∀ (p id u : Nat) (s : State) (c : Cmd),
    let r := c.image
    let o := openOf r
    (s.engineCmd p id 2 0 = some c →
      (fixOps.contains (fld r 34 2) = false → exec (.fixTensor p id) s = .next (s.finishCmd p id 0 5 0)) ∧
      (∀ b v, fixOps.contains (fld r 34 2) = true → s.readPart p .read .engine (fld r 40 6) 320 = (.ok b, v) →
        (∀ f, blockError (fld r 34 2) b = some f → exec (.fixTensor p id) s = .next (v.finishCmd p id 320 6 (64 + f))) ∧
        (blockError (fld r 34 2) b = none → blkRnd b ≠ 4 → blkStat b = 0 →
          let n := blkCount b
          let x := (List.range n).foldl (fun x i => x.element r b [] i)
            ({ e := { s := v, p := p, moved := 320 }, a := fixSrc b 128 n, b := fixSrc b 192 n, c := fixSrc b 256 n } : FixRun)
          exec (.fixTensor p id) s = .next (x.e.finish id (0, 0)))) ∧
      (∀ e n v, fixOps.contains (fld r 34 2) = true → s.readPart p .read .engine (fld r 40 6) 320 = (.error (e, n), v) →
        ∃ m, exec (.fixTensor p id) s = .next (v.finishCmd p id m (e.status m).1 (e.status m).2) ∧
          (e = .segment ∨ e = .window → m = 0))) ∧
    (s.engineCmd p id 3 0 = some c → c.began = none →
      ((openUnits r).find? (fun u => s.ridOpen p u o.rid) = some u →
        exec (.rduOpen p id) s = .next ((s.finishCmd p id 0 0x0E 6).redRecord p u 6 o.rid o.epoch 0xFFFF)) ∧
      ((openUnits r).find? (fun u => s.ridOpen p u o.rid) = none → o.scope ≠ 2 → ∃ t, exec (.rduOpen p id) s = .next t ∧
        t.rdu.units = s.rdu.units ++ (openUnits r).map (fun u => { unit := u, part := p, cmd := id, op := o }))) ∧
    (s.engineCmd p id 3 1 = some c →
      let tile := (rduTiles r).headD 0
      let v := s.redVerdict p tile o.rid o.epoch o.declared true (fun x => x.rop == o.rop && x.rfmt == o.rfmt && x.scope == o.scope && x.k == o.k)
      (v = .duplicate → exec (.rduContribute p id) s = .next ((s.redDuplicate p tile o.rid).finishCmd p id 0 0 0)) ∧
      (∀ k, v = .refuse k → exec (.rduContribute p id) s =
        .next ((s.redRefuse p tile k o.rid o.epoch o.declared).finishCmd p id 0 0x0E k)) ∧
      (∀ b w, v = .accept → s.readPart p .read .engine o.addr (rfmtSize o.inFmt * o.w) = (.ok b, w) →
        exec (.rduContribute p id) s = .next ((w.finishCmd p id (rfmtSize o.inFmt * o.w) 0 0).redMerge p tile o.rid o.declared
          (valuesOf (rfmtSize o.inFmt) b)))) ∧
    (∀ (l m : List Val) (t : SumState), l.Perm m → l.foldl SumState.add t = m.foldl SumState.add t) ∧
    (∀ a b d : SumState, a.merge b = b.merge a ∧ (a.merge b).merge d = a.merge (b.merge d) ∧ a.merge {} = a ∧
      ∀ v, (a.merge b).add v = a.merge (b.add v)) ∧
    (∀ rid x, u ≠ 16 → s.redUnit p u rid = some x → x.op.scope ≠ 0 → x.acc.any = true → exec (.deltaSend p rid u) s =
      .next (((s.modRed p u rid (fun y => { y with acc := {} })).modRed p 16 rid (fun y => { y with acc := y.acc.merge x.op x.acc })).redCheck p 16 rid)) ∧
    (∀ rid x d at_ tag, s.redUnit p 16 rid = some x → x.inflight = some d → x.retryAt = some at_ → s.freeTag (s.redHome rid) = some tag →
      exec (.deltaRetry p rid) s = .next (((s.advance at_).modRed p 16 rid (fun y => { y with retryAt := none })).sendRed 0x10
        (s.redHome rid) tag p rid x.op.epoch (if d.any then x.op.deltaBytes d else []) (.delta p rid))) ∧
    (∀ op, s.engineCmd p id 5 op = some c →
      let t := ((s.modCmd p id (fun c => { c with began := c.began.or (some s.now) })).lnkSend p id op (lnkLen r / 208 + 3)).lnkDone p id
      (op = 0 → exec (.lnkPut p id) s = .next t) ∧ (op = 1 → exec (.lnkGet p id) s = .next t))

/-- For every partition and admitted GRN command its unit may work on: SEED gives the stream the state of R337 for seed
PB:PA; SAVE writes the stream's 2,064-byte image; LOAD installs an image once all of it is read, and a saved image
loaded again gives the same stream; BITS, MASK, UNIFORM and NORMAL reserve the rounds of R339 and write one element
per draw; DISCRETE and SAMPLE reserve their rounds before they read their row; TOPK_EXPORT ranks its row and leaves
its stream. Reserving R rounds moves ROUNDS on by R and no other stream. DISCRETE never chooses an entry of weight 0,
and chooses one whenever some weight is positive. (R334, R335, R336, R337, R338, R339, R342, R343, R344, R346, R347,
R348) -/
def Obligations.GrainCommands : Prop :=
  ∀ (p id : Nat) (s : State) (c : Cmd),
    let r := c.image
    let g := fld r 32 1
    let n := grnCount r
    let k := grnStream r
    let row := fun u : State => u.readPart p .read .engine (grnSrc r) (4 * n)
    let words := fun b : List Byte => (List.range (b.length / 4)).map (fun i => fieldLE b (4 * i) 4)
    let out := fun (u : State) (m : Nat) (bs : List Byte) => (({ s := u, p := p, moved := m } : Eng).writeAll (grnDst r) bs).finish id (0, 0)
    (s.engineCmd p id 4 0 = some c →
      (n = 0 → exec (.grnSeed p id) s =
        .next ((s.setGrain g k (seedStream k (BitVec.ofNat 64 (grnPa r + 2 ^ 32 * grnPb r)))).finishCmd p id 0 0 0)) ∧
      (n = 2 → exec (.grnSeedSave p id) s = .next (out s 0 (s.grain g k).image)) ∧
      (∀ b u, n = 1 → s.readPart p .read .engine (grnSrc r) 2064 = (.ok b, u) →
        exec (.grnSeedLoad p id) s = .next ((u.setGrain g k (streamOf b)).finishCmd p id 2064 0 0))) ∧
    (s.engineCmd p id 4 1 = some c →
      let x := s.reserve g k (ceilDiv n 64)
      exec (.grnBits p id) s = .next (out x.2 0 ((List.range n).flatMap (fun i => natLE 8 (draw64 x.1 i).toNat)))) ∧
    (s.engineCmd p id 4 2 = some c →
      let x := s.reserve g k (ceilDiv n 256)
      exec (.grnMask p id) s = .next (out x.2 0 ((List.range (ceilDiv n 8)).map (fun j => BitVec.ofNat 8 ((List.range 8).foldl
        (fun b m => if decide (8 * j + m < n) && decide (draw16 x.1 (8 * j + m) < grnPa r) then b + 2 ^ m else b) 0))))) ∧
    (s.engineCmd p id 4 3 = some c →
      let x := s.reserve g k (ceilDiv n 64)
      exec (.grnUniform p id) s = .next (out x.2 0 ((List.range n).flatMap (fun i =>
        natLE (grnSize (grnK r)) (uniformBits (grnK r) (draw64 x.1 i).toNat))))) ∧
    (s.engineCmd p id 4 4 = some c →
      let x := s.reserve g k (2 * ceilDiv n 64)
      exec (.grnNormal p id) s = .next (out x.2 0 ((List.range n).flatMap (fun i =>
        natLE (grnSize (grnK r)) (normalBits (grnK r) (grnPa r) (grnPb r) (drawPair x.1 i).1.toNat (drawPair x.1 i).2.toNat))))) ∧
    (∀ b b2 u v, s.engineCmd p id 4 5 = some c →
      let x := s.reserve g k (ceilDiv (grnPa r) 64)
      row x.2 = (.ok b, u) → row u = (.ok b2, v) → exec (.grnDiscrete p id) s = .next (out v (8 * n) ((List.range (grnPa r)).flatMap (fun i =>
        natLE 4 (discrete ((words b).map weightOf) (draw64 x.1 i).toNat))))) ∧
    (∀ b u, s.engineCmd p id 4 6 = some c →
      let x := s.reserve g k 1
      row x.2 = (.ok b, u) → exec (.grnSample p id) s =
        .next (out u (4 * n) (sampleBytes (sample (words b) (grnPa r) (grnPb r) (grnK r) (draw64 x.1 0).toNat)))) ∧
    (∀ b u, s.engineCmd p id 4 7 = some c → row s = (.ok b, u) → ∃ bs, exec (.grnTopkExport p id) s = .next (out u (4 * n) bs) ∧
      bs.length = 8 * grnK r ∧
      bs.take (8 * ((ranked (words b)).take (grnK r)).length) = ((ranked (words b)).take (grnK r)).flatMap (fun x => natLE 4 x.1 ++ natLE 4 x.2)) ∧
    (∀ m, ((s.reserve g k m).2.grain g k).rounds = (s.grain g k).rounds + BitVec.ofNat 64 m ∧
      ∀ h j, 32 * h + j ≠ 32 * g + k → (s.reserve g k m).2.grain h j = s.grain h j) ∧
    (∀ x : GStream, x.lanes.length = 64 → (∀ l ∈ x.lanes, l ≠ {}) → streamOf x.image = x) ∧
    (∀ (ws : List Nat) (w : Nat), w < 2 ^ 64 → ws.length < 2 ^ 32 → (∃ v ∈ ws, v ≠ 0) →
      ∃ v, ws[discrete ws w]? = some v ∧ v ≠ 0)

/-- For every state in which the PF's writes to PLATE take effect. With EN set, STAGE with nothing staged copies the plate
and starts its validation (mode 3 fails FIELD at offset 0); while one is being copied, validated or staged it is
refused BUSY and the plate kept; ABORT discards what is staged and gives back its assent. When validation is done: the
first failing check of R87 fails the plate with its code and offset; then BUSY of R90 and R91; then LATE for a FRAME
target already reached; else the plate is staged with result OK, and the assent it needs is reserved. START, STOP,
RELEASE and MIGRATE_OUT of a partition whose state allows them are entered as its request, and any other raises
CMD_REFUSED and enters nothing: START needs OFF, STOP needs LOADING, RUNNING or HELD, RELEASE needs HELD with its
cause cleared, MIGRATE_OUT needs RUNNING. PG_RELEASE does so from the partition's own page under its session, and is
denied without one. (R87, R88, R89, R90, R91, R96, R98, R100, R102, R453, R465) -/
def Obligations.PlateAndRequests : Prop :=
  (∀ (host : Option (List Byte)) (s : State), s.pfServes 1 → s.plate.en = true →
    let u : State := { s with plate := { s.plate with badCmd := false } }
    let mode := (u.reg (pltKey 0x1C)).toNat
    (s.plate.stage ∈ [.copying, .validating, .staged] →
      exec (.pltStage host) s = .next { u with plate := { u.plate with result := 16, errOffset := 0 } }) ∧
    (s.plate.stage ∉ [.copying, .validating, .staged] → mode % 4 = 3 → exec (.pltStage host) s = .next (u.stageFail (10, 0))) ∧
    (s.plate.stage ∉ [.copying, .validating, .staged] → mode % 4 ≠ 3 → ∃ t, exec (.pltStage host) s = .next t ∧
      t.plate.stage = .validating ∧ t.plate.staged = some {
        bytes := (u.stageCopy host).1, mode := mode % 4, persist := bitOf mode 8,
        target := ((u.stageCopy host).2.reg (pltKey 0x20)).toNat + 2 ^ 32 * ((u.stageCopy host).2.reg (pltKey 0x24)).toNat,
        len := ((u.stageCopy host).2.reg (pltKey 0x18)).toNat }) ∧
    (∀ g, s.plate.staged = some g → exec .pltAbort s =
      .next (({ u with plate := { u.plate with stage := .idle, staged := none } }).returnAssent g.assent)) ∧
    (s.plate.staged = none → exec .pltAbort s = .next u)) ∧
  (∀ (s : State) (e : Nat × Nat), s.stageFail e = (({ s with plate := { s.plate with
      stage := .failed, staged := none, result := e.1, errOffset := e.2 } }).pltEvent 2).logErr { cls := 0, source := 0x0B, code := 4, detail := e.1 }) ∧
  (∀ (t : Nat) (s : State) (g : Staged), s.plate.stage = .validating → s.plate.staged = some g →
    let u := (s.advance t).expireAssents
    let v := u.validate g.bytes g.len false
    (∀ e, v = .error e → exec (.plateValidationDone t) s = .next (u.stageFail e)) ∧
    (∀ pl a, v = .ok (pl, a) →
      (u.installBusy pl = true → exec (.plateValidationDone t) s = .next (u.stageFail (16, 0))) ∧
      (u.installBusy pl = false → g.mode = 1 → g.target ≤ u.sht.frame.toNat → exec (.plateValidationDone t) s = .next (u.stageFail (17, 0))) ∧
      (u.installBusy pl = false → ¬ (g.mode = 1 ∧ g.target ≤ u.sht.frame.toNat) → ∃ x, exec (.plateValidationDone t) s = .next x ∧
        x.plate.stage = .staged ∧ x.plate.staged = some { g with plate := pl, assent := a } ∧ x.plate.result = 0 ∧
        ∀ n y, a = some n → u.assent n = some y → x.assent n = some { y with state := .reserved }))) ∧
  (∀ (p : Nat) (s : State), p < 16 →
    let st := (s.part p).state
    let u : State := { s with plate := { s.plate with badCmd := false } }
    let takes := fun (i : Instr) (r : PartReq) (fits : Prop) =>
      (fits → exec i s = .next (u.modPart p (fun x => { x with request := some r }))) ∧ (¬ fits → exec i s = .next (u.pltEvent 5))
    (s.pfServes 1 →
      takes (.pltStart p) .start (st = .off ∧ s.mayStart p = true ∧ s.stagedChanges p = false) ∧
      takes (.pltStop p) .stop (st = .loading ∨ st = .running ∨ st = .held) ∧
      takes (.pltRelease p) .release (st = .held ∧ s.causePersists p = false) ∧
      (∀ dev part, dev < 256 → part < 16 → takes (.migrateOut p dev part) (.migrateOut dev part) (st = .running))) ∧
    (s.pageOpen p →
      let w : State := { s with host := { s.host with pgBadCmd := NatMap.set false s.host.pgBadCmd p false } }
      (st = .held → s.causePersists p = false → exec (.pgRelease p) s = .next (w.modPart p (fun x => { x with request := some .release }))) ∧
      (¬ (st = .held ∧ s.causePersists p = false) → exec (.pgRelease p) s = .next (w.pltEvent 5))) ∧
    (s.vfThere p = true → s.vfServed p = true → s.pageDefined p = false ∨ s.sessionOpen p = false →
      exec (.pgRelease p) s = .next (s.denyPage p)))

/-- For a channel that serves requests and its line u. CHANNEL_READ of a clean line changes no memory; of a corrected one
writes the corrected line back, sound; of a poisoned or uncorrectable one changes no memory and is recorded.
CHANNEL_WRITE gives the line its 64 bytes, discards its write-combining entry, clears its poison, and leaves every
other byte. PARTIAL_WRITE of fewer than 64 bytes to a line without an entry, in a buffer with room, allocates one
behind the others and leaves memory; to a line with one it merges over it. WC_AGE_FLUSH flushes exactly the entries
256 cycles old, WC_MARKER every entry of a channel the core has written to. A read of a line with an entry gives the
entry's valid bytes over the line. SRAM_ACCESS reads a word, corrects one flipped bit, reports two, and a whole-word
write clears what was wrong. REFRESH changes no contents. A channel that does not serve changes nothing. (R353, R363,
R367, R368, R371, R372, R373, R374, spec/14_stack_memory_system.md) -/
def Obligations.ChannelsAndSrams : Prop :=
  ∀ (ch l : Nat) (s : State),
    let u := s.chanLine ch l
    (s.chanServes ch = true →
      (∀ flip die req,
        let v := s.flipUnit u (flip % 2 ^ 576)
        let w := v.storedLine u
        let fin := fun t : State => match die with | some d => t.onDie ch d | none => t
        (classify w.1 w.2 = .clean → exec (.channelRead ch l flip die req) s = .next (fin v)) ∧
        (∀ e x, classify w.1 w.2 = .corrected e x → ∃ t, exec (.channelRead ch l flip die req) s = .next (fin t) ∧
          t.mem = ((v.rawWrite u (lineBytes (fixSymbol w.1 e x))).setUnit u false).mem) ∧
        (classify w.1 w.2 = .poisoned → exec (.channelRead ch l flip die req) s = .next (fin (v.lineUE ch u true (Requester.ofCode req)))) ∧
        (classify w.1 w.2 = .uncorrectable →
          exec (.channelRead ch l flip die req) s = .next (fin (v.lineUE ch u false (Requester.ofCode req)))) ∧
        ∀ wr r, (v.lineUE ch u wr r).mem = v.mem) ∧
      (∀ data, ∃ t, exec (.channelWrite ch l data) s = .next t ∧
        (∀ i, i < 64 → t.byteAt (u + i) = (lineBytes data).getD i 0) ∧ (∀ a, a < u ∨ u + 64 ≤ a → t.byteAt a = s.byteAt a) ∧
        t.isPoisoned u = false ∧ t.flipsOf u = 0 ∧ (∀ e ∈ t.wcOf ch, e.line ≠ u)) ∧
      (∀ data valid core, (s.wcOf ch).length < 16 → (∀ e ∈ s.wcOf ch, e.line ≠ u) → valid ≠ BitVec.allOnes 64 →
        ∃ t, exec (.partialWrite ch l data valid core) s = .next t ∧ t.mem.bytes = s.mem.bytes ∧
          t.wcOf ch = s.wcOf ch ++ [{
            line := u, valid := valid, data := mergeLine 0 data valid, alloc := s.now,
            writer := if core.isSome then .core else .engine, writerCore := core.getD 0 }]) ∧
      (∀ data valid core a e b, s.wcOf ch = a ++ e :: b → e.line = u → (∀ x ∈ a ++ b, x.line ≠ u) → e.valid ||| valid ≠ BitVec.allOnes 64 →
        ∃ t, exec (.partialWrite ch l data valid core) s = .next t ∧ t.mem.bytes = s.mem.bytes ∧
          t.wcOf ch = a ++ { e with
            valid := e.valid ||| valid, data := mergeLine e.data data valid,
            writer := if core.isSome then .core else .engine, writerCore := core.getD 0 } :: b)) ∧
    (s.chanServes ch = false → (∀ flip die req, exec (.channelRead ch l flip die req) s = .next s) ∧
      (∀ data, exec (.channelWrite ch l data) s = .next s) ∧ ∀ data valid core, exec (.partialWrite ch l data valid core) s = .next s) ∧
    (∀ t, ∃ v, exec (.wcAgeFlush ch t) s = .next v ∧
      v.wcOf ch = (s.wcOf ch).filter (fun e => !decide (e.alloc + 256 ≤ max s.now t))) ∧
    (∀ c, (ch ∈ (s.core c).wcChans → ∃ v, exec (.wcMarker c ch) s = .next v ∧ v.wcOf ch = []) ∧
      (ch ∉ (s.core c).wcChans → exec (.wcMarker c ch) s = .next s)) ∧
    (∀ g req d e v, s.chanOf g (u % 2 ^ 32) = ch → s.readDramLine ch u req = (.ok d, v) → (v.wcOf ch).find? (fun e => e.line == u) = some e →
      (s.readLine g u req).1 = .ok (lineBytes (mergeLine d e.data e.valid))) ∧
    (∀ g kind i flip off data, s.granExcluded g = false →
      let a := (if kind = 0 then trayBase g else ksBase g) + 8 * i
      let v := if flip = 0 then s else s.flipUnit a (flip % 2 ^ 72)
      (data = [] → exec (.sramAccess g kind i flip off data) s = .next (v.readWord g kind a).2 ∧
        (v.isPoisoned a = false → v.flipsOf a = 0 → (v.readWord g kind a).2 = v) ∧
        (v.isPoisoned a = false → popcount 72 (v.flipsOf a) = 1 → v.flipsOf a ≠ 0 →
          (v.readWord g kind a).1 = .ok (v.rawBytes a 8) ∧ (v.readWord g kind a).2.flipsOf a = 0) ∧
        (v.isPoisoned a = true → (v.readWord g kind a).1 = .error .poison)) ∧
      (data.length = 8 → off % 8 = 0 → ∃ t, exec (.sramAccess g kind i flip off data) s = .next t ∧
        (∀ j, j < 8 → t.byteAt (a + j) = data.getD j 0) ∧ (∀ x, x < a ∨ a + 8 ≤ x → t.byteAt x = s.byteAt x) ∧
        t.isPoisoned a = false ∧ t.flipsOf a = 0) ∧
      (data ≠ [] → exec (.sramAccess g kind i flip off data) s =
        .next (v.writeWord g kind a (a + off % 8) (data.take (8 - off % 8))))) ∧
    (∀ t, exec (.refresh t) s = .next { s with now := max s.now t })

/-- For every 64-byte line, every symbol position 0 to 35 (four check symbols and 32 data symbols) and every nonzero
change of that symbol's 16 bits, the stored code word with that one symbol changed is classified as corrected at that
position with that change, and the correction gives the line back. The unchanged word is clean, and the word stored
with every check byte inverted is poisoned. (R370, R371, R372, spec/14_stack_memory_system.md) -/
def Obligations.LineCodeCorrectsOneSymbol : Prop :=
  ∀ (d : Line) (x : BitVec 16), x ≠ 0 →
    classify d (checkBits d) = .clean ∧
    classify d (checkBits d ^^^ BitVec.allOnes 64) = .poisoned ∧
    (∀ j, j < 4 → classify d (checkBits d ^^^ (x.setWidth 64 <<< (16 * j))) = .corrected j x ∧ fixSymbol d j x = d) ∧
    (∀ k, k < 32 → let bad := d ^^^ (x.setWidth 512 <<< (16 * k))
      classify bad (checkBits d) = .corrected (k + 4) x ∧ fixSymbol bad (k + 4) x = d)

/-- THERMAL_READING of an enabled stack keeps the reading, doubles its refresh at 85 degrees C or more and ends that at 82
or less, raises the package's warning at the coolant class's threshold, halts the stack at 105 or more and trips at
110 or more. SENSOR_SILENCE halts an enabled stack that has given no reading for 100 us, and no other. A halt marks
the stack, flushes the write-combining buffers of its 32 channels and keeps a stack already halted as it is.
WARNING_CLEAR ends the warning once every stack has stayed at or below the threshold less 3 degrees C for 100 ms.
IODIE_JUNCTION_READING keeps the reading, marks the die hot from 105 until it falls below 102, and trips at 115 or
more. The trip is latched once. (R374, R375, R376, R377, R554, R555, R569, R570) -/
def Obligations.Temperatures : Prop :=
  ∀ (tile t : Nat) (temp : Int) (s : State),
    let v := s.advance t
    let w := (v.modStack tile (fun x => { x with
      temp := temp, reads := temp :: x.reads, lastRead := some v.now,
      refresh2x := if temp ≥ 85 then true else if temp ≤ 82 then false else x.refresh2x,
      hotAt := if temp ≥ 95 then v.now else x.hotAt })).judgeWarning temp
    ((s.stack tile).enabled = true →
      (temp < 105 → exec (.thermalReading tile temp t) s = .next w) ∧
      (105 ≤ temp → temp < 110 → exec (.thermalReading tile temp t) s = .next (w.haltStack tile 1)) ∧
      (110 ≤ temp → exec (.thermalReading tile temp t) s = .next ((w.haltStack tile 1).trip tile))) ∧
    ((v.judgeWarning temp).env.warning = (s.env.warning || decide (v.warnAt ≤ temp))) ∧
    ((s.stack tile).enabled = true → (s.stack tile).lastRead.getD 0 + 150000 ≤ max s.now t →
      exec (.sensorSilence tile t) s = .next (v.haltStack tile 3)) ∧
    (((s.stack tile).enabled = false ∨ max s.now t < (s.stack tile).lastRead.getD 0 + 150000) → exec (.sensorSilence tile t) s = .next v) ∧
    (∀ k, (s.stack tile).halted = true → s.haltStack tile k = s) ∧
    (∀ k, (s.stack tile).halted = false → ((s.haltStack tile k).stack tile).halted = true ∧ ((s.haltStack tile k).stack tile).hotAt = s.now) ∧
    (s.env.warmAt + 150000000 ≤ max s.now t → exec (.warningClear t) s = .next { v with env := { v.env with warning := false } }) ∧
    (max s.now t < s.env.warmAt + 150000000 → exec (.warningClear t) s = .next v) ∧
    (∃ x, exec (.iodieJunctionReading tile temp t) s = .next x ∧ NatMap.get 0 x.env.junction tile = temp ∧
      (tile ∈ x.env.junctionHot ↔ (105 ≤ temp ∨ (102 ≤ temp ∧ tile ∈ s.env.junctionHot))) ∧
      (x.env.trip = true ↔ (115 ≤ temp ∨ s.env.trip = true))) ∧
    (∀ unit, (s.env.trip = true → s.trip unit = s) ∧
      (s.env.trip = false → s.trip unit = ({ s with env := { s.env with trip := true } }).logErr { cls := 3, source := 6, code := 4, unit := unit }))

/-- For every channel and state in which the PF's writes to its block take effect. ATP_CTRL.EN enables the block and
writing it 0 stops a run. With EN set: START while running is BADCMD, of an unsound configuration sets CFGERR, of an
untrained channel leaves IDLE with NOTRAINED, of one not in test state, under repair or with its stack halted leaves
IDLE with REFUSED, and else starts the run; STOP makes a run end, CLEAR zeroes every counter unless a run goes on.
AGITATOR_ISSUE of a due request writes the run's data to the next line, or enters a read if its pseudo-channel has a
credit free, and counts it. PROOF_CHECK judges the oldest read: one that equals the expected data only counts as
checked, one that differs counts a mismatch and its bits, and the first error is captured. AGITATOR_RUN_END, when
every read is checked, leaves DONE after the last pass and STOPPED otherwise. An ascending or odd-stride pass visits
no line twice. (R381, R382, R383, R384, R386, R387, R388, R390) -/
def Obligations.MemoryTest : Prop :=
  (∀ (ch : Nat) (s : State),
    let a := s.agit ch
    let c := s.agCfg ch
    (s.pfServes 2 →
      (∀ x : Word, exec (.atpCtrlWrite ch x) s = .next (s.modAgit ch (fun a =>
        if x.getLsbD 0 then { a with en := true }
        else { a with en := false, wign := false, ending := if a.state = .running then a.ending.or (some 2) else a.ending }))) ∧
      (a.en = true →
        (a.state = .running → exec (.agStart ch) s = .next (s.modAgit ch (fun a => { a with badCmd := true }))) ∧
        (a.state ≠ .running → c.sound = false → exec (.agStart ch) s = .next (s.modAgit ch (fun a => { a with cfgErr := true, badCmd := false }))) ∧
        (a.state ≠ .running → c.sound = true → s.trained ch = false → exec (.agStart ch) s =
          .next (s.modAgit ch (fun a => { a with cfgErr := false, badCmd := false, state := .idle, reason := 7 }))) ∧
        (a.state ≠ .running → c.sound = true → s.trained ch = true →
          s.testState ch = false ∨ s.repairOn ch = true ∨ (s.stack (ch / 32)).halted = true → exec (.agStart ch) s =
          .next (s.modAgit ch (fun a => { a with cfgErr := false, badCmd := false, state := .idle, reason := 6 }))) ∧
        (a.state ≠ .running → c.sound = true → s.trained ch = true → s.testState ch = true → s.repairOn ch = false →
          (s.stack (ch / 32)).halted = false → ∃ t, exec (.agStart ch) s = .next t ∧ (t.agit ch).state = .running ∧
            (t.agit ch).reason = 0 ∧ (t.agit ch).index = 0 ∧ (t.agit ch).runPass = 0 ∧ (t.agit ch).startedAt = s.now ∧
            (t.agit ch).mismatch = a.mismatch ∧ (t.agit ch).feAddr = a.feAddr ∧ t.mem = s.mem) ∧
        (a.state = .running → a.ending = none → exec (.agStop ch) s =
          .next (s.modAgit ch (fun a => { a with badCmd := false, ending := some 2 }))) ∧
        (a.state ≠ .running → exec (.agStop ch) s = .next (s.modAgit ch (fun a => { a with badCmd := false }))) ∧
        (a.state = .running → exec (.agClear ch) s = .next (s.modAgit ch (fun a => { a with badCmd := true }))) ∧
        (a.state ≠ .running → ∃ t, exec (.agClear ch) s = .next t ∧ (t.agit ch).checked = 0 ∧ (t.agit ch).mismatch = 0 ∧
          (t.agit ch).bits = 0 ∧ (t.agit ch).feAddr = 0 ∧ (t.agit ch).err = false ∧ (t.agit ch).state = a.state))) ∧
    (∀ t, a.state = .running → a.ending = none → a.index < c.requests → (∀ x, a.lastIssue = some x → x + max 1 c.interval ≤ max s.now t) →
      let u := s.advance t
      let l := c.lineOf a.index
      (c.isWrite a.index = true → ∃ v, exec (.agitatorIssue ch t) s = .next v ∧
        v.mem = (u.agWrite ch l (c.data l (s.chanLine ch l) a.runPass) c.wpart).mem ∧ (v.agit ch).reqs = a.reqs + 1) ∧
      (c.isWrite a.index = false → (a.reads.filter (fun r => r.line / 4 % 2 == l / 4 % 2)).length < 8 →
        ∃ v, exec (.agitatorIssue ch t) s = .next v ∧ v.mem = (u.agRead ch l a.runPass a.index c.eccOff).2.mem ∧
          (v.agit ch).reads = a.reads ++ [(u.agRead ch l a.runPass a.index c.eccOff).1] ∧ (v.agit ch).reqs = a.reqs + 1)) ∧
    (∀ r l, a.reads = r :: l → ∃ v, exec (.proofCheck ch) s = .next v ∧ v.mem = s.mem ∧
      (v.agit ch) = (({ a with reads := l } : Agit).judge c r (c.data r.line (s.chanLine ch r.line) r.pass)).settle c) ∧
    (∀ t k, a.state = .running → a.reads = [] → a.ending = some k → ∃ v, exec (.agitatorRunEnd ch t) s = .next v ∧
      (v.agit ch).state = (if k = 1 then .done else .stopped) ∧ (v.agit ch).reason = k ∧
      (v.agit ch).cycles = BitVec.ofNat 64 (max s.now t - a.startedAt))) ∧
  (∀ (a : Agit) (c : AgCfg) (r : AgRead) (want : Line), r.ue = false → c.eccOff = false →
    (r.data = want → a.judge c r want = { a with checked := a.checked + 1, ceCount := if r.ce then satInc a.ceCount else a.ceCount }) ∧
    (r.data ≠ want → (a.judge c r want).mismatch = satInc a.mismatch ∧ (a.judge c r want).err = true ∧
      (a.judge c r want).bits = satAdd a.bits (popcount 512 (r.data ^^^ want).toNat) ∧
      (a.feAddr.getLsbD 31 = false → (a.judge c r want).feXor = r.data ^^^ want ∧ (a.judge c r want).feAddr = BitVec.ofNat 32 (r.line + 2 ^ 31)) ∧
      (a.feAddr.getLsbD 31 = true → (a.judge c r want).feXor = a.feXor ∧ (a.judge c r want).feAddr = a.feAddr))) ∧
  (∀ (c : AgCfg) (i j : Nat), c.sound = true → c.apat ≤ 1 → i < c.count → j < c.count → c.seq i = c.seq j → i = j)

/-- For every state in which the PF's writes to REPAIR take effect, the block enabled and no operation in progress: APPLY
of a request refused for FIELD, BUSY, AGITATOR, ASSENT or MAP_FULL, in that order, completes with that code and
records nothing; an accepted PPR or lane remap becomes the operation in progress; an accepted channel or core
exclusion is entered at the end of the map, persisted, and completes. REMOVE of a bad request, one not in the map, or
a HARD_PPR ends FIELD, NOT_FOUND, PERMANENT; else its first entry leaves the map. DIGEST keeps the digest of the
request and the map's generation. When the port answers well, the affected lines are zeroed and the entry recorded;
else the operation ends NO_RESOURCE or INTERFACE. A parity error is a record of its unit's class; an edge's first lost
module is a NOTICE, its second FATAL; a retried flit is CORRECTED. The flash log takes the oldest FATAL record first.
(R391, R392, R393, R394, R523, R524, R528, R535) -/
def Obligations.RepairAndInternalErrors : Prop :=
  (∀ (s : State) (stores : Bool), s.pfServes 2 → s.repair.en = true → s.repair.op = none →
    let o : RepairOp := { request := s.repairReq, origin := 1 }
    let u := s.expireAssents
    let r := s.repairReq
    let busy := fun v : State => { v with repair := { v.repair with op := some o, done := false, badCmd := false } }
    (∀ k, u.applyRefused r = some k → exec (.rprApply stores) s = .next ((busy u).endRepair k)) ∧
    (u.applyRefused r = none → byteAt r 0 ≤ 3 → exec (.rprApply stores) s = .next (busy (u.takeRepairAssent r))) ∧
    (u.applyRefused r = none → 3 < byteAt r 0 → ∃ v, exec (.rprApply stores) s = .next v ∧
      v.repair.map = s.repair.map ++ [repairEntry r 1] ∧ v.repair.op = none ∧ v.repair.done = true ∧
      v.repair.result = (if stores then 0 else 7)) ∧
    (repairSound r = false → exec (.rprRemove stores) s = .next ((busy s).endRepair 2)) ∧
    (repairSound r = true → s.repair.map.any (fun e => sameRepair e r) = false → exec (.rprRemove stores) s = .next ((busy s).endRepair 8)) ∧
    (repairSound r = true → s.repair.map.any (fun e => sameRepair e r) = true → byteAt r 0 = 2 →
      exec (.rprRemove stores) s = .next ((busy s).endRepair 9)) ∧
    (repairSound r = true → s.repair.map.any (fun e => sameRepair e r) = true → byteAt r 0 ≠ 2 →
      ∃ v, exec (.rprRemove stores) s = .next v ∧ v.repair.map = dropRepair r s.repair.map ∧ v.repair.op = none ∧
        v.repair.result = (if stores then 0 else 7)) ∧
    (∃ v, exec .rprDigest s = .next v ∧ v.repair.digest = Config.sha384 (r ++ natLE 4 s.repair.gen) ∧ v.repair.result = 0 ∧
      v.repair.map = s.repair.map)) ∧
  (∀ (s : State) (o : RepairOp) (lines : List Nat) (stores : Bool) (code : Nat), s.repair.op = some o →
    (code ≠ 0 → exec (.repairOperationComplete code lines stores) s = .next (s.endRepair (if code = 3 then 3 else 5))) ∧
    (let v := lines.foldl (fun u l => u.fullWrite (reqChan o.request) (u.chanLine (reqChan o.request) (l % 2 ^ 25)) 0) s
     ∃ t, exec (.repairOperationComplete 0 lines stores) s = .next t ∧ t.mem = v.mem ∧
      t.repair.map = s.repair.map ++ [repairEntry o.request o.origin] ∧ t.repair.op = none)) ∧
  (∀ (s : State) (k : Nat), s.repair.op = none → s.endRepair k = s) ∧
  (∀ (s : State) (k : Nat) (o : RepairOp), s.repair.op = some o → (s.endRepair k).repair =
    { s.repair with op := none, done := true, result := k } ∧ (s.endRepair k).mem = s.mem) ∧
  (∀ (s : State) (t u : Nat),
    let v := s.advance t
    exec (.parityError 0 u t) s = .next (v.logErr { cls := 2, source := 0x0F, code := 1, part := s.ownerByte u, unit := u }) ∧
    exec (.parityError 1 u t) s = .next (v.logErr { cls := 2, source := 0x0F, code := 2, part := if s.pageDefined u then u else 255, unit := u }) ∧
    exec (.parityError 2 u t) s = .next ((v.logErr { cls := 3, source := 0x0F, code := 3, unit := u }).portsDark
      ((List.range 16).filter (fun q => q % 4 == u / 4))) ∧
    exec (.parityError 3 u t) s = .next ((List.range 16).foldl State.holdNow
      ((v.logErr { cls := 3, source := 0x0F, code := 4, unit := 17 + u }).portsDark ((List.range 16).filter (fun q => q / 8 == u)))) ∧
    (∀ a : ErrArg, a.cls = 3 → (s.logErr a).err.fatal = true) ∧
    exec (.meshFlitRetry u t) s = .next (v.logErr { cls := 1, source := 7, code := 1, unit := u }) ∧
    (∀ ports, NatMap.get 0 s.units.edgeLost u = 0 → ∃ x, exec (.meshEdgeFailure u ports t) s = .next x ∧
      NatMap.get 0 x.units.edgeLost u = 1 ∧ x.err.fatal = s.err.fatal ∧ x.links = s.links) ∧
    (∀ ports, NatMap.get 0 s.units.edgeLost u = 1 →
      let w : State := { v with units := { s.units with edgeLost := NatMap.set 0 s.units.edgeLost u 2 }, boot := { s.boot with degraded := true } }
      exec (.meshEdgeFailure u ports t) s = .next ((w.logErr { cls := 3, source := 7, code := 3, unit := u }).portsDark ports))) ∧
  (∀ (s : State) (stores : Bool) (r : ErrRec), s.mgmt.up = true → nextLogged s.err.stream = some r →
    ∃ t, exec (.flashLogWrite stores) s = .next t ∧ t = { s with err := t.err } ∧
      (stores = true → t.err.flash.getLast? = some r ∧ t.err.flashLost = s.err.flashLost) ∧
      (stores = false → t.err.flash = s.err.flash ∧ t.err.flashLost = satInc s.err.flashLost) ∧
      (r.cls ≠ 3 → ∀ x, StreamEntry.record x ∈ s.err.stream → x.cls ≠ 3))

/-- For every state and port: while the port is not UP, no flit counts and none is sent. While it is UP, a block that
fails its code or CRC is counted and draws a NAK, and the 65th in 1 ms a retrain; every sound flit's ACK and credits
are taken; a reserved kind or field is a violation; a NULL does no more; a NAK sends again what is unacknowledged from
its number on, and the eighth for one number retrains; a DATA flit is accepted in sequence where its slice, credits
and messages are sound, dropped 1 to 2,047 behind, else NAKed. A second NAK waits 1 µs. An ACK of a number not sent is
a violation. A port sends first what it must repeat, then a DATA flit it has credit and room for, kept until
acknowledged, else a NULL; 10 µs without progress repeat all. A retrain keeps sequences; the fourth in 1 s holds the
port dark; 100 ms end it. Training, five echoes and a matching identity bring a port UP; a mismatch holds it dark.
RETRAIN and DARK act by the port's state. Sixteen violations in 1 ms retrain, the third time in 10 s hold the port
dark. A signal on an unconnected port is recorded. (R403, R404, R405, R406, R409, R411, R412, R414, R426, R427, R428,
R101) -/
def Obligations.LinkFlitsAndPortStates : Prop :=
  ∀ (s : State) (q t : Nat),
    let u := s.advance t
    let p := s.port q
    (p.state ≠ .up → ∀ b tick,
      exec (.dataFlit q b t) s = Host.Outcome.next u ∧ exec (.nullFlit q b t) s = .next u ∧ exec (.nakFlit q b t) s = .next u ∧
        exec (.badBlock q tick t) s = .next u ∧ exec (.flitTransmit q t) s = .next u) ∧
    (p.state = .up →
      let ds := stamp u.now (1000 * cyclesPerMicro) p.discards
      let bad := ((u.incReg (mbxKey q 0x34)).modPort q (fun p => { p with discards := ds })).sendNak q
      (ds.length ≤ 64 → exec (.badBlock q false t) s = .next bad) ∧
      (64 < ds.length → exec (.badBlock q false t) s =
        .next ((bad.modPort q (fun p => { p with discards := [] })).portRetrain q .retrain)) ∧
      (∀ b, unblock b = none → exec (.dataFlit q b t) s = exec (.badBlock q false t) s ∧
        exec (.nullFlit q b t) s = exec (.badBlock q false t) s ∧ exec (.nakFlit q b t) s = exec (.badBlock q false t) s) ∧
      (∀ b f x, unblock b = some (f, x) → fieldLE f 252 4 ≠ flitCrc (f.take 252) →
        exec (.dataFlit q b t) s = exec (.badBlock q false t) s) ∧
      (∀ b f x, unblock b = some (f, x) → fieldLE f 252 4 = flitCrc (f.take 252) →
        let w := if x then u.incReg (mbxKey q 0x38) else u
        let v := w.takeHeader q f
        (5 ≤ flitKind f → exec (.dataFlit q b t) s = .next (w.violation q 1 (flitSeq f))) ∧
        (flitKind f = 1 → flitFieldBad f = true → exec (.dataFlit q b t) s = .next ((w.violation q 2 (flitSeq f)).sendNak q)) ∧
        (flitKind f = 0 → flitFieldBad f = false → exec (.nullFlit q b t) s = .next v) ∧
        (flitFieldBad f = false → (v.port q).state = .up →
          (flitKind f = 2 →
            let y := v.port q
            let run := if y.nakRun ≠ 0 ∧ y.nakSeq = flitSeq f then y.nakRun + 1 else 1
            let z := (v.incReg (mbxKey q 0x3C)).modPort q (fun p => { p with
              nakSeq := flitSeq f, nakRun := run,
              replay := p.retry.filter (fun x => decide ((x.seq + 4096 - flitSeq f) % 4096 < 2048)) })
            (run < 8 → exec (.nakFlit q b t) s = .next z) ∧
            (8 ≤ run → exec (.nakFlit q b t) s = .next ((z.modPort q (fun p => { p with nakRun := 0 })).portRetrain q .retrain))) ∧
          (flitKind f = 1 →
            let behind := ((v.port q).expected + 4096 - flitSeq f) % 4096
            let key := tagKey (flitTag f)
            (0 < behind → behind < 2048 → exec (.dataFlit q b t) s = .next v) ∧
            (2048 ≤ behind → exec (.dataFlit q b t) s = .next (v.sendNak q)) ∧
            (behind = 0 → v.plate.linksInForce.sliceFlits q (key / 8) = 0 →
              exec (.dataFlit q b t) s = .next ((v.violation q 3 (flitSeq f)).sendNak q)) ∧
            (behind = 0 → v.plate.linksInForce.sliceFlits q (key / 8) ≠ 0 → v.rxReserved q key = false → v.rxShared q key = false →
              exec (.dataFlit q b t) s = .next ((v.violation q 4 (flitSeq f)).sendNak q)) ∧
            (behind = 0 → v.plate.linksInForce.sliceFlits q (key / 8) ≠ 0 → (v.rxReserved q key || v.rxShared q key) = true →
              (∀ e, flitMsgs f = .error e → exec (.dataFlit q b t) s = .next ((v.violation q e (flitSeq f)).sendNak q)) ∧
              (∀ ms, flitMsgs f = .ok ms →
                let slot : RxSlot := { port := q, key := key, fid := (v.port q).nextFid }
                exec (.dataFlit q b t) s = .next ((ms.foldl (fun s m => s.takeMsg q slot m)
                  (((v.rxTake q key).inc64 (mbxKey q 0x2C)).modPort q (fun p => { p with
                    expected := (p.expected + 1) % 4096, gotAny := true, nakAt := none, nextFid := p.nextFid + 1 }))).freeSlot
                  (some slot))))))) ∧
      (∀ f l, p.replay = f :: l → exec (.flitTransmit q t) s =
        .next ((u.modPort q (fun p => { p with replay := l })).sendFlit q 1 f.seq f.tagByte f.nmsg f.payload)) ∧
      (p.replay = [] →
        let dir := (s.plate.linksInForce.roles.drop q).headD 0
        let out := s.links.outbox.filter (fun m => m.dir == dir)
        let mine := fun m : TxMsg => s.turnPort dir m.key == some q
        ((∀ m ∈ out, mine m = false) → exec (.flitTransmit q t) s = .next (u.sendFlit q 0 0 0 0 [])) ∧
        (∀ m, ((List.range 4).flatMap (fun c => out.filter (fun m => m.cls == c))).find? mine = some m →
          let ms := packMsgs 15 240 (out.filter (fun x => x.key == m.key))
          p.hasCredit m.key = true ∧ p.retry.length < 512 ∧ ∃ v, exec (.flitTransmit q t) s = .next v ∧
            (v.port q).sent = p.sent + 1 ∧ (v.port q).retry = p.retry ++
              [{ seq := p.sent % 4096, tagByte := tagOf m.key, nmsg := ms.length, payload := (ms.map (fun m => m.msg.bytes)).flatten }])) ∧
      (p.retry ≠ [] → p.progressAt + 10 * cyclesPerMicro ≤ u.now → exec (.retryTimeout q t) s =
        .next (u.modPort q (fun p => { p with replay := p.retry, progressAt := u.now }))) ∧
      (∀ m, exec (.trainFlit q m t) s = .next (u.violation q 8 0)) ∧
      exec (.blockLockLoss q t) s = .next (u.portRetrain q .retrain) ∧
      (∀ dest, let ts := stamp u.now (1000000 * cyclesPerMicro) p.retrains
        (ts.length < 4 → ((u.portRetrain q dest).port q).state = dest ∧ ((u.portRetrain q dest).port q).expected = p.expected ∧
          ((u.portRetrain q dest).port q).sent = p.sent ∧ ((u.portRetrain q dest).port q).retry = p.retry) ∧
        (4 ≤ ts.length → ((u.portRetrain q dest).port q).state = .darkHeld ∧ ((u.portRetrain q dest).port q).retry = [] ∧
          ((u.portRetrain q dest).port q).reason = 6))) ∧
    ((∃ n, p.nakAt = some n ∧ s.now < n + cyclesPerMicro) → s.sendNak q = s) ∧
    (∀ n, min p.sent 2048 ≤ (p.sent + 4095 - n) % 4096 → s.takeAck q n = s.violation q 5 n) ∧
    (∀ n, (p.sent + 4095 - n) % 4096 < min p.sent 2048 →
      ((s.takeAck q n).port q).retry = p.retry.filter (fun f => decide ((n + 4096 - f.seq) % 4096 ≥ 2048))) ∧
    (∀ c n, let vs := stamp s.now (1000 * cyclesPerMicro) p.viols
      let rs := stamp s.now (10000000 * cyclesPerMicro) p.violRetrains
      ((s.violation q c n).port q).lastViol = BitVec.ofNat 32 (c + 256 * n) ∧
      (vs.length < 16 → ((s.violation q c n).port q).state = p.state) ∧
      (16 ≤ vs.length → 3 ≤ rs.length → ((s.violation q c n).port q).state = .darkHeld ∧ ((s.violation q c n).port q).reason = 4) ∧
      (16 ≤ vs.length → rs.length < 3 → p.state = .up → (stamp s.now (1000000 * cyclesPerMicro) p.retrains).length < 4 →
        ((s.violation q c n).port q).state = .training)) ∧
    (let measure := fun w : State => (List.range 5).foldl (fun s _ => s.emit (.wire q 0 [s.now])) w;
      (p.state = .training → p.since ≤ u.now → exec (.trainingComplete q t) s =
        .next (measure (u.modPort q (fun p => { p with state := .measure, reason := 0, echoes := 0, minTrip := 0 })))) ∧
      (p.state = .retrain → p.phase = 0 → exec (.trainingComplete q t) s =
        .next (measure (u.modPort q (fun p => { p with phase := 1, echoes := 0, minTrip := 0 }))))) ∧
    (p.state = .training → exec (.trainingFail q t) s =
      .next (u.modPort q (fun p => { p with reason := 5, since := u.now + 1000000 * cyclesPerMicro }))) ∧
    (p.state = .retrain → p.since + 100000 * cyclesPerMicro ≤ u.now → exec (.retrainDeadline q t) s =
      .next ((u.portDown q .dark 5).dropBuffers q)) ∧
    ((p.state = .measure ∨ p.state = .ident) → ∀ a, exec (.trainFlit q (.stamp a) t) s = .next (u.emit (.wire q 1 [a, 0]))) ∧
    (p.state = .measure → ∀ a turn,
      let trip := u.now - a - turn
      (p.echoes + 1 < 5 → exec (.trainFlit q (.echo a turn) t) s = .next (u.modPort q (fun p => { p with
        echoes := p.echoes + 1, minTrip := if p.echoes = 0 then trip else min p.minTrip trip }))) ∧
      (p.echoes + 1 = 5 → ∃ v, exec (.trainFlit q (.echo a turn) t) s = .next v ∧ (v.port q).state = .ident ∧
        (v.port q).rtt = (2 * min p.minTrip trip + 1) / 3 ∧ (v.port q).delay = ((v.port q).rtt + 1) / 2)) ∧
    (p.state = .ident → ∀ b, b.length = 64 →
      let who := Sys2Proof.byteAt b 1 + Sys2Proof.byteAt b 2 % 16 * 2 ^ 8 + Sys2Proof.byteAt b 3 % 8 * 2 ^ 12
      let w := u.modPort q (fun p => { p with partner := BitVec.ofNat 32 who ||| 0x80000000#32 })
      (s.identityOk q b = true → ∃ v, exec (.trainFlit q (.ident b) t) s = .next v ∧ (v.port q).state = .up ∧
        (v.port q).reason = 0 ∧ (v.port q).mirror = (List.range 17).map (fun i => fieldLE b (16 + 2 * i) 2)) ∧
      (s.identityOk q b = false → exec (.trainFlit q (.ident b) t) s =
        .next (((((w.portDown q .darkHeld 3).dropBuffers q).mbxEvent q 3).pltEvent 6).logErr
          { cls := 0, source := 0x0B, code := 1, unit := q, detail := 1 }))) ∧
    (∀ st r, ((s.portDown q st r).port q).state = st ∧ ((s.portDown q st r).port q).reason = r) ∧
    (s.pfServes 2 →
      let c := s.modPort q (fun p => { p with badCmd := false })
      (p.state = .up → exec (.mbxRetrain q) s = .next (c.portRetrain q .training)) ∧
      (p.state = .dark ∨ p.state = .darkHeld → s.connected q = true → exec (.mbxRetrain q) s = .next (c.startTraining q)) ∧
      (p.state = .dark ∨ p.state = .darkHeld → s.connected q = false → exec (.mbxRetrain q) s = .next c) ∧
      exec (.mbxDark q) s = .next ((c.portDown q .dark 8).dropBuffers q)) ∧
    (s.connected q = true → exec (.signalOnDarkPort q) s = .next s) ∧
    (s.connected q = false → exec (.signalOnDarkPort q) s =
      .next ((s.pltEvent 6).logErr { cls := 0, source := 0x0B, code := 1, unit := q, detail := 2 }))

/-- For every flit of 256 bytes, its wire block decodes to it uncorrected, and the block with any one byte changed decodes
to it, corrected. Whatever block the decoder answers, the flit it names differs in its block in at most four bytes of
either code. For every state, port, block and times: where a DATA_FLIT of the block at this port counts as accepted
(MBX_RXF moves), the same block offered again at once, at any later time, is not accepted: MBX_RXF stays. (R400, R402,
R404, R406) -/
def Obligations.NoFlitIsAcceptedTwice : Prop :=
  (∀ f : List Byte, f.length = 256 → unblock (blockOf f) = some (f, false) ∧
    ∀ (i : Nat) (b : Byte), i < 272 → (blockOf f)[i]? ≠ some b → unblock ((blockOf f).set i b) = some (f, true)) ∧
  (∀ (b f : List Byte) (x : Bool), unblock b = some (f, x) → f.length = 256 ∧
    (((evens b).zip (evens (blockOf f))).filter (fun y => y.1 != y.2)).length ≤ 4 ∧
    (((evens (b.drop 1)).zip (evens ((blockOf f).drop 1))).filter (fun y => y.1 != y.2)).length ≤ 4) ∧
  (∀ (s v w : State) (q t t2 : Nat) (b : List Byte), exec (.dataFlit q b t) s = .next v → exec (.dataFlit q b t2) v = .next w →
    v.reg (mbxKey q 0x2C) ≠ s.reg (mbxKey q 0x2C) → w.reg (mbxKey q 0x2C) = v.reg (mbxKey q 0x2C))

/-- For every state with a message received: a WRITE, READ, WRITE_SYS or READ_SYS that R421 refuses is refused with that
code, any other is performed and answered, with the data read or POISON; MARK_ADD adds 1 to its mark and is answered,
or is refused; a MIG message that the migration accepts acts and is answered, another is refused with code 6; a piece
of a delta or result is kept until all have come, a whole delta that its home can merge is merged and acknowledged; a
VIOLATION notice is recorded and kept; a MGMT message is handed on. A response ends the transaction of its source and
tag and acts by its kind; one that matches none is counted. A transaction without a response for 1,000 µs ends
ROUTE_DOWN with its port; a tag freed is unused for 10 ms, and a tag taken is neither outstanding nor unused yet.
Wherever a route has a next step, the neighbour in that direction is one step nearer to the destination. (R100, R310,
R311, R407, R415, R418, R419, R420, R421, R422, R423, R424) -/
def Obligations.MessagesAndTransactions : Prop :=
  (∀ (s : State) (i : Nat) (x : InMsg), s.links.inbox[i]? = some x →
    let m := x.msg
    let w := (s.modLinks (fun l => { l with inbox := l.inbox.eraseIdx i })).freeSlot x.slot
    let refuse := fun c : Nat => ((w.refuseRec m x.port c).sendMsg (m.refusal c))
    let late : State := match x.slot with | some y => w.incReg (mbxKey y.port 0x48) | none => w
    let fresh := s.rdu.pieces.find? (fun x => x.src == m.src && x.tag == m.tag && x.op == m.op) = none
    let found := s.links.txns.find? (fun t => t.dst == m.src && t.tag == m.tag)
    (m.op = 1 → (∀ c, w.refuseMem m (some .write) = some c → exec (.msgWrite i) s = .next (refuse c)) ∧
      (w.refuseMem m (some .write) = none →
        exec (.msgWrite i) s = .next ((w.writePart m.part .remote m.addr m.payload).2.sendMsg (m.response 0x81 0)))) ∧
    (m.op = 2 → (∀ c, w.refuseMem m (some .read) = some c → exec (.msgRead i) s = .next (refuse c)) ∧
      (w.refuseMem m (some .read) = none →
        (∀ b u, w.readPart m.part .read .remote m.addr m.count = (.ok b, u) → exec (.msgRead i) s = .next (u.sendMsg (m.readData b))) ∧
        (∀ e u, w.readPart m.part .read .remote m.addr m.count = (.error e, u) →
          exec (.msgRead i) s = .next (u.sendMsg (m.response 0x82 1))))) ∧
    (m.op = 3 → (∀ c, w.refuseMem m none = some c → exec (.msgWriteSys i) s = .next (refuse c)) ∧
      (w.refuseMem m none = none →
        exec (.msgWriteSys i) s = .next ((w.writeDev m.addr m.payload .remote 0).2.sendMsg (m.response 0x81 0)))) ∧
    (m.op = 4 → (∀ c, w.refuseMem m none = some c → exec (.msgReadSys i) s = .next (refuse c)) ∧
      (w.refuseMem m none = none →
        (∀ b u, w.readDev m.addr m.count .remote = (.ok b, u) → exec (.msgReadSys i) s = .next (u.sendMsg (m.readData b))) ∧
        (∀ e u, w.readDev m.addr m.count .remote = (.error e, u) → exec (.msgReadSys i) s = .next (u.sendMsg (m.response 0x82 1))))) ∧
    (∀ acc, (s.psec m.part = none → s.refuseMem m acc = some 1) ∧
      (∀ y, s.psec m.part = some y → y.spanning = true → s.created m.part = true → (s.part m.part).state ≠ .running →
        s.refuseMem m acc = some 2)) ∧
    (m.op = 5 → (∀ c, w.refusePart m.part = some c → exec (.msgMarkAdd i) s = .next (refuse c)) ∧
      (w.refusePart m.part = none → exec (.msgMarkAdd i) s = .next ((w.addMark m.part (m.aux % 4096) 1).sendMsg (m.response 0x85 0)))) ∧
    (m.op = 6 → (∀ u, w.migWriteIn m = (true, u) → exec (.msgMigWrite i) s = .next (u.sendMsg (m.response 0x81 0))) ∧
      (w.migMatches m.aux m = false → exec (.msgMigWrite i) s = .next (refuse 6))) ∧
    (m.op = 7 → (∀ u v, w.migCtlIn m = (some u, v) → exec (.msgMigCtl i) s = .next (u.sendMsg (m.response 0x85 0))) ∧
      (m.addr ≠ 0 → w.migMatches m.aux m = false → exec (.msgMigCtl i) s = .next (refuse 6)) ∧
      (m.addr = 0 → m.data.length = 48 → w.migFits m.aux (fieldLE m.data 0 16) (fieldLE m.data 16 32) = true →
        exec (.msgMigCtl i) s = .next ((w.migBegin m.aux m).sendMsg (m.response 0x85 0)))) ∧
    (m.op = 0x10 → fresh →
      (bitOf m.aux 15 = true → m.aux % 2 ^ 15 = 0 → ∀ y, w.redUnit m.part 16 m.rid = some y → y.op.epoch = m.epoch → y.op.scope = 2 →
        w.finalStage y.op 16 = true → (w.psecD m.part).spanning = true →
        exec (.msgRedDelta i) s = .next (((((w.setPieces m none).modRed m.part 16 m.rid (fun y => { y with
          announced := if y.announced.contains m.src then y.announced else y.announced ++ [m.src],
          acc := y.acc.merge y.op (y.op.ofDelta m.data) })).sendMsg (m.redAck 0)).redCheck m.part 16 m.rid))) ∧
      (bitOf m.aux 15 = false → ∃ t, exec (.msgRedDelta i) s = .next t ∧ t.rdu.units = s.rdu.units ∧ t.links.outbox = s.links.outbox ∧
        t.rdu.pieces.length = s.rdu.pieces.length + 1)) ∧
    (m.op = 0x11 → fresh → bitOf m.aux 15 = true → m.aux % 2 ^ 15 = 0 →
      let v := w.setPieces m none
      (∀ y, w.redUnit m.part 16 m.rid = some y → y.op.epoch = m.epoch → y.op.scope = 2 → exec (.msgRedResult i) s =
        .next (((v.writeResult y (y.op.ofDelta m.data)).closeRed m.part m.rid m.epoch).sendMsg (m.redAck 0))) ∧
      (w.redUnit m.part 16 m.rid = none → exec (.msgRedResult i) s = .next (v.sendMsg (m.redAck 1)))) ∧
    (m.op = 0x20 → exec (.msgViolation i) s = .next ((w.modPort x.port (fun p => { p with
      lastViol := BitVec.ofNat 32 (m.aux % 256 + 256 * (m.addr % 4096)) ||| 0x80000000#32 })).logErr
        { cls := 0, source := 8, code := 2, unit := x.port, detail := m.aux })) ∧
    (m.op = 0x21 → exec (.msgMgmt i) s = .next (w.emit (.wire x.port 3 (m.src :: (m.data.take m.aux).map BitVec.toNat)))) ∧
    (found = none → (m.op = 0x81 → exec (.msgWriteAck i) s = .next late) ∧ (m.op = 0x82 → exec (.msgReadData i) s = .next late) ∧
      (m.op = 0x85 → exec (.msgMarkAck i) s = .next late) ∧ (m.op = 0x8F → exec (.msgRefuse i) s = .next late) ∧
      (m.op = 0x90 → exec (.msgRedAck i) s = .next late)) ∧
    (∀ t, found = some t →
      let v := w.endTxn m.src m.tag
      (m.op = 0x81 → (∀ p id n, t.kind = .lnkWrite p id n → exec (.msgWriteAck i) s = .next (v.lnkAck p id n)) ∧
        (∀ c, t.kind = .store c → exec (.msgWriteAck i) s = .next (v.storeAnswer c m.src m.tag none))) ∧
      (m.op = 0x82 → (∀ p id o n, t.kind = .lnkRead p id o n →
          exec (.msgReadData i) s = .next (v.lnkData p id o n (bitOf m.aux 0) m.payload)) ∧
        (∀ c, t.kind = .load c → exec (.msgReadData i) s =
          .next (v.loadAnswer c m.src m.tag (if bitOf m.aux 0 then .inr 3 else .inl m.payload)))) ∧
      (m.op = 0x85 → ∀ p id, t.kind = .lnkMark p id → exec (.msgMarkAck i) s = .next (v.lnkMarked p id)) ∧
      (m.op = 0x8F → (∀ p id n, t.kind = .lnkWrite p id n → exec (.msgRefuse i) s = .next (v.lnkFinish p id 0x0C m.src)) ∧
        (∀ c, t.kind = .store c → exec (.msgRefuse i) s = .next (v.storeAnswer c m.src m.tag (some 3))) ∧
        (∀ c, t.kind = .load c → exec (.msgRefuse i) s = .next (v.loadAnswer c m.src m.tag (.inr 4)))) ∧
      (m.op = 0x90 → ∀ p rid, t.kind = .delta p rid →
        (m.aux = 0 → exec (.msgRedAck i) s = .next (v.modRed p 16 rid (fun y => { y with inflight := none }))) ∧
        (m.aux = 1 → exec (.msgRedAck i) s = .next (v.modRed p 16 rid (fun y => { y with retryAt := some (s.now + 2 * cyclesPerMicro) }))) ∧
        (2 ≤ m.aux → exec (.msgRedAck i) s = .next (v.openRefused p rid m.aux))))) ∧
  (∀ (s : State) (dst tag t : Nat),
    let u := s.advance t
    (∀ x, s.links.txns.find? (fun y => y.dst == dst && y.tag == tag) = some x → x.sentAt + 1000 * cyclesPerMicro ≤ u.now →
      let v := (u.modLinks (fun l => { l with outbox := l.outbox.filter (fun m =>
        !(m.msg.src == s.dev && m.msg.dst == dst && m.msg.tag == tag && decide (m.msg.op < 0x80))) })).endTxn dst tag
      (∀ p id n, x.kind = .lnkWrite p id n → exec (.transactionTimeout dst tag t) s = .next (v.lnkFinish p id 0x0D x.port)) ∧
      (∀ c, x.kind = .store c → exec (.transactionTimeout dst tag t) s = .next (v.storeAnswer c dst tag (some 2))) ∧
      (∀ c, x.kind = .load c → exec (.transactionTimeout dst tag t) s = .next (v.loadAnswer c dst tag (.inr 4)))) ∧
    (∃ v, exec (.tagQuarantineEnd dst tag t) s = .next v ∧ v.links.txns = s.links.txns ∧
      ∀ y, y ∈ v.links.quarantine ↔ y ∈ s.links.quarantine ∧ (y.1 = dst → y.2.1 = tag → u.now < y.2.2 + 10000 * cyclesPerMicro)) ∧
    (s.freeTag dst = some tag → tag < 65536 ∧ (∀ x ∈ s.links.txns, x.dst = dst → x.tag ≠ tag) ∧
      ∀ x ∈ s.links.quarantine, x.1 = dst → x.2.1 ≠ tag) ∧
    ((s.links.txns.filter (fun x => x.dst == dst)).length + (s.links.quarantine.filter (fun x => x.1 == dst)).length < 65536 →
      s.freeTag dst ≠ none)) ∧
  (∀ (y : SysSec) (here dst dir : Nat), here < y.count → dst < y.count → y.routeDir here dst = some dir →
    1 ≤ dir ∧ dir ≤ 6 ∧ y.neighbour here dir < y.count ∧ y.distance (y.neighbour here dir) dst + 1 = y.distance here dst) ∧
  (∀ (y : SysSec) (here dst : Nat), here < y.count → dst < y.count → (y.routeDir here dst = none ↔ here = dst)) ∧
  (∀ m : Msg, m.op < 256 → m.dlen < 256 → m.src < 256 → m.dst < 256 → m.tag < 2 ^ 16 → m.part < 16 → m.skip < 16 → m.trim < 16 →
    m.addr < 2 ^ 48 → m.aux < 2 ^ 16 → m.data.length = msgDataLen m.op m.dlen → ∀ rest, msgOf (m.bytes ++ rest) = m)

/-- For every state with the host interface on. A PF W2 request while W2 is open, all of whose lines lie where R438
allows, reads or writes them all, and a read that meets poison is answered EP; otherwise the lowest row that any line
meets refuses it whole: a read UR, or CA for row 5, a write dropped with nothing written. A VF's window does so by
R439, and row 5 also counts on its page. An AtomicOp is UR and raises ATOMIC; a vendor message of Type 0 other than
MCTP is UR, of Type 1 discarded. A VF's FLR closes its session, disables its queues and clears its base, enables and
configuration; the PF's clears its own and takes the VFs away; a hot reset does that and takes the link down. D3hot
and D0 change one bit. A retrained link is judged by R436. A configuration request is CRS before HOST, and is carried
out after it. A CXL.mem access decodes to an unowned granule's line and reads, poisons or writes it, else poison or a
drop; the mailbox answers capacity, events and poisoned lines. (R430, R433, R434, R435, R436, R437, R438, R439, R440,
R442, R482, R536) -/
def Obligations.HostWindowsResetsAndCxl : Prop :=
  (∀ l : List (Option Nat), (firstRow l = none ↔ ∀ x ∈ l, x = none) ∧
    ∀ r, firstRow l = some r ↔ some r ∈ l ∧ ∀ k, some k ∈ l → r ≤ k) ∧
  (∀ (s : State) (rid off n : Nat) (data : List Byte) (ep : Bool), s.host.en = true →
    let l := chunks 64 (s.w2Base + off) n
    let k := chunks 64 (s.w2Base + off) data.length
    (s.pfW2Open = true →
      ((∀ c ∈ l, s.pfRow c.1 = none) →
        (∀ b u, s.readAll l = (some b, u) → exec (.pfW2Read rid off n) s = .next (u.emit (.answer 0 (.data b)))) ∧
        (∀ u, s.readAll l = (none, u) → exec (.pfW2Read rid off n) s = .next ((u.hostRefused 0 6 rid 255).emit (.answer 0 .ep)))) ∧
      (∀ row, firstRow (l.map (fun c => s.pfRow c.1)) = some row → exec (.pfW2Read rid off n) s =
        .next ((s.hostRefused 0 row rid 255).emit (.answer 0 (if row = 5 then .ca else .ur)))) ∧
      ((∀ c ∈ k, s.pfRow c.1 = none) →
        exec (.pfW2Write rid off data false) s = .next (s.writeAll k data) ∧
        exec (.pfW2Write rid off data true) s = .next ((s.hostRefused 0 7 rid 255).emit (.answer 0 .dropped))) ∧
      (∀ row, firstRow (k.map (fun c => s.pfRow c.1)) = some row → exec (.pfW2Write rid off data ep) s =
        .next ((s.hostRefused 0 row rid 255).emit (.answer 0 .dropped)))) ∧
    (s.pfW2Open = false → exec (.pfW2Read rid off n) s = .next ((s.hostRefused 0 3 rid 255).emit (.answer 0 .ur)) ∧
      exec (.pfW2Write rid off data ep) s = .next ((s.hostRefused 0 3 rid 255).emit (.answer 0 .dropped))) ∧
    exec (.atomicop 0 rid) s = .next (((s.hifEvent 5).hostRefused 0 1 rid 255).emit (.answer 0 .ur)) ∧
    exec (.vendorDefinedMessage rid 0 false) s = .next ((s.hostRefused 0 0 rid 255).emit (.answer 0 .ur)) ∧
    (∀ kind, kind ≠ 0 → exec (.vendorDefinedMessage rid kind false) s = .next s)) ∧
  (∀ (s : State) (p rid off n : Nat) (data : List Byte), s.vfThere p = true →
    (s.vfServed p = true →
      (∀ l, s.vfPieces p .read off n = .ok l →
        (∀ b u, s.readAll l = (some b, u) → exec (.vfW2Read p rid off n) s = .next (u.emit (.answer (p + 1) (.data b)))) ∧
        (∀ u, s.readAll l = (none, u) →
          exec (.vfW2Read p rid off n) s = .next ((u.hostRefused (p + 1) 6 rid p).emit (.answer (p + 1) .ep)))) ∧
      (∀ l, s.vfPieces p .write off data.length = .ok l → exec (.vfW2Write p rid off data false) s = .next (s.writeAll l data)) ∧
      (s.sessionOpen p = false → 0 < n → exec (.vfW2Read p rid off n) s =
        .next (((s.hostRefused (p + 1) 5 rid p).emit (.answer (p + 1) .ca)).denyPage p))) ∧
    (s.vfServed p = false →
      exec (.vfW2Read p rid off n) s = .next ((s.hostRefused (p + 1) 2 rid p).emit (.answer (p + 1) .ur)) ∧
      exec (.vfW2Write p rid off data false) s = .next ((s.hostRefused (p + 1) 2 rid p).emit (.answer (p + 1) .dropped))) ∧
    (∃ v, exec (.vfFlr p) s = .next v ∧ v.sessionOpen p = false ∧ (∀ q < 32, (v.sq p q).en = false) ∧
      v.reg (pgKey p 0x14) = 0 ∧ v.reg (pgKey p 0x18) = 0 ∧ v.reg (pgKey p 0x0C) = 0 ∧ v.fn (p + 1) = {} ∧
      (v.reg (hifKey 0x1C)).getLsbD p = true ∧ v.plate = s.plate)) ∧
  (∀ (s : State) (speed width : Nat) (flit down : Bool),
    let y := s.plate.sysInForce
    (s.host.en = true → ∃ v, exec .pfFlr s = .next v ∧ v.host.vfEnable = false ∧ v.host.numVfs = 0 ∧ v.reg (hifKey 0x14) = 0 ∧
      v.reg (hifKey 0x18) = 0 ∧ v.reg (devKey 0x0C) = 0 ∧ v.reg (hifKey 0x0C) = 0 ∧ v.fn 0 = {} ∧ v.plate = s.plate) ∧
    (∃ v, exec (.hotReset down) s = .next v ∧ v.host.linkUp = false ∧ v.plate = s.plate ∧
      (s.host.en = true → v.host.vfEnable = false ∧ v.host.numVfs = 0)) ∧
    (∀ f, s.fnThere f = true → exec (.d3hotEntry f) s = .next (s.modFn f (fun x => { x with d3hot := true })) ∧
      exec (.d0Return f) s = .next (s.modFn f (fun x => { x with d3hot := false }))) ∧
    (∃ v, exec (.hostLinkRetrain speed width flit) s = .next v ∧ v.host.linkUp = true ∧ v.host.speed = speed ∧
      v.host.width = width ∧ v.host.serviceReason = v.hostReason ∧ (s.plate.installed ≠ none →
        (width < y.hostWidth → v.host.serviceReason = 1) ∧ (y.hostWidth ≤ width → speed < y.hostSpeed → v.host.serviceReason = 2) ∧
        (y.hostWidth ≤ width → y.hostSpeed ≤ speed → s.host.strap = (y.hostMode == 1) → s.boot.service = false →
          v.host.serviceReason = 0))) ∧
    (∀ r, s.boot.held = false → s.boot.halted = false → (s.host.en = false → exec (.configurationRequest r) s = .next (s.emit (.answer 0 .crs))) ∧
      (s.host.en = true → exec (.configurationRequest r) s = .next (s.configure r))) ∧
    (∀ f, s.fnThere f = true → s.configure (.ident f) = s.emit (.answer f (.data (s.identBytes f))) ∧ (s.identBytes f).length = 12 ∧
      (s.identBytes f).take 4 = [0x7F#8, 0x1D#8, if f = 0 then 0x16#8 else 0x17#8, 0x46#8] ∧
      (s.configure (.busMaster f true)).fn f = { s.fn f with busMaster := true } ∧
      ((s.configure (.msix f true false)).fn f) = { s.fn f with msixEnable := true, msixMask := false }) ∧
    (s.host.vfEnable = true → (s.configure (.vfEnable false)).host.vfEnable = false) ∧
    (∀ n, s.host.vfEnable = false → (s.configure (.numVfs n)).host.numVfs = min n 16)) ∧
  (∀ (s : State) (addr rid : Nat) (data : Line), s.host.strap = true → s.host.en = true →
    let poison := fun v : State => v.emit (.cxl 1 [])
    (s.hdmDecode (addr / 64 * 64) = none → exec (.cxlMemRead addr rid) s = .next (poison (s.cxlOutside rid)) ∧
      exec (.cxlMemWrite addr rid data) s = .next (s.cxlOutside rid)) ∧
    (∀ d a, s.hdmDecode (addr / 64 * 64) = some d → s.cxlWalk s.host.cxlGrans d = some a →
      (s.owner (a / 2 ^ 32) ≠ none → exec (.cxlMemRead addr rid) s = .next (poison s.cxlOwned) ∧
        exec (.cxlMemWrite addr rid data) s = .next s.cxlOwned) ∧
      (s.owner (a / 2 ^ 32) = none →
        (∀ b u, s.readPiece a 64 .host = (.ok b, u) → exec (.cxlMemRead addr rid) s = .next (u.emit (.cxl 0 b))) ∧
        (∀ u, s.readPiece a 64 .host = (.error .poison, u) → exec (.cxlMemRead addr rid) s =
          .next (poison { u with host := { u.host with cxlEvents := u.host.cxlEvents ++ [d] } })) ∧
        exec (.cxlMemWrite addr rid data) s = .next (s.writePiece a (lineBytes data) .host 0).2)) ∧
    (∀ gs d a, s.cxlWalk gs d = some a → ∃ g ∈ gs, dramBase g ≤ a ∧ a < dramBase g + s.cxlBytes g) ∧
    (∃ b, exec .identifyMemoryDevice s = .next (s.emit (.cxl 0 b)) ∧
      (16 ≤ (Config.standardBytes 0x4000 0).length → (b.drop 16).take 8 = natLE 8 s.host.cxlSize)) ∧
    (∃ b, exec .getEventRecords s = .next (s.emit (.cxl 0 b)) ∧ b.take 2 = natLE 2 s.host.cxlEvents.length) ∧
    (∀ n, exec (.clearEventRecords n) s =
      .next (({ s with host := { s.host with cxlEvents := s.host.cxlEvents.drop n } } : State).emit (.cxl 0 []))) ∧
    (∀ n, ∃ l : List Nat, exec (.getPoisonList addr n) s = .next (s.emit (.cxl 0 (natLE 2 l.length ++ l.flatMap (natLE 8)))) ∧
      ∀ d, d ∈ l ↔ addr ≤ d ∧ d < addr + n ∧ ∃ e ∈ s.mem.poisoned, e.1 < 2 ^ 40 ∧ s.cxlUnwalk e.1 s.host.cxlGrans 0 = some d))

/-- For every state and aligned register: a whole write on the PF path takes effect where its block is served, on the
Safelight path always, on a served VF's path by the rules of its page; a whole read answers the register's value. An
RC register is cleared by a read on a path up to 16 and by no other. A LO read latches the pair's high half for its
path and pair alone, and a HI read answers that latch. A read-only or reserved register ignores writes; an RW register
takes the defined bits; an RWD register takes them while its block is off, and only sets WIGN and its count while it
is on. A narrow write, and a write of 8 unaligned bytes, change no register but the access flags and WIGN; an 8-byte
aligned write is two writes in turn; a request with no byte enabled does nothing. A page's queue, mark and base
registers refuse a VF with no session. ERR_HEAD takes only a value that ERR_TAIL allows. A masked vector's request
pends and sends nothing; unmasking sends it once. (R6, R7, R8, R9, R433, R441, R442, R445, R446, R447, R454, R541) -/
def Obligations.RegisterAccesses : Prop :=
  (∀ (s : State) (rid r : Nat) (data : List Byte), r % 4 = 0 → data.length = 4 →
    let w := BitVec.ofNat 32 (leNat data)
    let c := s.readReg 0 (s.ctlReg r)
    (s.host.en = true →
      exec (.registerWrite 0 rid r 15 data false) s = .next (s.pfWrite (blkKind (blkOf r).1) (fun s => s.writeCtl 0 r w)) ∧
      exec (.rcRegisterRead 0 rid r 4 15) s = .next (c.2.emit (.answer 0 (.data (natLE 4 c.1.toNat)))) ∧
      exec (.loRegisterRead 0 rid r 4 15) s = .next (c.2.emit (.answer 0 (.data (natLE 4 c.1.toNat)))) ∧
      exec (.registerWrite 0 rid r 15 data true) s = .next (s.hostRefused 0 7 rid 255) ∧
      (∀ en, 0 < en → en < 15 → exec (.registerWrite 0 rid r en data false) s = .next ((s.narrowWrite 0 r).flagAccess 0 r 0)) ∧
      exec (.registerWrite 0 rid r 0 data false) s = .next s ∧
      (∀ d2 : List Byte, d2.length = 4 →
        (r % 8 = 0 → exec (.registerWrite 0 rid r 255 (data ++ d2) false) s =
          .next ((s.writeW0 0 r w).writeW0 0 (r + 4) (BitVec.ofNat 32 (leNat d2)))) ∧
        (r % 8 = 4 → exec (.registerWrite 0 rid r 255 (data ++ d2) false) s = .next (s.flagAccess 0 r 1)))) ∧
    exec (.registerWrite 17 rid r 15 data false) s = .next (s.writeCtl 17 r w) ∧
    (∀ p, s.vfThere p = true → s.vfServed p = true →
      exec (.registerWrite (p + 1) rid r 15 data false) s = .next (s.writePage p r w) ∧
      (s.pageDefined p = true → r < 0x10000 ∨ 0x20000 ≤ r ∨ s.sessionOpen p = true →
        let g := s.readReg (p + 1) (s.pageReg p r)
        exec (.rcRegisterRead (p + 1) rid r 4 15) s = .next (g.2.emit (.answer (p + 1) (.data (natLE 4 g.1.toNat))))) ∧
      (s.pageDefined p = true → s.sessionOpen p = false → 0x11000 ≤ r → r < 0x12000 →
        s.writePage p r w = s.noSession p (r - 0x10000) ∧
        exec (.loRegisterRead (p + 1) rid r 4 15) s =
          .next ((s.noSession p (r - 0x10000)).emit (.answer (p + 1) (.data (List.replicate 4 0xFF#8))))) ∧
      (s.pageDefined p = true → s.sessionOpen p = false → r = 0x0C ∨ r = 0x14 ∨ r = 0x18 ∨ r = 0x1C →
        s.writePage p r w = s.denyPage p))) ∧
  (∀ (s : State) (v : RegView) (path : Nat), v.acc = .rc → v.half = .whole →
    s.readReg path v = (v.val, if path ≤ 16 then s.setReg v.key 0 else s)) ∧
  (∀ (s : State) (k x path : Nat), x < 2 ^ 64 →
    let a := s.readReg path (loReg k x)
    a.1.toNat = x % 2 ^ 32 ∧ ((a.2.readReg path (hiReg (k + 4))).1).toNat = x / 2 ^ 32 ∧ a.2.regs = s.regs ∧
    ∀ path' k', k < 2 ^ 32 → k' < 2 ^ 32 → (path', k') ≠ (path, k) →
      (a.2.readReg path' (hiReg (k' + 4))).1 = (s.readReg path' (hiReg (k' + 4))).1) ∧
  (∀ (s : State) (path x : Nat) (w : Word),
    let b := blkOf x
    let v := s.ctlReg x
    (v.acc = .ro ∨ v.acc = .rc → s.writeCtl path x w = s) ∧
    (∀ m, v.acc = .rw m → b.1 = .dev ∨ b.1 = .hif ∨ b.1 = .sht ∨ b.1 = .ses ∨ (∃ q, b.1 = .mbx q) ∨ (∃ t, b.1 = .stk t) →
      s.writeCtl path x w = s.setReg v.key (w &&& m)) ∧
    (∀ m, v.acc = .rwd m → s.blkEn b.1 = true → s.writeCtl path x w = s.wignBlk b.1 ∧ (s.wignBlk b.1).reg v.key = s.reg v.key) ∧
    (∀ m, v.acc = .rwd m → s.blkEn b.1 = false → b.1 = .plt ∨ b.1 = .rpr ∨ b.1 = .fwu →
      s.writeCtl path x w = s.setReg v.key (w &&& m) ∧ ((s.writeCtl path x w).ctlReg x).val = w &&& m)) ∧
  (∀ (s : State) (x : Word), s.pfServes 0 →
    ((s.err.tail - x).toNat ≤ 512 → exec (.errHeadWrite x) s = .next { s with err := { s.err with head := x } }) ∧
    (512 < (s.err.tail - x).toNat → exec (.errHeadWrite x) s = .next s)) ∧
  (∀ (s : State) (f v : Nat), (s.vecMasked f v = true → (s.requestMsix f v).out = s.out ∧ (s.requestMsix f v).pend f v = true)) ∧
  (∀ (s : State) (v : Nat), s.pfServes 0 → v < 2048 →
    let u := s.setReg (msixKey 0 (0) + 16 * v + 12) 1#32
    (s.pend 0 v = true → u.vecMasked 0 v = false → ∃ t, exec (.msixUnmask 0 v) s = .next t ∧ t = (u.setPend 0 v false).sendMsix 0 v ∧
      t.pend 0 v = false) ∧
    (s.pend 0 v = false → exec (.msixUnmask 0 v) s = .next u)) ∧
  (∀ (s : State) (p v : Nat), s.vfThere p = true → s.vfServed p = true → s.pageDefined p = true → v < 64 →
    exec (.msixUnmask (p + 1) v) s = .next ((s.setReg (msixKey (p + 1) 0 + 16 * v + 12) 1#32).sendPending (p + 1) v))

/-- For every state and message: an ignored partner's is discarded, a broken packet is a violation, and until Safelight
runs the answer is BUSY. Once it runs, outside a session GET_VERSION begins the negotiation, GET_CAPABILITIES and
NEGOTIATE_ALGORITHMS follow in order, and a request out of order is a violation; a negotiated partner gets the chain's
digest, its certificate, a signed challenge and measurements; PSK_EXCHANGE opens an attempt while fewer than 8 stand
and the hint's PSK is set, and PSK_FINISH with the key makes it live, with another ends it. In a live session
HEARTBEAT, KEY_UPDATE, END_SESSION, chunks and IDE_KM act. A session 180 s without traffic ends. The 65th violation
within 1 s is not answered and its partner is ignored for 1 s. A clock timeout resets the SMBus. The debug path reads
memory only after an unlock, and a stack's raw port only while every channel of the stack is in test state. (R396,
R443, R458, R459, R469, R470, R474, R482, R536, R537) -/
def Obligations.SpdmSessionsAndDebugPath : Prop :=
  (∀ (s : State) (q : Ask),
    let u := s.advance q.t
    let bad := fun v : State => v.violates q.partner 8 (fun s => s.spdmError errUnexpected)
    (s.boot.held = false → s.boot.halted = false →
      (u.ignoring q.partner = true → exec (.getVersion q) s = .next u) ∧
      (u.ignoring q.partner = false → q.packet ≠ 0 → s.mgmt.up = true → exec (.getVersion q) s = .next (u.violates q.partner q.packet id)) ∧
      (u.ignoring q.partner = false → q.packet = 0 → s.mgmt.up = false → u.romAnswers = true →
        exec (.getVersion q) s = .next (u.spdmError errBusy) ∧ ∀ c b, exec (.mctpControlMessage q c b) s = .next (u.emit (.mctp 4 [])))) ∧
    (s.hears q → q.session = 0 →
      exec (.getVersion q) s = .next ((u.setStage q 1).respond q 0x04 [0x13] []) ∧
      (∀ n, s.stage q = 1 ∨ s.stage q = 2 →
        exec (.getCapabilities q 0x13 n) s =
          .next ((({ u with mgmt := { u.mgmt with largest := NatMap.set 0 u.mgmt.largest q.partner n } } : State).setStage q 2).respond
            q 0x61 [0x13] (Config.standardBytes 0x61 0)) ∧
        ∀ v, v ≠ 0x13 → exec (.getCapabilities q v n) s = .next (u.spdmError errVersion)) ∧
      (∀ v n, s.stage q = 0 → exec (.getCapabilities q v n) s = .next (bad u)) ∧
      (2 ≤ s.stage q → exec (.negotiateAlgorithms q true) s =
          .next ((u.setStage q 3).respond q 0x63 [] (Config.standardBytes 0x63 0)) ∧
        exec (.negotiateAlgorithms q false) s = .next (u.spdmError errInvalid)) ∧
      (s.stage q < 2 → ∀ o, exec (.negotiateAlgorithms q o) s = .next (bad u)) ∧
      (s.stage q < 3 → exec (.getDigests q) s = .next (bad u) ∧ ∀ r p, exec (.pskExchange q r p) s = .next (bad u)) ∧
      (3 ≤ s.stage q →
        exec (.getDigests q) s = .next (u.respond q 0x01 [1] (digestBytes (Config.sha384 s.chain))) ∧
        (∀ off n, off ≤ s.chain.length → exec (.getCertificate q 0 off n) s =
          .next (u.respond q 0x02 [0, s.chain.length - off - n] ((s.chain.drop off).take n))) ∧
        (∀ k off n, k ≠ 0 → exec (.getCertificate q k off n) s = .next (u.spdmError errInvalid)) ∧
        (∀ nonce, ∃ body sig, exec (.spdmChallenge q 0 nonce) s = .next (u.draw.2.respond q 0x03 [0] (body ++ sig)) ∧
          sig = Config.aliasSign (nonce ++ body) ∧ body.take 48 = digestBytes (Config.sha384 s.chain)) ∧
        (∀ i nonce, 1 ≤ i → i ≤ 11 → exec (.getMeasurements q i false nonce) s =
          .next (u.respond q 0x60 [11, 1] (natLE 1 i ++ natLE 2 (s.measurement i).length ++ s.measurement i))) ∧
        (∀ i g nonce, 12 ≤ i → i ≠ 255 → exec (.getMeasurements q i g nonce) s = .next (u.spdmError errInvalid)) ∧
        (∀ r p,
          (8 ≤ s.mgmt.sessions.length → exec (.pskExchange q r p) s = .next (u.spdmError errSessionLimit)) ∧
          (s.mgmt.sessions.length < 8 → hintOk r p = false ∨ NatMap.get none s.held.psks (pskKey r p) = none →
            exec (.pskExchange q r p) s = .next (u.spdmError errInvalid)) ∧
          (s.mgmt.sessions.length < 8 → hintOk r p = true → NatMap.get none s.held.psks (pskKey r p) ≠ none →
            ∃ v, exec (.pskExchange q r p) s = .next v ∧ v.mgmt.sessions.length ≤ 8 ∧ v.mgmt.sessions = s.mgmt.sessions ++
              [{ id := s.mgmt.nextSess, role := r, part := p, partner := q.partner, lastAt := u.now }])))) ∧
    (∀ x k, s.hears q → q.session ≠ 0 → q.auth = true → s.mgmtSession q = some x → x.live = false →
      let w := u.touch q.session
      (NatMap.get none s.held.psks (pskKey x.role x.part) = some k → ∃ v, exec (.pskFinish q k) s = .next v ∧
        v.mgmt.sessions = w.mgmt.sessions.map (fun (y : MSess) => if y.id = x.id then { y with live := true } else y)) ∧
      (NatMap.get none s.held.psks (pskKey x.role x.part) ≠ some k → exec (.pskFinish q k) s =
        .next (((w.endMgmt x.id).authFail x.role x.part 0).spdmError errInvalid)) ∧
      exec (.heartbeat q) s = .next (bad w)) ∧
    (∀ x, s.inLive q x →
      let w := u.touch q.session
      exec (.heartbeat q) s = .next (w.respond q 0x68 [] []) ∧
      (∀ tag, exec (.keyUpdate q tag) s = .next (w.respond q 0x69 [tag] [])) ∧
      (∃ v, exec (.endSession q) s = .next v ∧ ∀ y ∈ v.mgmt.sessions, y.id ≠ x.id) ∧
      (∀ h n c, (0 < n → ∃ v, exec (.chunkSend q h n false c) s = .next v ∧
          NatMap.get [] v.mgmt.chunks q.partner = NatMap.get [] s.mgmt.chunks q.partner ++ c) ∧
        (∃ v, exec (.chunkSend q h 0 false c) s = .next v ∧ NatMap.get [] v.mgmt.chunks q.partner = c)) ∧
      (∀ h n, let l := NatMap.get [] s.mgmt.response q.partner
        let m := NatMap.get 0 s.mgmt.largest q.partner
        ((n + 1) * m < l.length → exec (.chunkGet q h n) s = .next (w.emit (.spdm 0x06 [h, n, 0] ((l.drop (n * m)).take m)))) ∧
        (l.length ≤ n * m → exec (.chunkGet q h n) s = .next (bad w))) ∧
      (∀ n, n ≤ 8 → ∃ v, exec (.ideKmRequest q (.program n)) s = .next v ∧ (v.ideStream n).keyed = true ∧
        (v.ideStream n).active = (s.ideStream n).active) ∧
      (∀ n, ((s.ideStream n).keyed = true → ∃ v, exec (.ideKmRequest q (.setGo n)) s = .next v ∧ (v.ideStream n).active = true) ∧
        ((s.ideStream n).keyed = false → exec (.ideKmRequest q (.setGo n)) s = .next (w.emit (.spdm 0x7E [6, n, 1] []))) ∧
        (∃ v, exec (.ideKmRequest q (.setStop n)) s = .next v ∧ (v.ideStream n).active = false))) ∧
    (s.hears q → q.session ≠ 0 → q.auth = false →
      exec (.heartbeat q) s = .next ((u.violates q.partner 9 (fun s => s.spdmError errDecrypt)).endMgmt q.session)) ∧
    (s.hears q → ∀ b, exec (.mctpControlMessage q 1 b) s =
        .next (({ u with mgmt := { u.mgmt with eid := Sys2Proof.byteAt b 1 } } : State).emit (.mctp 0 (natLE 1 (Sys2Proof.byteAt b 1)))) ∧
      exec (.mctpControlMessage q 2 b) s = .next (u.emit (.mctp 0 (natLE 1 s.mgmt.eid))) ∧
      exec (.mctpControlMessage q 3 b) s = .next (u.violates q.partner 7 (fun s => s.emit (.mctp 5 [])))) ∧
    (∀ n a b, let m := NatMap.get 0 s.mgmt.largest q.partner
      (m ≠ 0 → m < b.length → s.respond q n a b =
        ({ s with mgmt := { s.mgmt with response := NatMap.set [] s.mgmt.response q.partner b } } : State).spdmError errLarge) ∧
      (b.length ≤ m → s.respond q n a b = s.emit (.spdm n a b)))) ∧
  (∀ (s : State) (partner row t session : Nat) (answer : State → State),
    let u := s.advance t
    let recent := (NatMap.get [] s.mgmt.viols partner).filter (fun x => decide (s.now < x + cyclesPerSecond))
    (64 ≤ recent.length → (s.violates partner row answer).ignoring partner = true ∧
      NatMap.get 0 (s.violates partner row answer).mgmt.ignored partner = s.now + cyclesPerSecond) ∧
    (recent.length < 64 → ∃ v, s.violates partner row answer = answer v ∧ v.mgmt.ignored = s.mgmt.ignored ∧
      NatMap.get [] v.mgmt.viols partner = recent ++ [s.now]) ∧
    exec (.smbusClockTimeout partner t) s = .next ((u.violates partner 5 id).emit .smbusReset) ∧
    (∃ v, exec (.partnerIgnoreEnd partner t) s = .next v ∧ (v.ignoring partner = false ↔ u.ignoring partner = false) ∧
      (u.ignoring partner = false → NatMap.get 0 v.mgmt.ignored partner = 0)) ∧
    (∀ x, s.mgmt.sessions.find? (fun y => y.id == session) = some x →
      (x.lastAt + 180 * cyclesPerSecond ≤ u.now → exec (.heartbeatTimeout session t) s = .next (u.endMgmt session)) ∧
      (u.now < x.lastAt + 180 * cyclesPerSecond → exec (.heartbeatTimeout session t) s = .next u))) ∧
  (∀ (s : State) (a n k : Nat),
    exec (.loupeRequest .scan) s = .next (s.emit (.loupe 0 [])) ∧ exec (.loupeRequest .idcode) s = .next (s.emit (.loupe 0 (natLE 4 0x14616BE7))) ∧
    (s.mgmt.debugUnlocked = false → exec (.loupeRequest (.memory a n)) s = .next (s.emit (.loupe 1 [])) ∧
      ∀ hard, exec (.loupeRequest (.ieee1500 k hard)) s = .next (s.emit (.loupe 1 []))) ∧
    (∀ b v, s.mgmt.debugUnlocked = true → s.readDev a n .host = (.ok b, v) → exec (.loupeRequest (.memory a n)) s = .next (v.emit (.loupe 0 b))) ∧
    exec (.loupeRequest (.ieee1500 k true)) s = .next (s.emit (.loupe 1 [])) ∧
    (∀ c, c < 32 → s.testState (32 * k + c) = false → exec (.loupeRequest (.ieee1500 k false)) s = .next (s.emit (.loupe 1 []))) ∧
    (s.mgmt.debugUnlocked = true → (∀ c, c < 32 → s.testState (32 * k + c) = true) →
      exec (.loupeRequest (.ieee1500 k false)) s = .next (s.emit (.loupe 0 (Config.standardBytes 1500 k)))))

/-- For every state and management message in a live session: a role that may not issue the command is answered ROLE, an
ill-formed body FIELD, and else the command acts: information, assent records and the log are read; a digest is
prepared; a first assent is kept for the window, the other role's completes it; an assent that its role alone gave is
withdrawn; a key is set, raising its generation and closing the partition's session; a PSK, the lock's release and a
debug unlock need their complete assent record, which they consume, and a lock or policy that forbids is answered;
DEBUG_LOCK closes the debug path at once; a repair begins or is answered BUSY. CLAIM acts once, outside a session.
Late assent records are removed, and no others. On a served page of a defined partition CHALLENGE gives a nonce unless
the key is unset, the partition off or open, or a lockout holds; OPEN with a live nonce opens the session where the
response is the keyed hash, and uses the nonce up; the fourth failure in a row and each further one lock out for 1 s,
doubling to 64 s; CLOSE closes; a nonce dies at 10 s and a lockout ends. (R455, R456, R457, R460, R461, R462, R463,
R464, R466, R470, R472, R473) -/
def Obligations.ManagementAndPartitionSessions : Prop :=
  (∀ (s : State) (q : Ask) (x : MSess) (body : List Byte) (stores erases : Bool), s.inLive q x →
    let u := s.advance q.t
    let v := u.touch x.id
    let say := fun (w : State) (k : Nat) (bs : List Byte) => Host.Outcome.next (w.emit (.mgmt x.id k bs))
    (∀ roles sound f, s.manage q roles sound f = if roles.contains x.role then (if sound then f x v else v.result x 2 []) else v.result x 1 []) ∧
    (x.role = 4 → exec (.assentStatus q body) s = say v 1 [] ∧ exec (.lockRelease q body stores) s = say v 1 [] ∧
      exec (.setPartKey q body stores) s = say v 1 []) ∧
    ([1, 2, 3, 4].contains x.role = true → body ≠ [] → exec (.sessionInfo q body) s = say v 2 []) ∧
    ([1, 2, 3, 4].contains x.role = true → ∃ bs, exec (.sessionInfo q []) s = say v 0 bs ∧
      bs.take 2 = natLE 1 x.role ++ natLE 1 x.part ∧ bs.length = 7) ∧
    ([1, 2, 3, 4].contains x.role = true → body.length = 8 → fieldLE body 4 4 < 65536 →
      fieldLE body 0 4 + fieldLE body 4 4 ≤ 64 * logRecords → exec (.getLog q body) s =
        say v 0 ((List.range (fieldLE body 4 4)).map (fun i => s.logByte (fieldLE body 0 4 + i)))) ∧
    (x.role = 1 ∨ x.role = 2 →
      exec (.assentStatus q []) s = say v.expireAssents 0 ((List.range 8).flatMap v.expireAssents.assentBytes) ∧
      (body.length = 9 → Sys2Proof.byteAt body 0 = 3 → exec (.prepareDigest q body) s =
        say v 0 (digestBytes (s.assentDigest 3 (body.drop 1)) ++ natLE 4 s.held.assentSeq.toNat)) ∧
      (assentBody body = true →
        let w := v.expireAssents
        let d := digestOf (body.drop 1)
        let k := Sys2Proof.byteAt body 0
        let mine : AssentState := if x.role = 1 then .owner else .custodian
        (s.held.lock = true → lockedKind k = true → exec (.assent q body) s = say v 4 []) ∧
        (s.held.lock = false ∨ lockedKind k = false →
          (∀ n, w.findAssent k d = none → (List.range 8).find? (fun n => (w.assent n).isNone) = some n →
            ∃ t, exec (.assent q body) s = .next t ∧ t.assent n =
              some { state := mine, kind := k, digest := d, window := s.held.window, deadline := u.now + s.held.window * cyclesPerSecond }) ∧
          (w.findAssent k d = none → (∀ n < 8, w.assent n ≠ none) → exec (.assent q body) s = say w 7 []) ∧
          (∀ n a, w.findAssent k d = some n → w.assent n = some a →
            (a.state = .complete ∨ a.state = .reserved → exec (.assent q body) s = say w 0 []) ∧
            (a.state = mine → exec (.assent q body) s = say w 6 []) ∧
            (a.state = (if x.role = 1 then .custodian else .owner) → ∃ t, exec (.assent q body) s = .next t ∧
              t.assent n = some { a with state := .complete, deadline := u.now + a.window * cyclesPerSecond }))) ∧
        (w.findAssent (Sys2Proof.byteAt body 0) d = none → exec (.withdraw q body) s = say w 8 []) ∧
        (∀ n a, w.findAssent (Sys2Proof.byteAt body 0) d = some n → w.assent n = some a →
          (a.state = (if x.role = 1 then .owner else .custodian) → exec (.withdraw q body) s = say (w.setAssent n none) 0 []) ∧
          (a.state ≠ (if x.role = 1 then .owner else .custodian) → exec (.withdraw q body) s = say w 8 []))) ∧
      (∃ w, exec (.debugLock q []) s = .next w ∧ w.mgmt.debugUnlocked = false ∧ w.held = s.held)) ∧
    (x.role = 1 → body.length = 50 → hintOk (Sys2Proof.byteAt body 0) (Sys2Proof.byteAt body 1) = true →
      let w := v.expireAssents
      let role := Sys2Proof.byteAt body 0
      let rec_ := w.completeAssent 2 (w.assentDigest 2 body)
      (role ≤ 2 → s.held.lock = true → exec (.setPsk q body stores) s = say w 4 []) ∧
      (role ≤ 2 → s.held.lock = false → rec_ = none → exec (.setPsk q body stores) s = say w 3 []) ∧
      (2 < role ∨ (s.held.lock = false ∧ rec_ ≠ none) →
        (exec (.setPsk q body false) s = say w 9 []) ∧
        ∃ t, exec (.setPsk q body true) s = .next t ∧
          NatMap.get none t.held.psks (pskKey role (Sys2Proof.byteAt body 1)) = some (digestOf (body.drop 2)) ∧
          ∀ y ∈ t.mgmt.sessions, ¬ (y.role = role ∧ y.part = Sys2Proof.byteAt body 1))) ∧
    (x.role = 1 ∨ (x.role = 3 ∧ x.part = Sys2Proof.byteAt body 0) → body.length = 49 → Sys2Proof.byteAt body 0 < 16 →
      exec (.setPartKey q body false) s = say v 9 [] ∧
      ∃ t, exec (.setPartKey q body true) s = .next t ∧ t.partKey (Sys2Proof.byteAt body 0) = digestOf (body.drop 1) ∧
        t.keyGen (Sys2Proof.byteAt body 0) = (s.keyGen (Sys2Proof.byteAt body 0) + 1) % 2 ^ 32 ∧
        t.sessionOpen (Sys2Proof.byteAt body 0) = false) ∧
    (x.role = 1 →
      let w := v.expireAssents
      let lock := w.completeAssent 3 (w.assentDigest 3 w.genBytes)
      let debug := w.completeAssent 4 (w.assentDigest 4 w.genBytes)
      (lock = none → exec (.lockRelease q [] stores) s = say w 3 []) ∧
      (∀ n, lock = some n → exec (.lockRelease q [] false) s = say w 9 [] ∧
        ∃ t, exec (.lockRelease q [] true) s = .next t ∧ t.held.lock = false ∧ t.held.assentSeq = s.held.assentSeq + 1 ∧ t.assent n = none) ∧
      (s.held.lock = true → exec (.debugUnlock q [] stores erases) s = say w 4 []) ∧
      (s.held.lock = false → s.held.debugPolicy = 0 → exec (.debugUnlock q [] stores erases) s = say w 5 []) ∧
      (s.held.lock = false → s.held.debugPolicy ≠ 0 → debug = none → exec (.debugUnlock q [] stores erases) s = say w 3 []) ∧
      (∀ n, s.held.lock = false → s.held.debugPolicy ≠ 0 → debug = some n →
        ∃ t, exec (.debugUnlock q [] true erases) s = .next t ∧ t.mgmt.unlockAt = some (x.id, erases) ∧
          t.mgmt.debugUnlocked = s.mgmt.debugUnlocked ∧ t.assent n = none) ∧
      (body.length = 17 → Sys2Proof.byteAt body 0 = 1 ∨ Sys2Proof.byteAt body 0 = 2 →
        let o : RepairOp := { request := body.drop 1, origin := 2, session := x.id }
        (s.repair.op ≠ none → exec (.mgmtRepair q body stores) s = say v 1 []) ∧
        (s.repair.op = none → Sys2Proof.byteAt body 0 = 1 → exec (.mgmtRepair q body stores) s = .next (v.repairApply o stores)) ∧
        (s.repair.op = none → Sys2Proof.byteAt body 0 = 2 → exec (.mgmtRepair q body stores) s = .next (v.repairRemove o stores)))) ∧
    (s.held.claimed = false → exec (.claim q body stores) s = say v 1 []) ∧
    (s.held.claimed = true → exec (.claim q body stores) s =
      .next ((v.emit (.mgmt x.id 8 [])).logErr { cls := 0, source := 0x0C, code := 2 }))) ∧
  (∀ (s : State) (q : Ask) (body : List Byte), s.hears q → q.session = 0 →
    let u := s.advance q.t
    let no := (u.emit (.mgmt 0 8 [])).logErr { cls := 0, source := 0x0C, code := 2 }
    (s.held.claimed = true → exec (.claim q body true) s = .next no) ∧
    (body.length ≠ 365 → s.held.claimed = false → exec (.claim q body true) s = .next (u.emit (.mgmt 0 2 []))) ∧
    (body.length = 365 → Config.claimPlain body = none → exec (.claim q body true) s = .next no) ∧
    (∀ plain, body.length = 365 → s.held.claimed = false → Config.claimPlain body = some plain →
      exec (.claim q body false) s = .next (u.emit (.mgmt 0 9 [])) ∧
      ∃ t, exec (.claim q body true) s = .next t ∧ t.held.claimed = true ∧ t.held.lock = false ∧ t.held.window = 120 ∧
        t.held.debugPolicy = 0 ∧ t.held.ownerHash = some (digestOf (plain.take 48)))) ∧
  (∀ (s : State) (t : Nat),
    let u := s.advance t
    ∃ v, exec (.assentExpiry t) s = .next v ∧ v.held = s.held ∧ ∀ n < 8,
      (∀ a, s.assent n = some a → a.late u.now = true → v.assent n = none) ∧
      (∀ a, s.assent n = some a → a.late u.now = false → v.assent n = some a)) ∧
  (∀ (s : State) (p t : Nat), s.vfThere p = true → s.vfServed p = true → s.pageDefined p = true →
    let u := s.advance t
    let w := u.modSess p (fun x => { x with badCmd := false })
    let x := s.sess p
    (s.partKey p = 0 → exec (.psChallenge p t) s = .next (w.psResult p 1) ∧ exec (.psOpen p t) s = .next (w.psResult p 1)) ∧
    (s.partKey p ≠ 0 →
      ((s.part p).state = .off ∨ x.state = .opened → exec (.psChallenge p t) s = .next (w.psResult p 5)) ∧
      ((s.part p).state ≠ .off → x.state = .lockout → exec (.psChallenge p t) s = .next (w.psResult p 4)) ∧
      ((s.part p).state ≠ .off → x.state ≠ .opened → x.state ≠ .lockout → ∃ v, exec (.psChallenge p t) s = .next v ∧
        v.sess p = { x with badCmd := false, state := .challenged, nonce := Config.nonce s.drawn, nonceAt := some u.now, result := 0 }) ∧
      (x.nonceLive u.now = false → exec (.psOpen p t) s = .next (w.psResult p 2)) ∧
      (x.nonceLive u.now = true → ∃ v, exec (.psOpen p t) s = .next v ∧ (v.sess p).nonceAt = none ∧
        (x.resp = s.psExpected p → v.sessionOpen p = true ∧ (v.sess p).failRun = 0) ∧
        (x.resp ≠ s.psExpected p → (v.sess p).result = 3 ∧ (v.sess p).failRun = x.failRun + 1 ∧
          (x.failRun < 3 → (v.sess p).state = .closed) ∧
          (3 ≤ x.failRun → (v.sess p).state = .lockout ∧
            (v.sess p).lockUntil = u.now + min 64 (2 ^ (x.failRun - 3)) * cyclesPerSecond)))) ∧
    (s.sessionOpen p = true → ∃ v, exec (.psClose p) s = .next v ∧ v.sessionOpen p = false ∧ (v.sess p).result = 0) ∧
    (s.sessionOpen p = false → ∃ v, exec (.psClose p) s = .next v ∧ (v.sess p).result = 5 ∧ (v.sess p).state = x.state) ∧
    (∀ n, x.nonceAt = some n →
      (n + 10 * cyclesPerSecond ≤ u.now → ∃ v, exec (.nonceExpiry p t) s = .next v ∧ (v.sess p).nonceAt = none ∧
        (x.state = .challenged → (v.sess p).state = .closed)) ∧
      (u.now < n + 10 * cyclesPerSecond → exec (.nonceExpiry p t) s = .next u)) ∧
    (x.state = .lockout → (x.lockUntil ≤ u.now → ∃ v, exec (.lockoutEnd p t) s = .next v ∧ (v.sess p).state = .closed) ∧
      (u.now < x.lockUntil → exec (.lockoutEnd p t) s = .next u)))

/-- For every state: a device reset latches its cause, returns every volatile part to reset, keeps flash, fuses and the
event stream, and begins a boot unless a signal holds it. POWER_ON, PWRGD, PERST_N and HOLDUP act as R477 says;
BOOT_RESET resets, CLEAR_FAILRUN zeroes FAILRUN. A STEP_X counts only while X is in progress and its watchdog has not
expired; service mode skips the steps of R494. ROM halts when unsound; FLASH that fails twice fails the step, else
counts the boot and settles FAILRUN; IMAGE starts the first slot that verifies, else service mode; CLOCKS, TILES, MESH
fall to service mode or fail; HOST enables the interface; SETTINGS opens the half that R516 says; STACKS, CORES and
MESH use, slow, spare or exclude their units; LINKS ends with what is UP; SHUTTER waits for lock until its maximum;
PLATE waits for the first install; READY opens the device. An expired step resets; an expired Safelight resets before
READY and restarts alone after it. (R477, R478, R479, R480, R484, R488, R489, R492, R494, R496, R497, R516) -/
def Obligations.ResetsAndBootSteps : Prop :=
  (∀ (s : State) (k : Nat),
    let v := s.deviceReset k
    v.aon.cause = some k ∧ v.boot.ready = false ∧ v.boot.step = 1 ∧ v.host.en = false ∧ v.plate.installed = none ∧ v.parts = [] ∧
      v.cores = [] ∧ v.regs = [] ∧ v.psess = [] ∧ v.mgmt.up = false ∧ v.nv = s.dropImage.nv ∧ v.err.flash = s.err.flash ∧
      v.err.stream = s.err.stream ∧ v.pending = s.pending ∧
      (s.env.pwrgd = true → s.env.perst = false → v.boot.held = false ∧ v.boot.cause = k) ∧
      (s.env.pwrgd = false ∨ s.env.perst = true → v.boot.held = true)) ∧
  (∀ (s : State) (t : Nat) (hot : Int) (b : Bool),
    let u := s.advance t
    (∃ v, exec .powerOn s = .next v ∧ v.boot.held = true ∧ v.aon = { cause := some 1 } ∧ v.env = { holdup := s.env.holdup } ∧
      v.err.stream = [] ∧ v.regs = [] ∧ v.nv = s.dropImage.nv) ∧
    (s.env.pwrgd = true → ∃ v, exec .pwrgdDeassert s = .next v ∧ v.boot.held = true ∧ v.env.pwrgd = false ∧ v.aon.cause = some 2 ∧ v.regs = []) ∧
    (s.env.pwrgd = false → ∃ v, exec (.pwrgdAssert t hot) s = .next v ∧ v.env.pwrgd = true ∧
      v.env.trip = (s.env.trip && decide (hot ≥ 95)) ∧
      (s.env.perst = false → v.boot.held = false ∧ v.boot.step = 1 ∧ v.boot.released = u.now ∧ v.boot.cause = s.aon.cause.getD 1) ∧
      (s.env.perst = true → v.boot = s.boot)) ∧
    (s.env.perst = false → ∃ v, exec .perstAssert s = .next v ∧ v.env.perst = true ∧
      (s.env.pwrgd = true → v.boot.held = true ∧ v.aon.cause = some 3 ∧ v.regs = [])) ∧
    (s.env.perst = true → ∃ v, exec (.perstRelease t b) s = .next v ∧ v.env.perst = false ∧ v.host.strap = b ∧
      (s.env.pwrgd = true → v.boot.held = false ∧ v.boot.step = 1 ∧ v.boot.released = u.now)) ∧
    exec (.holdupChange b) s = .next { s with env := { s.env with holdup := b } } ∧
    (s.pfServes 0 → exec .bootReset s = .next (s.deviceReset 4) ∧ ∃ v, exec (.clearFailrun true) s = .next v ∧ v.boot.failrun = 0 ∧
      v.boot.badCmd = false ∧ ∃ c, (v.nv.cnt0 = some c ∨ v.nv.cnt1 = some c) ∧ c.failrun = 0 ∧ c.hold = false)) ∧
  (∀ (s : State) (n t : Nat) (stores : Bool) (f : State → State),
    (s.boot.step ≠ n ∨ s.boot.held = true ∨ s.boot.halted = true ∨ s.boot.ready = true → s.atStep n t stores f = s) ∧
    (s.boot.since + stepMax n * cyclesPerMs < t → s.atStep n t stores f = s) ∧
    (s.inStep n t → s.skips n = true → n ≠ 3 → s.atStep n t stores f = (s.advance t).endStep 4 0 0 0 stores) ∧
    (s.inStep n t → s.skips n = false → s.atStep n t stores f = f (s.advance t))) ∧
  (∀ (s : State) (t : Nat) (stores : Bool) (bad : Option Nat), s.boot.service = false →
    let u := s.advance t
    let slot := s.boot.slot
    (s.inStep 1 t → exec (.stepRom t true) s = .next (u.endStep 1 0 0 0 true) ∧
      ∃ v, exec (.stepRom t false) s = .next v ∧ v.boot.halted = true ∧ v.nv = s.nv) ∧
    (s.inStep 2 t → (∀ k, 2 ≤ k → exec (.stepFlash t k stores) s = .next (u.failStep 5 0 0 stores)) ∧
      (∀ k, k < 2 → let c := s.counter.getD {}
        let j := u.joinJournal ((c.bootnum + 1) % 2 ^ 32)
        let x := settle j.1 j.2.1 s.boot.cause s.counter.isSome
        ∃ v, exec (.stepFlash t k stores) s = .next v ∧ v.boot.step = 3 ∧ v.boot.bootnum = (c.bootnum + 1) % 2 ^ 32 ∧ v.boot.prev = x.1 ∧
          v.boot.failrun = (if s.boot.cause = 8 ∧ c.hold = true then 0 else min 255 (c.failrun + x.2)) ∧
          (3 ≤ v.boot.failrun → v.boot.service = true ∧ v.boot.svcReason = 1) ∧
          (1 ≤ k → v.boot.flashSafe = true))) ∧
    (s.inStep 3 t →
      let a := s.imageOrder.headD 0
      let b := (s.imageOrder.drop 1).headD 0
      ∃ v, exec (.stepImage t stores) s = .next v ∧ v.boot.step = 4 ∧
        (s.slotOk a = true → v.boot.slot = a ∧ v.mgmt.up = true ∧ v.boot.svn = manifestSvn (s.manifest a) ∧ v.boot.service = false) ∧
        (s.slotOk a = false → s.slotOk b = true → v.boot.slot = b ∧ v.mgmt.up = true ∧ v.boot.service = false) ∧
        (s.slotOk a = false → s.slotOk b = false → v.boot.service = true ∧ v.boot.svcReason = 2 ∧ v.mgmt.up = s.mgmt.up)) ∧
    (s.inStep 4 t → exec (.stepClocks t true stores) s = .next (u.endStep 1 0 0 0 stores) ∧
      exec (.stepClocks t false stores) s = .next ((u.enterService 3).endStep 3 0 0 8 stores)) ∧
    (s.inStep 5 t → ∃ v, exec (.stepHost t stores) s = .next v ∧ v.host.en = true ∧ v.boot.step = 6) ∧
    (s.inStep 6 t →
      (s.nv.half0 = none → s.nv.half1 = none → exec (.stepSettings t stores) s = .next ((u.holdHalf none).endStep 2 0 0 5 stores)) ∧
      (s.mgmt.up = true → s.openHalf s.boot.setver = none → s.nv.half0 ≠ none ∨ s.nv.half1 ≠ none →
        exec (.stepSettings t stores) s = .next (u.failStep 6 0 0 stores)) ∧
      (∀ h a, s.mgmt.up = true → s.openHalf s.boot.setver = some h → s.half h = some a → a.setver = s.boot.setver →
        exec (.stepSettings t stores) s = .next ((u.holdHalf (some h)).endStep 1 0 0 0 stores))) ∧
    (s.inStep 7 t → (s.componentOk slot 2 = true → exec (.stepTiles t true stores) s = .next (u.endStep 1 0 0 0 stores) ∧
        exec (.stepTiles t false stores) s = .next ((u.enterService 3).endStep 3 0 0 4 stores)) ∧
      (s.componentOk slot 2 = false → ∀ b, exec (.stepTiles t b stores) s = .next (u.failStep 2 7 slot stores))) ∧
    (s.inStep 8 t → s.boot.retry = none → ∀ f8 f6, ∃ v, exec (.stepStacks t f8 f6 [] [] [] stores) s = .next v ∧ v.boot.step = 9 ∧
      ∀ k < 16, (k ∉ f8 → (v.stack k).enabled = true ∧ (v.stack k).slow = false) ∧
        (k ∈ f8 → k ∉ f6 → (v.stack k).enabled = true ∧ (v.stack k).slow = true) ∧
        (k ∈ f8 → k ∈ f6 → v.boot.stackExcl.testBit k = true ∧ ∀ c < 16, v.granExcluded (16 * k + c) = true)) ∧
    (s.inStep 9 t → s.boot.retry = none → ∀ failed, ∃ v, exec (.stepCores t failed stores) s = .next v ∧ v.boot.step = 10 ∧
      ∀ g < 256, s.clusterOn g = true →
        let out := (List.range 18).filter (fun k => (s.disabledCores g).contains k || failed.contains (32 * g + k))
        (2 < out.length → v.granExcluded g = true) ∧
        (out.length ≤ 2 → NatMap.get 0xFFFF v.units.coreMask g =
          ((((List.range 18).filter (fun k => !out.contains k)).take 16).map (fun k => 2 ^ k)).sum)) ∧
    (s.inStep 10 t → s.boot.retry = none → (s.componentOk slot 3 = false → ∀ h d, exec (.stepMesh t h d stores) s = .next (u.failStep 2 7 slot stores)) ∧
      (s.componentOk slot 3 = true → ∀ h d, (∃ e ∈ d, e < 32) → ∃ v, exec (.stepMesh t h d stores) s = .next v ∧
        v.boot.service = true ∧ v.boot.svcReason = 3)) ∧
    (s.inStep 11 t → ∃ v, exec (.stepLinks t stores) s = .next v ∧ v.boot.step = 12 ∧ v.sht.locked = (s.sht.source == 0) ∧ v.links = s.links) ∧
    (s.inStep 12 t → (s.sht.locked = false → s.stepPath 12 = 0 → u.now < s.boot.since + stepMax 12 * cyclesPerMs →
        exec (.stepShutter t stores) s = .next u) ∧
      (s.sht.locked = true ∨ s.boot.since + stepMax 12 * cyclesPerMs ≤ u.now → ∃ v, exec (.stepShutter t stores) s = .next v ∧
        v.boot.step = 13 ∧ v.sht.en = true ∧ v.boot.unlocked = !s.sht.locked)) ∧
    (s.inStep 13 t → (s.plate.installed = none → exec (.stepPlate t stores) s = .next u) ∧
      (s.plate.installed ≠ none → s.componentOk slot 6 = true → ∃ v, exec (.stepPlate t stores) s = .next v ∧ v.boot.step = 14 ∧
        v.plate.installed = s.plate.installed)) ∧
    (s.inStep 14 t → ∃ v, exec (.stepReady t stores bad) s = .next v ∧ v.boot.ready = true ∧ v.boot.step = 14 ∧ v.boot.failrun = 0 ∧
      v.boot.readyMs = (u.now - s.boot.released) / cyclesPerMs ∧ (v.reg (devKey 0x10)).getLsbD 0 = true)) ∧
  (∀ (s : State) (t : Nat) (stores : Bool),
    let u := s.advance t
    (s.boot.held = false → s.boot.halted = false → s.boot.ready = false → ∃ v, exec (.stepWatchdogExpiry []) s = .next v ∧
      v.aon.cause = some 5 ∧ v.boot.step = 1 ∧ v.aon.wdogStep = s.boot.step ∧ v.regs = []) ∧
    (s.mgmt.up = true → s.boot.held = false →
      (s.boot.ready = false → exec (.safelightWatchdogExpiry t stores) s = .next (u.deviceReset 6)) ∧
      (s.boot.ready = true → ∃ v, exec (.safelightWatchdogExpiry t stores) s = .next v ∧ v.mgmt.up = false ∧ v.mgmt.sessions = [] ∧
        v.cores = s.cores ∧ v.plate = s.plate ∧ v.boot.ready = true)) ∧
    (s.boot.ready = true → s.boot.setver ≠ 0 → ∃ v, exec (.safelightRestartComplete t) s = .next v ∧ v.mgmt.up = true ∧
      v.mgmt.held = s.mgmt.held ∧ v.cores = s.cores))

/-- For every state in which FWU_CMD acts: BEGIN refuses with the first code that holds, else erases the target's manifest
block and enters ERASING; the erasure's end leaves the slot erased and RECEIVING; WRITE_BLOCK of a sound block puts it
into flash and marks it written; VERIFY reads the slot, and its end enters VERIFIED, or returns to RECEIVING with the
first failure; ACTIVATE of a VERIFIED image writes a selector that boots it on trial, the running slot kept as
PREVIOUS; ABORT ends the update; CONFIRM ends the trial, REVERT names PREVIOUS. While BUSY, or in the recovery service
for CONFIRM and REVERT, BADCMD is set and nothing else. 600 s without a command end an update; an activation with
RESET resets 10 ms later. In a live OWNER session PLDM does the same: REQUEST_UPDATE, PASS_COMPONENT_TABLE and
UPDATE_COMPONENT in order, data by the transfer size, ACTIVATE_FIRMWARE not self-contained, both cancellations as
ABORT, and status and versions on request. (R504, R505, R506, R507, R508, R509, R510, R513, R514, R515, R519, R521) -/
def Obligations.FirmwareUpdates : Prop :=
  (∀ (s : State) (t : Nat) (stores : Bool) (bad : Option Nat), s.pfServes 0 → s.fwu.en = true →
    let u := s.advance t
    let mark := fun v : State => ({ v with fwu := { v.fwu with badCmd := true } } : State)
    let take := fun v : State =>
      let h := if v.fwu.path = 1 then v.fwuHeard else v
      ({ h with fwu := { h.fwu with badCmd := false } } : State)
    let w := take u
    (s.fwu.state = .verifying → exec (.fwuBegin t) s = .next (mark u) ∧ exec (.fwuAbort t) s = .next (mark u)) ∧
    (s.boot.svcReason = 2 → exec (.fwuConfirm stores bad) s = .next (mark s) ∧ exec (.fwuRevert stores) s = .next (mark s)) ∧
    (s.fwu.state ≠ .verifying →
      (let len := (s.reg (fwuKey 0x1C)).toNat;
        (w.beginChecks 1 ≠ 0 → exec (.fwuBegin t) s = .next (w.fwuAnswer (w.beginChecks 1) 0)) ∧
        (w.beginChecks 1 = 0 → lenOk len = false → exec (.fwuBegin t) s = .next (w.fwuAnswer 7 0)) ∧
        (w.beginChecks 1 = 0 → lenOk len = true → ∃ v, exec (.fwuBegin t) s = .next v ∧ v.fwu.state = .erasing ∧ v.fwu.path = 1 ∧
          v.fwu.target = s.fwuTarget ∧ v.fwu.len = len ∧ v.fwu.written = [] ∧ v.fwu.result = 0 ∧
          v.flashBytes (slotBase s.fwuTarget) 4096 = List.replicate 4096 0xFF#8)) ∧
      (s.trial = true → s.fwu.state = .idle → exec (.fwuBegin t) s = .next (w.fwuAnswer 6 0)) ∧
      (s.fwu.path = 1 →
        let off := (s.reg (fwuKey 0x24)).toNat
        let sound := decide (s.reg (fwuKey 0x28) = crc32With 0x82F63B78#32 s.fwuData)
        (s.fwu.state = .receiving → s.env.holdup = false → off % 4096 = 0 → off < s.fwu.len →
          (sound = false → exec (.fwuWriteBlock t stores) s = .next (w.fwuAnswer 8 0)) ∧
          (sound = true → ∃ v, exec (.fwuWriteBlock t true) s = .next v ∧ v.flashBytes (slotBase s.fwu.target + off) 4096 = s.fwuData ∧
            off ∈ v.fwu.written ∧ v.fwu.result = 0)) ∧
        (s.fwu.state = .receiving → s.env.holdup = true → exec (.fwuWriteBlock t stores) s = .next (w.fwuAnswer 3 0)) ∧
        (s.fwu.state = .verified ∨ s.fwu.state = .erasing → exec (.fwuWriteBlock t stores) s = .next (w.fwuAnswer 1 0) ∧
          exec (.fwuVerify t) s = .next (w.fwuAnswer 1 0)) ∧
        (s.fwu.state = .receiving → ∃ v, exec (.fwuVerify t) s = .next v ∧ v.fwu.state = .verifying ∧ v.fwu.written = s.fwu.written) ∧
        (s.fwu.state = .receiving → exec (.fwuActivate t stores) s = .next (w.fwuAnswer 1 0)) ∧
        (s.fwu.state = .verified → s.env.holdup = false → s.anyMigrating = false → s.held.lock = false →
          s.fuseVersion ≤ s.fwu.svn →
          (s.held.updatePolicy = 1 → w.updateAssent = none → exec (.fwuActivate t stores) s = .next (w.fwuAnswer 0x0F 0)) ∧
          (s.held.updatePolicy ≠ 1 → ∃ v k, exec (.fwuActivate t true) s = .next v ∧ v.fwu.state = .activated ∧ v.fwu.result = 0 ∧
            v.selector = some { s.newSelector ((s.reg (fwuKey 0x20)).getLsbD 0) with seq := k } ∧
            (s.boot.svcReason ≠ 2 → v.trial = true ∧ (s.newSelector true).previous = some s.boot.slot) ∧
            ((s.reg (fwuKey 0x20)).getLsbD 1 = true → v.fwu.resetAt = some (u.now + 10 * cyclesPerMs)))) ∧
        (s.fwu.state = .receiving ∨ s.fwu.state = .erasing ∨ s.fwu.state = .verified → ∃ v, exec (.fwuAbort t) s = .next v ∧
          v.fwu.state = .idle ∧ v.fwu.path = 0 ∧ v.fwu.result = 0 ∧ v.flashBytes (slotBase s.fwu.target) 4096 = List.replicate 4096 0xFF#8)) ∧
      (s.boot.svcReason ≠ 2 →
        (s.trial = false ∨ s.boot.onActive = false → exec (.fwuConfirm stores bad) s = .next ((take s).fwuAnswer 1 0)) ∧
        (∀ x, s.selector = some x → x.trial = true →
          (s.boot.onActive = true → ∃ v k, exec (.fwuConfirm true bad) s = .next v ∧ v.selector = some { x with trial := false, seq := k } ∧
            (bad = none → s.boot.svn ≤ 64 → s.boot.svn ≤ v.fuseVersion)) ∧
          (s.env.holdup = false → ∃ v k, exec (.fwuRevert true) s = .next v ∧ v.fwu.result = 0 ∧
            v.selector = some { x.reverted with seq := k } ∧ x.reverted.active = x.previous.getD x.active) ∧
          (s.env.holdup = true → exec (.fwuRevert stores) s = .next ((take s).fwuAnswer 3 0)))))) ∧
  (∀ (s : State) (t : Nat),
    let u := s.advance t
    (s.fwu.state = .erasing → ∃ v, exec (.eraseComplete t) s = .next v ∧ v.fwu.state = .receiving ∧ v.fwu.lastCmd = u.now ∧
      ∀ a, slotBase s.fwu.target ≤ a → a < slotBase s.fwu.target + s.fwu.len → v.flashByte a = 0xFF#8) ∧
    (s.fwu.state = .verifying →
      (s.verifyResult.1 = 0 → ∃ v, exec (.verifyComplete t) s = .next v ∧ v.fwu.state = .verified ∧ v.fwu.result = 0 ∧
        v.fwu.digest = manifestDigest (s.manifest s.fwu.target) ∧ s.fwu.written.length = s.fwu.len / 4096 ∧
        signatureOk (s.manifest s.fwu.target) = true ∧ ∀ i < 7, s.componentOk s.fwu.target (i + 1) = true) ∧
      (s.verifyResult.1 ≠ 0 → ∃ v, exec (.verifyComplete t) s = .next v ∧ v.fwu.state = .receiving ∧
        v.fwu.result = s.verifyResult.1 ∧ v.fwu.detail = s.verifyResult.2)) ∧
    (s.fwu.state = .receiving ∨ s.fwu.state = .verified →
      (s.fwu.lastCmd + 600 * cyclesPerSecond ≤ u.now → ∃ v, exec (.updateTimeout t) s = .next v ∧ v.fwu.state = .idle ∧ v.fwu.result = 0x12) ∧
      (u.now < s.fwu.lastCmd + 600 * cyclesPerSecond → exec (.updateTimeout t) s = .next u)) ∧
    (∀ d, s.fwu.resetAt = some d → exec .activateReset s = .next ((s.advance d).deviceReset 8)) ∧
    (s.fwu.resetAt = none → exec .activateReset s = .next s)) ∧
  (∀ (s : State) (q : Ask) (x : MSess) (n m : Nat) (data : List Byte) (stores : Bool), s.inLive q x → x.role = 1 →
    let v := (s.advance q.t).touch q.session
    let w := if s.fwu.path = 2 then v.fwuHeard else v
    (w.beginChecks 2 ≠ 0 → exec (.requestUpdate q n) s = .next (w.pldmReply q 0x10 (w.beginChecks 2) [])) ∧
    (w.beginChecks 2 = 0 →
      (∃ y, exec (.requestUpdate q n) s = .next y ∧ y.fwu.pldm = 1 ∧ y.fwu.xfer ≤ 4096 ∧ y.fwu.xfer ≤ max 1 n) ∧
      (s.fwu.pldm ≠ 0 → ∃ y, exec (.passComponentTable q 0x4616) s = .next y ∧ y.fwu.pldm = 2) ∧
      (s.fwu.pldm ≠ 0 → n ≠ 0x4616 → exec (.passComponentTable q n) s = .next (w.pldmReply q 0x13 7 [])) ∧
      (2 ≤ s.fwu.pldm → lenOk m = true → ∃ y, exec (.updateComponent q 0x4616 m) s = .next y ∧ y.fwu.state = .erasing ∧ y.fwu.path = 2 ∧
        y.fwu.session = q.session ∧ y.fwu.len = m)) ∧
    (s.fwu.pldm < 2 → exec (.updateComponent q n m) s = .next (w.pldmReply q 0x14 1 [])) ∧
    (s.fwu.pldm = 0 → exec (.passComponentTable q n) s = .next (w.pldmReply q 0x13 1 [])) ∧
    (s.fwu.state = .receiving → s.fwu.path = 2 →
      (data.length ≠ s.fwu.xfer → exec (.firmwareDataReceive q data stores) s = .next (w.pldmReply q 0x15 7 [])) ∧
      (data.length = s.fwu.xfer → s.fwu.partBlock.length + data.length < 4096 → exec (.firmwareDataReceive q data stores) s =
        .next (({ w with fwu := { w.fwu with
          partBlock := s.fwu.partBlock ++ data, pldmNext := s.fwu.pldmNext + data.length } } : State).requestData)) ∧
      (data.length = s.fwu.xfer → s.fwu.partBlock.length + data.length = 4096 → s.fwu.pldmNext + data.length ≥ 4096 →
        s.env.holdup = false → ∃ y, exec (.firmwareDataReceive q data true) s = .next y ∧
          y.flashBytes (slotBase s.fwu.target + (s.fwu.pldmNext + data.length - 4096)) 4096 = s.fwu.partBlock ++ data ∧
          y.fwu.state = if s.fwu.len ≤ s.fwu.pldmNext + data.length then .verifying else .receiving)) ∧
    (s.fwu.state = .idle → exec (.firmwareDataReceive q data stores) s = .next (w.pldmReply q 0x15 1 [])) ∧
    exec (.activateFirmware q true stores) s =
      .next ((w.logErr { cls := 0, source := 0x0C, code := 3, detail := 10 }).emit (.pldm 0x1A 0x8C [])) ∧
    exec (.activateFirmware q false stores) s =
      .next ((w.fwuActivate 2 true false stores).2.pldmReply q 0x1A (w.fwuActivate 2 true false stores).1 []) ∧
    (s.fwu.path = 2 → s.fwu.state = .receiving ∨ s.fwu.state = .verified →
      (∃ y, exec (.cancelUpdateComponent q) s = .next y ∧ y.fwu.state = .idle ∧ y.fwu.result = 0) ∧
      (∃ y, exec (.cancelUpdate q) s = .next y ∧ y.fwu.state = .idle ∧ y.fwu.result = 0)) ∧
    (s.fwu.state = .idle → exec (.cancelUpdate q) s = .next (w.pldmReply q 0x1D 1 []) ∧
      exec (.cancelUpdateComponent q) s = .next (w.pldmReply q 0x1C 1 [])) ∧
    exec (.getStatus q) s = .next (w.emit (.pldm 0x1B 0 (natLE 1 s.fwu.state.code ++ natLE 1 s.fwu.result))) ∧
    (∃ a b, exec (.getFirmwareParameters q) s = .next (w.emit (.pldm 0x02 0 (manifestVersion (s.manifest s.boot.slot) ++ a ++ b)))))
end

