-- ==== Sys2Proof/Laws/Map.lean ====
section
/-!
SUPPORT. Sparse data: what a key reads as after each operation, and that every operation keeps the canonical form.
-/

namespace Sys2Proof

variable {α : Type}

@[simp] theorem NatMap.get_nil (d : α) (k : Nat) : NatMap.get d [] k = d := rfl

/-- The key written reads as what was put there. -/
@[simp] theorem NatMap.get_put_same (d v : α) (m : NatMap α) (k : Nat) : NatMap.get d (NatMap.put k v m) k = v := by
  induction m with
  | nil => simp [NatMap.put, NatMap.get]
  | cons e m ih =>
    obtain ⟨j, a⟩ := e
    simp only [NatMap.put]
    split
    · simp [NatMap.get]
    · split
      · simp [NatMap.get]
      · rename_i h1 h2
        simp [NatMap.get, h1, h2, ih]

/-- Every other key reads as before. -/
theorem NatMap.get_put_ne (d v : α) (m : NatMap α) (k j : Nat) (h : j ≠ k) :
    NatMap.get d (NatMap.put k v m) j = NatMap.get d m j := by
  induction m with
  | nil => simp [NatMap.put, NatMap.get, h]
  | cons e m ih =>
    obtain ⟨i, a⟩ := e
    simp only [NatMap.put]
    split
    · simp [NatMap.get, h]
    · split
      · rename_i h1 h2
        subst h2
        simp [NatMap.get, h]
      · simp only [NatMap.get, ih]

@[simp] theorem NatMap.get_del_same (d : α) (m : NatMap α) (k : Nat) : NatMap.get d (NatMap.del k m) k = d := by
  induction m with
  | nil => rfl
  | cons e m ih =>
    obtain ⟨i, a⟩ := e
    simp only [NatMap.del, List.filter_cons] at ih ⊢
    split
    · rename_i h
      have : ¬k = i := fun e => by simp [e] at h
      simp [NatMap.get, this, ih]
    · exact ih

theorem NatMap.get_del_ne (d : α) (m : NatMap α) (k j : Nat) (h : j ≠ k) :
    NatMap.get d (NatMap.del k m) j = NatMap.get d m j := by
  induction m with
  | nil => rfl
  | cons e m ih =>
    obtain ⟨i, a⟩ := e
    simp only [NatMap.del, List.filter_cons] at ih ⊢
    split
    · simp only [NatMap.get, ih]
    · rename_i hi
      have : i = k := by simpa using hi
      subst this
      simp [NatMap.get, h, ih]

/-- The key written reads as what was written. -/
@[simp] theorem NatMap.get_set_same [DecidableEq α] (d v : α) (m : NatMap α) (k : Nat) :
    NatMap.get d (NatMap.set d m k v) k = v := by
  unfold NatMap.set
  split
  · simp [*]
  · simp

/-- Every other key reads as before. -/
theorem NatMap.get_set_ne [DecidableEq α] (d v : α) (m : NatMap α) (k j : Nat) (h : j ≠ k) :
    NatMap.get d (NatMap.set d m k v) j = NatMap.get d m j := by
  unfold NatMap.set
  split
  · exact NatMap.get_del_ne d m k j h
  · exact NatMap.get_put_ne d v m k j h

/-- Every key, after one is written. -/
theorem NatMap.get_set [DecidableEq α] (d v : α) (m : NatMap α) (k j : Nat) :
    NatMap.get d (NatMap.set d m k v) j = if j = k then v else NatMap.get d m j := by
  split
  · rename_i h
    rw [h, NatMap.get_set_same]
  · exact NatMap.get_set_ne d v m k j ‹_›

@[simp] theorem NatMap.get_upd_same [DecidableEq α] (d : α) (m : NatMap α) (k : Nat) (f : α → α) :
    NatMap.get d (NatMap.upd d m k f) k = f (NatMap.get d m k) := NatMap.get_set_same _ _ _ _

theorem NatMap.get_upd_ne [DecidableEq α] (d : α) (m : NatMap α) (k j : Nat) (f : α → α) (h : j ≠ k) :
    NatMap.get d (NatMap.upd d m k f) j = NatMap.get d m j := NatMap.get_set_ne _ _ _ _ _ h

theorem NatMap.get_upd [DecidableEq α] (d : α) (m : NatMap α) (k j : Nat) (f : α → α) :
    NatMap.get d (NatMap.upd d m k f) j = if j = k then f (NatMap.get d m k) else NatMap.get d m j :=
  NatMap.get_set _ _ _ _ _

/-- A key that fails the test of a filter reads as unlisted; the others read as before. -/
theorem NatMap.get_filterKeys (d : α) (p : Nat → Bool) (m : NatMap α) (k : Nat) :
    NatMap.get d (NatMap.filterKeys p m) k = if p k then NatMap.get d m k else d := by
  induction m with
  | nil => simp [NatMap.filterKeys]
  | cons e m ih =>
    obtain ⟨i, a⟩ := e
    simp only [NatMap.filterKeys, List.filter_cons] at ih ⊢
    by_cases hk : k = i
    · subst hk
      by_cases hp : p k
      · simp [hp, NatMap.get]
      · simp only [hp] at ih ⊢
        simpa using ih
    · by_cases hp : p i
      · simp only [hp, if_true, NatMap.get, hk, if_false]
        exact ih
      · simp only [hp, NatMap.get, hk, if_false]
        simpa using ih

theorem NatMap.wfFrom_cons [DecidableEq α] (d : α) (lo j : Nat) (a : α) (m : NatMap α) :
    NatMap.wfFrom d lo ((j, a) :: m) = true ↔ lo ≤ j ∧ a ≠ d ∧ NatMap.wfFrom d (j + 1) m = true := by
  simp [NatMap.wfFrom, and_assoc]

/-- A map in canonical form above `lo` is so above every lower bound. -/
theorem NatMap.wfFrom_mono [DecidableEq α] {d : α} {lo lo' : Nat} (h : lo' ≤ lo) {m : NatMap α}
    (hm : NatMap.wfFrom d lo m = true) : NatMap.wfFrom d lo' m = true := by
  cases m with
  | nil => rfl
  | cons e m =>
    obtain ⟨j, a⟩ := e
    rw [NatMap.wfFrom_cons] at hm ⊢
    exact ⟨by omega, hm.2⟩

theorem NatMap.wfFrom_put [DecidableEq α] {d v : α} (hv : v ≠ d) {m : NatMap α} {lo k : Nat} (hk : lo ≤ k)
    (hm : NatMap.wfFrom d lo m = true) : NatMap.wfFrom d lo (NatMap.put k v m) = true := by
  induction m generalizing lo with
  | nil => simp [NatMap.put, NatMap.wfFrom_cons, hk, hv, NatMap.wfFrom]
  | cons e m ih =>
    obtain ⟨j, a⟩ := e
    rw [NatMap.wfFrom_cons] at hm
    simp only [NatMap.put]
    split
    · rename_i h1
      rw [NatMap.wfFrom_cons, NatMap.wfFrom_cons]
      exact ⟨hk, hv, by omega, hm.2⟩
    · split
      · rename_i h1 h2
        subst h2
        rw [NatMap.wfFrom_cons]
        exact ⟨hk, hv, hm.2.2⟩
      · rw [NatMap.wfFrom_cons]
        exact ⟨hm.1, hm.2.1, ih (by omega) hm.2.2⟩

theorem NatMap.wfFrom_keep [DecidableEq α] {d : α} {m : NatMap α} {lo : Nat} (p : Nat × α → Bool)
    (hm : NatMap.wfFrom d lo m = true) : NatMap.wfFrom d lo (m.filter p) = true := by
  induction m generalizing lo with
  | nil => rfl
  | cons e m ih =>
    obtain ⟨j, a⟩ := e
    rw [NatMap.wfFrom_cons] at hm
    rw [List.filter_cons]
    split
    · rw [NatMap.wfFrom_cons]
      exact ⟨hm.1, hm.2.1, ih hm.2.2⟩
    · exact NatMap.wfFrom_mono (by omega) (ih hm.2.2)

/-- Writing a key keeps the canonical form. -/
theorem NatMap.wf_set [DecidableEq α] {d : α} {m : NatMap α} (k : Nat) (v : α) (hm : NatMap.wf d m = true) :
    NatMap.wf d (NatMap.set d m k v) = true := by
  unfold NatMap.set
  split
  · exact NatMap.wfFrom_keep _ hm
  · exact NatMap.wfFrom_put ‹_› (Nat.zero_le _) hm

/-- Changing a key keeps the canonical form. -/
theorem NatMap.wf_upd [DecidableEq α] {d : α} {m : NatMap α} (k : Nat) (f : α → α) (hm : NatMap.wf d m = true) :
    NatMap.wf d (NatMap.upd d m k f) = true := NatMap.wf_set k _ hm

/-- Keeping some of the keys keeps the canonical form. -/
theorem NatMap.wf_filterKeys [DecidableEq α] {d : α} {m : NatMap α} (p : Nat → Bool) (hm : NatMap.wf d m = true) :
    NatMap.wf d (NatMap.filterKeys p m) = true := NatMap.wfFrom_keep _ hm

end Sys2Proof
end

