-- ==== Sys2Proof/Laws/Core.lean ====
section
/-!
SUPPORT. What the operations of a core do: its registers, and how an instruction that has done its operation goes on.
-/

namespace Sys2Proof.Machine

open Sys2Proof

/-! ## One core among the cores -/

@[simp] theorem State.core_modCore_same (s : State) (c : Nat) (f : Core → Core) : (s.modCore c f).core c = f (s.core c) :=
  NatMap.get_upd_same _ _ _ _

theorem State.core_modCore_ne (s : State) (c d : Nat) (f : Core → Core) (h : d ≠ c) : (s.modCore c f).core d = s.core d :=
  NatMap.get_upd_ne _ _ _ _ _ h

/-- A change of a core changes nothing else of the device. -/
theorem State.modCore_device (s : State) (c : Nat) (f : Core → Core) :
    s.modCore c f = { s with cores := (s.modCore c f).cores } := rfl

/-- What is a change of core `c` alone. -/
def CoreOnly (c : Nat) (u t : State) : Prop := t = { u with cores := t.cores } ∧ ∀ d, d ≠ c → t.core d = u.core d

theorem CoreOnly.refl (c : Nat) (s : State) : CoreOnly c s s := ⟨rfl, fun _ _ => rfl⟩

theorem CoreOnly.modCore {c : Nat} {u t : State} (h : CoreOnly c u t) (f : Core → Core) : CoreOnly c u (t.modCore c f) := by
  obtain ⟨h1, h2⟩ := h
  refine ⟨?_, fun d hd => ?_⟩
  · rw [h1]; rfl
  · rw [State.core_modCore_ne _ _ _ _ hd, h2 d hd]

/-! ## Retirement -/

@[simp] theorem CoreCtl.pass_pc (k : CoreCtl) : k.pass.pc = k.pc := rfl
@[simp] theorem CoreCtl.pass_delay (k : CoreCtl) : k.pass.delay = k.delay := rfl
@[simp] theorem CoreCtl.pass_priv (k : CoreCtl) : k.pass.priv = k.priv := rfl
@[simp] theorem CoreCtl.pass_ie (k : CoreCtl) : k.pass.ie = k.ie := rfl
@[simp] theorem CoreCtl.pass_fflags (k : CoreCtl) : k.pass.fflags = k.fflags := rfl
@[simp] theorem CoreCtl.pass_vstat (k : CoreCtl) : k.pass.vstat = k.vstat := rfl
@[simp] theorem CoreCtl.pass_mode (k : CoreCtl) : k.pass.mode = k.mode := rfl
@[simp] theorem CoreCtl.pass_vshape (k : CoreCtl) : k.pass.vshape = k.vshape := rfl
@[simp] theorem CoreCtl.pass_evpend (k : CoreCtl) : k.pass.evpend = k.evpend := rfl
@[simp] theorem CoreCtl.pass_resumeUop (k : CoreCtl) : k.pass.resumeUop = k.resumeUop := rfl

/-- `t` is `u` with core `c` alone changed, and it holds `k`. -/
def CoreIs (c : Nat) (u t : State) (k : Core) : Prop := CoreOnly c u t ∧ t.core c = k

theorem CoreIs.refl (c : Nat) (s : State) : CoreIs c s s (s.core c) := ⟨CoreOnly.refl c s, rfl⟩

theorem CoreIs.modCore {c : Nat} {u t : State} {k : Core} (h : CoreIs c u t k) (f : Core → Core) :
    CoreIs c u (t.modCore c f) (f k) :=
  ⟨h.1.modCore f, by rw [State.core_modCore_same, h.2]⟩

theorem State.moveOn_spec (u s : State) (c : Nat) (k : Core) (h : k.ctl.plain) (h1 : CoreIs c u s k) :
    CoreIs c u (s.moveOn c) { k with ctl := { k.ctl with pc := k.ctl.nextPc, delay := none } } := by
  unfold State.moveOn CoreCtl.nextPc
  rw [h1.2]
  cases hd : k.ctl.delay with
  | none =>
    have h3 := h1.modCore (fun k => { k with ctl := { k.ctl with pc := k.ctl.pc + 4 } })
    dsimp only
    rw [show ({ k.ctl with pc := k.ctl.pc + 4, delay := none } : CoreCtl) = { k.ctl with pc := k.ctl.pc + 4 } by
      rw [← hd]]
    exact h3
  | some d =>
    have h3 := h1.modCore (fun k => { k with ctl := { k.ctl with pc := BitVec.ofNat 64 d.target, delay := none } })
    dsimp only
    unfold State.arrive
    rw [(h d hd).1]
    exact h3

theorem State.endResume_spec (u s : State) (c : Nat) (k : Core) (resume : Option (Nat × Nat)) (here : Nat)
    (h : CoreIs c u s k) :
    ∃ r, CoreIs c u (s.endResume c resume here) { k with ctl := { k.ctl with resumeUop := r } } := by
  unfold State.endResume
  cases resume with
  | none => exact ⟨k.ctl.resumeUop, h⟩
  | some a =>
    dsimp only
    split
    · have h3 := h.modCore (fun k' =>
        { k' with ctl := if k'.ctl.resumeUop = some a then { k'.ctl with resumeUop := none } else k'.ctl })
      dsimp only at h3
      split at h3
      · exact ⟨none, h3⟩
      · exact ⟨k.ctl.resumeUop, h3⟩
    · exact ⟨k.ctl.resumeUop, h⟩

/-- An instruction retires outside the delay slot of a GATE, RETG or RETE: its core alone changes. -/
theorem State.retire_spec (u t : State) (c : Nat) (k : Core) (h : k.ctl.plain) (hk : CoreIs c u t k) :
    ∃ r, CoreIs c u (t.retire c)
      { k with
        perf := NatMap.upd 0 k.perf 0x301 (fun v => v + BitVec.ofNat 64 1),
        ctl := { k.ctl with pc := k.ctl.nextPc, delay := none, resumeUop := r } } := by
  have h1 := hk.modCore (fun k => { k with perf := NatMap.upd 0 k.perf 0x301 (fun v => v + BitVec.ofNat 64 1) })
  have h2 := State.moveOn_spec u _ c _ (by exact h) h1
  exact State.endResume_spec u _ c _ _ _ h2

/-- An instruction that is no transfer has done its operation and goes on. -/
theorem State.finish_advanced (u : State) (c : Nat) (h : (u.core c).ctl.plain) : Advanced u (u.finish c) c := by
  have h1 := ((CoreIs.refl c u).modCore (fun k => { k with remote := [] })).modCore
    (fun k => { k with ctl := k.ctl.pass })
  obtain ⟨r, ⟨hd, ho⟩, hk⟩ := State.retire_spec u _ c _ (by exact h) h1
  change u.finish c = _ at hd
  change (u.finish c).core c = _ at hk
  constructor
  · exact hd
  · exact ho
  all_goals rw [hk]
  all_goals try exact ⟨rfl, rfl⟩
  all_goals try exact ⟨rfl, rfl, rfl⟩
  all_goals try rfl
  · exact NatMap.get_upd_same (0 : Dword) (u.core c).perf 0x301 (fun v => v + BitVec.ofNat 64 1)
  · intro n hn
    exact NatMap.get_upd_ne (0 : Dword) (u.core c).perf 0x301 n (fun v => v + BitVec.ofNat 64 1) hn

theorem fetchFault_none (pc : Nat) (h1 : pc % 4 = 0) (h2 : pc < 2 ^ 18) : fetchFault pc = none := by
  unfold fetchFault
  rw [if_neg (by omega), if_neg (by omega)]

/-- A core that executes an instruction whose operation gives `u` is `u` gone on past it. -/
theorem State.execute_ok {s u : State} {c : Nat} (w : Word) {sem : State → Res} (h : s.executes c) (e : sem s = .ok u) :
    s.execute c w sem = u.finish c := by
  obtain ⟨⟨h1, h2, h3⟩, hp⟩ := h
  unfold State.execute
  rw [h1, fetchFault_none _ h2 h3]
  cases hd : (s.core c).ctl.delay with
  | none => simp [e]
  | some d => simp [e, (hp d hd).2]

/-- An operation that leaves the core's delay slot alone advances the core. -/
theorem State.execute_advanced {s u : State} {c : Nat} (w : Word) {sem : State → Res} (h : s.executes c)
    (e : sem s = .ok u) (hd : (u.core c).ctl.delay = (s.core c).ctl.delay) : Advanced u (s.execute c w sem) c := by
  rw [State.execute_ok w h e]
  refine State.finish_advanced u c ?_
  intro d hdd
  exact h.2 d (hd ▸ hdd)

/-- A transfer whose operation gives a delay slot and `u`. -/
theorem State.executeTransfer_go {s u : State} {c : Nat} {sem : State → TransRes} {d : Delay} (h : s.transfers c)
    (e : sem s = .go d u) : s.executeTransfer c sem = u.transfer c d := by
  obtain ⟨⟨h1, h2, h3⟩, hp⟩ := h
  unfold State.executeTransfer
  rw [h1, fetchFault_none _ h2 h3]
  simp only [Bool.not_true, if_false, hp, e, Option.isSome_none, Bool.false_eq_true]

/-- A transfer that is done changes its core alone. -/
theorem State.transfer_transferred (u : State) (c : Nat) (d : Delay) : Transferred u (u.transfer c d) c d := by
  have h1 := ((((CoreIs.refl c u).modCore (fun k => { k with remote := [] })).modCore
    (fun k => { k with ctl := k.ctl.pass })).modCore
    (fun k => { k with perf := NatMap.upd 0 k.perf 0x301 (fun v => v + BitVec.ofNat 64 1) })).modCore
    (fun k => { k with ctl := { k.ctl with pc := k.ctl.pc + 4, delay := some d } })
  let k := ((((u.endRemote c).modCtl c CoreCtl.pass).bump c 0x301 1).core c).ctl
  obtain ⟨r, ⟨hd, ho⟩, hk⟩ := State.endResume_spec u _ c _ k.resumeUop k.pc.toNat h1
  change u.transfer c d = _ at hd
  change (u.transfer c d).core c = _ at hk
  constructor
  · exact hd
  · exact ho
  all_goals rw [hk]
  all_goals first | rfl | exact ⟨rfl, rfl⟩ | skip
  · exact NatMap.get_upd_same (0 : Dword) (u.core c).perf 0x301 (fun v => v + BitVec.ofNat 64 1)

theorem State.executeTransfer_transferred {s u : State} {c : Nat} {sem : State → TransRes} {d : Delay}
    (h : s.transfers c) (e : sem s = .go d u) : Transferred u (s.executeTransfer c sem) c d := by
  rw [State.executeTransfer_go h e]
  exact State.transfer_transferred u c d

theorem State.remoteRead_fault {s t : State} {c k n pa : Nat} {pl : Place} {f : FaultInfo}
    (h : s.remoteRead c k pl n pa = .fault f t) : f.cause = 3 := by
  unfold State.remoteRead at h
  repeat' first
    | dsimp only at h
    | split at h
    | contradiction
    | (cases h; rfl)

/-- What a load faults with is never a reserved encoding: it is misaligned or a bus error (R118). -/
theorem State.load_fault {s t : State} {c pa n : Nat} {f : FaultInfo} (h : s.load c pa n = .fault f t) :
    f.cause = 2 ∨ f.cause = 3 := by
  unfold State.load at h
  split at h
  · cases h
    exact .inl rfl
  · split at h
    · cases h
      exact .inr rfl
    · unfold State.scalarRead at h
      dsimp only at h
      split at h
      · exact .inr (State.remoteRead_fault h)
      · split at h
        · cases h
          exact .inr rfl
        · contradiction

/-! ## Registers read back -/

/-- A general register reads as what was written, but for g0, which reads zero (R104). -/
theorem State.setG_gr (s : State) (c r q : Nat) (v : Dword) :
    ((s.setG c r v).core c).gr q = if q = r ∧ r ≠ 0 then v else (s.core c).gr q := by
  unfold State.setG
  by_cases hr : r = 0
  · simp [hr]
  · simp only [hr, if_false, State.modRegs, State.core_modCore_same, Core.gr]
    by_cases hq : q = r
    · subst hq; simp [hr]
    · simp [hq, NatMap.get_set_ne]

@[simp] theorem State.setG_zero (s : State) (c : Nat) (v : Dword) : s.setG c 0 v = s := rfl

@[simp] theorem State.setG_delay (s : State) (c r d : Nat) (v : Dword) :
    ((s.setG c r v).core d).ctl = (s.core d).ctl := by
  unfold State.setG
  split
  · rfl
  · by_cases h : d = c
    · subst h; simp [State.modRegs]
    · rw [State.modRegs, State.core_modCore_ne _ _ _ _ h]

theorem State.setF_fr (s : State) (c r q : Nat) (v : Dword) :
    ((s.setF c r v).core c).fr q = if q = r then v else (s.core c).fr q := by
  simp only [State.setF, State.modRegs, State.core_modCore_same, Core.fr]
  by_cases hq : q = r
  · subst hq; simp
  · simp [hq, NatMap.get_set_ne]

@[simp] theorem State.modRegs_ctl (s : State) (c d : Nat) (f : CoreRegs → CoreRegs) :
    ((s.modRegs c f).core d).ctl = (s.core d).ctl := by
  by_cases h : d = c
  · subst h; simp [State.modRegs]
  · rw [State.modRegs, State.core_modCore_ne _ _ _ _ h]

end Sys2Proof.Machine
end

