-- ==== Sys2Proof/Laws/State.lean ====
section
/-!
SUPPORT. What each update of State leaves as it was, field by field, and what its reader then reads.
-/

namespace Sys2Proof.Machine

open Sys2Proof

/-! ## advance -/

@[simp] theorem State.advance_pending (s : State) (t : Nat) : (s.advance t).pending = s.pending := rfl
@[simp] theorem State.advance_drawn (s : State) (t : Nat) : (s.advance t).drawn = s.drawn := rfl
@[simp] theorem State.advance_regs (s : State) (t : Nat) : (s.advance t).regs = s.regs := rfl
@[simp] theorem State.advance_latches (s : State) (t : Nat) : (s.advance t).latches = s.latches := rfl
@[simp] theorem State.advance_sht (s : State) (t : Nat) : (s.advance t).sht = s.sht := rfl
@[simp] theorem State.advance_plate (s : State) (t : Nat) : (s.advance t).plate = s.plate := rfl
@[simp] theorem State.advance_parts (s : State) (t : Nat) : (s.advance t).parts = s.parts := rfl
@[simp] theorem State.advance_sched (s : State) (t : Nat) : (s.advance t).sched = s.sched := rfl
@[simp] theorem State.advance_edges (s : State) (t : Nat) : (s.advance t).edges = s.edges := rfl
@[simp] theorem State.advance_err (s : State) (t : Nat) : (s.advance t).err = s.err := rfl
@[simp] theorem State.advance_mem (s : State) (t : Nat) : (s.advance t).mem = s.mem := rfl
@[simp] theorem State.advance_late (s : State) (t : Nat) : (s.advance t).late = s.late := rfl
@[simp] theorem State.advance_cores (s : State) (t : Nat) : (s.advance t).cores = s.cores := rfl
@[simp] theorem State.advance_clusters (s : State) (t : Nat) : (s.advance t).clusters = s.clusters := rfl
@[simp] theorem State.advance_grains (s : State) (t : Nat) : (s.advance t).grains = s.grains := rfl
@[simp] theorem State.advance_stackTab (s : State) (t : Nat) : (s.advance t).stackTab = s.stackTab := rfl
@[simp] theorem State.advance_units (s : State) (t : Nat) : (s.advance t).units = s.units := rfl
@[simp] theorem State.advance_agits (s : State) (t : Nat) : (s.advance t).agits = s.agits := rfl
@[simp] theorem State.advance_repair (s : State) (t : Nat) : (s.advance t).repair = s.repair := rfl
@[simp] theorem State.advance_env (s : State) (t : Nat) : (s.advance t).env = s.env := rfl
@[simp] theorem State.advance_host (s : State) (t : Nat) : (s.advance t).host = s.host := rfl
@[simp] theorem State.advance_boot (s : State) (t : Nat) : (s.advance t).boot = s.boot := rfl
@[simp] theorem State.advance_nv (s : State) (t : Nat) : (s.advance t).nv = s.nv := rfl
@[simp] theorem State.advance_aon (s : State) (t : Nat) : (s.advance t).aon = s.aon := rfl
@[simp] theorem State.advance_mgmt (s : State) (t : Nat) : (s.advance t).mgmt = s.mgmt := rfl
@[simp] theorem State.advance_fwu (s : State) (t : Nat) : (s.advance t).fwu = s.fwu := rfl
@[simp] theorem State.advance_links (s : State) (t : Nat) : (s.advance t).links = s.links := rfl
@[simp] theorem State.advance_rdu (s : State) (t : Nat) : (s.advance t).rdu = s.rdu := rfl
@[simp] theorem State.advance_psess (s : State) (t : Nat) : (s.advance t).psess = s.psess := rfl
@[simp] theorem State.advance_out (s : State) (t : Nat) : (s.advance t).out = s.out := rfl

/-! ## emit -/

@[simp] theorem State.emit_pending (s : State) (o : Out) : (s.emit o).pending = s.pending := rfl
@[simp] theorem State.emit_drawn (s : State) (o : Out) : (s.emit o).drawn = s.drawn := rfl
@[simp] theorem State.emit_now (s : State) (o : Out) : (s.emit o).now = s.now := rfl
@[simp] theorem State.emit_regs (s : State) (o : Out) : (s.emit o).regs = s.regs := rfl
@[simp] theorem State.emit_latches (s : State) (o : Out) : (s.emit o).latches = s.latches := rfl
@[simp] theorem State.emit_sht (s : State) (o : Out) : (s.emit o).sht = s.sht := rfl
@[simp] theorem State.emit_plate (s : State) (o : Out) : (s.emit o).plate = s.plate := rfl
@[simp] theorem State.emit_parts (s : State) (o : Out) : (s.emit o).parts = s.parts := rfl
@[simp] theorem State.emit_sched (s : State) (o : Out) : (s.emit o).sched = s.sched := rfl
@[simp] theorem State.emit_edges (s : State) (o : Out) : (s.emit o).edges = s.edges := rfl
@[simp] theorem State.emit_err (s : State) (o : Out) : (s.emit o).err = s.err := rfl
@[simp] theorem State.emit_mem (s : State) (o : Out) : (s.emit o).mem = s.mem := rfl
@[simp] theorem State.emit_late (s : State) (o : Out) : (s.emit o).late = s.late := rfl
@[simp] theorem State.emit_cores (s : State) (o : Out) : (s.emit o).cores = s.cores := rfl
@[simp] theorem State.emit_clusters (s : State) (o : Out) : (s.emit o).clusters = s.clusters := rfl
@[simp] theorem State.emit_grains (s : State) (o : Out) : (s.emit o).grains = s.grains := rfl
@[simp] theorem State.emit_stackTab (s : State) (o : Out) : (s.emit o).stackTab = s.stackTab := rfl
@[simp] theorem State.emit_units (s : State) (o : Out) : (s.emit o).units = s.units := rfl
@[simp] theorem State.emit_agits (s : State) (o : Out) : (s.emit o).agits = s.agits := rfl
@[simp] theorem State.emit_repair (s : State) (o : Out) : (s.emit o).repair = s.repair := rfl
@[simp] theorem State.emit_env (s : State) (o : Out) : (s.emit o).env = s.env := rfl
@[simp] theorem State.emit_host (s : State) (o : Out) : (s.emit o).host = s.host := rfl
@[simp] theorem State.emit_boot (s : State) (o : Out) : (s.emit o).boot = s.boot := rfl
@[simp] theorem State.emit_nv (s : State) (o : Out) : (s.emit o).nv = s.nv := rfl
@[simp] theorem State.emit_aon (s : State) (o : Out) : (s.emit o).aon = s.aon := rfl
@[simp] theorem State.emit_mgmt (s : State) (o : Out) : (s.emit o).mgmt = s.mgmt := rfl
@[simp] theorem State.emit_fwu (s : State) (o : Out) : (s.emit o).fwu = s.fwu := rfl
@[simp] theorem State.emit_links (s : State) (o : Out) : (s.emit o).links = s.links := rfl
@[simp] theorem State.emit_rdu (s : State) (o : Out) : (s.emit o).rdu = s.rdu := rfl
@[simp] theorem State.emit_psess (s : State) (o : Out) : (s.emit o).psess = s.psess := rfl

/-! ## setReg -/

@[simp] theorem State.setReg_pending (s : State) (k : Nat) (w : Word) : (s.setReg k w).pending = s.pending := rfl
@[simp] theorem State.setReg_drawn (s : State) (k : Nat) (w : Word) : (s.setReg k w).drawn = s.drawn := rfl
@[simp] theorem State.setReg_now (s : State) (k : Nat) (w : Word) : (s.setReg k w).now = s.now := rfl
@[simp] theorem State.setReg_latches (s : State) (k : Nat) (w : Word) : (s.setReg k w).latches = s.latches := rfl
@[simp] theorem State.setReg_sht (s : State) (k : Nat) (w : Word) : (s.setReg k w).sht = s.sht := rfl
@[simp] theorem State.setReg_plate (s : State) (k : Nat) (w : Word) : (s.setReg k w).plate = s.plate := rfl
@[simp] theorem State.setReg_parts (s : State) (k : Nat) (w : Word) : (s.setReg k w).parts = s.parts := rfl
@[simp] theorem State.setReg_sched (s : State) (k : Nat) (w : Word) : (s.setReg k w).sched = s.sched := rfl
@[simp] theorem State.setReg_edges (s : State) (k : Nat) (w : Word) : (s.setReg k w).edges = s.edges := rfl
@[simp] theorem State.setReg_err (s : State) (k : Nat) (w : Word) : (s.setReg k w).err = s.err := rfl
@[simp] theorem State.setReg_mem (s : State) (k : Nat) (w : Word) : (s.setReg k w).mem = s.mem := rfl
@[simp] theorem State.setReg_late (s : State) (k : Nat) (w : Word) : (s.setReg k w).late = s.late := rfl
@[simp] theorem State.setReg_cores (s : State) (k : Nat) (w : Word) : (s.setReg k w).cores = s.cores := rfl
@[simp] theorem State.setReg_clusters (s : State) (k : Nat) (w : Word) : (s.setReg k w).clusters = s.clusters := rfl
@[simp] theorem State.setReg_grains (s : State) (k : Nat) (w : Word) : (s.setReg k w).grains = s.grains := rfl
@[simp] theorem State.setReg_stackTab (s : State) (k : Nat) (w : Word) : (s.setReg k w).stackTab = s.stackTab := rfl
@[simp] theorem State.setReg_units (s : State) (k : Nat) (w : Word) : (s.setReg k w).units = s.units := rfl
@[simp] theorem State.setReg_agits (s : State) (k : Nat) (w : Word) : (s.setReg k w).agits = s.agits := rfl
@[simp] theorem State.setReg_repair (s : State) (k : Nat) (w : Word) : (s.setReg k w).repair = s.repair := rfl
@[simp] theorem State.setReg_env (s : State) (k : Nat) (w : Word) : (s.setReg k w).env = s.env := rfl
@[simp] theorem State.setReg_host (s : State) (k : Nat) (w : Word) : (s.setReg k w).host = s.host := rfl
@[simp] theorem State.setReg_boot (s : State) (k : Nat) (w : Word) : (s.setReg k w).boot = s.boot := rfl
@[simp] theorem State.setReg_nv (s : State) (k : Nat) (w : Word) : (s.setReg k w).nv = s.nv := rfl
@[simp] theorem State.setReg_aon (s : State) (k : Nat) (w : Word) : (s.setReg k w).aon = s.aon := rfl
@[simp] theorem State.setReg_mgmt (s : State) (k : Nat) (w : Word) : (s.setReg k w).mgmt = s.mgmt := rfl
@[simp] theorem State.setReg_fwu (s : State) (k : Nat) (w : Word) : (s.setReg k w).fwu = s.fwu := rfl
@[simp] theorem State.setReg_links (s : State) (k : Nat) (w : Word) : (s.setReg k w).links = s.links := rfl
@[simp] theorem State.setReg_rdu (s : State) (k : Nat) (w : Word) : (s.setReg k w).rdu = s.rdu := rfl
@[simp] theorem State.setReg_psess (s : State) (k : Nat) (w : Word) : (s.setReg k w).psess = s.psess := rfl
@[simp] theorem State.setReg_out (s : State) (k : Nat) (w : Word) : (s.setReg k w).out = s.out := rfl

/-! ## modPart -/

@[simp] theorem State.modPart_pending (s : State) (p : Nat) (f : Part → Part) : (s.modPart p f).pending = s.pending := rfl
@[simp] theorem State.modPart_drawn (s : State) (p : Nat) (f : Part → Part) : (s.modPart p f).drawn = s.drawn := rfl
@[simp] theorem State.modPart_now (s : State) (p : Nat) (f : Part → Part) : (s.modPart p f).now = s.now := rfl
@[simp] theorem State.modPart_regs (s : State) (p : Nat) (f : Part → Part) : (s.modPart p f).regs = s.regs := rfl
@[simp] theorem State.modPart_latches (s : State) (p : Nat) (f : Part → Part) : (s.modPart p f).latches = s.latches := rfl
@[simp] theorem State.modPart_sht (s : State) (p : Nat) (f : Part → Part) : (s.modPart p f).sht = s.sht := rfl
@[simp] theorem State.modPart_plate (s : State) (p : Nat) (f : Part → Part) : (s.modPart p f).plate = s.plate := rfl
@[simp] theorem State.modPart_sched (s : State) (p : Nat) (f : Part → Part) : (s.modPart p f).sched = s.sched := rfl
@[simp] theorem State.modPart_edges (s : State) (p : Nat) (f : Part → Part) : (s.modPart p f).edges = s.edges := rfl
@[simp] theorem State.modPart_err (s : State) (p : Nat) (f : Part → Part) : (s.modPart p f).err = s.err := rfl
@[simp] theorem State.modPart_mem (s : State) (p : Nat) (f : Part → Part) : (s.modPart p f).mem = s.mem := rfl
@[simp] theorem State.modPart_late (s : State) (p : Nat) (f : Part → Part) : (s.modPart p f).late = s.late := rfl
@[simp] theorem State.modPart_cores (s : State) (p : Nat) (f : Part → Part) : (s.modPart p f).cores = s.cores := rfl
@[simp] theorem State.modPart_clusters (s : State) (p : Nat) (f : Part → Part) : (s.modPart p f).clusters = s.clusters := rfl
@[simp] theorem State.modPart_grains (s : State) (p : Nat) (f : Part → Part) : (s.modPart p f).grains = s.grains := rfl
@[simp] theorem State.modPart_stackTab (s : State) (p : Nat) (f : Part → Part) : (s.modPart p f).stackTab = s.stackTab := rfl
@[simp] theorem State.modPart_units (s : State) (p : Nat) (f : Part → Part) : (s.modPart p f).units = s.units := rfl
@[simp] theorem State.modPart_agits (s : State) (p : Nat) (f : Part → Part) : (s.modPart p f).agits = s.agits := rfl
@[simp] theorem State.modPart_repair (s : State) (p : Nat) (f : Part → Part) : (s.modPart p f).repair = s.repair := rfl
@[simp] theorem State.modPart_env (s : State) (p : Nat) (f : Part → Part) : (s.modPart p f).env = s.env := rfl
@[simp] theorem State.modPart_host (s : State) (p : Nat) (f : Part → Part) : (s.modPart p f).host = s.host := rfl
@[simp] theorem State.modPart_boot (s : State) (p : Nat) (f : Part → Part) : (s.modPart p f).boot = s.boot := rfl
@[simp] theorem State.modPart_nv (s : State) (p : Nat) (f : Part → Part) : (s.modPart p f).nv = s.nv := rfl
@[simp] theorem State.modPart_aon (s : State) (p : Nat) (f : Part → Part) : (s.modPart p f).aon = s.aon := rfl
@[simp] theorem State.modPart_mgmt (s : State) (p : Nat) (f : Part → Part) : (s.modPart p f).mgmt = s.mgmt := rfl
@[simp] theorem State.modPart_fwu (s : State) (p : Nat) (f : Part → Part) : (s.modPart p f).fwu = s.fwu := rfl
@[simp] theorem State.modPart_links (s : State) (p : Nat) (f : Part → Part) : (s.modPart p f).links = s.links := rfl
@[simp] theorem State.modPart_rdu (s : State) (p : Nat) (f : Part → Part) : (s.modPart p f).rdu = s.rdu := rfl
@[simp] theorem State.modPart_psess (s : State) (p : Nat) (f : Part → Part) : (s.modPart p f).psess = s.psess := rfl
@[simp] theorem State.modPart_out (s : State) (p : Nat) (f : Part → Part) : (s.modPart p f).out = s.out := rfl

/-! ## modSch -/

@[simp] theorem State.modSch_pending (s : State) (p : Nat) (f : Sched → Sched) : (s.modSch p f).pending = s.pending := rfl
@[simp] theorem State.modSch_drawn (s : State) (p : Nat) (f : Sched → Sched) : (s.modSch p f).drawn = s.drawn := rfl
@[simp] theorem State.modSch_now (s : State) (p : Nat) (f : Sched → Sched) : (s.modSch p f).now = s.now := rfl
@[simp] theorem State.modSch_regs (s : State) (p : Nat) (f : Sched → Sched) : (s.modSch p f).regs = s.regs := rfl
@[simp] theorem State.modSch_latches (s : State) (p : Nat) (f : Sched → Sched) : (s.modSch p f).latches = s.latches := rfl
@[simp] theorem State.modSch_sht (s : State) (p : Nat) (f : Sched → Sched) : (s.modSch p f).sht = s.sht := rfl
@[simp] theorem State.modSch_plate (s : State) (p : Nat) (f : Sched → Sched) : (s.modSch p f).plate = s.plate := rfl
@[simp] theorem State.modSch_parts (s : State) (p : Nat) (f : Sched → Sched) : (s.modSch p f).parts = s.parts := rfl
@[simp] theorem State.modSch_edges (s : State) (p : Nat) (f : Sched → Sched) : (s.modSch p f).edges = s.edges := rfl
@[simp] theorem State.modSch_err (s : State) (p : Nat) (f : Sched → Sched) : (s.modSch p f).err = s.err := rfl
@[simp] theorem State.modSch_mem (s : State) (p : Nat) (f : Sched → Sched) : (s.modSch p f).mem = s.mem := rfl
@[simp] theorem State.modSch_late (s : State) (p : Nat) (f : Sched → Sched) : (s.modSch p f).late = s.late := rfl
@[simp] theorem State.modSch_cores (s : State) (p : Nat) (f : Sched → Sched) : (s.modSch p f).cores = s.cores := rfl
@[simp] theorem State.modSch_clusters (s : State) (p : Nat) (f : Sched → Sched) : (s.modSch p f).clusters = s.clusters := rfl
@[simp] theorem State.modSch_grains (s : State) (p : Nat) (f : Sched → Sched) : (s.modSch p f).grains = s.grains := rfl
@[simp] theorem State.modSch_stackTab (s : State) (p : Nat) (f : Sched → Sched) : (s.modSch p f).stackTab = s.stackTab := rfl
@[simp] theorem State.modSch_units (s : State) (p : Nat) (f : Sched → Sched) : (s.modSch p f).units = s.units := rfl
@[simp] theorem State.modSch_agits (s : State) (p : Nat) (f : Sched → Sched) : (s.modSch p f).agits = s.agits := rfl
@[simp] theorem State.modSch_repair (s : State) (p : Nat) (f : Sched → Sched) : (s.modSch p f).repair = s.repair := rfl
@[simp] theorem State.modSch_env (s : State) (p : Nat) (f : Sched → Sched) : (s.modSch p f).env = s.env := rfl
@[simp] theorem State.modSch_host (s : State) (p : Nat) (f : Sched → Sched) : (s.modSch p f).host = s.host := rfl
@[simp] theorem State.modSch_boot (s : State) (p : Nat) (f : Sched → Sched) : (s.modSch p f).boot = s.boot := rfl
@[simp] theorem State.modSch_nv (s : State) (p : Nat) (f : Sched → Sched) : (s.modSch p f).nv = s.nv := rfl
@[simp] theorem State.modSch_aon (s : State) (p : Nat) (f : Sched → Sched) : (s.modSch p f).aon = s.aon := rfl
@[simp] theorem State.modSch_mgmt (s : State) (p : Nat) (f : Sched → Sched) : (s.modSch p f).mgmt = s.mgmt := rfl
@[simp] theorem State.modSch_fwu (s : State) (p : Nat) (f : Sched → Sched) : (s.modSch p f).fwu = s.fwu := rfl
@[simp] theorem State.modSch_links (s : State) (p : Nat) (f : Sched → Sched) : (s.modSch p f).links = s.links := rfl
@[simp] theorem State.modSch_rdu (s : State) (p : Nat) (f : Sched → Sched) : (s.modSch p f).rdu = s.rdu := rfl
@[simp] theorem State.modSch_psess (s : State) (p : Nat) (f : Sched → Sched) : (s.modSch p f).psess = s.psess := rfl
@[simp] theorem State.modSch_out (s : State) (p : Nat) (f : Sched → Sched) : (s.modSch p f).out = s.out := rfl

/-! ## modCore -/

@[simp] theorem State.modCore_pending (s : State) (c : Nat) (f : Core → Core) : (s.modCore c f).pending = s.pending := rfl
@[simp] theorem State.modCore_drawn (s : State) (c : Nat) (f : Core → Core) : (s.modCore c f).drawn = s.drawn := rfl
@[simp] theorem State.modCore_now (s : State) (c : Nat) (f : Core → Core) : (s.modCore c f).now = s.now := rfl
@[simp] theorem State.modCore_regs (s : State) (c : Nat) (f : Core → Core) : (s.modCore c f).regs = s.regs := rfl
@[simp] theorem State.modCore_latches (s : State) (c : Nat) (f : Core → Core) : (s.modCore c f).latches = s.latches := rfl
@[simp] theorem State.modCore_sht (s : State) (c : Nat) (f : Core → Core) : (s.modCore c f).sht = s.sht := rfl
@[simp] theorem State.modCore_plate (s : State) (c : Nat) (f : Core → Core) : (s.modCore c f).plate = s.plate := rfl
@[simp] theorem State.modCore_parts (s : State) (c : Nat) (f : Core → Core) : (s.modCore c f).parts = s.parts := rfl
@[simp] theorem State.modCore_sched (s : State) (c : Nat) (f : Core → Core) : (s.modCore c f).sched = s.sched := rfl
@[simp] theorem State.modCore_edges (s : State) (c : Nat) (f : Core → Core) : (s.modCore c f).edges = s.edges := rfl
@[simp] theorem State.modCore_err (s : State) (c : Nat) (f : Core → Core) : (s.modCore c f).err = s.err := rfl
@[simp] theorem State.modCore_mem (s : State) (c : Nat) (f : Core → Core) : (s.modCore c f).mem = s.mem := rfl
@[simp] theorem State.modCore_late (s : State) (c : Nat) (f : Core → Core) : (s.modCore c f).late = s.late := rfl
@[simp] theorem State.modCore_clusters (s : State) (c : Nat) (f : Core → Core) : (s.modCore c f).clusters = s.clusters := rfl
@[simp] theorem State.modCore_grains (s : State) (c : Nat) (f : Core → Core) : (s.modCore c f).grains = s.grains := rfl
@[simp] theorem State.modCore_stackTab (s : State) (c : Nat) (f : Core → Core) : (s.modCore c f).stackTab = s.stackTab := rfl
@[simp] theorem State.modCore_units (s : State) (c : Nat) (f : Core → Core) : (s.modCore c f).units = s.units := rfl
@[simp] theorem State.modCore_agits (s : State) (c : Nat) (f : Core → Core) : (s.modCore c f).agits = s.agits := rfl
@[simp] theorem State.modCore_repair (s : State) (c : Nat) (f : Core → Core) : (s.modCore c f).repair = s.repair := rfl
@[simp] theorem State.modCore_env (s : State) (c : Nat) (f : Core → Core) : (s.modCore c f).env = s.env := rfl
@[simp] theorem State.modCore_host (s : State) (c : Nat) (f : Core → Core) : (s.modCore c f).host = s.host := rfl
@[simp] theorem State.modCore_boot (s : State) (c : Nat) (f : Core → Core) : (s.modCore c f).boot = s.boot := rfl
@[simp] theorem State.modCore_nv (s : State) (c : Nat) (f : Core → Core) : (s.modCore c f).nv = s.nv := rfl
@[simp] theorem State.modCore_aon (s : State) (c : Nat) (f : Core → Core) : (s.modCore c f).aon = s.aon := rfl
@[simp] theorem State.modCore_mgmt (s : State) (c : Nat) (f : Core → Core) : (s.modCore c f).mgmt = s.mgmt := rfl
@[simp] theorem State.modCore_fwu (s : State) (c : Nat) (f : Core → Core) : (s.modCore c f).fwu = s.fwu := rfl
@[simp] theorem State.modCore_links (s : State) (c : Nat) (f : Core → Core) : (s.modCore c f).links = s.links := rfl
@[simp] theorem State.modCore_rdu (s : State) (c : Nat) (f : Core → Core) : (s.modCore c f).rdu = s.rdu := rfl
@[simp] theorem State.modCore_psess (s : State) (c : Nat) (f : Core → Core) : (s.modCore c f).psess = s.psess := rfl
@[simp] theorem State.modCore_out (s : State) (c : Nat) (f : Core → Core) : (s.modCore c f).out = s.out := rfl

/-! ## modCluster -/

@[simp] theorem State.modCluster_pending (s : State) (g : Nat) (f : Cluster → Cluster) : (s.modCluster g f).pending = s.pending := rfl
@[simp] theorem State.modCluster_drawn (s : State) (g : Nat) (f : Cluster → Cluster) : (s.modCluster g f).drawn = s.drawn := rfl
@[simp] theorem State.modCluster_now (s : State) (g : Nat) (f : Cluster → Cluster) : (s.modCluster g f).now = s.now := rfl
@[simp] theorem State.modCluster_regs (s : State) (g : Nat) (f : Cluster → Cluster) : (s.modCluster g f).regs = s.regs := rfl
@[simp] theorem State.modCluster_latches (s : State) (g : Nat) (f : Cluster → Cluster) : (s.modCluster g f).latches = s.latches := rfl
@[simp] theorem State.modCluster_sht (s : State) (g : Nat) (f : Cluster → Cluster) : (s.modCluster g f).sht = s.sht := rfl
@[simp] theorem State.modCluster_plate (s : State) (g : Nat) (f : Cluster → Cluster) : (s.modCluster g f).plate = s.plate := rfl
@[simp] theorem State.modCluster_parts (s : State) (g : Nat) (f : Cluster → Cluster) : (s.modCluster g f).parts = s.parts := rfl
@[simp] theorem State.modCluster_sched (s : State) (g : Nat) (f : Cluster → Cluster) : (s.modCluster g f).sched = s.sched := rfl
@[simp] theorem State.modCluster_edges (s : State) (g : Nat) (f : Cluster → Cluster) : (s.modCluster g f).edges = s.edges := rfl
@[simp] theorem State.modCluster_err (s : State) (g : Nat) (f : Cluster → Cluster) : (s.modCluster g f).err = s.err := rfl
@[simp] theorem State.modCluster_mem (s : State) (g : Nat) (f : Cluster → Cluster) : (s.modCluster g f).mem = s.mem := rfl
@[simp] theorem State.modCluster_late (s : State) (g : Nat) (f : Cluster → Cluster) : (s.modCluster g f).late = s.late := rfl
@[simp] theorem State.modCluster_cores (s : State) (g : Nat) (f : Cluster → Cluster) : (s.modCluster g f).cores = s.cores := rfl
@[simp] theorem State.modCluster_grains (s : State) (g : Nat) (f : Cluster → Cluster) : (s.modCluster g f).grains = s.grains := rfl
@[simp] theorem State.modCluster_stackTab (s : State) (g : Nat) (f : Cluster → Cluster) : (s.modCluster g f).stackTab = s.stackTab := rfl
@[simp] theorem State.modCluster_units (s : State) (g : Nat) (f : Cluster → Cluster) : (s.modCluster g f).units = s.units := rfl
@[simp] theorem State.modCluster_agits (s : State) (g : Nat) (f : Cluster → Cluster) : (s.modCluster g f).agits = s.agits := rfl
@[simp] theorem State.modCluster_repair (s : State) (g : Nat) (f : Cluster → Cluster) : (s.modCluster g f).repair = s.repair := rfl
@[simp] theorem State.modCluster_env (s : State) (g : Nat) (f : Cluster → Cluster) : (s.modCluster g f).env = s.env := rfl
@[simp] theorem State.modCluster_host (s : State) (g : Nat) (f : Cluster → Cluster) : (s.modCluster g f).host = s.host := rfl
@[simp] theorem State.modCluster_boot (s : State) (g : Nat) (f : Cluster → Cluster) : (s.modCluster g f).boot = s.boot := rfl
@[simp] theorem State.modCluster_nv (s : State) (g : Nat) (f : Cluster → Cluster) : (s.modCluster g f).nv = s.nv := rfl
@[simp] theorem State.modCluster_aon (s : State) (g : Nat) (f : Cluster → Cluster) : (s.modCluster g f).aon = s.aon := rfl
@[simp] theorem State.modCluster_mgmt (s : State) (g : Nat) (f : Cluster → Cluster) : (s.modCluster g f).mgmt = s.mgmt := rfl
@[simp] theorem State.modCluster_fwu (s : State) (g : Nat) (f : Cluster → Cluster) : (s.modCluster g f).fwu = s.fwu := rfl
@[simp] theorem State.modCluster_links (s : State) (g : Nat) (f : Cluster → Cluster) : (s.modCluster g f).links = s.links := rfl
@[simp] theorem State.modCluster_rdu (s : State) (g : Nat) (f : Cluster → Cluster) : (s.modCluster g f).rdu = s.rdu := rfl
@[simp] theorem State.modCluster_psess (s : State) (g : Nat) (f : Cluster → Cluster) : (s.modCluster g f).psess = s.psess := rfl
@[simp] theorem State.modCluster_out (s : State) (g : Nat) (f : Cluster → Cluster) : (s.modCluster g f).out = s.out := rfl

/-! ## setGrain -/

@[simp] theorem State.setGrain_pending (s : State) (g n : Nat) (x : GStream) : (s.setGrain g n x).pending = s.pending := rfl
@[simp] theorem State.setGrain_drawn (s : State) (g n : Nat) (x : GStream) : (s.setGrain g n x).drawn = s.drawn := rfl
@[simp] theorem State.setGrain_now (s : State) (g n : Nat) (x : GStream) : (s.setGrain g n x).now = s.now := rfl
@[simp] theorem State.setGrain_regs (s : State) (g n : Nat) (x : GStream) : (s.setGrain g n x).regs = s.regs := rfl
@[simp] theorem State.setGrain_latches (s : State) (g n : Nat) (x : GStream) : (s.setGrain g n x).latches = s.latches := rfl
@[simp] theorem State.setGrain_sht (s : State) (g n : Nat) (x : GStream) : (s.setGrain g n x).sht = s.sht := rfl
@[simp] theorem State.setGrain_plate (s : State) (g n : Nat) (x : GStream) : (s.setGrain g n x).plate = s.plate := rfl
@[simp] theorem State.setGrain_parts (s : State) (g n : Nat) (x : GStream) : (s.setGrain g n x).parts = s.parts := rfl
@[simp] theorem State.setGrain_sched (s : State) (g n : Nat) (x : GStream) : (s.setGrain g n x).sched = s.sched := rfl
@[simp] theorem State.setGrain_edges (s : State) (g n : Nat) (x : GStream) : (s.setGrain g n x).edges = s.edges := rfl
@[simp] theorem State.setGrain_err (s : State) (g n : Nat) (x : GStream) : (s.setGrain g n x).err = s.err := rfl
@[simp] theorem State.setGrain_mem (s : State) (g n : Nat) (x : GStream) : (s.setGrain g n x).mem = s.mem := rfl
@[simp] theorem State.setGrain_late (s : State) (g n : Nat) (x : GStream) : (s.setGrain g n x).late = s.late := rfl
@[simp] theorem State.setGrain_cores (s : State) (g n : Nat) (x : GStream) : (s.setGrain g n x).cores = s.cores := rfl
@[simp] theorem State.setGrain_clusters (s : State) (g n : Nat) (x : GStream) : (s.setGrain g n x).clusters = s.clusters := rfl
@[simp] theorem State.setGrain_stackTab (s : State) (g n : Nat) (x : GStream) : (s.setGrain g n x).stackTab = s.stackTab := rfl
@[simp] theorem State.setGrain_units (s : State) (g n : Nat) (x : GStream) : (s.setGrain g n x).units = s.units := rfl
@[simp] theorem State.setGrain_agits (s : State) (g n : Nat) (x : GStream) : (s.setGrain g n x).agits = s.agits := rfl
@[simp] theorem State.setGrain_repair (s : State) (g n : Nat) (x : GStream) : (s.setGrain g n x).repair = s.repair := rfl
@[simp] theorem State.setGrain_env (s : State) (g n : Nat) (x : GStream) : (s.setGrain g n x).env = s.env := rfl
@[simp] theorem State.setGrain_host (s : State) (g n : Nat) (x : GStream) : (s.setGrain g n x).host = s.host := rfl
@[simp] theorem State.setGrain_boot (s : State) (g n : Nat) (x : GStream) : (s.setGrain g n x).boot = s.boot := rfl
@[simp] theorem State.setGrain_nv (s : State) (g n : Nat) (x : GStream) : (s.setGrain g n x).nv = s.nv := rfl
@[simp] theorem State.setGrain_aon (s : State) (g n : Nat) (x : GStream) : (s.setGrain g n x).aon = s.aon := rfl
@[simp] theorem State.setGrain_mgmt (s : State) (g n : Nat) (x : GStream) : (s.setGrain g n x).mgmt = s.mgmt := rfl
@[simp] theorem State.setGrain_fwu (s : State) (g n : Nat) (x : GStream) : (s.setGrain g n x).fwu = s.fwu := rfl
@[simp] theorem State.setGrain_links (s : State) (g n : Nat) (x : GStream) : (s.setGrain g n x).links = s.links := rfl
@[simp] theorem State.setGrain_rdu (s : State) (g n : Nat) (x : GStream) : (s.setGrain g n x).rdu = s.rdu := rfl
@[simp] theorem State.setGrain_psess (s : State) (g n : Nat) (x : GStream) : (s.setGrain g n x).psess = s.psess := rfl
@[simp] theorem State.setGrain_out (s : State) (g n : Nat) (x : GStream) : (s.setGrain g n x).out = s.out := rfl

/-! ## modStack -/

@[simp] theorem State.modStack_pending (s : State) (t : Nat) (f : Stack → Stack) : (s.modStack t f).pending = s.pending := rfl
@[simp] theorem State.modStack_drawn (s : State) (t : Nat) (f : Stack → Stack) : (s.modStack t f).drawn = s.drawn := rfl
@[simp] theorem State.modStack_now (s : State) (t : Nat) (f : Stack → Stack) : (s.modStack t f).now = s.now := rfl
@[simp] theorem State.modStack_regs (s : State) (t : Nat) (f : Stack → Stack) : (s.modStack t f).regs = s.regs := rfl
@[simp] theorem State.modStack_latches (s : State) (t : Nat) (f : Stack → Stack) : (s.modStack t f).latches = s.latches := rfl
@[simp] theorem State.modStack_sht (s : State) (t : Nat) (f : Stack → Stack) : (s.modStack t f).sht = s.sht := rfl
@[simp] theorem State.modStack_plate (s : State) (t : Nat) (f : Stack → Stack) : (s.modStack t f).plate = s.plate := rfl
@[simp] theorem State.modStack_parts (s : State) (t : Nat) (f : Stack → Stack) : (s.modStack t f).parts = s.parts := rfl
@[simp] theorem State.modStack_sched (s : State) (t : Nat) (f : Stack → Stack) : (s.modStack t f).sched = s.sched := rfl
@[simp] theorem State.modStack_edges (s : State) (t : Nat) (f : Stack → Stack) : (s.modStack t f).edges = s.edges := rfl
@[simp] theorem State.modStack_err (s : State) (t : Nat) (f : Stack → Stack) : (s.modStack t f).err = s.err := rfl
@[simp] theorem State.modStack_mem (s : State) (t : Nat) (f : Stack → Stack) : (s.modStack t f).mem = s.mem := rfl
@[simp] theorem State.modStack_late (s : State) (t : Nat) (f : Stack → Stack) : (s.modStack t f).late = s.late := rfl
@[simp] theorem State.modStack_cores (s : State) (t : Nat) (f : Stack → Stack) : (s.modStack t f).cores = s.cores := rfl
@[simp] theorem State.modStack_clusters (s : State) (t : Nat) (f : Stack → Stack) : (s.modStack t f).clusters = s.clusters := rfl
@[simp] theorem State.modStack_grains (s : State) (t : Nat) (f : Stack → Stack) : (s.modStack t f).grains = s.grains := rfl
@[simp] theorem State.modStack_units (s : State) (t : Nat) (f : Stack → Stack) : (s.modStack t f).units = s.units := rfl
@[simp] theorem State.modStack_agits (s : State) (t : Nat) (f : Stack → Stack) : (s.modStack t f).agits = s.agits := rfl
@[simp] theorem State.modStack_repair (s : State) (t : Nat) (f : Stack → Stack) : (s.modStack t f).repair = s.repair := rfl
@[simp] theorem State.modStack_env (s : State) (t : Nat) (f : Stack → Stack) : (s.modStack t f).env = s.env := rfl
@[simp] theorem State.modStack_host (s : State) (t : Nat) (f : Stack → Stack) : (s.modStack t f).host = s.host := rfl
@[simp] theorem State.modStack_boot (s : State) (t : Nat) (f : Stack → Stack) : (s.modStack t f).boot = s.boot := rfl
@[simp] theorem State.modStack_nv (s : State) (t : Nat) (f : Stack → Stack) : (s.modStack t f).nv = s.nv := rfl
@[simp] theorem State.modStack_aon (s : State) (t : Nat) (f : Stack → Stack) : (s.modStack t f).aon = s.aon := rfl
@[simp] theorem State.modStack_mgmt (s : State) (t : Nat) (f : Stack → Stack) : (s.modStack t f).mgmt = s.mgmt := rfl
@[simp] theorem State.modStack_fwu (s : State) (t : Nat) (f : Stack → Stack) : (s.modStack t f).fwu = s.fwu := rfl
@[simp] theorem State.modStack_links (s : State) (t : Nat) (f : Stack → Stack) : (s.modStack t f).links = s.links := rfl
@[simp] theorem State.modStack_rdu (s : State) (t : Nat) (f : Stack → Stack) : (s.modStack t f).rdu = s.rdu := rfl
@[simp] theorem State.modStack_psess (s : State) (t : Nat) (f : Stack → Stack) : (s.modStack t f).psess = s.psess := rfl
@[simp] theorem State.modStack_out (s : State) (t : Nat) (f : Stack → Stack) : (s.modStack t f).out = s.out := rfl

/-! ## modAgit -/

@[simp] theorem State.modAgit_pending (s : State) (c : Nat) (f : Agit → Agit) : (s.modAgit c f).pending = s.pending := rfl
@[simp] theorem State.modAgit_drawn (s : State) (c : Nat) (f : Agit → Agit) : (s.modAgit c f).drawn = s.drawn := rfl
@[simp] theorem State.modAgit_now (s : State) (c : Nat) (f : Agit → Agit) : (s.modAgit c f).now = s.now := rfl
@[simp] theorem State.modAgit_regs (s : State) (c : Nat) (f : Agit → Agit) : (s.modAgit c f).regs = s.regs := rfl
@[simp] theorem State.modAgit_latches (s : State) (c : Nat) (f : Agit → Agit) : (s.modAgit c f).latches = s.latches := rfl
@[simp] theorem State.modAgit_sht (s : State) (c : Nat) (f : Agit → Agit) : (s.modAgit c f).sht = s.sht := rfl
@[simp] theorem State.modAgit_plate (s : State) (c : Nat) (f : Agit → Agit) : (s.modAgit c f).plate = s.plate := rfl
@[simp] theorem State.modAgit_parts (s : State) (c : Nat) (f : Agit → Agit) : (s.modAgit c f).parts = s.parts := rfl
@[simp] theorem State.modAgit_sched (s : State) (c : Nat) (f : Agit → Agit) : (s.modAgit c f).sched = s.sched := rfl
@[simp] theorem State.modAgit_edges (s : State) (c : Nat) (f : Agit → Agit) : (s.modAgit c f).edges = s.edges := rfl
@[simp] theorem State.modAgit_err (s : State) (c : Nat) (f : Agit → Agit) : (s.modAgit c f).err = s.err := rfl
@[simp] theorem State.modAgit_mem (s : State) (c : Nat) (f : Agit → Agit) : (s.modAgit c f).mem = s.mem := rfl
@[simp] theorem State.modAgit_late (s : State) (c : Nat) (f : Agit → Agit) : (s.modAgit c f).late = s.late := rfl
@[simp] theorem State.modAgit_cores (s : State) (c : Nat) (f : Agit → Agit) : (s.modAgit c f).cores = s.cores := rfl
@[simp] theorem State.modAgit_clusters (s : State) (c : Nat) (f : Agit → Agit) : (s.modAgit c f).clusters = s.clusters := rfl
@[simp] theorem State.modAgit_grains (s : State) (c : Nat) (f : Agit → Agit) : (s.modAgit c f).grains = s.grains := rfl
@[simp] theorem State.modAgit_stackTab (s : State) (c : Nat) (f : Agit → Agit) : (s.modAgit c f).stackTab = s.stackTab := rfl
@[simp] theorem State.modAgit_units (s : State) (c : Nat) (f : Agit → Agit) : (s.modAgit c f).units = s.units := rfl
@[simp] theorem State.modAgit_repair (s : State) (c : Nat) (f : Agit → Agit) : (s.modAgit c f).repair = s.repair := rfl
@[simp] theorem State.modAgit_env (s : State) (c : Nat) (f : Agit → Agit) : (s.modAgit c f).env = s.env := rfl
@[simp] theorem State.modAgit_host (s : State) (c : Nat) (f : Agit → Agit) : (s.modAgit c f).host = s.host := rfl
@[simp] theorem State.modAgit_boot (s : State) (c : Nat) (f : Agit → Agit) : (s.modAgit c f).boot = s.boot := rfl
@[simp] theorem State.modAgit_nv (s : State) (c : Nat) (f : Agit → Agit) : (s.modAgit c f).nv = s.nv := rfl
@[simp] theorem State.modAgit_aon (s : State) (c : Nat) (f : Agit → Agit) : (s.modAgit c f).aon = s.aon := rfl
@[simp] theorem State.modAgit_mgmt (s : State) (c : Nat) (f : Agit → Agit) : (s.modAgit c f).mgmt = s.mgmt := rfl
@[simp] theorem State.modAgit_fwu (s : State) (c : Nat) (f : Agit → Agit) : (s.modAgit c f).fwu = s.fwu := rfl
@[simp] theorem State.modAgit_links (s : State) (c : Nat) (f : Agit → Agit) : (s.modAgit c f).links = s.links := rfl
@[simp] theorem State.modAgit_rdu (s : State) (c : Nat) (f : Agit → Agit) : (s.modAgit c f).rdu = s.rdu := rfl
@[simp] theorem State.modAgit_psess (s : State) (c : Nat) (f : Agit → Agit) : (s.modAgit c f).psess = s.psess := rfl
@[simp] theorem State.modAgit_out (s : State) (c : Nat) (f : Agit → Agit) : (s.modAgit c f).out = s.out := rfl

/-! ## modFn -/

@[simp] theorem State.modFn_pending (s : State) (n : Nat) (f : Fn → Fn) : (s.modFn n f).pending = s.pending := rfl
@[simp] theorem State.modFn_drawn (s : State) (n : Nat) (f : Fn → Fn) : (s.modFn n f).drawn = s.drawn := rfl
@[simp] theorem State.modFn_now (s : State) (n : Nat) (f : Fn → Fn) : (s.modFn n f).now = s.now := rfl
@[simp] theorem State.modFn_regs (s : State) (n : Nat) (f : Fn → Fn) : (s.modFn n f).regs = s.regs := rfl
@[simp] theorem State.modFn_latches (s : State) (n : Nat) (f : Fn → Fn) : (s.modFn n f).latches = s.latches := rfl
@[simp] theorem State.modFn_sht (s : State) (n : Nat) (f : Fn → Fn) : (s.modFn n f).sht = s.sht := rfl
@[simp] theorem State.modFn_plate (s : State) (n : Nat) (f : Fn → Fn) : (s.modFn n f).plate = s.plate := rfl
@[simp] theorem State.modFn_parts (s : State) (n : Nat) (f : Fn → Fn) : (s.modFn n f).parts = s.parts := rfl
@[simp] theorem State.modFn_sched (s : State) (n : Nat) (f : Fn → Fn) : (s.modFn n f).sched = s.sched := rfl
@[simp] theorem State.modFn_edges (s : State) (n : Nat) (f : Fn → Fn) : (s.modFn n f).edges = s.edges := rfl
@[simp] theorem State.modFn_err (s : State) (n : Nat) (f : Fn → Fn) : (s.modFn n f).err = s.err := rfl
@[simp] theorem State.modFn_mem (s : State) (n : Nat) (f : Fn → Fn) : (s.modFn n f).mem = s.mem := rfl
@[simp] theorem State.modFn_late (s : State) (n : Nat) (f : Fn → Fn) : (s.modFn n f).late = s.late := rfl
@[simp] theorem State.modFn_cores (s : State) (n : Nat) (f : Fn → Fn) : (s.modFn n f).cores = s.cores := rfl
@[simp] theorem State.modFn_clusters (s : State) (n : Nat) (f : Fn → Fn) : (s.modFn n f).clusters = s.clusters := rfl
@[simp] theorem State.modFn_grains (s : State) (n : Nat) (f : Fn → Fn) : (s.modFn n f).grains = s.grains := rfl
@[simp] theorem State.modFn_stackTab (s : State) (n : Nat) (f : Fn → Fn) : (s.modFn n f).stackTab = s.stackTab := rfl
@[simp] theorem State.modFn_units (s : State) (n : Nat) (f : Fn → Fn) : (s.modFn n f).units = s.units := rfl
@[simp] theorem State.modFn_agits (s : State) (n : Nat) (f : Fn → Fn) : (s.modFn n f).agits = s.agits := rfl
@[simp] theorem State.modFn_repair (s : State) (n : Nat) (f : Fn → Fn) : (s.modFn n f).repair = s.repair := rfl
@[simp] theorem State.modFn_env (s : State) (n : Nat) (f : Fn → Fn) : (s.modFn n f).env = s.env := rfl
@[simp] theorem State.modFn_boot (s : State) (n : Nat) (f : Fn → Fn) : (s.modFn n f).boot = s.boot := rfl
@[simp] theorem State.modFn_nv (s : State) (n : Nat) (f : Fn → Fn) : (s.modFn n f).nv = s.nv := rfl
@[simp] theorem State.modFn_aon (s : State) (n : Nat) (f : Fn → Fn) : (s.modFn n f).aon = s.aon := rfl
@[simp] theorem State.modFn_mgmt (s : State) (n : Nat) (f : Fn → Fn) : (s.modFn n f).mgmt = s.mgmt := rfl
@[simp] theorem State.modFn_fwu (s : State) (n : Nat) (f : Fn → Fn) : (s.modFn n f).fwu = s.fwu := rfl
@[simp] theorem State.modFn_links (s : State) (n : Nat) (f : Fn → Fn) : (s.modFn n f).links = s.links := rfl
@[simp] theorem State.modFn_rdu (s : State) (n : Nat) (f : Fn → Fn) : (s.modFn n f).rdu = s.rdu := rfl
@[simp] theorem State.modFn_psess (s : State) (n : Nat) (f : Fn → Fn) : (s.modFn n f).psess = s.psess := rfl
@[simp] theorem State.modFn_out (s : State) (n : Nat) (f : Fn → Fn) : (s.modFn n f).out = s.out := rfl

/-! ## setPend -/

@[simp] theorem State.setPend_pending (s : State) (n v : Nat) (b : Bool) : (s.setPend n v b).pending = s.pending := rfl
@[simp] theorem State.setPend_drawn (s : State) (n v : Nat) (b : Bool) : (s.setPend n v b).drawn = s.drawn := rfl
@[simp] theorem State.setPend_now (s : State) (n v : Nat) (b : Bool) : (s.setPend n v b).now = s.now := rfl
@[simp] theorem State.setPend_regs (s : State) (n v : Nat) (b : Bool) : (s.setPend n v b).regs = s.regs := rfl
@[simp] theorem State.setPend_latches (s : State) (n v : Nat) (b : Bool) : (s.setPend n v b).latches = s.latches := rfl
@[simp] theorem State.setPend_sht (s : State) (n v : Nat) (b : Bool) : (s.setPend n v b).sht = s.sht := rfl
@[simp] theorem State.setPend_plate (s : State) (n v : Nat) (b : Bool) : (s.setPend n v b).plate = s.plate := rfl
@[simp] theorem State.setPend_parts (s : State) (n v : Nat) (b : Bool) : (s.setPend n v b).parts = s.parts := rfl
@[simp] theorem State.setPend_sched (s : State) (n v : Nat) (b : Bool) : (s.setPend n v b).sched = s.sched := rfl
@[simp] theorem State.setPend_edges (s : State) (n v : Nat) (b : Bool) : (s.setPend n v b).edges = s.edges := rfl
@[simp] theorem State.setPend_err (s : State) (n v : Nat) (b : Bool) : (s.setPend n v b).err = s.err := rfl
@[simp] theorem State.setPend_mem (s : State) (n v : Nat) (b : Bool) : (s.setPend n v b).mem = s.mem := rfl
@[simp] theorem State.setPend_late (s : State) (n v : Nat) (b : Bool) : (s.setPend n v b).late = s.late := rfl
@[simp] theorem State.setPend_cores (s : State) (n v : Nat) (b : Bool) : (s.setPend n v b).cores = s.cores := rfl
@[simp] theorem State.setPend_clusters (s : State) (n v : Nat) (b : Bool) : (s.setPend n v b).clusters = s.clusters := rfl
@[simp] theorem State.setPend_grains (s : State) (n v : Nat) (b : Bool) : (s.setPend n v b).grains = s.grains := rfl
@[simp] theorem State.setPend_stackTab (s : State) (n v : Nat) (b : Bool) : (s.setPend n v b).stackTab = s.stackTab := rfl
@[simp] theorem State.setPend_units (s : State) (n v : Nat) (b : Bool) : (s.setPend n v b).units = s.units := rfl
@[simp] theorem State.setPend_agits (s : State) (n v : Nat) (b : Bool) : (s.setPend n v b).agits = s.agits := rfl
@[simp] theorem State.setPend_repair (s : State) (n v : Nat) (b : Bool) : (s.setPend n v b).repair = s.repair := rfl
@[simp] theorem State.setPend_env (s : State) (n v : Nat) (b : Bool) : (s.setPend n v b).env = s.env := rfl
@[simp] theorem State.setPend_boot (s : State) (n v : Nat) (b : Bool) : (s.setPend n v b).boot = s.boot := rfl
@[simp] theorem State.setPend_nv (s : State) (n v : Nat) (b : Bool) : (s.setPend n v b).nv = s.nv := rfl
@[simp] theorem State.setPend_aon (s : State) (n v : Nat) (b : Bool) : (s.setPend n v b).aon = s.aon := rfl
@[simp] theorem State.setPend_mgmt (s : State) (n v : Nat) (b : Bool) : (s.setPend n v b).mgmt = s.mgmt := rfl
@[simp] theorem State.setPend_fwu (s : State) (n v : Nat) (b : Bool) : (s.setPend n v b).fwu = s.fwu := rfl
@[simp] theorem State.setPend_links (s : State) (n v : Nat) (b : Bool) : (s.setPend n v b).links = s.links := rfl
@[simp] theorem State.setPend_rdu (s : State) (n v : Nat) (b : Bool) : (s.setPend n v b).rdu = s.rdu := rfl
@[simp] theorem State.setPend_psess (s : State) (n v : Nat) (b : Bool) : (s.setPend n v b).psess = s.psess := rfl
@[simp] theorem State.setPend_out (s : State) (n v : Nat) (b : Bool) : (s.setPend n v b).out = s.out := rfl

/-! ## setAssent -/

@[simp] theorem State.setAssent_pending (s : State) (n : Nat) (a : Option Assent) : (s.setAssent n a).pending = s.pending := rfl
@[simp] theorem State.setAssent_drawn (s : State) (n : Nat) (a : Option Assent) : (s.setAssent n a).drawn = s.drawn := rfl
@[simp] theorem State.setAssent_now (s : State) (n : Nat) (a : Option Assent) : (s.setAssent n a).now = s.now := rfl
@[simp] theorem State.setAssent_regs (s : State) (n : Nat) (a : Option Assent) : (s.setAssent n a).regs = s.regs := rfl
@[simp] theorem State.setAssent_latches (s : State) (n : Nat) (a : Option Assent) : (s.setAssent n a).latches = s.latches := rfl
@[simp] theorem State.setAssent_sht (s : State) (n : Nat) (a : Option Assent) : (s.setAssent n a).sht = s.sht := rfl
@[simp] theorem State.setAssent_plate (s : State) (n : Nat) (a : Option Assent) : (s.setAssent n a).plate = s.plate := rfl
@[simp] theorem State.setAssent_parts (s : State) (n : Nat) (a : Option Assent) : (s.setAssent n a).parts = s.parts := rfl
@[simp] theorem State.setAssent_sched (s : State) (n : Nat) (a : Option Assent) : (s.setAssent n a).sched = s.sched := rfl
@[simp] theorem State.setAssent_edges (s : State) (n : Nat) (a : Option Assent) : (s.setAssent n a).edges = s.edges := rfl
@[simp] theorem State.setAssent_err (s : State) (n : Nat) (a : Option Assent) : (s.setAssent n a).err = s.err := rfl
@[simp] theorem State.setAssent_mem (s : State) (n : Nat) (a : Option Assent) : (s.setAssent n a).mem = s.mem := rfl
@[simp] theorem State.setAssent_late (s : State) (n : Nat) (a : Option Assent) : (s.setAssent n a).late = s.late := rfl
@[simp] theorem State.setAssent_cores (s : State) (n : Nat) (a : Option Assent) : (s.setAssent n a).cores = s.cores := rfl
@[simp] theorem State.setAssent_clusters (s : State) (n : Nat) (a : Option Assent) : (s.setAssent n a).clusters = s.clusters := rfl
@[simp] theorem State.setAssent_grains (s : State) (n : Nat) (a : Option Assent) : (s.setAssent n a).grains = s.grains := rfl
@[simp] theorem State.setAssent_stackTab (s : State) (n : Nat) (a : Option Assent) : (s.setAssent n a).stackTab = s.stackTab := rfl
@[simp] theorem State.setAssent_units (s : State) (n : Nat) (a : Option Assent) : (s.setAssent n a).units = s.units := rfl
@[simp] theorem State.setAssent_agits (s : State) (n : Nat) (a : Option Assent) : (s.setAssent n a).agits = s.agits := rfl
@[simp] theorem State.setAssent_repair (s : State) (n : Nat) (a : Option Assent) : (s.setAssent n a).repair = s.repair := rfl
@[simp] theorem State.setAssent_env (s : State) (n : Nat) (a : Option Assent) : (s.setAssent n a).env = s.env := rfl
@[simp] theorem State.setAssent_host (s : State) (n : Nat) (a : Option Assent) : (s.setAssent n a).host = s.host := rfl
@[simp] theorem State.setAssent_boot (s : State) (n : Nat) (a : Option Assent) : (s.setAssent n a).boot = s.boot := rfl
@[simp] theorem State.setAssent_nv (s : State) (n : Nat) (a : Option Assent) : (s.setAssent n a).nv = s.nv := rfl
@[simp] theorem State.setAssent_aon (s : State) (n : Nat) (a : Option Assent) : (s.setAssent n a).aon = s.aon := rfl
@[simp] theorem State.setAssent_fwu (s : State) (n : Nat) (a : Option Assent) : (s.setAssent n a).fwu = s.fwu := rfl
@[simp] theorem State.setAssent_links (s : State) (n : Nat) (a : Option Assent) : (s.setAssent n a).links = s.links := rfl
@[simp] theorem State.setAssent_rdu (s : State) (n : Nat) (a : Option Assent) : (s.setAssent n a).rdu = s.rdu := rfl
@[simp] theorem State.setAssent_psess (s : State) (n : Nat) (a : Option Assent) : (s.setAssent n a).psess = s.psess := rfl
@[simp] theorem State.setAssent_out (s : State) (n : Nat) (a : Option Assent) : (s.setAssent n a).out = s.out := rfl

/-! ## modLinks -/

@[simp] theorem State.modLinks_pending (s : State) (f : Links → Links) : (s.modLinks f).pending = s.pending := rfl
@[simp] theorem State.modLinks_drawn (s : State) (f : Links → Links) : (s.modLinks f).drawn = s.drawn := rfl
@[simp] theorem State.modLinks_now (s : State) (f : Links → Links) : (s.modLinks f).now = s.now := rfl
@[simp] theorem State.modLinks_regs (s : State) (f : Links → Links) : (s.modLinks f).regs = s.regs := rfl
@[simp] theorem State.modLinks_latches (s : State) (f : Links → Links) : (s.modLinks f).latches = s.latches := rfl
@[simp] theorem State.modLinks_sht (s : State) (f : Links → Links) : (s.modLinks f).sht = s.sht := rfl
@[simp] theorem State.modLinks_plate (s : State) (f : Links → Links) : (s.modLinks f).plate = s.plate := rfl
@[simp] theorem State.modLinks_parts (s : State) (f : Links → Links) : (s.modLinks f).parts = s.parts := rfl
@[simp] theorem State.modLinks_sched (s : State) (f : Links → Links) : (s.modLinks f).sched = s.sched := rfl
@[simp] theorem State.modLinks_edges (s : State) (f : Links → Links) : (s.modLinks f).edges = s.edges := rfl
@[simp] theorem State.modLinks_err (s : State) (f : Links → Links) : (s.modLinks f).err = s.err := rfl
@[simp] theorem State.modLinks_mem (s : State) (f : Links → Links) : (s.modLinks f).mem = s.mem := rfl
@[simp] theorem State.modLinks_late (s : State) (f : Links → Links) : (s.modLinks f).late = s.late := rfl
@[simp] theorem State.modLinks_cores (s : State) (f : Links → Links) : (s.modLinks f).cores = s.cores := rfl
@[simp] theorem State.modLinks_clusters (s : State) (f : Links → Links) : (s.modLinks f).clusters = s.clusters := rfl
@[simp] theorem State.modLinks_grains (s : State) (f : Links → Links) : (s.modLinks f).grains = s.grains := rfl
@[simp] theorem State.modLinks_stackTab (s : State) (f : Links → Links) : (s.modLinks f).stackTab = s.stackTab := rfl
@[simp] theorem State.modLinks_units (s : State) (f : Links → Links) : (s.modLinks f).units = s.units := rfl
@[simp] theorem State.modLinks_agits (s : State) (f : Links → Links) : (s.modLinks f).agits = s.agits := rfl
@[simp] theorem State.modLinks_repair (s : State) (f : Links → Links) : (s.modLinks f).repair = s.repair := rfl
@[simp] theorem State.modLinks_env (s : State) (f : Links → Links) : (s.modLinks f).env = s.env := rfl
@[simp] theorem State.modLinks_host (s : State) (f : Links → Links) : (s.modLinks f).host = s.host := rfl
@[simp] theorem State.modLinks_boot (s : State) (f : Links → Links) : (s.modLinks f).boot = s.boot := rfl
@[simp] theorem State.modLinks_nv (s : State) (f : Links → Links) : (s.modLinks f).nv = s.nv := rfl
@[simp] theorem State.modLinks_aon (s : State) (f : Links → Links) : (s.modLinks f).aon = s.aon := rfl
@[simp] theorem State.modLinks_mgmt (s : State) (f : Links → Links) : (s.modLinks f).mgmt = s.mgmt := rfl
@[simp] theorem State.modLinks_fwu (s : State) (f : Links → Links) : (s.modLinks f).fwu = s.fwu := rfl
@[simp] theorem State.modLinks_rdu (s : State) (f : Links → Links) : (s.modLinks f).rdu = s.rdu := rfl
@[simp] theorem State.modLinks_psess (s : State) (f : Links → Links) : (s.modLinks f).psess = s.psess := rfl
@[simp] theorem State.modLinks_out (s : State) (f : Links → Links) : (s.modLinks f).out = s.out := rfl

/-! ## modPort -/

@[simp] theorem State.modPort_pending (s : State) (q : Nat) (f : Port → Port) : (s.modPort q f).pending = s.pending := rfl
@[simp] theorem State.modPort_drawn (s : State) (q : Nat) (f : Port → Port) : (s.modPort q f).drawn = s.drawn := rfl
@[simp] theorem State.modPort_now (s : State) (q : Nat) (f : Port → Port) : (s.modPort q f).now = s.now := rfl
@[simp] theorem State.modPort_regs (s : State) (q : Nat) (f : Port → Port) : (s.modPort q f).regs = s.regs := rfl
@[simp] theorem State.modPort_latches (s : State) (q : Nat) (f : Port → Port) : (s.modPort q f).latches = s.latches := rfl
@[simp] theorem State.modPort_sht (s : State) (q : Nat) (f : Port → Port) : (s.modPort q f).sht = s.sht := rfl
@[simp] theorem State.modPort_plate (s : State) (q : Nat) (f : Port → Port) : (s.modPort q f).plate = s.plate := rfl
@[simp] theorem State.modPort_parts (s : State) (q : Nat) (f : Port → Port) : (s.modPort q f).parts = s.parts := rfl
@[simp] theorem State.modPort_sched (s : State) (q : Nat) (f : Port → Port) : (s.modPort q f).sched = s.sched := rfl
@[simp] theorem State.modPort_edges (s : State) (q : Nat) (f : Port → Port) : (s.modPort q f).edges = s.edges := rfl
@[simp] theorem State.modPort_err (s : State) (q : Nat) (f : Port → Port) : (s.modPort q f).err = s.err := rfl
@[simp] theorem State.modPort_mem (s : State) (q : Nat) (f : Port → Port) : (s.modPort q f).mem = s.mem := rfl
@[simp] theorem State.modPort_late (s : State) (q : Nat) (f : Port → Port) : (s.modPort q f).late = s.late := rfl
@[simp] theorem State.modPort_cores (s : State) (q : Nat) (f : Port → Port) : (s.modPort q f).cores = s.cores := rfl
@[simp] theorem State.modPort_clusters (s : State) (q : Nat) (f : Port → Port) : (s.modPort q f).clusters = s.clusters := rfl
@[simp] theorem State.modPort_grains (s : State) (q : Nat) (f : Port → Port) : (s.modPort q f).grains = s.grains := rfl
@[simp] theorem State.modPort_stackTab (s : State) (q : Nat) (f : Port → Port) : (s.modPort q f).stackTab = s.stackTab := rfl
@[simp] theorem State.modPort_units (s : State) (q : Nat) (f : Port → Port) : (s.modPort q f).units = s.units := rfl
@[simp] theorem State.modPort_agits (s : State) (q : Nat) (f : Port → Port) : (s.modPort q f).agits = s.agits := rfl
@[simp] theorem State.modPort_repair (s : State) (q : Nat) (f : Port → Port) : (s.modPort q f).repair = s.repair := rfl
@[simp] theorem State.modPort_env (s : State) (q : Nat) (f : Port → Port) : (s.modPort q f).env = s.env := rfl
@[simp] theorem State.modPort_host (s : State) (q : Nat) (f : Port → Port) : (s.modPort q f).host = s.host := rfl
@[simp] theorem State.modPort_boot (s : State) (q : Nat) (f : Port → Port) : (s.modPort q f).boot = s.boot := rfl
@[simp] theorem State.modPort_nv (s : State) (q : Nat) (f : Port → Port) : (s.modPort q f).nv = s.nv := rfl
@[simp] theorem State.modPort_aon (s : State) (q : Nat) (f : Port → Port) : (s.modPort q f).aon = s.aon := rfl
@[simp] theorem State.modPort_mgmt (s : State) (q : Nat) (f : Port → Port) : (s.modPort q f).mgmt = s.mgmt := rfl
@[simp] theorem State.modPort_fwu (s : State) (q : Nat) (f : Port → Port) : (s.modPort q f).fwu = s.fwu := rfl
@[simp] theorem State.modPort_rdu (s : State) (q : Nat) (f : Port → Port) : (s.modPort q f).rdu = s.rdu := rfl
@[simp] theorem State.modPort_psess (s : State) (q : Nat) (f : Port → Port) : (s.modPort q f).psess = s.psess := rfl
@[simp] theorem State.modPort_out (s : State) (q : Nat) (f : Port → Port) : (s.modPort q f).out = s.out := rfl

/-! ## modSess -/

@[simp] theorem State.modSess_pending (s : State) (p : Nat) (f : PSess → PSess) : (s.modSess p f).pending = s.pending := rfl
@[simp] theorem State.modSess_drawn (s : State) (p : Nat) (f : PSess → PSess) : (s.modSess p f).drawn = s.drawn := rfl
@[simp] theorem State.modSess_now (s : State) (p : Nat) (f : PSess → PSess) : (s.modSess p f).now = s.now := rfl
@[simp] theorem State.modSess_regs (s : State) (p : Nat) (f : PSess → PSess) : (s.modSess p f).regs = s.regs := rfl
@[simp] theorem State.modSess_latches (s : State) (p : Nat) (f : PSess → PSess) : (s.modSess p f).latches = s.latches := rfl
@[simp] theorem State.modSess_sht (s : State) (p : Nat) (f : PSess → PSess) : (s.modSess p f).sht = s.sht := rfl
@[simp] theorem State.modSess_plate (s : State) (p : Nat) (f : PSess → PSess) : (s.modSess p f).plate = s.plate := rfl
@[simp] theorem State.modSess_parts (s : State) (p : Nat) (f : PSess → PSess) : (s.modSess p f).parts = s.parts := rfl
@[simp] theorem State.modSess_sched (s : State) (p : Nat) (f : PSess → PSess) : (s.modSess p f).sched = s.sched := rfl
@[simp] theorem State.modSess_edges (s : State) (p : Nat) (f : PSess → PSess) : (s.modSess p f).edges = s.edges := rfl
@[simp] theorem State.modSess_err (s : State) (p : Nat) (f : PSess → PSess) : (s.modSess p f).err = s.err := rfl
@[simp] theorem State.modSess_mem (s : State) (p : Nat) (f : PSess → PSess) : (s.modSess p f).mem = s.mem := rfl
@[simp] theorem State.modSess_late (s : State) (p : Nat) (f : PSess → PSess) : (s.modSess p f).late = s.late := rfl
@[simp] theorem State.modSess_cores (s : State) (p : Nat) (f : PSess → PSess) : (s.modSess p f).cores = s.cores := rfl
@[simp] theorem State.modSess_clusters (s : State) (p : Nat) (f : PSess → PSess) : (s.modSess p f).clusters = s.clusters := rfl
@[simp] theorem State.modSess_grains (s : State) (p : Nat) (f : PSess → PSess) : (s.modSess p f).grains = s.grains := rfl
@[simp] theorem State.modSess_stackTab (s : State) (p : Nat) (f : PSess → PSess) : (s.modSess p f).stackTab = s.stackTab := rfl
@[simp] theorem State.modSess_units (s : State) (p : Nat) (f : PSess → PSess) : (s.modSess p f).units = s.units := rfl
@[simp] theorem State.modSess_agits (s : State) (p : Nat) (f : PSess → PSess) : (s.modSess p f).agits = s.agits := rfl
@[simp] theorem State.modSess_repair (s : State) (p : Nat) (f : PSess → PSess) : (s.modSess p f).repair = s.repair := rfl
@[simp] theorem State.modSess_env (s : State) (p : Nat) (f : PSess → PSess) : (s.modSess p f).env = s.env := rfl
@[simp] theorem State.modSess_host (s : State) (p : Nat) (f : PSess → PSess) : (s.modSess p f).host = s.host := rfl
@[simp] theorem State.modSess_boot (s : State) (p : Nat) (f : PSess → PSess) : (s.modSess p f).boot = s.boot := rfl
@[simp] theorem State.modSess_nv (s : State) (p : Nat) (f : PSess → PSess) : (s.modSess p f).nv = s.nv := rfl
@[simp] theorem State.modSess_aon (s : State) (p : Nat) (f : PSess → PSess) : (s.modSess p f).aon = s.aon := rfl
@[simp] theorem State.modSess_mgmt (s : State) (p : Nat) (f : PSess → PSess) : (s.modSess p f).mgmt = s.mgmt := rfl
@[simp] theorem State.modSess_fwu (s : State) (p : Nat) (f : PSess → PSess) : (s.modSess p f).fwu = s.fwu := rfl
@[simp] theorem State.modSess_links (s : State) (p : Nat) (f : PSess → PSess) : (s.modSess p f).links = s.links := rfl
@[simp] theorem State.modSess_rdu (s : State) (p : Nat) (f : PSess → PSess) : (s.modSess p f).rdu = s.rdu := rfl
@[simp] theorem State.modSess_out (s : State) (p : Nat) (f : PSess → PSess) : (s.modSess p f).out = s.out := rfl

/-! ## Readers -/

@[simp] theorem State.modPart_part (s : State) (p : Nat) (f : Part → Part) : (s.modPart p f).part p = f (s.part p) := by
  simp [State.part, State.modPart]
theorem State.modPart_part_ne (s : State) (p j : Nat) (f : Part → Part) (h : j ≠ p) : (s.modPart p f).part j = s.part j := by
  simp [State.part, State.modPart, NatMap.get_upd_ne _ _ _ _ _ h]

@[simp] theorem State.modSch_sch (s : State) (p : Nat) (f : Sched → Sched) : (s.modSch p f).sch p = f (s.sch p) := by
  simp [State.sch, State.modSch]
theorem State.modSch_sch_ne (s : State) (p j : Nat) (f : Sched → Sched) (h : j ≠ p) : (s.modSch p f).sch j = s.sch j := by
  simp [State.sch, State.modSch, NatMap.get_upd_ne _ _ _ _ _ h]

@[simp] theorem State.modCluster_cluster (s : State) (g : Nat) (f : Cluster → Cluster) : (s.modCluster g f).cluster g = f (s.cluster g) := by
  simp [State.cluster, State.modCluster]
theorem State.modCluster_cluster_ne (s : State) (g j : Nat) (f : Cluster → Cluster) (h : j ≠ g) : (s.modCluster g f).cluster j = s.cluster j := by
  simp [State.cluster, State.modCluster, NatMap.get_upd_ne _ _ _ _ _ h]

@[simp] theorem State.modStack_stack (s : State) (t : Nat) (f : Stack → Stack) : (s.modStack t f).stack t = f (s.stack t) := by
  simp [State.stack, State.modStack]
theorem State.modStack_stack_ne (s : State) (t j : Nat) (f : Stack → Stack) (h : j ≠ t) : (s.modStack t f).stack j = s.stack j := by
  simp [State.stack, State.modStack, NatMap.get_upd_ne _ _ _ _ _ h]

@[simp] theorem State.modAgit_agit (s : State) (c : Nat) (f : Agit → Agit) : (s.modAgit c f).agit c = f (s.agit c) := by
  simp [State.agit, State.modAgit]
theorem State.modAgit_agit_ne (s : State) (c j : Nat) (f : Agit → Agit) (h : j ≠ c) : (s.modAgit c f).agit j = s.agit j := by
  simp [State.agit, State.modAgit, NatMap.get_upd_ne _ _ _ _ _ h]

@[simp] theorem State.modFn_fn (s : State) (n : Nat) (f : Fn → Fn) : (s.modFn n f).fn n = f (s.fn n) := by
  simp [State.fn, State.modFn]
theorem State.modFn_fn_ne (s : State) (n j : Nat) (f : Fn → Fn) (h : j ≠ n) : (s.modFn n f).fn j = s.fn j := by
  simp [State.fn, State.modFn, NatMap.get_upd_ne _ _ _ _ _ h]

@[simp] theorem State.modPort_port (s : State) (q : Nat) (f : Port → Port) : (s.modPort q f).port q = f (s.port q) := by
  simp [State.port, State.modPort]
theorem State.modPort_port_ne (s : State) (q j : Nat) (f : Port → Port) (h : j ≠ q) : (s.modPort q f).port j = s.port j := by
  simp [State.port, State.modPort, NatMap.get_upd_ne _ _ _ _ _ h]

@[simp] theorem State.modSess_sess (s : State) (p : Nat) (f : PSess → PSess) : (s.modSess p f).sess p = f (s.sess p) := by
  simp [State.sess, State.modSess]
theorem State.modSess_sess_ne (s : State) (p j : Nat) (f : PSess → PSess) (h : j ≠ p) : (s.modSess p f).sess j = s.sess j := by
  simp [State.sess, State.modSess, NatMap.get_upd_ne _ _ _ _ _ h]

@[simp] theorem State.setReg_reg (s : State) (k : Nat) (w : Word) : (s.setReg k w).reg k = w := by simp [State.reg, State.setReg]
theorem State.setReg_reg_ne (s : State) (k j : Nat) (w : Word) (h : j ≠ k) : (s.setReg k w).reg j = s.reg j := by
  simp [State.reg, State.setReg, NatMap.get_set_ne _ _ _ _ _ h]

@[simp] theorem State.modSq_sq (s : State) (p q : Nat) (f : SQ → SQ) : (s.modSq p q f).sq p q = f (s.sq p q) := by
  simp [State.sq, State.modSq]
@[simp] theorem State.modCq_cq (s : State) (p c : Nat) (f : CQ → CQ) : (s.modCq p c f).cq p c = f (s.cq p c) := by
  simp [State.cq, State.modCq]

@[simp] theorem State.setPend_pend (s : State) (n v : Nat) (b : Bool) : (s.setPend n v b).pend n v = b := by
  simp [State.pend, State.setPend]
@[simp] theorem State.setAssent_assent (s : State) (n : Nat) (a : Option Assent) : (s.setAssent n a).assent n = a := by
  simp [State.assent, State.setAssent]
theorem State.setAssent_assent_ne (s : State) (n m : Nat) (a : Option Assent) (h : m ≠ n) : (s.setAssent n a).assent m = s.assent m := by
  simp [State.assent, State.setAssent, NatMap.get_set_ne _ _ _ _ _ h]

end Sys2Proof.Machine
end

