-- ==== Sys2Proof/Laws/Gates.lean ====
section
/-!
SUPPORT. What the gates of the served paths do: where a write, a message or a boot step is let through, the gate is the effect
behind it, and where it is not, the gate says what happens instead.
-/

namespace Sys2Proof.Machine

open Sys2Proof

/-! ## Host writes (R436, R437) -/

/-- A PF write to a block that is served has its effect. -/
theorem State.pfWrite_serves {s : State} {k : Nat} (h : s.pfServes k) (f : State → State) : s.pfWrite k f = f s := by
  obtain ⟨a, b⟩ := h
  unfold State.pfWrite
  rw [if_neg (by simp [a]), if_pos]
  rcases b with b | ⟨b, c, d⟩
  · exact Or.inl b
  · exact Or.inr ⟨b, by simp [c], d⟩

/-- A PF write to a block that is not served is ignored, or counted. -/
theorem State.pfWrite_refuses {s : State} {k : Nat} (h : ¬ s.pfServes k) (f : State → State) :
    s.pfWrite k f = s ∨ s.pfWrite k f = s.countRefused := by
  unfold State.pfWrite
  split
  · exact Or.inl rfl
  · rename_i he
    rw [if_neg]
    · exact Or.inr rfl
    · intro hk
      apply h
      refine ⟨by simpa using he, ?_⟩
      rcases hk with hk | ⟨a, b, c⟩
      · exact Or.inl hk
      · exact Or.inr ⟨a, by simpa using b, c⟩

/-- A write to the page of a VF that is there and served has its effect. -/
theorem State.vfWrite_serves {s : State} {p : Nat} (h : s.vfThere p = true) (h2 : s.vfServed p = true) (f : State → State) :
    s.vfWrite p f = f s := by
  simp [State.vfWrite, h, h2]

/-! ## Messages to Safelight (R459, R482, R536) -/

/-- A message that is heard is acted on. -/
theorem State.hear_hears {s : State} {q : Ask} (h : s.hears q) (b f : State → State) : s.hear q b f = f (s.advance q.t) := by
  obtain ⟨h1, h2, h3, h4, h5⟩ := h
  simp only [State.hear, State.advance_boot, State.advance_mgmt, h1, h2, h3, h4, h5]
  simp

@[simp] theorem State.advance_mgmtSession (s : State) (t : Nat) (q : Ask) : (s.advance t).mgmtSession q = s.mgmtSession q := rfl

/-- After traffic the session a message names is the same but for its time. -/
theorem State.touch_mgmtSession {s : State} {q : Ask} {x : MSess} (h : s.mgmtSession q = some x) :
    (s.touch q.session).mgmtSession q = some { x with lastAt := s.now } := by
  have hid : x.id = q.session := by
    have := List.find?_some h
    simp at this
    exact this.1.1
  simp only [State.mgmtSession, State.touch] at h ⊢
  rw [List.find?_map]
  have : ((fun y : MSess => y.id == q.session && y.partner == q.partner && q.session != 0) ∘
      fun y : MSess => if y.id = q.session then { y with lastAt := s.now } else y) =
      fun y : MSess => y.id == q.session && y.partner == q.partner && q.session != 0 := by
    funext y
    simp only [Function.comp]
    split <;> rfl
  rw [this, h]
  simp [hid]

/-- An SPDM message outside any session. -/
theorem State.hearSpdm_outside {s : State} {q : Ask} (h : s.hears q) (h0 : q.session = 0) (f : State → State) :
    s.hearSpdm q f = f (s.advance q.t) := by
  simp [State.hearSpdm, State.hear_hears h, h0]

/-- An authentic SPDM message inside a session that stands. -/
theorem State.hearSpdm_inside {s : State} {q : Ask} {x : MSess} (h : s.hears q) (h0 : q.session ≠ 0) (ha : q.auth = true)
    (hx : s.mgmtSession q = some x) (f : State → State) : s.hearSpdm q f = f ((s.advance q.t).touch q.session) := by
  simp [State.hearSpdm, State.hear_hears h, h0, ha, hx]

/-- A request inside a live session. -/
theorem State.inSession_live {s : State} {q : Ask} {x : MSess} (h : s.inLive q x) (f : MSess → State → State) :
    s.inSession q f = f { x with lastAt := (s.advance q.t).now } ((s.advance q.t).touch q.session) := by
  obtain ⟨h0, h1, h2, h3, h4⟩ := h
  have := State.touch_mgmtSession (s := s.advance q.t) (q := q) (x := x) h3
  simp [State.inSession, State.hearSpdm_inside h0 h1 h2 h3, this, h4]

/-- A management command inside a live session: its role and its body are looked at, in that order. -/
theorem State.manage_live {s : State} {q : Ask} {x : MSess} (h : s.inLive q x) (roles : List Nat) (sound : Bool)
    (f : MSess → State → State) :
    s.manage q roles sound f =
      if roles.contains x.role then
        if sound then f x ((s.advance q.t).touch x.id) else ((s.advance q.t).touch x.id).result x 2 []
      else ((s.advance q.t).touch x.id).result x 1 [] := by
  obtain ⟨h0, h1, h2, h3, h4⟩ := h
  rw [State.manage, State.hear_hears h0]
  simp only [h1, h2, State.advance_mgmtSession, h3, h4]
  by_cases a : x.role ∈ roles <;> by_cases b : sound = true <;> simp [a, b, resField, resRole, State.result]

/-! ## Links (R404, R419, R426) -/

/-- A received message of the operation asked for is taken, and its buffer is freed. -/
theorem State.takeIn_found {s : State} {i op : Nat} {x : InMsg} (h : s.links.inbox[i]? = some x) (ho : x.msg.op = op)
    (f : InMsg → State → State) :
    s.takeIn i op f = f x ((s.modLinks (fun l => { l with inbox := l.inbox.eraseIdx i })).freeSlot x.slot) := by
  simp [State.takeIn, h, ho]

/-- A block that reaches a port that is not UP does nothing. -/
theorem State.receive_down {s : State} {q : Nat} (h : (s.port q).state ≠ .up) (kind : Nat) (b : List Byte)
    (f : State → List Byte → State) : s.receive q kind b f = s := by
  simp [State.receive, h]

/-- A sound flit of the kind asked for: its ACK and credits are taken, and it acts where the port is still UP. -/
theorem State.receive_sound {s : State} {q kind : Nat} {b f : List Byte} {fixed : Bool} (h : (s.port q).state = .up)
    (hb : unblock b = some (f, fixed)) (hc : fieldLE f 252 4 = flitCrc (f.take 252)) (hk : flitKind f = kind) (h5 : kind < 5)
    (hf : flitFieldBad f = false) (g : State → List Byte → State) :
    s.receive q kind b g =
      let v := (if fixed then s.incReg (mbxKey q 0x38) else s).takeHeader q f
      if (v.port q).state ≠ .up then v else g v f := by
  simp only [State.receive, h, hb, hc, hf, hk]
  simp
  omega

/-! ## Boot steps (R479, R480, R494) -/

/-- A step that is in progress, and that service mode does not skip, ends with what it found. -/
theorem State.atStep_in {s : State} {n t : Nat} (h : s.inStep n t) (hs : s.skips n = false) (stores : Bool) (f : State → State) :
    s.atStep n t stores f = f (s.advance t) := by
  obtain ⟨h1, h2, h3, h4, h5⟩ := h
  have e : (s.advance t).skips n = s.skips n := rfl
  simp only [State.atStep, h1, h2, h3, h4, e, hs]
  simp
  omega

/-- A step that is not in progress changes nothing. -/
theorem State.atStep_out {s : State} {n t : Nat}
    (h : s.boot.step ≠ n ∨ s.boot.held = true ∨ s.boot.halted = true ∨ s.boot.ready = true ∨ s.boot.since + stepMax n * cyclesPerMs < t)
    (stores : Bool) (f : State → State) : s.atStep n t stores f = s := by
  unfold State.atStep
  rw [if_pos]
  rcases h with h | h | h | h | h <;> simp [h]

/-! ## The firmware mailbox (R521) -/

/-- A command that the mailbox takes. -/
theorem State.fwuCmd_takes {s : State} (h : s.pfServes 0) (he : s.fwu.en = true) (hb : s.fwu.state ≠ .verifying) {r : Bool}
    (hr : r = true ∨ s.boot.svcReason ≠ 2) (f : State → State) :
    s.fwuCmd r f = f (let h := if s.fwu.path = 1 then s.fwuHeard else s
      { h with fwu := { h.fwu with badCmd := false } }) := by
  rw [State.fwuCmd, State.pfWrite_serves h]
  have : s.fwuBusy = false := by simp [State.fwuBusy, hb]
  simp only [he, this]
  rw [if_neg (by simp), if_neg]
  rcases hr with hr | hr <;> simp [hr]

end Sys2Proof.Machine
end

