-- ==== Sys2Proof/Laws/Keeps.lean ====
section
/-!
SUPPORT. What every command leaves in place: `Keeps` is a preorder, it passes through every way of updating State, and
through folds and the results that carry a state.
-/

namespace Sys2Proof.Machine

open Sys2Proof

/-- What a command is compared with: the state before it, and whether it may begin a new frame. -/
structure Base where
  st : State
  ticks : Bool := false

/-- What every command leaves in place, whatever it does: the commands that wait; what has been sent; a blown fuse (R475);
the count of free values never falls; and canonical forms stay. One that begins no frame leaves the frame number and the
time of the last tick. -/
structure Keeps (b : Base) (t : State) : Prop where
  queue : t.pending = b.st.pending
  draws : b.st.drawn ≤ t.drawn
  sent : b.st.out <+: t.out
  fuses : b.st.nv.fuses &&& t.nv.fuses = b.st.nv.fuses
  mem : b.st.mem.wf = true → t.mem.wf = true
  regs : b.st.regsWf = true → t.regsWf = true
  frame : b.ticks = false → t.sht.frame = b.st.sht.frame
  last : b.ticks = false → t.sht.lastTick = b.st.sht.lastTick

theorem Keeps.refl (s : State) (b : Bool) : Keeps ⟨s, b⟩ s :=
  ⟨rfl, Nat.le_refl _, List.prefix_refl _, by simp, id, id, fun _ => rfl, fun _ => rfl⟩

/-- An update of the parts of State that `Keeps` does not speak of. -/
theorem Keeps.upd {s0 : Base} {x : State} (h : Keeps s0 x) {now_ : Nat} {latches_ : NatMap Word} {sht_ : Shutter} {plate_ : PlateSt}
    {parts_ : NatMap Part} {sched_ : NatMap Sched} {edges_ : NatMap (List LatchedEdge)} {err_ : ErrSt}
    {late_ : NatMap (List (Nat × Nat))} {cores_ : NatMap Core} {clusters_ : NatMap Cluster} {grains_ : NatMap GStream}
    {stackTab_ : NatMap Stack} {units_ : Units} {agits_ : NatMap Agit} {repair_ : Repair} {env_ : Env} {host_ : HostIf}
    {boot_ : Boot} {aon_ : AlwaysOn} {mgmt_ : Mgmt} {fwu_ : Fwu} {links_ : Links} {rdu_ : Rdu} {psess_ : NatMap PSess}
    {nv_ : Nv} (hn : nv_.fuses = x.nv.fuses) (hf : sht_.frame = x.sht.frame) (hl : sht_.lastTick = x.sht.lastTick) :
    Keeps s0 { x with
      now := now_, latches := latches_, sht := sht_, plate := plate_, parts := parts_, sched := sched_, edges := edges_,
      err := err_, late := late_, cores := cores_, clusters := clusters_, grains := grains_, stackTab := stackTab_,
      units := units_, agits := agits_, repair := repair_, env := env_, host := host_, boot := boot_, aon := aon_,
      mgmt := mgmt_, fwu := fwu_, links := links_, rdu := rdu_, psess := psess_, nv := nv_ } :=
  ⟨h.queue, h.draws, h.sent, by simpa [hn] using h.fuses, h.mem, h.regs, fun b => hf.trans (h.frame b),
    fun b => hl.trans (h.last b)⟩

/-- The same where a frame may begin. -/
theorem Keeps.updT {s1 x : State} (h : Keeps ⟨s1, true⟩ x) {now_ : Nat} {latches_ : NatMap Word} {sht_ : Shutter} {plate_ : PlateSt}
    {parts_ : NatMap Part} {sched_ : NatMap Sched} {edges_ : NatMap (List LatchedEdge)} {err_ : ErrSt}
    {late_ : NatMap (List (Nat × Nat))} {cores_ : NatMap Core} {clusters_ : NatMap Cluster} {grains_ : NatMap GStream}
    {stackTab_ : NatMap Stack} {units_ : Units} {agits_ : NatMap Agit} {repair_ : Repair} {env_ : Env} {host_ : HostIf}
    {boot_ : Boot} {aon_ : AlwaysOn} {mgmt_ : Mgmt} {fwu_ : Fwu} {links_ : Links} {rdu_ : Rdu} {psess_ : NatMap PSess}
    {nv_ : Nv} (hn : nv_.fuses = x.nv.fuses) :
    Keeps ⟨s1, true⟩ { x with
      now := now_, latches := latches_, sht := sht_, plate := plate_, parts := parts_, sched := sched_, edges := edges_,
      err := err_, late := late_, cores := cores_, clusters := clusters_, grains := grains_, stackTab := stackTab_,
      units := units_, agits := agits_, repair := repair_, env := env_, host := host_, boot := boot_, aon := aon_,
      mgmt := mgmt_, fwu := fwu_, links := links_, rdu := rdu_, psess := psess_, nv := nv_ } :=
  ⟨h.queue, h.draws, h.sent, by simpa [hn] using h.fuses, h.mem, h.regs, fun b => Bool.noConfusion b, fun b => Bool.noConfusion b⟩

/-- A fold over steps that each keep. -/
theorem Keeps.foldl {α : Type} {s0 : Base} {f : State → α → State} {l : List α} {s : State} (h : Keeps s0 s)
    (hf : ∀ t a, Keeps s0 t → Keeps s0 (f t a)) : Keeps s0 (l.foldl f s) := by
  induction l generalizing s with
  | nil => exact h
  | cons a l ih => exact ih (hf s a h)

theorem Keeps.foldr {α : Type} {s0 : Base} {f : α → State → State} {l : List α} {s : State} (h : Keeps s0 s)
    (hf : ∀ a t, Keeps s0 t → Keeps s0 (f a t)) : Keeps s0 (l.foldr f s) := by
  induction l with
  | nil => exact h
  | cons a l ih => exact hf a _ ih

/-- A fold whose accumulator carries a state as its second part. -/
theorem Keeps.foldl_snd {α β : Type} {s0 : Base} {f : β × State → α → β × State} {l : List α} {x : β × State}
    (h : Keeps s0 x.2) (hf : ∀ t a, Keeps s0 t.2 → Keeps s0 (f t a).2) : Keeps s0 (l.foldl f x).2 := by
  induction l generalizing x with
  | nil => exact h
  | cons a l ih => exact ih (hf x a h)

/-- A fold whose accumulator carries a state as its first part. -/
theorem Keeps.foldl_fst {α β : Type} {s0 : Base} {f : State × β → α → State × β} {l : List α} {x : State × β}
    (h : Keeps s0 x.1) (hf : ∀ t a, Keeps s0 t.1 → Keeps s0 (f t a).1) : Keeps s0 (l.foldl f x).1 := by
  induction l generalizing x with
  | nil => exact h
  | cons a l ih => exact ih (hf x a h)

theorem Keeps.snd {α : Type} {s0 : Base} {t : State} {a : α} {p : α × State} (e : p = (a, t)) (h : Keeps s0 p.2) : Keeps s0 t := by
  subst e; exact h

theorem Keeps.fst {α : Type} {s0 : Base} {t : State} {a : α} {p : State × α} (e : p = (t, a)) (h : Keeps s0 p.1) : Keeps s0 t := by
  subst e; exact h

theorem Keeps.eq {s0 : Base} {t u : State} (e : t = u) (h : Keeps s0 t) : Keeps s0 u := e ▸ h

theorem State.emit_keeps {s0 : Base} {s : State} (o : Out) (h : Keeps s0 s) : Keeps s0 (s.emit o) :=
  ⟨h.queue, h.draws, h.sent.trans (List.prefix_append _ _), h.fuses, h.mem, h.regs, h.frame, h.last⟩

theorem Keeps.draw {s0 : Base} {s : State} (n : Nat) (h : Keeps s0 s) : Keeps s0 { s with drawn := s.drawn + n } :=
  ⟨h.queue, Nat.le_trans h.draws (Nat.le_add_right _ _), h.sent, h.fuses, h.mem, h.regs, h.frame, h.last⟩

/-- An outcome keeps: where it is a next state, that state does. -/
def KeepsOut (s0 : Base) (o : Host.Outcome State Fault Refusal) : Prop := ∀ t, o = .next t → Keeps s0 t

theorem keepsOut_ok {s0 : Base} {t : State} (h : Keeps s0 t) : KeepsOut s0 (ok t) := by
  intro u e
  injection e with e
  exact e ▸ h

theorem State.setReg_keeps {s0 : Base} {s : State} (k : Nat) (w : Word) (h : Keeps s0 s) :
    Keeps s0 (s.setReg k w) :=
  ⟨h.queue, h.draws, h.sent, h.fuses, h.mem, fun w => NatMap.wf_set _ _ (h.regs w), h.frame, h.last⟩

theorem Keeps.setMem {s0 : Base} {s : State} {m : Mem} (h : Keeps s0 s) (hm : s.mem.wf = true → m.wf = true) :
    Keeps s0 { s with mem := m } :=
  ⟨h.queue, h.draws, h.sent, h.fuses, fun w => hm (h.mem w), h.regs, h.frame, h.last⟩

theorem Keeps.setRegs {s0 : Base} {s : State} {r : NatMap Word} (h : Keeps s0 s)
    (hr : NatMap.wf 0#32 s.regs = true → NatMap.wf 0#32 r = true) : Keeps s0 { s with regs := r } :=
  ⟨h.queue, h.draws, h.sent, h.fuses, h.mem, fun w => hr (h.regs w), h.frame, h.last⟩

theorem Keeps.ident {s0 : Base} {s : State} (h : Keeps s0 s) : Keeps s0 (id s) := h

theorem Keeps.getD {s0 : Base} {s : State} {o : Option State} (h : Keeps s0 s) (ho : ∀ u, o = some u → Keeps s0 u) :
    Keeps s0 (o.getD s) := by
  cases o with
  | none => exact h
  | some u => exact ho u rfl

theorem Mem.wf_iff (m : Mem) : m.wf = true ↔ NatMap.wf 0#8 m.bytes = true ∧ NatMap.wf false m.poisoned = true ∧
    NatMap.wf 0 m.flips = true ∧ NatMap.wf [] m.wc = true := by
  simp [Mem.wf, and_assoc]

/-- Putting bytes into memory keeps its canonical form. -/
theorem putBytes_wf {m : List Host.Cell} (a : Nat) (bs : List Byte) (h : NatMap.wf 0#8 m = true) :
    NatMap.wf 0#8 (putBytes m a bs) = true := by
  induction bs generalizing m a with
  | nil => exact h
  | cons b bs ih => exact ih _ (NatMap.wf_set _ _ h)

/-- What a core instruction's own operation gives, as a state. -/
def Res.st : Res → State
  | .ok s => s
  | .fault _ s => s
  | .wait s => s

def Got.st : Got → State
  | .ok _ s => s
  | .fault _ s => s
  | .wait s => s

def TransRes.st : TransRes → State
  | .go _ s => s
  | .fault _ s => s
  | .wait s => s

theorem Res.bind_keeps {s0 : Base} {r : Res} {f : State → Res} (h : Keeps s0 r.st)
    (hf : ∀ t, Keeps s0 t → Keeps s0 (f t).st) : Keeps s0 (r.bind f).st := by
  cases r with
  | ok s => exact hf s h
  | fault x s => exact h
  | wait s => exact h

theorem Got.andThen_keeps {s0 : Base} {g : Got} {f : List Byte → State → Res} (h : Keeps s0 g.st)
    (hf : ∀ b t, Keeps s0 t → Keeps s0 (f b t).st) : Keeps s0 (g.andThen f).st := by
  cases g with
  | ok b s => exact hf b s h
  | fault x s => exact h
  | wait s => exact h

theorem Res.ok_keeps {s0 : Base} {s : State} (h : Keeps s0 s) : Keeps s0 (Res.ok s).st := h
theorem Res.fault_keeps {s0 : Base} {s : State} (f : FaultInfo) (h : Keeps s0 s) : Keeps s0 (Res.fault f s).st := h
theorem Res.wait_keeps {s0 : Base} {s : State} (h : Keeps s0 s) : Keeps s0 (Res.wait s).st := h
theorem Got.ok_keeps {s0 : Base} {s : State} (b : List Byte) (h : Keeps s0 s) : Keeps s0 (Got.ok b s).st := h
theorem Got.fault_keeps {s0 : Base} {s : State} (f : FaultInfo) (h : Keeps s0 s) : Keeps s0 (Got.fault f s).st := h
theorem Got.wait_keeps {s0 : Base} {s : State} (h : Keeps s0 s) : Keeps s0 (Got.wait s).st := h
theorem TransRes.go_keeps {s0 : Base} {s : State} (d : Delay) (h : Keeps s0 s) : Keeps s0 (TransRes.go d s).st := h
theorem TransRes.fault_keeps {s0 : Base} {s : State} (f : FaultInfo) (h : Keeps s0 s) : Keeps s0 (TransRes.fault f s).st := h
theorem TransRes.wait_keeps {s0 : Base} {s : State} (h : Keeps s0 s) : Keeps s0 (TransRes.wait s).st := h

theorem Res.of_eq_ok {s0 : Base} {s : State} {r : Res} (e : r = .ok s) (h : Keeps s0 r.st) : Keeps s0 s := by subst e; exact h
theorem Res.of_eq_fault {s0 : Base} {s : State} {r : Res} {f : FaultInfo} (e : r = .fault f s) (h : Keeps s0 r.st) : Keeps s0 s := by
  subst e; exact h
theorem Res.of_eq_wait {s0 : Base} {s : State} {r : Res} (e : r = .wait s) (h : Keeps s0 r.st) : Keeps s0 s := by subst e; exact h
theorem Got.of_eq_ok {s0 : Base} {s : State} {r : Got} {b : List Byte} (e : r = .ok b s) (h : Keeps s0 r.st) : Keeps s0 s := by
  subst e; exact h
theorem Got.of_eq_fault {s0 : Base} {s : State} {r : Got} {f : FaultInfo} (e : r = .fault f s) (h : Keeps s0 r.st) : Keeps s0 s := by
  subst e; exact h
theorem Got.of_eq_wait {s0 : Base} {s : State} {r : Got} (e : r = .wait s) (h : Keeps s0 r.st) : Keeps s0 s := by subst e; exact h
theorem TransRes.of_eq_go {s0 : Base} {s : State} {r : TransRes} {d : Delay} (e : r = .go d s) (h : Keeps s0 r.st) : Keeps s0 s := by
  subst e; exact h
theorem TransRes.of_eq_fault {s0 : Base} {s : State} {r : TransRes} {f : FaultInfo} (e : r = .fault f s) (h : Keeps s0 r.st) :
    Keeps s0 s := by subst e; exact h
theorem TransRes.of_eq_wait {s0 : Base} {s : State} {r : TransRes} (e : r = .wait s) (h : Keeps s0 r.st) : Keeps s0 s := by
  subst e; exact h

end Sys2Proof.Machine
end

