-- ==== Sys2Proof/Laws/KeepsOps.lean ====
section
/-!
SUPPORT. What the operations of Machine/Ops.lean leave in place.
-/

namespace Sys2Proof.Machine

open Sys2Proof

theorem State.advance_keeps {s0 : Base} {s : State} (t : Nat) (h : Keeps s0 s) :
    Keeps s0 (State.advance s t) := by
  unfold State.advance
  repeat' first
    | (with_reducible assumption)
    | (dsimp only)
    | rfl
    | (with_reducible refine Keeps.upd ?_ ?_ ?_ ?_)

theorem State.draw_keeps {s0 : Base} {s : State} (h : Keeps s0 s) : Keeps s0 (State.draw s).2 := Keeps.draw 1 h

-- State.emit_keeps
-- State.setReg_keeps
theorem State.incReg_keeps {s0 : Base} {s : State} (k : Nat) (h : Keeps s0 s) :
    Keeps s0 (State.incReg s k) := by
  unfold State.incReg
  repeat' first
    | (with_reducible assumption)
    | (with_reducible (first | apply State.setReg_keeps))
    | (dsimp only)

theorem State.orReg_keeps {s0 : Base} {s : State} (k : Nat) (bit : Nat) (h : Keeps s0 s) :
    Keeps s0 (State.orReg s k bit) := by
  unfold State.orReg
  repeat' first
    | (with_reducible assumption)
    | (with_reducible (first | apply State.setReg_keeps))
    | (dsimp only)

theorem State.inc64_keeps {s0 : Base} {s : State} (k : Nat) (h : Keeps s0 s) :
    Keeps s0 (State.inc64 s k) := by
  unfold State.inc64
  repeat' first
    | (with_reducible assumption)
    | (with_reducible (first | apply State.setReg_keeps))
    | (dsimp only)
    | split

theorem State.modFn_keeps {s0 : Base} {s : State} (f : Nat) (g : Fn → Fn) (h : Keeps s0 s) :
    Keeps s0 (State.modFn s f g) := by
  unfold State.modFn
  repeat' first
    | (with_reducible assumption)
    | (dsimp only)
    | rfl
    | (with_reducible refine Keeps.upd ?_ ?_ ?_ ?_)

theorem State.setPend_keeps {s0 : Base} {s : State} (f : Nat) (v : Nat) (b : Bool) (h : Keeps s0 s) :
    Keeps s0 (State.setPend s f v b) := by
  unfold State.setPend
  repeat' first
    | (with_reducible assumption)
    | (dsimp only)
    | rfl
    | (with_reducible refine Keeps.upd ?_ ?_ ?_ ?_)

theorem State.sendMsix_keeps {s0 : Base} {s : State} (f : Nat) (v : Nat) (h : Keeps s0 s) :
    Keeps s0 (State.sendMsix s f v) := by
  unfold State.sendMsix
  repeat' first
    | (with_reducible assumption)
    | (with_reducible (first | apply State.emit_keeps))
    | (dsimp only)
    | split

theorem State.requestMsix_keeps {s0 : Base} {s : State} (f : Nat) (v : Nat) (h : Keeps s0 s) :
    Keeps s0 (State.requestMsix s f v) := by
  unfold State.requestMsix
  repeat' first
    | (with_reducible assumption)
    | (with_reducible (first | apply State.sendMsix_keeps | apply State.setPend_keeps))
    | (dsimp only)
    | split

theorem State.toStream_keeps {s0 : Base} {s : State} (e : StreamEntry) (h : Keeps s0 s) :
    Keeps s0 (State.toStream s e) := by
  unfold State.toStream
  repeat' first
    | (with_reducible assumption)
    | (dsimp only)
    | split
    | rfl
    | (intro _ _ _ _)
    | (intro _ _ _)
    | (intro _ _)
    | (with_reducible refine Keeps.upd ?_ ?_ ?_ ?_)

theorem State.raise_keeps {s0 : Base} {s : State} (fn : Nat) (ev : Nat) (irq : Nat) (bit : Nat) (vec : Nat) (h : Keeps s0 s) :
    Keeps s0 (State.raise s fn ev irq bit vec) := by
  unfold State.raise
  repeat' first
    | (with_reducible assumption)
    | (with_reducible (first | apply State.orReg_keeps | apply State.requestMsix_keeps | apply State.toStream_keeps))
    | (dsimp only)
    | split

theorem State.devEvent_keeps {s0 : Base} {s : State} (bit : Nat) (h : Keeps s0 s) :
    Keeps s0 (State.devEvent s bit) := by
  unfold State.devEvent
  repeat' first
    | (with_reducible assumption)
    | (with_reducible (first | apply State.raise_keeps))
    | (dsimp only)

theorem State.hifEvent_keeps {s0 : Base} {s : State} (bit : Nat) (h : Keeps s0 s) :
    Keeps s0 (State.hifEvent s bit) := by
  unfold State.hifEvent
  repeat' first
    | (with_reducible assumption)
    | (with_reducible (first | apply State.raise_keeps))
    | (dsimp only)

theorem State.shtEvent_keeps {s0 : Base} {s : State} (bit : Nat) (h : Keeps s0 s) :
    Keeps s0 (State.shtEvent s bit) := by
  unfold State.shtEvent
  repeat' first
    | (with_reducible assumption)
    | (with_reducible (first | apply State.raise_keeps))
    | (dsimp only)

theorem State.pltEvent_keeps {s0 : Base} {s : State} (bit : Nat) (h : Keeps s0 s) :
    Keeps s0 (State.pltEvent s bit) := by
  unfold State.pltEvent
  repeat' first
    | (with_reducible assumption)
    | (with_reducible (first | apply State.raise_keeps))
    | (dsimp only)

theorem State.errEvent_keeps {s0 : Base} {s : State} (bit : Nat) (h : Keeps s0 s) :
    Keeps s0 (State.errEvent s bit) := by
  unfold State.errEvent
  repeat' first
    | (with_reducible assumption)
    | (with_reducible (first | apply State.raise_keeps))
    | (dsimp only)

theorem State.stkEvent_keeps {s0 : Base} {s : State} (t : Nat) (bit : Nat) (h : Keeps s0 s) :
    Keeps s0 (State.stkEvent s t bit) := by
  unfold State.stkEvent
  repeat' first
    | (with_reducible assumption)
    | (with_reducible (first | apply State.raise_keeps))
    | (dsimp only)

theorem State.pgEvent_keeps {s0 : Base} {s : State} (p : Nat) (bit : Nat) (h : Keeps s0 s) :
    Keeps s0 (State.pgEvent s p bit) := by
  unfold State.pgEvent
  repeat' first
    | (with_reducible assumption)
    | (with_reducible (first | apply State.raise_keeps))
    | (dsimp only)

theorem State.schEvent_keeps {s0 : Base} {s : State} (p : Nat) (bit : Nat) (h : Keeps s0 s) :
    Keeps s0 (State.schEvent s p bit) := by
  unfold State.schEvent
  repeat' first
    | (with_reducible assumption)
    | (with_reducible (first | apply State.raise_keeps))
    | (dsimp only)

theorem State.countWign_keeps {s0 : Base} {s : State}  (h : Keeps s0 s) :
    Keeps s0 (State.countWign s) := by
  unfold State.countWign
  repeat' first
    | (with_reducible assumption)
    | (with_reducible (first | apply State.devEvent_keeps | apply State.incReg_keeps))
    | (dsimp only)

theorem State.countRefused_keeps {s0 : Base} {s : State}  (h : Keeps s0 s) :
    Keeps s0 (State.countRefused s) := by
  unfold State.countRefused
  repeat' first
    | (with_reducible assumption)
    | (with_reducible (first | apply State.hifEvent_keeps | apply State.incReg_keeps))
    | (dsimp only)

theorem State.pfWrite_keeps {s0 : Base} {s : State} (kind : Nat) (f : State → State) (h : Keeps s0 s) (h_f : ∀ (t : State), Keeps s0 t → Keeps s0 (f t)) :
    Keeps s0 (State.pfWrite s kind f) := by
  unfold State.pfWrite
  repeat' first
    | (with_reducible assumption)
    | (with_reducible (first | apply State.countRefused_keeps | apply h_f))
    | (dsimp only)
    | split

theorem State.modPart_keeps {s0 : Base} {s : State} (p : Nat) (f : Part → Part) (h : Keeps s0 s) :
    Keeps s0 (State.modPart s p f) := by
  unfold State.modPart
  repeat' first
    | (with_reducible assumption)
    | (dsimp only)
    | rfl
    | (with_reducible refine Keeps.upd ?_ ?_ ?_ ?_)

theorem State.modSch_keeps {s0 : Base} {s : State} (p : Nat) (f : Sched → Sched) (h : Keeps s0 s) :
    Keeps s0 (State.modSch s p f) := by
  unfold State.modSch
  repeat' first
    | (with_reducible assumption)
    | (dsimp only)
    | rfl
    | (with_reducible refine Keeps.upd ?_ ?_ ?_ ?_)

theorem State.modStack_keeps {s0 : Base} {s : State} (t : Nat) (f : Stack → Stack) (h : Keeps s0 s) :
    Keeps s0 (State.modStack s t f) := by
  unfold State.modStack
  repeat' first
    | (with_reducible assumption)
    | (dsimp only)
    | rfl
    | (with_reducible refine Keeps.upd ?_ ?_ ?_ ?_)

theorem State.ringPut_keeps {s0 : Base} {s : State} (r : ErrRec) (h : Keeps s0 s) :
    Keeps s0 (State.ringPut s r) := by
  unfold State.ringPut
  repeat' first
    | (with_reducible assumption)
    | (with_reducible (first | apply State.errEvent_keeps | apply State.incReg_keeps))
    | (dsimp only)
    | split
    | rfl
    | (with_reducible refine Keeps.upd ?_ ?_ ?_ ?_)

theorem State.contain_keeps {s0 : Base} {s : State} (p : Nat) (source : Nat) (code : Nat) (h : Keeps s0 s) :
    Keeps s0 (State.contain s p source code) := by
  unfold State.contain
  repeat' first
    | (with_reducible assumption)
    | (with_reducible (first | apply State.modPart_keeps | apply State.orReg_keeps))
    | (dsimp only)
    | split
    | rfl
    | (intro _ _ _ _)
    | (intro _ _ _)
    | (intro _ _)
    | (with_reducible refine Keeps.upd ?_ ?_ ?_ ?_)

theorem State.stopAllCmds_keeps {s0 : Base} {s : State}  (h : Keeps s0 s) :
    Keeps s0 (State.stopAllCmds s) := by
  unfold State.stopAllCmds
  repeat' first
    | (with_reducible assumption)
    | (dsimp only)
    | split
    | rfl
    | (intro _ _ _ _)
    | (intro _ _ _)
    | (intro _ _)
    | (with_reducible refine Keeps.upd ?_ ?_ ?_ ?_)

theorem State.fatalStop_keeps {s0 : Base} {s : State} (source : Nat) (code : Nat) (h : Keeps s0 s) :
    Keeps s0 (State.fatalStop s source code) := by
  unfold State.fatalStop
  try generalize List.range 16 = l16
  repeat' first
    | (with_reducible assumption)
    | (with_reducible (first | apply Keeps.foldl | apply State.modPart_keeps | apply State.stopAllCmds_keeps))
    | (dsimp only)
    | split
    | rfl
    | (intro _ _ _ _)
    | (intro _ _ _)
    | (intro _ _)
    | (with_reducible refine Keeps.upd ?_ ?_ ?_ ?_)

theorem State.logErrWrite_keeps {s0 : Base} {s : State} (a : ErrArg) (cls : Nat) (fr : Nat) (count : Nat) (rest : List SuppEntry) (limited : Bool) (h : Keeps s0 s) :
    Keeps s0 (State.logErrWrite s a cls fr count rest limited) := by
  unfold State.logErrWrite
  repeat' first
    | (with_reducible assumption)
    | (with_reducible (first | apply State.contain_keeps | apply State.fatalStop_keeps | apply State.ringPut_keeps | apply State.toStream_keeps))
    | (dsimp only)
    | split
    | rfl
    | (refine Keeps.snd (by assumption) ?_)
    | (refine Keeps.fst (by assumption) ?_)
    | (intro _ _ _ _)
    | (intro _ _ _)
    | (intro _ _)
    | (with_reducible refine Keeps.upd ?_ ?_ ?_ ?_)

theorem State.logErr_keeps {s0 : Base} {s : State} (a : ErrArg) (h : Keeps s0 s) :
    Keeps s0 (State.logErr s a) := by
  unfold State.logErr
  repeat' first
    | (with_reducible assumption)
    | (with_reducible (first | apply State.logErrWrite_keeps))
    | (dsimp only)
    | split
    | rfl
    | (refine Keeps.snd (by assumption) ?_)
    | (refine Keeps.fst (by assumption) ?_)
    | (intro _ _ _ _)
    | (intro _ _ _)
    | (intro _ _)
    | (with_reducible refine Keeps.upd ?_ ?_ ?_ ?_)

theorem State.hostRefused_keeps {s0 : Base} {s : State} (path : Nat) (row : Nat) (rid : Nat) (part : Nat) (h : Keeps s0 s) :
    Keeps s0 (State.hostRefused s path row rid part) := by
  unfold State.hostRefused
  repeat' first
    | (with_reducible assumption)
    | (with_reducible (first | apply State.countRefused_keeps | apply State.logErr_keeps))
    | (dsimp only)
    | split
    | rfl
    | (refine Keeps.snd (by assumption) ?_)
    | (refine Keeps.fst (by assumption) ?_)
    | (intro _ _ _ _)
    | (intro _ _ _)
    | (intro _ _)
    | (with_reducible refine Keeps.upd ?_ ?_ ?_ ?_)

theorem State.anyRid_keeps {s0 : Base} {s : State}  (h : Keeps s0 s) :
    Keeps s0 (State.anyRid s).2 := by
  unfold State.anyRid
  repeat' first
    | (with_reducible assumption)
    | (with_reducible (first | apply State.draw_keeps))
    | (dsimp only)

theorem State.vfWrite_keeps {s0 : Base} {s : State} (p : Nat) (f : State → State) (h : Keeps s0 s) (h_f : ∀ (t : State), Keeps s0 t → Keeps s0 (f t)) :
    Keeps s0 (State.vfWrite s p f) := by
  unfold State.vfWrite
  repeat' first
    | (with_reducible assumption)
    | (with_reducible (first | apply State.anyRid_keeps | apply State.hostRefused_keeps | apply h_f))
    | (dsimp only)
    | split

theorem State.denyPage_keeps {s0 : Base} {s : State} (p : Nat) (h : Keeps s0 s) :
    Keeps s0 (State.denyPage s p) := by
  unfold State.denyPage
  repeat' first
    | (with_reducible assumption)
    | (with_reducible (first | apply State.incReg_keeps | apply State.pgEvent_keeps))
    | (dsimp only)

end Sys2Proof.Machine
end

