-- ==== Sys2Proof/Laws/KeepsLinkOps.lean ====
section
/-!
SUPPORT. What the operations of Machine/LinkOps.lean leave in place.
-/

namespace Sys2Proof.Machine

open Sys2Proof

theorem State.modPort_keeps {s0 : Base} {s : State} (q : Nat) (f : Port → Port) (h : Keeps s0 s) :
    Keeps s0 (State.modPort s q f) := by
  unfold State.modPort
  repeat' first
    | (with_reducible assumption)
    | (dsimp only)
    | rfl
    | (with_reducible refine Keeps.upd ?_ ?_ ?_ ?_)

theorem State.modLinks_keeps {s0 : Base} {s : State} (f : Links → Links) (h : Keeps s0 s) :
    Keeps s0 (State.modLinks s f) := by
  unfold State.modLinks
  repeat' first
    | (with_reducible assumption)
    | (dsimp only)
    | rfl
    | (with_reducible refine Keeps.upd ?_ ?_ ?_ ?_)

theorem State.queueMsg_keeps {s0 : Base} {s : State} (m : Msg) (dir : Nat) (inDir : Nat) (inVc : Nat) (slot : Option RxSlot) (h : Keeps s0 s) :
    Keeps s0 (State.queueMsg s m dir inDir inVc slot) := by
  unfold State.queueMsg
  repeat' first
    | (with_reducible assumption)
    | (with_reducible (first | apply State.modLinks_keeps))
    | (dsimp only)
    | split
    | rfl
    | (intro _ _ _ _)
    | (intro _ _ _)
    | (intro _ _)
    | (with_reducible refine Keeps.upd ?_ ?_ ?_ ?_)

theorem State.refuseRec_keeps {s0 : Base} {s : State} (m : Msg) (port : Nat) (code : Nat) (h : Keeps s0 s) :
    Keeps s0 (State.refuseRec s m port code) := by
  unfold State.refuseRec
  repeat' first
    | (with_reducible assumption)
    | (with_reducible (first | apply State.logErr_keeps))
    | (dsimp only)
    | rfl
    | (with_reducible refine Keeps.upd ?_ ?_ ?_ ?_)

theorem State.toInbox_keeps {s0 : Base} {s : State} (m : Msg) (slot : Option RxSlot) (h : Keeps s0 s) :
    Keeps s0 (State.toInbox s m slot) := by
  unfold State.toInbox
  repeat' first
    | (with_reducible assumption)
    | (with_reducible (first | apply State.modLinks_keeps))
    | (dsimp only)
    | rfl
    | (intro _ _ _ _)
    | (intro _ _ _)
    | (intro _ _)
    | (with_reducible refine Keeps.upd ?_ ?_ ?_ ?_)

theorem State.sendMsg_keeps {s0 : Base} {s : State} (m : Msg) (h : Keeps s0 s) :
    Keeps s0 (State.sendMsg s m) := by
  unfold State.sendMsg
  repeat' first
    | (with_reducible assumption)
    | (with_reducible (first | apply State.queueMsg_keeps | apply State.refuseRec_keeps | apply State.toInbox_keeps))
    | (dsimp only)
    | split
    | (refine Keeps.snd (by assumption) ?_)
    | (refine Keeps.fst (by assumption) ?_)

theorem State.request_keeps {s0 : Base} {s : State} (m : Msg) (kind : TxnKind) (h : Keeps s0 s) :
    Keeps s0 (State.request s m kind) := by
  unfold State.request
  repeat' first
    | (with_reducible assumption)
    | (with_reducible (first | apply State.modLinks_keeps | apply State.sendMsg_keeps))
    | (dsimp only)
    | rfl
    | (intro _ _ _ _)
    | (intro _ _ _)
    | (intro _ _)
    | (with_reducible refine Keeps.upd ?_ ?_ ?_ ?_)

theorem State.endTxn_keeps {s0 : Base} {s : State} (dst : Nat) (tag : Nat) (h : Keeps s0 s) :
    Keeps s0 (State.endTxn s dst tag) := by
  unfold State.endTxn
  repeat' first
    | (with_reducible assumption)
    | (with_reducible (first | apply State.modLinks_keeps))
    | (dsimp only)
    | rfl
    | (intro _ _ _ _)
    | (intro _ _ _)
    | (intro _ _)
    | (with_reducible refine Keeps.upd ?_ ?_ ?_ ?_)

end Sys2Proof.Machine
end

