-- ==== Sys2Proof/Laws/KeepsFloat.lean ====
section
/-!
SUPPORT. What the operations of Machine/Float.lean leave in place.
-/

namespace Sys2Proof.Machine

open Sys2Proof

end Sys2Proof.Machine
end

