-- ==== Sys2Proof/Laws/KeepsExact.lean ====
section
/-!
SUPPORT. What the operations of Machine/Exact.lean leave in place.
-/

namespace Sys2Proof.Machine

open Sys2Proof

end Sys2Proof.Machine
end

