-- ==== Sys2Proof/Laws/KeepsLineCode.lean ====
section
/-!
SUPPORT. What the operations of Machine/LineCode.lean leave in place.
-/

namespace Sys2Proof.Machine

open Sys2Proof

end Sys2Proof.Machine
end

