-- ==== Sys2Proof/Laws/KeepsMemory.lean ====
section
/-!
SUPPORT. What the operations of Machine/Memory.lean leave in place.
-/

namespace Sys2Proof.Machine

open Sys2Proof

theorem State.rawWrite_keeps {s0 : Base} {s : State} (a : Nat) (bs : List Byte) (h : Keeps s0 s) :
    Keeps s0 (State.rawWrite s a bs) := by
  unfold State.rawWrite
  refine Keeps.setMem h ?_
  rw [Mem.wf_iff, Mem.wf_iff]
  exact fun w => ⟨putBytes_wf a bs w.1, w.2⟩

theorem State.zeroRange_keeps {s0 : Base} {s : State} (lo : Nat) (hi : Nat) (h : Keeps s0 s) :
    Keeps s0 (State.zeroRange s lo hi) := by
  unfold State.zeroRange
  refine Keeps.setMem h (fun w => ?_)
  rw [Mem.wf_iff] at w ⊢
  dsimp only
  exact ⟨NatMap.wf_filterKeys _ w.1, NatMap.wf_filterKeys _ w.2.1, NatMap.wf_filterKeys _ w.2.2.1, w.2.2.2⟩

theorem State.setUnit_keeps {s0 : Base} {s : State} (u : Nat) (poison : Bool) (h : Keeps s0 s) :
    Keeps s0 (State.setUnit s u poison) := by
  unfold State.setUnit
  refine Keeps.setMem h (fun w => ?_)
  rw [Mem.wf_iff] at w ⊢
  dsimp only
  exact ⟨w.1, NatMap.wf_set _ _ w.2.1, NatMap.wf_set _ _ w.2.2.1, w.2.2.2⟩

theorem State.setWc_keeps {s0 : Base} {s : State} (ch : Nat) (l : List WcEntry) (h : Keeps s0 s) :
    Keeps s0 (State.setWc s ch l) := by
  unfold State.setWc
  refine Keeps.setMem h ?_
  rw [Mem.wf_iff, Mem.wf_iff]
  exact fun w => ⟨w.1, w.2.1, w.2.2.1, NatMap.wf_set _ _ w.2.2.2⟩

theorem State.lineUE_keeps {s0 : Base} {s : State} (ch : Nat) (u : Nat) (written : Bool) (req : Requester) (h : Keeps s0 s) :
    Keeps s0 (State.lineUE s ch u written req) := by
  unfold State.lineUE
  repeat' first
    | (with_reducible assumption)
    | (with_reducible (first | apply State.incReg_keeps | apply State.logErr_keeps | apply State.modStack_keeps | apply State.stkEvent_keeps))
    | (dsimp only)
    | split
    | rfl
    | (intro _ _ _ _)
    | (intro _ _ _)
    | (intro _ _)
    | (with_reducible refine Keeps.upd ?_ ?_ ?_ ?_)

theorem State.readDramLine_keeps {s0 : Base} {s : State} (ch : Nat) (u : Nat) (req : Requester) (h : Keeps s0 s) :
    Keeps s0 (State.readDramLine s ch u req).2 := by
  unfold State.readDramLine
  repeat' first
    | (with_reducible assumption)
    | (with_reducible (first | apply State.incReg_keeps | apply State.lineUE_keeps | apply State.logErr_keeps | apply State.rawWrite_keeps | apply State.setUnit_keeps | apply State.stkEvent_keeps))
    | (dsimp only)
    | split
    | rfl
    | (refine Keeps.snd (by assumption) ?_)
    | (refine Keeps.fst (by assumption) ?_)
    | (with_reducible refine Keeps.upd ?_ ?_ ?_ ?_)

theorem State.addLate_keeps {s0 : Base} {s : State} (core : Nat) (sub : Nat) (addr : Nat) (h : Keeps s0 s) :
    Keeps s0 (State.addLate s core sub addr) := by
  unfold State.addLate
  repeat' first
    | (with_reducible assumption)
    | (dsimp only)
    | split
    | rfl
    | (intro _ _ _ _)
    | (intro _ _ _)
    | (intro _ _)
    | (with_reducible refine Keeps.upd ?_ ?_ ?_ ?_)

theorem State.rmw_keeps {s0 : Base} {s : State} (ch : Nat) (e : WcEntry) (h : Keeps s0 s) :
    Keeps s0 (State.rmw s ch e) := by
  unfold State.rmw
  repeat' first
    | (with_reducible assumption)
    | (with_reducible (first | apply State.addLate_keeps | apply State.logErr_keeps | apply State.rawWrite_keeps | apply State.readDramLine_keeps | apply State.setReg_keeps | apply State.setUnit_keeps | apply State.stkEvent_keeps))
    | (dsimp only)
    | split
    | rfl
    | (refine Keeps.snd (by assumption) ?_)
    | (refine Keeps.fst (by assumption) ?_)
    | (with_reducible refine Keeps.upd ?_ ?_ ?_ ?_)

theorem State.flushEntry_keeps {s0 : Base} {s : State} (ch : Nat) (e : WcEntry) (h : Keeps s0 s) :
    Keeps s0 (State.flushEntry s ch e) := by
  unfold State.flushEntry
  repeat' first
    | (with_reducible assumption)
    | (with_reducible (first | apply State.rawWrite_keeps | apply State.rmw_keeps | apply State.setUnit_keeps))
    | (dsimp only)
    | split

theorem State.flushWhere_keeps {s0 : Base} {s : State} (ch : Nat) (p : WcEntry → Bool) (h : Keeps s0 s) :
    Keeps s0 (State.flushWhere s ch p) := by
  unfold State.flushWhere
  repeat' first
    | (with_reducible assumption)
    | (with_reducible (first | apply Keeps.foldl | apply State.flushEntry_keeps | apply State.setWc_keeps))
    | (dsimp only)
    | (intro _ _ _ _)
    | (intro _ _ _)
    | (intro _ _)

theorem State.flushChan_keeps {s0 : Base} {s : State} (ch : Nat) (h : Keeps s0 s) :
    Keeps s0 (State.flushChan s ch) := by
  unfold State.flushChan
  repeat' first
    | (with_reducible assumption)
    | (with_reducible (first | apply State.flushWhere_keeps))
    | (dsimp only)
    | (intro _ _ _ _)
    | (intro _ _ _)
    | (intro _ _)

theorem State.fullWrite_keeps {s0 : Base} {s : State} (ch : Nat) (u : Nat) (d : Line) (h : Keeps s0 s) :
    Keeps s0 (State.fullWrite s ch u d) := by
  unfold State.fullWrite
  repeat' first
    | (with_reducible assumption)
    | (with_reducible (first | apply State.rawWrite_keeps | apply State.setUnit_keeps | apply State.setWc_keeps))
    | (dsimp only)
    | (intro _ _ _ _)
    | (intro _ _ _)
    | (intro _ _)

theorem State.partialWrite_keeps {s0 : Base} {s : State} (ch : Nat) (u : Nat) (d : Line) (v : BitVec 64) (w : Requester) (core : Nat) (h : Keeps s0 s) :
    Keeps s0 (State.partialWrite s ch u d v w core) := by
  unfold State.partialWrite
  repeat' first
    | (with_reducible assumption)
    | (with_reducible (first | apply State.flushEntry_keeps | apply State.flushWhere_keeps | apply State.setWc_keeps))
    | (dsimp only)
    | split
    | rfl
    | (refine Keeps.snd (by assumption) ?_)
    | (refine Keeps.fst (by assumption) ?_)
    | (intro _ _ _ _)
    | (intro _ _ _)
    | (intro _ _)
    | (with_reducible refine Keeps.upd ?_ ?_ ?_ ?_)

theorem State.sramErr_keeps {s0 : Base} {s : State} (g : Nat) (kind : Nat) (code : Nat) (u : Nat) (h : Keeps s0 s) :
    Keeps s0 (State.sramErr s g kind code u) := by
  unfold State.sramErr
  repeat' first
    | (with_reducible assumption)
    | (with_reducible (first | apply State.logErr_keeps))
    | (dsimp only)
    | split
    | rfl
    | (with_reducible refine Keeps.upd ?_ ?_ ?_ ?_)

theorem State.readWord_keeps {s0 : Base} {s : State} (g : Nat) (kind : Nat) (u : Nat) (h : Keeps s0 s) :
    Keeps s0 (State.readWord s g kind u).2 := by
  unfold State.readWord
  repeat' first
    | (with_reducible assumption)
    | (with_reducible (first | apply State.setUnit_keeps | apply State.sramErr_keeps))
    | (dsimp only)
    | split

theorem State.writeWord_keeps {s0 : Base} {s : State} (g : Nat) (kind : Nat) (u : Nat) (a : Nat) (bs : List Byte) (h : Keeps s0 s) :
    Keeps s0 (State.writeWord s g kind u a bs) := by
  unfold State.writeWord
  repeat' first
    | (with_reducible assumption)
    | (with_reducible (first | apply State.rawWrite_keeps | apply State.setUnit_keeps | apply State.sramErr_keeps))
    | (dsimp only)
    | split

theorem State.readLine_keeps {s0 : Base} {s : State} (g : Nat) (u : Nat) (req : Requester) (h : Keeps s0 s) :
    Keeps s0 (State.readLine s g u req).2 := by
  unfold State.readLine
  repeat' first
    | (with_reducible assumption)
    | (with_reducible (first | apply State.readDramLine_keeps))
    | (dsimp only)
    | split
    | (refine Keeps.snd (by assumption) ?_)
    | (refine Keeps.fst (by assumption) ?_)
    | (intro _ _ _ _)
    | (intro _ _ _)
    | (intro _ _)

theorem State.readWords_keeps {s0 : Base} {s : State} (g : Nat) (kind : Nat) (x0 : List (Nat × Nat)) (h : Keeps s0 s) :
    Keeps s0 (State.readWords s g kind x0).2 := by
  induction x0 generalizing s with
  | nil =>
    unfold State.readWords
    repeat' first
      | (with_reducible assumption)
      | (with_reducible (first | apply State.readWord_keeps))
      | (dsimp only)
      | split
      | (refine Keeps.snd (by assumption) ?_)
      | (refine Keeps.fst (by assumption) ?_)
  | cons hd tl ih =>
    unfold State.readWords
    repeat' first
      | (with_reducible apply ih)
      | (with_reducible assumption)
      | (with_reducible (first | apply State.readWord_keeps))
      | (dsimp only)
      | split
      | (refine Keeps.snd (by assumption) ?_)
      | (refine Keeps.fst (by assumption) ?_)

theorem State.readPiece_keeps {s0 : Base} {s : State} (a : Nat) (n : Nat) (req : Requester) (h : Keeps s0 s) :
    Keeps s0 (State.readPiece s a n req).2 := by
  unfold State.readPiece
  repeat' first
    | (with_reducible assumption)
    | (with_reducible (first | apply State.readLine_keeps | apply State.readWords_keeps))
    | (dsimp only)
    | split
    | (refine Keeps.snd (by assumption) ?_)
    | (refine Keeps.fst (by assumption) ?_)

theorem State.writePiece_keeps {s0 : Base} {s : State} (a : Nat) (bs : List Byte) (w : Requester) (core : Nat) (h : Keeps s0 s) :
    Keeps s0 (State.writePiece s a bs w core).2 := by
  unfold State.writePiece
  repeat' first
    | (with_reducible assumption)
    | (with_reducible (first | apply Keeps.foldl | apply State.fullWrite_keeps | apply State.partialWrite_keeps | apply State.writeWord_keeps | apply Keeps.foldl_snd | apply Keeps.foldl_fst))
    | (dsimp only)
    | split
    | (refine Keeps.snd (by assumption) ?_)
    | (refine Keeps.fst (by assumption) ?_)
    | (intro _ _ _ _)
    | (intro _ _ _)
    | (intro _ _)

theorem State.readPieces_keeps {s0 : Base} {s : State} (req : Requester) (x0 : List (Nat × Nat)) (x1 : Nat) (h : Keeps s0 s) :
    Keeps s0 (State.readPieces s req x0 x1).2 := by
  induction x0 generalizing s x1 with
  | nil =>
    unfold State.readPieces
    repeat' first
      | (with_reducible assumption)
      | (with_reducible (first | apply State.readPiece_keeps))
      | (dsimp only)
      | split
      | (refine Keeps.snd (by assumption) ?_)
      | (refine Keeps.fst (by assumption) ?_)
  | cons hd tl ih =>
    unfold State.readPieces
    repeat' first
      | (with_reducible apply ih)
      | (with_reducible assumption)
      | (with_reducible (first | apply State.readPiece_keeps))
      | (dsimp only)
      | split
      | (refine Keeps.snd (by assumption) ?_)
      | (refine Keeps.fst (by assumption) ?_)

theorem State.readDev_keeps {s0 : Base} {s : State} (a : Nat) (n : Nat) (req : Requester) (h : Keeps s0 s) :
    Keeps s0 (State.readDev s a n req).2 := by
  unfold State.readDev
  repeat' first
    | (with_reducible assumption)
    | (with_reducible (first | apply State.readPieces_keeps))
    | (dsimp only)

theorem State.writePieces_keeps {s0 : Base} {s : State} (w : Requester) (core : Nat) (x0 : List (Nat × Nat)) (x1 : List Byte) (x2 : Nat) (h : Keeps s0 s) :
    Keeps s0 (State.writePieces s w core x0 x1 x2).2 := by
  induction x0 generalizing s x1 x2 with
  | nil =>
    unfold State.writePieces
    repeat' first
      | (with_reducible assumption)
      | (with_reducible (first | apply State.writePiece_keeps))
      | (dsimp only)
      | split
      | (refine Keeps.snd (by assumption) ?_)
      | (refine Keeps.fst (by assumption) ?_)
  | cons hd tl ih =>
    unfold State.writePieces
    repeat' first
      | (with_reducible apply ih)
      | (with_reducible assumption)
      | (with_reducible (first | apply State.writePiece_keeps))
      | (dsimp only)
      | split
      | (refine Keeps.snd (by assumption) ?_)
      | (refine Keeps.fst (by assumption) ?_)

theorem State.writeDev_keeps {s0 : Base} {s : State} (a : Nat) (bs : List Byte) (w : Requester) (core : Nat) (h : Keeps s0 s) :
    Keeps s0 (State.writeDev s a bs w core).2 := by
  unfold State.writeDev
  repeat' first
    | (with_reducible assumption)
    | (with_reducible (first | apply State.writePieces_keeps))
    | (dsimp only)

end Sys2Proof.Machine
end

