-- ==== Sys2Proof/Laws/KeepsTranslate.lean ====
section
/-!
SUPPORT. What the operations of Machine/Translate.lean leave in place.
-/

namespace Sys2Proof.Machine

open Sys2Proof

theorem State.readPa_keeps {s0 : Base} {s : State} (p : Nat) (acc : Access) (req : Requester) (x0 : List (Nat × Nat)) (x1 : Nat) (h : Keeps s0 s) :
    Keeps s0 (State.readPa s p acc req x0 x1).2 := by
  induction x0 generalizing s x1 with
  | nil =>
    unfold State.readPa
    repeat' first
      | (with_reducible assumption)
      | (with_reducible (first | apply State.readPiece_keeps))
      | (dsimp only)
      | split
      | (refine Keeps.snd (by assumption) ?_)
      | (refine Keeps.fst (by assumption) ?_)
  | cons hd tl ih =>
    unfold State.readPa
    repeat' first
      | (with_reducible apply ih)
      | (with_reducible assumption)
      | (with_reducible (first | apply State.readPiece_keeps))
      | (dsimp only)
      | split
      | (refine Keeps.snd (by assumption) ?_)
      | (refine Keeps.fst (by assumption) ?_)

theorem State.readPart_keeps {s0 : Base} {s : State} (p : Nat) (acc : Access) (req : Requester) (pa : Nat) (n : Nat) (h : Keeps s0 s) :
    Keeps s0 (State.readPart s p acc req pa n).2 := by
  unfold State.readPart
  repeat' first
    | (with_reducible assumption)
    | (with_reducible (first | apply State.readPa_keeps))
    | (dsimp only)

theorem State.writePa_keeps {s0 : Base} {s : State} (p : Nat) (req : Requester) (x0 : List (Nat × Nat)) (x1 : List Byte) (x2 : Nat) (h : Keeps s0 s) :
    Keeps s0 (State.writePa s p req x0 x1 x2).2 := by
  induction x0 generalizing s x1 x2 with
  | nil =>
    unfold State.writePa
    repeat' first
      | (with_reducible assumption)
      | (with_reducible (first | apply State.writePiece_keeps))
      | (dsimp only)
      | split
      | (refine Keeps.snd (by assumption) ?_)
      | (refine Keeps.fst (by assumption) ?_)
  | cons hd tl ih =>
    unfold State.writePa
    repeat' first
      | (with_reducible apply ih)
      | (with_reducible assumption)
      | (with_reducible (first | apply State.writePiece_keeps))
      | (dsimp only)
      | split
      | (refine Keeps.snd (by assumption) ?_)
      | (refine Keeps.fst (by assumption) ?_)

theorem State.writePart_keeps {s0 : Base} {s : State} (p : Nat) (req : Requester) (pa : Nat) (bs : List Byte) (h : Keeps s0 s) :
    Keeps s0 (State.writePart s p req pa bs).2 := by
  unfold State.writePart
  repeat' first
    | (with_reducible assumption)
    | (with_reducible (first | apply State.writePa_keeps))
    | (dsimp only)

end Sys2Proof.Machine
end

