-- ==== Sys2Proof/Laws/KeepsSchedOps.lean ====
section
/-!
SUPPORT. What the operations of Machine/SchedOps.lean leave in place.
-/

namespace Sys2Proof.Machine

open Sys2Proof

theorem State.modCmd_keeps {s0 : Base} {s : State} (p : Nat) (id : Nat) (f : Cmd → Cmd) (h : Keeps s0 s) :
    Keeps s0 (State.modCmd s p id f) := by
  unfold State.modCmd
  repeat' first
    | (with_reducible assumption)
    | (with_reducible (first | apply State.modSch_keeps))
    | (dsimp only)
    | rfl
    | (intro _ _ _ _)
    | (intro _ _ _)
    | (intro _ _)
    | (with_reducible refine Keeps.upd ?_ ?_ ?_ ?_)

theorem State.recomputeEnd_keeps {s0 : Base} {s : State} (p : Nat) (u : Nat) (h : Keeps s0 s) :
    Keeps s0 (State.recomputeEnd s p u) := by
  unfold State.recomputeEnd
  repeat' first
    | (with_reducible assumption)
    | (with_reducible (first | apply Keeps.foldl | apply State.modSch_keeps))
    | (dsimp only)
    | rfl
    | (intro _ _ _ _)
    | (intro _ _ _)
    | (intro _ _)
    | (with_reducible refine Keeps.upd ?_ ?_ ?_ ?_)

theorem State.settleCarry_keeps {s0 : Base} {s : State} (p : Nat) (id : Nat) (h : Keeps s0 s) :
    Keeps s0 (State.settleCarry s p id) := by
  unfold State.settleCarry
  repeat' first
    | (with_reducible assumption)
    | (with_reducible (first | apply State.modCmd_keeps | apply State.modPart_keeps))
    | (dsimp only)
    | split
    | rfl
    | (refine Keeps.snd (by assumption) ?_)
    | (refine Keeps.fst (by assumption) ?_)
    | (intro _ _ _ _)
    | (intro _ _ _)
    | (intro _ _)
    | (with_reducible refine Keeps.upd ?_ ?_ ?_ ?_)

theorem State.addRun_keeps {s0 : Base} {s : State} (p : Nat) (id : Nat) (cycles : Nat) (bytes : Nat) (h : Keeps s0 s) :
    Keeps s0 (State.addRun s p id cycles bytes) := by
  unfold State.addRun
  repeat' first
    | (with_reducible assumption)
    | (with_reducible (first | apply State.modCmd_keeps))
    | (dsimp only)
    | rfl
    | (intro _ _ _ _)
    | (intro _ _ _)
    | (intro _ _)
    | (with_reducible refine Keeps.upd ?_ ?_ ?_ ?_)

theorem State.coreEnded_keeps {s0 : Base} {s : State} (p : Nat) (id : Nat) (core : Nat) (e : CoreEnd) (h : Keeps s0 s) :
    Keeps s0 (State.coreEnded s p id core e) := by
  unfold State.coreEnded
  repeat' first
    | (with_reducible assumption)
    | (with_reducible (first | apply State.modCmd_keeps | apply State.recomputeEnd_keeps | apply State.settleCarry_keeps))
    | (dsimp only)
    | split
    | rfl
    | (intro _ _ _ _)
    | (intro _ _ _)
    | (intro _ _)
    | (with_reducible refine Keeps.upd ?_ ?_ ?_ ?_)

theorem State.setMark_keeps {s0 : Base} {s : State} (p : Nat) (m : Nat) (v : Dword) (h : Keeps s0 s) :
    Keeps s0 (State.setMark s p m v) := by
  unfold State.setMark
  repeat' first
    | (with_reducible assumption)
    | (with_reducible (first | apply State.modSch_keeps))
    | (dsimp only)
    | rfl
    | (intro _ _ _ _)
    | (intro _ _ _)
    | (intro _ _)
    | (with_reducible refine Keeps.upd ?_ ?_ ?_ ?_)

theorem State.addMark_keeps {s0 : Base} {s : State} (p : Nat) (m : Nat) (n : Nat) (h : Keeps s0 s) :
    Keeps s0 (State.addMark s p m n) := by
  unfold State.addMark
  repeat' first
    | (with_reducible assumption)
    | (with_reducible (first | apply State.setMark_keeps))
    | (dsimp only)

end Sys2Proof.Machine
end

