-- ==== Sys2Proof/Laws/KeepsReduction.lean ====
section
/-!
SUPPORT. What the operations of Machine/Reduction.lean leave in place.
-/

namespace Sys2Proof.Machine

open Sys2Proof

theorem State.modRed_keeps {s0 : Base} {s : State} (p : Nat) (u : Nat) (rid : Nat) (f : RUnit → RUnit) (h : Keeps s0 s) :
    Keeps s0 (State.modRed s p u rid f) := by
  unfold State.modRed
  repeat' first
    | (with_reducible assumption)
    | (dsimp only)
    | rfl
    | (intro _ _ _ _)
    | (intro _ _ _)
    | (intro _ _)
    | (with_reducible refine Keeps.upd ?_ ?_ ?_ ?_)

theorem State.sendRed_keeps {s0 : Base} {s : State} (op : Nat) (dst : Nat) (tag : Nat) (part : Nat) (rid : Nat) (epoch : Nat) (b : List Byte) (kind : TxnKind) (h : Keeps s0 s) :
    Keeps s0 (State.sendRed s op dst tag part rid epoch b kind) := by
  unfold State.sendRed
  repeat' first
    | (with_reducible assumption)
    | (with_reducible (first | apply Keeps.foldl | apply State.request_keeps | apply State.sendMsg_keeps))
    | (dsimp only)
    | split
    | (refine Keeps.snd (by assumption) ?_)
    | (refine Keeps.fst (by assumption) ?_)
    | (intro _ _ _ _)
    | (intro _ _ _)
    | (intro _ _)

theorem State.sendResult_keeps {s0 : Base} {s : State} {x : RUnit} {d : Nat} (h : Keeps s0 s) {u : State} (e : State.sendResult s x d = some u) :
    Keeps s0 u := by
  unfold State.sendResult at e
  revert e
  repeat' first
    | (with_reducible assumption)
    | (with_reducible (first | apply State.sendRed_keeps))
    | (rintro ⟨⟩)
    | (simp only [Option.map_eq_some_iff]; rintro ⟨_, _, rfl⟩)
    | (dsimp only)
    | (intro _ _ _ _)
    | (intro _ _ _)
    | (intro _ _)

theorem State.sendResults_keeps {s0 : Base} {s : State} (x : RUnit) (h : Keeps s0 s) :
    Keeps s0 (State.sendResults s x).2 := by
  unfold State.sendResults
  repeat' first
    | (with_reducible assumption)
    | (with_reducible (first | apply Keeps.foldl | apply Keeps.foldl_snd | apply Keeps.foldl_fst))
    | (refine State.sendResult_keeps ?_ (by assumption))
    | (dsimp only)
    | split
    | (refine Keeps.snd (by assumption) ?_)
    | (refine Keeps.fst (by assumption) ?_)
    | (intro _ _ _ _)
    | (intro _ _ _)
    | (intro _ _)

theorem State.closeRed_keeps {s0 : Base} {s : State} (p : Nat) (rid : Nat) (epoch : Nat) (h : Keeps s0 s) :
    Keeps s0 (State.closeRed s p rid epoch) := by
  unfold State.closeRed
  repeat' first
    | (with_reducible assumption)
    | (with_reducible (first | apply Keeps.foldl))
    | (dsimp only)
    | rfl
    | (intro _ _ _ _)
    | (intro _ _ _)
    | (intro _ _)
    | (with_reducible refine Keeps.upd ?_ ?_ ?_ ?_)

theorem State.writeResult_keeps {s0 : Base} {s : State} (x : RUnit) (r : RPart) (h : Keeps s0 s) :
    Keeps s0 (State.writeResult s x r) := by
  unfold State.writeResult
  repeat' first
    | (with_reducible assumption)
    | (with_reducible (first | apply Keeps.foldl | apply State.modCmd_keeps | apply State.writePart_keeps | apply Keeps.foldl_snd | apply Keeps.foldl_fst))
    | (dsimp only)
    | split
    | rfl
    | (refine Keeps.snd (by assumption) ?_)
    | (refine Keeps.fst (by assumption) ?_)
    | (intro _ _ _ _)
    | (intro _ _ _)
    | (intro _ _)
    | (with_reducible refine Keeps.upd ?_ ?_ ?_ ?_)

theorem State.redCheck_keeps {s0 : Base} {s : State} (p : Nat) (u : Nat) (rid : Nat) (h : Keeps s0 s) :
    Keeps s0 (State.redCheck s p u rid) := by
  unfold State.redCheck
  repeat' first
    | (with_reducible assumption)
    | (with_reducible (first | apply State.closeRed_keeps | apply State.sendResults_keeps | apply State.writeResult_keeps))
    | (dsimp only)
    | split
    | rfl
    | (refine Keeps.snd (by assumption) ?_)
    | (refine Keeps.fst (by assumption) ?_)
    | (with_reducible refine Keeps.upd ?_ ?_ ?_ ?_)

theorem State.redRecord_keeps {s0 : Base} {s : State} (p : Nat) (u : Nat) (code : Nat) (rid : Nat) (epoch : Nat) (id : Nat) (h : Keeps s0 s) :
    Keeps s0 (State.redRecord s p u code rid epoch id) := by
  unfold State.redRecord
  repeat' first
    | (with_reducible assumption)
    | (with_reducible (first | apply State.logErr_keeps))
    | (dsimp only)
    | rfl
    | (with_reducible refine Keeps.upd ?_ ?_ ?_ ?_)

theorem State.redRefuse_keeps {s0 : Base} {s : State} (p : Nat) (u : Nat) (code : Nat) (rid : Nat) (epoch : Nat) (id : Nat) (h : Keeps s0 s) :
    Keeps s0 (State.redRefuse s p u code rid epoch id) := by
  unfold State.redRefuse
  repeat' first
    | (with_reducible assumption)
    | (with_reducible (first | apply State.modRed_keeps | apply State.redRecord_keeps))
    | (dsimp only)
    | rfl
    | (intro _ _ _ _)
    | (intro _ _ _)
    | (intro _ _)
    | (with_reducible refine Keeps.upd ?_ ?_ ?_ ?_)

theorem State.redDuplicate_keeps {s0 : Base} {s : State} (p : Nat) (u : Nat) (rid : Nat) (h : Keeps s0 s) :
    Keeps s0 (State.redDuplicate s p u rid) := by
  unfold State.redDuplicate
  repeat' first
    | (with_reducible assumption)
    | (with_reducible (first | apply State.modRed_keeps))
    | (dsimp only)
    | rfl
    | (intro _ _ _ _)
    | (intro _ _ _)
    | (intro _ _)
    | (with_reducible refine Keeps.upd ?_ ?_ ?_ ?_)

theorem State.redMerge_keeps {s0 : Base} {s : State} (p : Nat) (u : Nat) (rid : Nat) (id : Nat) (vals : List Nat) (h : Keeps s0 s) :
    Keeps s0 (State.redMerge s p u rid id vals) := by
  unfold State.redMerge
  repeat' first
    | (with_reducible assumption)
    | (with_reducible (first | apply State.modRed_keeps | apply State.redCheck_keeps))
    | (dsimp only)
    | rfl
    | (intro _ _ _ _)
    | (intro _ _ _)
    | (intro _ _)
    | (with_reducible refine Keeps.upd ?_ ?_ ?_ ?_)

theorem State.aredAccept_keeps {s0 : Base} {s : State} (args : List Nat) (h : Keeps s0 s) :
    Keeps s0 (State.aredAccept s args) := by
  unfold State.aredAccept
  repeat' first
    | (with_reducible assumption)
    | (with_reducible (first | apply State.modCmd_keeps | apply State.modRed_keeps | apply State.redDuplicate_keeps | apply State.redMerge_keeps | apply State.redRefuse_keeps | apply Keeps.ident))
    | (dsimp only)
    | split
    | rfl
    | (refine Keeps.snd (by assumption) ?_)
    | (refine Keeps.fst (by assumption) ?_)
    | (intro _ _ _ _)
    | (intro _ _ _)
    | (intro _ _)
    | (with_reducible refine Keeps.upd ?_ ?_ ?_ ?_)

end Sys2Proof.Machine
end

