-- ==== Sys2Proof/Laws/KeepsCoreOps.lean ====
section
/-!
SUPPORT. What the operations of Machine/CoreOps.lean leave in place.
-/

namespace Sys2Proof.Machine

open Sys2Proof

theorem State.modCore_keeps {s0 : Base} {s : State} (c : Nat) (f : Core → Core) (h : Keeps s0 s) :
    Keeps s0 (State.modCore s c f) := by
  unfold State.modCore
  repeat' first
    | (with_reducible assumption)
    | (dsimp only)
    | rfl
    | (with_reducible refine Keeps.upd ?_ ?_ ?_ ?_)

theorem State.modCluster_keeps {s0 : Base} {s : State} (g : Nat) (f : Cluster → Cluster) (h : Keeps s0 s) :
    Keeps s0 (State.modCluster s g f) := by
  unfold State.modCluster
  repeat' first
    | (with_reducible assumption)
    | (dsimp only)
    | rfl
    | (with_reducible refine Keeps.upd ?_ ?_ ?_ ?_)

theorem State.modCtl_keeps {s0 : Base} {s : State} (c : Nat) (f : CoreCtl → CoreCtl) (h : Keeps s0 s) :
    Keeps s0 (State.modCtl s c f) := by
  unfold State.modCtl
  repeat' first
    | (with_reducible assumption)
    | (with_reducible (first | apply State.modCore_keeps))
    | (dsimp only)
    | rfl
    | (intro _ _ _ _)
    | (intro _ _ _)
    | (intro _ _)
    | (with_reducible refine Keeps.upd ?_ ?_ ?_ ?_)

theorem State.modRegs_keeps {s0 : Base} {s : State} (c : Nat) (f : CoreRegs → CoreRegs) (h : Keeps s0 s) :
    Keeps s0 (State.modRegs s c f) := by
  unfold State.modRegs
  repeat' first
    | (with_reducible assumption)
    | (with_reducible (first | apply State.modCore_keeps))
    | (dsimp only)
    | rfl
    | (intro _ _ _ _)
    | (intro _ _ _)
    | (intro _ _)
    | (with_reducible refine Keeps.upd ?_ ?_ ?_ ?_)

theorem State.setG_keeps {s0 : Base} {s : State} (c : Nat) (r : Nat) (v : Dword) (h : Keeps s0 s) :
    Keeps s0 (State.setG s c r v) := by
  unfold State.setG
  repeat' first
    | (with_reducible assumption)
    | (with_reducible (first | apply State.modRegs_keeps))
    | (dsimp only)
    | split
    | rfl
    | (intro _ _ _ _)
    | (intro _ _ _)
    | (intro _ _)
    | (with_reducible refine Keeps.upd ?_ ?_ ?_ ?_)

theorem State.setF_keeps {s0 : Base} {s : State} (c : Nat) (r : Nat) (v : Dword) (h : Keeps s0 s) :
    Keeps s0 (State.setF s c r v) := by
  unfold State.setF
  repeat' first
    | (with_reducible assumption)
    | (with_reducible (first | apply State.modRegs_keeps))
    | (dsimp only)
    | rfl
    | (intro _ _ _ _)
    | (intro _ _ _)
    | (intro _ _)
    | (with_reducible refine Keeps.upd ?_ ?_ ?_ ?_)

theorem State.bump_keeps {s0 : Base} {s : State} (c : Nat) (num : Nat) (n : Nat) (h : Keeps s0 s) :
    Keeps s0 (State.bump s c num n) := by
  unfold State.bump
  repeat' first
    | (with_reducible assumption)
    | (with_reducible (first | apply State.modCore_keeps))
    | (dsimp only)
    | rfl
    | (intro _ _ _ _)
    | (intro _ _ _)
    | (intro _ _)
    | (with_reducible refine Keeps.upd ?_ ?_ ?_ ?_)

theorem State.addTraffic_keeps {s0 : Base} {s : State} (c : Nat) (n : Nat) (h : Keeps s0 s) :
    Keeps s0 (State.addTraffic s c n) := by
  unfold State.addTraffic
  repeat' first
    | (with_reducible assumption)
    | (with_reducible (first | apply State.modCore_keeps))
    | (dsimp only)
    | split
    | rfl
    | (intro _ _ _ _)
    | (intro _ _ _)
    | (intro _ _)
    | (with_reducible refine Keeps.upd ?_ ?_ ?_ ?_)

theorem State.coreRead_keeps {s0 : Base} {s : State} (c : Nat) (a : Nat) (n : Nat) (req : Requester) (h : Keeps s0 s) :
    Keeps s0 (State.coreRead s c a n req).2 := by
  unfold State.coreRead
  repeat' first
    | (with_reducible assumption)
    | (with_reducible (first | apply State.addTraffic_keeps | apply State.readPiece_keeps))
    | (dsimp only)
    | split
    | (refine Keeps.snd (by assumption) ?_)
    | (refine Keeps.fst (by assumption) ?_)

theorem State.coreWrite_keeps {s0 : Base} {s : State} (c : Nat) (a : Nat) (bs : List Byte) (h : Keeps s0 s) :
    Keeps s0 (State.coreWrite s c a bs).2 := by
  unfold State.coreWrite
  repeat' first
    | (with_reducible assumption)
    | (with_reducible (first | apply State.addTraffic_keeps | apply State.writePiece_keeps))
    | (dsimp only)
    | split
    | (refine Keeps.snd (by assumption) ?_)
    | (refine Keeps.fst (by assumption) ?_)

theorem State.setL1_keeps {s0 : Base} {s : State} (c : Nat) (set : Nat) (way : Nat) (x : L1Line) (h : Keeps s0 s) :
    Keeps s0 (State.setL1 s c set way x) := by
  unfold State.setL1
  repeat' first
    | (with_reducible assumption)
    | (with_reducible (first | apply State.modCore_keeps))
    | (dsimp only)
    | rfl
    | (intro _ _ _ _)
    | (intro _ _ _)
    | (intro _ _)
    | (with_reducible refine Keeps.upd ?_ ?_ ?_ ?_)

theorem State.touchL1_keeps {s0 : Base} {s : State} (c : Nat) (set : Nat) (way : Nat) (h : Keeps s0 s) :
    Keeps s0 (State.touchL1 s c set way) := by
  unfold State.touchL1
  repeat' first
    | (with_reducible assumption)
    | (with_reducible (first | apply State.modCore_keeps))
    | (dsimp only)
    | rfl
    | (intro _ _ _ _)
    | (intro _ _ _)
    | (intro _ _)
    | (with_reducible refine Keeps.upd ?_ ?_ ?_ ?_)

theorem State.pushSb_keeps {s0 : Base} {s : State} (c : Nat) (e : SbEntry) (h : Keeps s0 s) :
    Keeps s0 (State.pushSb s c e) := by
  unfold State.pushSb
  repeat' first
    | (with_reducible assumption)
    | (with_reducible (first | apply State.modCore_keeps))
    | (dsimp only)
    | rfl
    | (intro _ _ _ _)
    | (intro _ _ _)
    | (intro _ _)
    | (with_reducible refine Keeps.upd ?_ ?_ ?_ ?_)

theorem State.l1Drop_keeps {s0 : Base} {s : State} (c : Nat) (set : Nat) (way : Nat) (h : Keeps s0 s) :
    Keeps s0 (State.l1Drop s c set way) := by
  unfold State.l1Drop
  repeat' first
    | (with_reducible assumption)
    | (with_reducible (first | apply State.setL1_keeps))
    | (dsimp only)

theorem State.l1Clean_keeps {s0 : Base} {s : State} (c : Nat) (set : Nat) (way : Nat) (h : Keeps s0 s) :
    Keeps s0 (State.l1Clean s c set way) := by
  unfold State.l1Clean
  repeat' first
    | (with_reducible assumption)
    | (with_reducible (first | apply State.l1Drop_keeps | apply State.pushSb_keeps | apply State.setL1_keeps | apply State.sramErr_keeps))
    | (dsimp only)
    | split
    | rfl
    | (with_reducible refine Keeps.upd ?_ ?_ ?_ ?_)

theorem State.writeBackLine_keeps {s0 : Base} {s : State} (c : Nat) (a : Nat) (bs : List Byte) (ue : BitVec 8) (h : Keeps s0 s) :
    Keeps s0 (State.writeBackLine s c a bs ue).2 := by
  unfold State.writeBackLine
  repeat' first
    | (with_reducible assumption)
    | (with_reducible (first | apply Keeps.foldl | apply State.coreWrite_keeps | apply State.setUnit_keeps | apply Keeps.foldl_snd))
    | (dsimp only)
    | split
    | (refine Keeps.snd (by assumption) ?_)
    | (refine Keeps.fst (by assumption) ?_)
    | (intro _ _ _ _)
    | (intro _ _ _)
    | (intro _ _)

theorem State.settleLine_keeps {s0 : Base} {s : State} (c : Nat) (line : Nat) (h : Keeps s0 s) :
    Keeps s0 (State.settleLine s c line) := by
  unfold State.settleLine
  repeat' first
    | (with_reducible assumption)
    | (with_reducible (first | apply Keeps.foldl | apply State.addLate_keeps | apply State.modCore_keeps | apply State.writeBackLine_keeps | apply Keeps.foldl_snd))
    | (dsimp only)
    | split
    | rfl
    | (refine Keeps.snd (by assumption) ?_)
    | (refine Keeps.fst (by assumption) ?_)
    | (intro _ _ _ _)
    | (intro _ _ _)
    | (intro _ _)
    | (with_reducible refine Keeps.upd ?_ ?_ ?_ ?_)

theorem State.l1Fill_keeps {s0 : Base} {s : State} (c : Nat) (a : Nat) (h : Keeps s0 s) :
    Keeps s0 (State.l1Fill s c a).2 := by
  unfold State.l1Fill
  repeat' first
    | (with_reducible assumption)
    | (with_reducible (first | apply State.bump_keeps | apply State.coreRead_keeps | apply State.l1Clean_keeps | apply State.setL1_keeps | apply State.settleLine_keeps | apply State.touchL1_keeps))
    | (dsimp only)
    | split
    | rfl
    | (refine Keeps.snd (by assumption) ?_)
    | (refine Keeps.fst (by assumption) ?_)
    | (with_reducible refine Keeps.upd ?_ ?_ ?_ ?_)

theorem State.l1Read_keeps {s0 : Base} {s : State} (c : Nat) (a : Nat) (n : Nat) (h : Keeps s0 s) :
    Keeps s0 (State.l1Read s c a n).2 := by
  unfold State.l1Read
  repeat' first
    | (with_reducible assumption)
    | (with_reducible (first | apply State.l1Drop_keeps | apply State.l1Fill_keeps | apply State.pushSb_keeps | apply State.setL1_keeps | apply State.sramErr_keeps | apply State.touchL1_keeps))
    | (dsimp only)
    | split
    | rfl
    | (refine Keeps.snd (by assumption) ?_)
    | (refine Keeps.fst (by assumption) ?_)
    | (intro _ _ _ _)
    | (intro _ _ _)
    | (intro _ _)
    | (with_reducible refine Keeps.upd ?_ ?_ ?_ ?_)

theorem State.l1Write_keeps {s0 : Base} {s : State} (c : Nat) (set : Nat) (w : Nat) (a : Nat) (bs : List Byte) (h : Keeps s0 s) :
    Keeps s0 (State.l1Write s c set w a bs).2 := by
  unfold State.l1Write
  try generalize List.range 8 = l8
  repeat' first
    | (with_reducible assumption)
    | (with_reducible (first | apply Keeps.foldl | apply State.l1Drop_keeps | apply State.pushSb_keeps | apply State.setL1_keeps | apply State.sramErr_keeps | apply State.touchL1_keeps))
    | (dsimp only)
    | split
    | rfl
    | (intro _ _ _ _)
    | (intro _ _ _)
    | (intro _ _)
    | (with_reducible refine Keeps.upd ?_ ?_ ?_ ?_)

theorem State.noteChan_keeps {s0 : Base} {s : State} (c : Nat) (a : Nat) (n : Nat) (h : Keeps s0 s) :
    Keeps s0 (State.noteChan s c a n) := by
  unfold State.noteChan
  repeat' first
    | (with_reducible assumption)
    | (with_reducible (first | apply State.modCore_keeps))
    | (dsimp only)
    | split
    | rfl
    | (refine Keeps.snd (by assumption) ?_)
    | (refine Keeps.fst (by assumption) ?_)
    | (intro _ _ _ _)
    | (intro _ _ _)
    | (intro _ _)
    | (with_reducible refine Keeps.upd ?_ ?_ ?_ ?_)

theorem State.writeSbPieces_keeps {s0 : Base} {s : State} (c : Nat) (x0 : List SbPiece) (h : Keeps s0 s) :
    Keeps s0 (State.writeSbPieces s c x0).2 := by
  induction x0 generalizing s with
  | nil =>
    unfold State.writeSbPieces
    repeat' first
      | (with_reducible assumption)
      | (with_reducible (first | apply State.coreWrite_keeps | apply State.noteChan_keeps))
      | (dsimp only)
      | split
      | (refine Keeps.snd (by assumption) ?_)
      | (refine Keeps.fst (by assumption) ?_)
  | cons hd tl ih =>
    unfold State.writeSbPieces
    repeat' first
      | (with_reducible apply ih)
      | (with_reducible assumption)
      | (with_reducible (first | apply State.coreWrite_keeps | apply State.noteChan_keeps))
      | (dsimp only)
      | split
      | (refine Keeps.snd (by assumption) ?_)
      | (refine Keeps.fst (by assumption) ?_)

theorem State.performCached_keeps {s0 : Base} {s : State} (c : Nat) (a : Nat) (bs : List Byte) (h : Keeps s0 s) :
    Keeps s0 (State.performCached s c a bs).2 := by
  unfold State.performCached
  repeat' first
    | (with_reducible assumption)
    | (with_reducible (first | apply State.bump_keeps | apply State.coreWrite_keeps | apply State.l1Fill_keeps | apply State.l1Write_keeps | apply State.noteChan_keeps))
    | (dsimp only)
    | split
    | (refine Keeps.snd (by assumption) ?_)
    | (refine Keeps.fst (by assumption) ?_)

theorem State.performSb_keeps {s0 : Base} {s : State} (c : Nat) (e : SbEntry) (h : Keeps s0 s) :
    Keeps s0 (State.performSb s c e).2 := by
  unfold State.performSb
  repeat' first
    | (with_reducible assumption)
    | (with_reducible (first | apply State.aredAccept_keeps | apply State.performCached_keeps | apply State.writeBackLine_keeps | apply State.writeSbPieces_keeps))
    | (dsimp only)
    | split
    | (refine Keeps.snd (by assumption) ?_)
    | (refine Keeps.fst (by assumption) ?_)

theorem State.dropSb_keeps {s0 : Base} {s : State} (c : Nat) (i : Nat) (h : Keeps s0 s) :
    Keeps s0 (State.dropSb s c i) := by
  unfold State.dropSb
  repeat' first
    | (with_reducible assumption)
    | (with_reducible (first | apply State.modCore_keeps))
    | (dsimp only)
    | rfl
    | (intro _ _ _ _)
    | (intro _ _ _)
    | (intro _ _)
    | (with_reducible refine Keeps.upd ?_ ?_ ?_ ?_)

theorem State.lateSb_keeps {s0 : Base} {s : State} (c : Nat) (i : Nat) (sub : Nat) (h : Keeps s0 s) :
    Keeps s0 (State.lateSb s c i sub) := by
  unfold State.lateSb
  repeat' first
    | (with_reducible assumption)
    | (with_reducible (first | apply State.modCore_keeps))
    | (dsimp only)
    | rfl
    | (intro _ _ _ _)
    | (intro _ _ _)
    | (intro _ _)
    | (with_reducible refine Keeps.upd ?_ ?_ ?_ ?_)

theorem State.sendPieces_keeps {s0 : Base} {s : State} {c : Nat} {x0 : List SbPiece} {x1 : List (Nat × Nat)} (h : Keeps s0 s) {u : State × List (Nat × Nat)} (e : State.sendPieces s c x0 x1 = some u) :
    Keeps s0 u.1 := by
  induction x0 generalizing s x1 with
  | nil =>
    unfold State.sendPieces at e
    revert e
    repeat' first
      | (with_reducible assumption)
      | (with_reducible (first | apply State.request_keeps))
      | (rintro ⟨⟩)
      | (simp only [Option.map_eq_some_iff]; rintro ⟨_, _, rfl⟩)
      | (dsimp only)
      | split
      | (refine Keeps.snd (by assumption) ?_)
      | (refine Keeps.fst (by assumption) ?_)
      | (intro _ _ _ _)
      | (intro _ _ _)
      | (intro _ _)
  | cons hd tl ih =>
    unfold State.sendPieces at e
    revert e
    repeat' first
      | (refine fun e => ih ?_ e)
      | (with_reducible assumption)
      | (with_reducible (first | apply State.request_keeps))
      | (rintro ⟨⟩)
      | (simp only [Option.map_eq_some_iff]; rintro ⟨_, _, rfl⟩)
      | (dsimp only)
      | split
      | (refine Keeps.snd (by assumption) ?_)
      | (refine Keeps.fst (by assumption) ?_)
      | (intro _ _ _ _)
      | (intro _ _ _)
      | (intro _ _)

theorem State.sendStore_keeps {s0 : Base} {s : State} (c : Nat) (i : Nat) (e : SbEntry) (h : Keeps s0 s) :
    Keeps s0 (State.sendStore s c i e) := by
  unfold State.sendStore
  repeat' first
    | (with_reducible assumption)
    | (with_reducible (first | apply State.lateSb_keeps | apply State.modCore_keeps | apply State.writeSbPieces_keeps))
    | (refine State.sendPieces_keeps ?_ (by assumption))
    | (dsimp only)
    | split
    | rfl
    | (refine Keeps.snd (by assumption) ?_)
    | (refine Keeps.fst (by assumption) ?_)
    | (intro _ _ _ _)
    | (intro _ _ _)
    | (intro _ _)
    | (with_reducible refine Keeps.upd ?_ ?_ ?_ ?_)

theorem State.acceptSb_keeps {s0 : Base} {s : State} (c : Nat) (i : Nat) (h : Keeps s0 s) :
    Keeps s0 (State.acceptSb s c i) := by
  unfold State.acceptSb
  repeat' first
    | (with_reducible assumption)
    | (with_reducible (first | apply State.dropSb_keeps | apply State.lateSb_keeps | apply State.performSb_keeps | apply State.sendStore_keeps))
    | (dsimp only)
    | split
    | (refine Keeps.snd (by assumption) ?_)
    | (refine Keeps.fst (by assumption) ?_)

theorem State.takeLate_keeps {s0 : Base} {s : State} (c : Nat) (h : Keeps s0 s) :
    Keeps s0 (State.takeLate s c) := by
  unfold State.takeLate
  repeat' first
    | (with_reducible assumption)
    | (with_reducible (first | apply State.modCore_keeps))
    | (dsimp only)
    | split
    | rfl
    | (intro _ _ _ _)
    | (intro _ _ _)
    | (intro _ _)
    | (with_reducible refine Keeps.upd ?_ ?_ ?_ ?_)

theorem State.sbRoom_keeps {s0 : Base} {s : State} (c : Nat) (k : State → Res) (h : Keeps s0 s) (h_k : ∀ (t : State), Keeps s0 t → Keeps s0 (k t).st) :
    Keeps s0 (State.sbRoom s c k).st := by
  unfold State.sbRoom
  repeat' first
    | (with_reducible assumption)
    | (with_reducible (first | apply State.acceptSb_keeps | apply State.dropSb_keeps | apply Res.ok_keeps | apply Res.fault_keeps | apply Res.wait_keeps | apply h_k))
    | (dsimp only)
    | split
    | (refine Keeps.snd (by assumption) ?_)
    | (refine Keeps.fst (by assumption) ?_)
    | (refine Res.of_eq_ok (by assumption) ?_)
    | (refine Res.of_eq_fault (by assumption) ?_)
    | (refine Res.of_eq_wait (by assumption) ?_)

theorem State.drainFrom_keeps {s0 : Base} {s : State} (c : Nat) (x0 : Nat) (h : Keeps s0 s) :
    Keeps s0 (State.drainFrom s c x0) := by
  induction x0 generalizing s with
  | zero =>
    unfold State.drainFrom
    repeat' first
      | (with_reducible assumption)
      | (with_reducible (first | apply State.acceptSb_keeps))
      | (dsimp only)
      | split
      | (refine Keeps.snd (by assumption) ?_)
      | (refine Keeps.fst (by assumption) ?_)
  | succ n ih =>
    unfold State.drainFrom
    repeat' first
      | (with_reducible apply ih)
      | (with_reducible assumption)
      | (with_reducible (first | apply State.acceptSb_keeps))
      | (dsimp only)
      | split
      | (refine Keeps.snd (by assumption) ?_)
      | (refine Keeps.fst (by assumption) ?_)

theorem State.drain_keeps {s0 : Base} {s : State} (c : Nat) (k : State → Res) (h : Keeps s0 s) (h_k : ∀ (t : State), Keeps s0 t → Keeps s0 (k t).st) :
    Keeps s0 (State.drain s c k).st := by
  unfold State.drain
  repeat' first
    | (with_reducible assumption)
    | (with_reducible (first | apply State.drainFrom_keeps | apply State.dropSb_keeps | apply Res.ok_keeps | apply Res.fault_keeps | apply Res.wait_keeps | apply h_k))
    | (dsimp only)
    | split
    | (refine Keeps.snd (by assumption) ?_)
    | (refine Keeps.fst (by assumption) ?_)
    | (refine Res.of_eq_ok (by assumption) ?_)
    | (refine Res.of_eq_fault (by assumption) ?_)
    | (refine Res.of_eq_wait (by assumption) ?_)

theorem State.remoteRead_keeps {s0 : Base} {s : State} (c : Nat) (k : Nat) (pl : Place) (n : Nat) (pa : Nat) (h : Keeps s0 s) :
    Keeps s0 (State.remoteRead s c k pl n pa).st := by
  unfold State.remoteRead
  repeat' first
    | (with_reducible assumption)
    | (with_reducible (first | apply State.modCore_keeps | apply State.request_keeps | apply Res.ok_keeps | apply Res.fault_keeps | apply Res.wait_keeps | apply Got.ok_keeps | apply Got.fault_keeps | apply Got.wait_keeps))
    | (dsimp only)
    | split
    | rfl
    | (refine Keeps.snd (by assumption) ?_)
    | (refine Keeps.fst (by assumption) ?_)
    | (intro _ _ _ _)
    | (intro _ _ _)
    | (intro _ _)
    | (with_reducible refine Keeps.upd ?_ ?_ ?_ ?_)

theorem State.scalarRead_keeps {s0 : Base} {s : State} (c : Nat) (pa : Nat) (n : Nat) (h : Keeps s0 s) :
    Keeps s0 (State.scalarRead s c pa n).st := by
  unfold State.scalarRead
  repeat' first
    | (with_reducible assumption)
    | (with_reducible (first | apply State.coreRead_keeps | apply State.l1Read_keeps | apply State.remoteRead_keeps | apply Res.ok_keeps | apply Res.fault_keeps | apply Res.wait_keeps | apply Got.ok_keeps | apply Got.fault_keeps | apply Got.wait_keeps))
    | (dsimp only)
    | split
    | (refine Keeps.snd (by assumption) ?_)
    | (refine Keeps.fst (by assumption) ?_)
    | (refine Got.of_eq_ok (by assumption) ?_)
    | (refine Got.of_eq_fault (by assumption) ?_)
    | (refine Got.of_eq_wait (by assumption) ?_)

theorem State.load_keeps {s0 : Base} {s : State} (c : Nat) (pa : Nat) (n : Nat) (h : Keeps s0 s) :
    Keeps s0 (State.load s c pa n).st := by
  unfold State.load
  repeat' first
    | (with_reducible assumption)
    | (with_reducible (first | apply State.scalarRead_keeps | apply Res.ok_keeps | apply Res.fault_keeps | apply Res.wait_keeps | apply Got.ok_keeps | apply Got.fault_keeps | apply Got.wait_keeps))
    | (dsimp only)
    | split
    | (refine Keeps.snd (by assumption) ?_)
    | (refine Keeps.fst (by assumption) ?_)
    | (refine Got.of_eq_ok (by assumption) ?_)
    | (refine Got.of_eq_fault (by assumption) ?_)
    | (refine Got.of_eq_wait (by assumption) ?_)

theorem State.store_keeps {s0 : Base} {s : State} (c : Nat) (pa : Nat) (bs : List Byte) (h : Keeps s0 s) :
    Keeps s0 (State.store s c pa bs).st := by
  unfold State.store
  repeat' first
    | (with_reducible assumption)
    | (with_reducible (first | apply State.pushSb_keeps | apply State.sbRoom_keeps | apply Res.ok_keeps | apply Res.fault_keeps | apply Res.wait_keeps))
    | (dsimp only)
    | split
    | (refine Keeps.snd (by assumption) ?_)
    | (refine Keeps.fst (by assumption) ?_)
    | (refine Res.of_eq_ok (by assumption) ?_)
    | (refine Res.of_eq_fault (by assumption) ?_)
    | (refine Res.of_eq_wait (by assumption) ?_)
    | (intro _ _ _ _)
    | (intro _ _ _)
    | (intro _ _)

theorem State.icPut_keeps {s0 : Base} {s : State} (c : Nat) (addr : Nat) (way : Nat) (x : ICLine) (h : Keeps s0 s) :
    Keeps s0 (State.icPut s c addr way x) := by
  unfold State.icPut
  repeat' first
    | (with_reducible assumption)
    | (with_reducible (first | apply State.modCore_keeps))
    | (dsimp only)
    | rfl
    | (intro _ _ _ _)
    | (intro _ _ _)
    | (intro _ _)
    | (with_reducible refine Keeps.upd ?_ ?_ ?_ ?_)

theorem State.fillLine_keeps {s0 : Base} {s : State} (c : Nat) (addr : Nat) (h : Keeps s0 s) :
    Keeps s0 (State.fillLine s c addr).2 := by
  unfold State.fillLine
  repeat' first
    | (with_reducible assumption)
    | (with_reducible (first | apply State.coreRead_keeps | apply State.icPut_keeps))
    | (dsimp only)
    | split
    | rfl
    | (refine Keeps.snd (by assumption) ?_)
    | (refine Keeps.fst (by assumption) ?_)
    | (with_reducible refine Keeps.upd ?_ ?_ ?_ ?_)

theorem State.fetchLine_keeps {s0 : Base} {s : State} (c : Nat) (addr : Nat) (h : Keeps s0 s) :
    Keeps s0 (State.fetchLine s c addr).2 := by
  unfold State.fetchLine
  repeat' first
    | (with_reducible assumption)
    | (with_reducible (first | apply State.bump_keeps | apply State.fillLine_keeps | apply State.icPut_keeps))
    | (dsimp only)
    | split
    | (refine Keeps.snd (by assumption) ?_)
    | (refine Keeps.fst (by assumption) ?_)

theorem State.tableRead_keeps {s0 : Base} {s : State} (c : Nat) (addr : Nat) (n : Nat) (h : Keeps s0 s) :
    Keeps s0 (State.tableRead s c addr n).2 := by
  unfold State.tableRead
  repeat' first
    | (with_reducible assumption)
    | (with_reducible (first | apply State.fetchLine_keeps))
    | (dsimp only)
    | split
    | (refine Keeps.snd (by assumption) ?_)
    | (refine Keeps.fst (by assumption) ?_)

theorem State.btbPut_keeps {s0 : Base} {s : State} (c : Nat) (addr : Nat) (way : Nat) (x : BtbEntry) (h : Keeps s0 s) :
    Keeps s0 (State.btbPut s c addr way x) := by
  unfold State.btbPut
  repeat' first
    | (with_reducible assumption)
    | (with_reducible (first | apply State.modCore_keeps))
    | (dsimp only)
    | rfl
    | (intro _ _ _ _)
    | (intro _ _ _)
    | (intro _ _)
    | (with_reducible refine Keeps.upd ?_ ?_ ?_ ?_)

theorem State.btbResolve_keeps {s0 : Base} {s : State} (c : Nat) (addr : Nat) (taken : Bool) (target : Nat) (h : Keeps s0 s) :
    Keeps s0 (State.btbResolve s c addr taken target) := by
  unfold State.btbResolve
  repeat' first
    | (with_reducible assumption)
    | (with_reducible (first | apply State.btbPut_keeps | apply State.bump_keeps))
    | (dsimp only)
    | split
    | rfl
    | (refine Keeps.snd (by assumption) ?_)
    | (refine Keeps.fst (by assumption) ?_)
    | (with_reducible refine Keeps.upd ?_ ?_ ?_ ?_)

theorem State.stopCore_keeps {s0 : Base} {s : State} (c : Nat) (reason : Nat) (h : Keeps s0 s) :
    Keeps s0 (State.stopCore s c reason) := by
  unfold State.stopCore
  repeat' first
    | (with_reducible assumption)
    | (with_reducible (first | apply State.addRun_keeps | apply State.coreEnded_keeps | apply State.logErr_keeps | apply State.modCore_keeps))
    | (dsimp only)
    | split
    | rfl
    | (intro _ _ _ _)
    | (intro _ _ _)
    | (intro _ _)
    | (with_reducible refine Keeps.upd ?_ ?_ ?_ ?_)

theorem State.pushFrame_keeps {s0 : Base} {s : State} (c : Nat) (sp : Nat) (bs : List Byte) (h : Keeps s0 s) :
    Keeps s0 (State.pushFrame s c sp bs) := by
  unfold State.pushFrame
  repeat' first
    | (with_reducible assumption)
    | (with_reducible (first | apply State.acceptSb_keeps | apply State.pushSb_keeps))
    | (dsimp only)
    | split

theorem State.enterExc_keeps {s0 : Base} {s : State} (c : Nat) (f : FaultInfo) (epc : Nat) (ds : Bool) (async : Bool) (h : Keeps s0 s) :
    Keeps s0 (State.enterExc s c f epc ds async) := by
  unfold State.enterExc
  repeat' first
    | (with_reducible assumption)
    | (with_reducible (first | apply State.modCtl_keeps | apply State.pushFrame_keeps | apply State.setG_keeps | apply State.stopCore_keeps | apply State.tableRead_keeps))
    | (dsimp only)
    | split
    | rfl
    | (refine Keeps.snd (by assumption) ?_)
    | (refine Keeps.fst (by assumption) ?_)
    | (intro _ _ _ _)
    | (intro _ _ _)
    | (intro _ _)
    | (with_reducible refine Keeps.upd ?_ ?_ ?_ ?_)

theorem State.faultAt_keeps {s0 : Base} {s : State} (c : Nat) (f : FaultInfo) (h : Keeps s0 s) :
    Keeps s0 (State.faultAt s c f) := by
  unfold State.faultAt
  repeat' first
    | (with_reducible assumption)
    | (with_reducible (first | apply State.enterExc_keeps))
    | (dsimp only)
    | split
    | (refine Keeps.snd (by assumption) ?_)
    | (refine Keeps.fst (by assumption) ?_)

theorem State.arrive_keeps {s0 : Base} {s : State} (c : Nat) (d : Delay) (h : Keeps s0 s) :
    Keeps s0 (State.arrive s c d) := by
  unfold State.arrive
  repeat' first
    | (with_reducible assumption)
    | (with_reducible (first | apply State.modCtl_keeps | apply State.pushFrame_keeps | apply State.setG_keeps))
    | (dsimp only)
    | split
    | rfl
    | (refine Keeps.snd (by assumption) ?_)
    | (refine Keeps.fst (by assumption) ?_)
    | (intro _ _ _ _)
    | (intro _ _ _)
    | (intro _ _)
    | (with_reducible refine Keeps.upd ?_ ?_ ?_ ?_)

theorem State.moveOn_keeps {s0 : Base} {s : State} (c : Nat) (h : Keeps s0 s) :
    Keeps s0 (State.moveOn s c) := by
  unfold State.moveOn
  repeat' first
    | (with_reducible assumption)
    | (with_reducible (first | apply State.arrive_keeps | apply State.modCtl_keeps))
    | (dsimp only)
    | split
    | rfl
    | (refine Keeps.snd (by assumption) ?_)
    | (refine Keeps.fst (by assumption) ?_)
    | (intro _ _ _ _)
    | (intro _ _ _)
    | (intro _ _)
    | (with_reducible refine Keeps.upd ?_ ?_ ?_ ?_)

theorem State.endResume_keeps {s0 : Base} {s : State} (c : Nat) (resume : Option (Nat × Nat)) (here : Nat) (h : Keeps s0 s) :
    Keeps s0 (State.endResume s c resume here) := by
  unfold State.endResume
  repeat' first
    | (with_reducible assumption)
    | (with_reducible (first | apply State.modCtl_keeps))
    | (dsimp only)
    | split
    | rfl
    | (refine Keeps.snd (by assumption) ?_)
    | (refine Keeps.fst (by assumption) ?_)
    | (intro _ _ _ _)
    | (intro _ _ _)
    | (intro _ _)
    | (with_reducible refine Keeps.upd ?_ ?_ ?_ ?_)

theorem State.retire_keeps {s0 : Base} {s : State} (c : Nat) (h : Keeps s0 s) :
    Keeps s0 (State.retire s c) := by
  unfold State.retire
  repeat' first
    | (with_reducible assumption)
    | (with_reducible (first | apply State.bump_keeps | apply State.endResume_keeps | apply State.moveOn_keeps))
    | (dsimp only)

theorem State.endRemote_keeps {s0 : Base} {s : State} (c : Nat) (h : Keeps s0 s) :
    Keeps s0 (State.endRemote s c) := by
  unfold State.endRemote
  repeat' first
    | (with_reducible assumption)
    | (with_reducible (first | apply State.modCore_keeps))
    | (dsimp only)
    | rfl
    | (intro _ _ _ _)
    | (intro _ _ _)
    | (intro _ _)
    | (with_reducible refine Keeps.upd ?_ ?_ ?_ ?_)

theorem State.finish_keeps {s0 : Base} {s : State} (c : Nat) (h : Keeps s0 s) :
    Keeps s0 (State.finish s c) := by
  unfold State.finish
  repeat' first
    | (with_reducible assumption)
    | (with_reducible (first | apply State.endRemote_keeps | apply State.modCtl_keeps | apply State.retire_keeps))
    | (dsimp only)

theorem State.execute_keeps {s0 : Base} {s : State} (c : Nat) (w : Word) (sem : State → Res) (h : Keeps s0 s) (h_sem : ∀ (t : State), Keeps s0 t → Keeps s0 (sem t).st) :
    Keeps s0 (State.execute s c w sem) := by
  unfold State.execute
  repeat' first
    | (with_reducible assumption)
    | (with_reducible (first | apply State.endRemote_keeps | apply State.faultAt_keeps | apply State.finish_keeps | apply h_sem))
    | (dsimp only)
    | split
    | (refine Keeps.snd (by assumption) ?_)
    | (refine Keeps.fst (by assumption) ?_)
    | (refine Res.of_eq_ok (by assumption) ?_)
    | (refine Res.of_eq_fault (by assumption) ?_)
    | (refine Res.of_eq_wait (by assumption) ?_)

theorem State.transfer_keeps {s0 : Base} {s : State} (c : Nat) (d : Delay) (h : Keeps s0 s) :
    Keeps s0 (State.transfer s c d) := by
  unfold State.transfer
  repeat' first
    | (with_reducible assumption)
    | (with_reducible (first | apply State.bump_keeps | apply State.endRemote_keeps | apply State.endResume_keeps | apply State.modCtl_keeps))
    | (dsimp only)
    | rfl
    | (intro _ _ _ _)
    | (intro _ _ _)
    | (intro _ _)
    | (with_reducible refine Keeps.upd ?_ ?_ ?_ ?_)

theorem State.executeTransfer_keeps {s0 : Base} {s : State} (c : Nat) (sem : State → TransRes) (h : Keeps s0 s) (h_sem : ∀ (t : State), Keeps s0 t → Keeps s0 (sem t).st) :
    Keeps s0 (State.executeTransfer s c sem) := by
  unfold State.executeTransfer
  repeat' first
    | (with_reducible assumption)
    | (with_reducible (first | apply State.endRemote_keeps | apply State.faultAt_keeps | apply State.transfer_keeps | apply h_sem))
    | (dsimp only)
    | split
    | (refine Keeps.snd (by assumption) ?_)
    | (refine Keeps.fst (by assumption) ?_)
    | (refine TransRes.of_eq_go (by assumption) ?_)
    | (refine TransRes.of_eq_fault (by assumption) ?_)
    | (refine TransRes.of_eq_wait (by assumption) ?_)

end Sys2Proof.Machine
end

