-- ==== Sys2Proof/Laws/KeepsPlateParse.lean ====
section
/-!
SUPPORT. What the operations of Machine/PlateParse.lean leave in place.
-/

namespace Sys2Proof.Machine

open Sys2Proof

end Sys2Proof.Machine
end

