-- ==== Sys2Proof/Laws/KeepsRecords.lean ====
section
/-!
SUPPORT. What the operations of Machine/Records.lean leave in place.
-/

namespace Sys2Proof.Machine

open Sys2Proof

end Sys2Proof.Machine
end

