-- ==== Sys2Proof/Laws/KeepsScheduler.lean ====
section
/-!
SUPPORT. What the operations of Machine/Scheduler.lean leave in place.
-/

namespace Sys2Proof.Machine

open Sys2Proof

theorem State.modSq_keeps {s0 : Base} {s : State} (p : Nat) (q : Nat) (f : SQ → SQ) (h : Keeps s0 s) :
    Keeps s0 (State.modSq s p q f) := by
  unfold State.modSq
  repeat' first
    | (with_reducible assumption)
    | (with_reducible (first | apply State.modSch_keeps))
    | (dsimp only)
    | rfl
    | (intro _ _ _ _)
    | (intro _ _ _)
    | (intro _ _)
    | (with_reducible refine Keeps.upd ?_ ?_ ?_ ?_)

theorem State.modCq_keeps {s0 : Base} {s : State} (p : Nat) (c : Nat) (f : CQ → CQ) (h : Keeps s0 s) :
    Keeps s0 (State.modCq s p c f) := by
  unfold State.modCq
  repeat' first
    | (with_reducible assumption)
    | (with_reducible (first | apply State.modSch_keeps))
    | (dsimp only)
    | rfl
    | (intro _ _ _ _)
    | (intro _ _ _)
    | (intro _ _)
    | (with_reducible refine Keeps.upd ?_ ?_ ?_ ?_)

theorem State.modSess_keeps {s0 : Base} {s : State} (p : Nat) (f : PSess → PSess) (h : Keeps s0 s) :
    Keeps s0 (State.modSess s p f) := by
  unfold State.modSess
  repeat' first
    | (with_reducible assumption)
    | (dsimp only)
    | rfl
    | (with_reducible refine Keeps.upd ?_ ?_ ?_ ?_)

theorem State.noSession_keeps {s0 : Base} {s : State} (p : Nat) (off : Nat) (h : Keeps s0 s) :
    Keeps s0 (State.noSession s p off) := by
  unfold State.noSession
  repeat' first
    | (with_reducible assumption)
    | (with_reducible (first | apply State.incReg_keeps | apply State.logErr_keeps | apply State.schEvent_keeps))
    | (dsimp only)
    | rfl
    | (with_reducible refine Keeps.upd ?_ ?_ ?_ ?_)

theorem State.gated_keeps {s0 : Base} {s : State} (p : Nat) (off : Nat) (f : State → State) (h : Keeps s0 s) (h_f : ∀ (t : State), Keeps s0 t → Keeps s0 (f t)) :
    Keeps s0 (State.gated s p off f) := by
  unfold State.gated
  repeat' first
    | (with_reducible assumption)
    | (with_reducible (first | apply State.noSession_keeps | apply State.vfWrite_keeps | apply h_f))
    | (dsimp only)
    | split
    | (intro _ _ _ _)
    | (intro _ _ _)
    | (intro _ _)

theorem State.cqReserve_keeps {s0 : Base} {s : State} (p : Nat) (c : Nat) (h : Keeps s0 s) :
    Keeps s0 (State.cqReserve s p c) := by
  unfold State.cqReserve
  repeat' first
    | (with_reducible assumption)
    | (with_reducible (first | apply State.modCq_keeps))
    | (dsimp only)
    | rfl
    | (intro _ _ _ _)
    | (intro _ _ _)
    | (intro _ _)
    | (with_reducible refine Keeps.upd ?_ ?_ ?_ ?_)

theorem State.cqRelease_keeps {s0 : Base} {s : State} (p : Nat) (c : Nat) (run : Nat) (h : Keeps s0 s) :
    Keeps s0 (State.cqRelease s p c run) := by
  unfold State.cqRelease
  repeat' first
    | (with_reducible assumption)
    | (with_reducible (first | apply State.modCq_keeps))
    | (dsimp only)
    | split
    | rfl
    | (intro _ _ _ _)
    | (intro _ _ _)
    | (intro _ _)
    | (with_reducible refine Keeps.upd ?_ ?_ ?_ ?_)

theorem State.cqWrite_keeps {s0 : Base} {s : State} (p : Nat) (c : CQ) (a : Nat) (bs : List Byte) (h : Keeps s0 s) :
    Keeps s0 (State.cqWrite s p c a bs).2 := by
  unfold State.cqWrite
  repeat' first
    | (with_reducible assumption)
    | (with_reducible (first | apply State.emit_keeps | apply State.writePart_keeps))
    | (dsimp only)
    | split
    | (refine Keeps.snd (by assumption) ?_)
    | (refine Keeps.fst (by assumption) ?_)

theorem State.cqPost_keeps {s0 : Base} {s : State} (p : Nat) (c : Nat) (r : BitVec 256) (irq : Bool) (h : Keeps s0 s) :
    Keeps s0 (State.cqPost s p c r irq) := by
  unfold State.cqPost
  repeat' first
    | (with_reducible assumption)
    | (with_reducible (first | apply State.cqWrite_keeps | apply State.logErr_keeps | apply State.modCq_keeps | apply State.requestMsix_keeps))
    | (dsimp only)
    | split
    | rfl
    | (intro _ _ _ _)
    | (intro _ _ _)
    | (intro _ _)
    | (with_reducible refine Keeps.upd ?_ ?_ ?_ ?_)

theorem State.cqPostIn_keeps {s0 : Base} {s : State} (p : Nat) (c : Nat) (run : Nat) (r : BitVec 256) (irq : Bool) (h : Keeps s0 s) :
    Keeps s0 (State.cqPostIn s p c run r irq) := by
  unfold State.cqPostIn
  repeat' first
    | (with_reducible assumption)
    | (with_reducible (first | apply State.cqPost_keeps))
    | (dsimp only)
    | split

theorem State.qTail_keeps {s0 : Base} {s : State} (p : Nat) (q : Nat) (x : Word) (h : Keeps s0 s) :
    Keeps s0 (State.qTail s p q x) := by
  unfold State.qTail
  repeat' first
    | (with_reducible assumption)
    | (with_reducible (first | apply State.gated_keeps | apply State.modSq_keeps | apply State.schEvent_keeps))
    | (dsimp only)
    | split
    | rfl
    | (intro _ _ _ _)
    | (intro _ _ _)
    | (intro _ _)
    | (with_reducible refine Keeps.upd ?_ ?_ ?_ ?_)

theorem execQTailWrite_keeps {s0 : Base} {s : State} (p : Nat) (q : Nat) (x : Word) (h : Keeps s0 s) :
    KeepsOut s0 (execQTailWrite p q x s) := by
  unfold execQTailWrite
  repeat' first
    | (with_reducible assumption)
    | (with_reducible (first | apply State.qTail_keeps | apply keepsOut_ok))
    | (dsimp only)

theorem State.keepDone_keeps {s0 : Base} {s : State} (p : Nat) (q : Nat) (seq : Nat) (r : BitVec 256) (h : Keeps s0 s) :
    Keeps s0 (State.keepDone s p q seq r) := by
  unfold State.keepDone
  repeat' first
    | (with_reducible assumption)
    | (with_reducible (first | apply State.modSq_keeps))
    | (dsimp only)
    | split
    | rfl
    | (intro _ _ _ _)
    | (intro _ _ _)
    | (intro _ _)
    | (with_reducible refine Keeps.upd ?_ ?_ ?_ ?_)

theorem State.signal_keeps {s0 : Base} {s : State} (p : Nat) (r : Line) (status : Nat) (h : Keeps s0 s) :
    Keeps s0 (State.signal s p r status) := by
  unfold State.signal
  repeat' first
    | (with_reducible assumption)
    | (with_reducible (first | apply State.addMark_keeps))
    | (dsimp only)
    | split

theorem State.abortCopied_keeps {s0 : Base} {s : State} (p : Nat) (q : Nat) (c : Copied) (h : Keeps s0 s) :
    Keeps s0 (State.abortCopied s p q c) := by
  unfold State.abortCopied
  repeat' first
    | (with_reducible assumption)
    | (with_reducible (first | apply State.cqPost_keeps | apply State.cqReserve_keeps | apply State.keepDone_keeps | apply State.signal_keeps))
    | (dsimp only)
    | split
    | rfl
    | (refine Keeps.snd (by assumption) ?_)
    | (refine Keeps.fst (by assumption) ?_)
    | (with_reducible refine Keeps.upd ?_ ?_ ?_ ?_)

theorem State.disableQueue_keeps {s0 : Base} {s : State} (p : Nat) (q : Nat) (h : Keeps s0 s) :
    Keeps s0 (State.disableQueue s p q) := by
  unfold State.disableQueue
  repeat' first
    | (with_reducible assumption)
    | (with_reducible (first | apply Keeps.foldl | apply State.abortCopied_keeps | apply State.modSq_keeps))
    | (dsimp only)
    | rfl
    | (intro _ _ _ _)
    | (intro _ _ _)
    | (intro _ _)
    | (with_reducible refine Keeps.upd ?_ ?_ ?_ ?_)

theorem State.dropWaiters_keeps {s0 : Base} {s : State} (p : Nat) (q : Nat) (h : Keeps s0 s) :
    Keeps s0 (State.dropWaiters s p q) := by
  unfold State.dropWaiters
  repeat' first
    | (with_reducible assumption)
    | (with_reducible (first | apply Keeps.foldl | apply State.cqRelease_keeps | apply Keeps.foldl_snd | apply Keeps.foldl_fst))
    | (dsimp only)
    | (intro _ _ _ _)
    | (intro _ _ _)
    | (intro _ _)

theorem State.enableQueue_keeps {s0 : Base} {s : State} (p : Nat) (q : Nat) (h : Keeps s0 s) :
    Keeps s0 (State.enableQueue s p q) := by
  unfold State.enableQueue
  repeat' first
    | (with_reducible assumption)
    | (with_reducible (first | apply State.dropWaiters_keeps | apply State.modSq_keeps))
    | (dsimp only)
    | split
    | rfl
    | (intro _ _ _ _)
    | (intro _ _ _)
    | (intro _ _)
    | (with_reducible refine Keeps.upd ?_ ?_ ?_ ?_)

theorem State.qCtrl_keeps {s0 : Base} {s : State} (p : Nat) (q : Nat) (x : Word) (h : Keeps s0 s) :
    Keeps s0 (State.qCtrl s p q x) := by
  unfold State.qCtrl
  repeat' first
    | (with_reducible assumption)
    | (with_reducible (first | apply State.disableQueue_keeps | apply State.enableQueue_keeps | apply State.gated_keeps))
    | (dsimp only)
    | split
    | (intro _ _ _ _)
    | (intro _ _ _)
    | (intro _ _)

theorem execQCtrlWrite_keeps {s0 : Base} {s : State} (p : Nat) (q : Nat) (x : Word) (h : Keeps s0 s) :
    KeepsOut s0 (execQCtrlWrite p q x s) := by
  unfold execQCtrlWrite
  repeat' first
    | (with_reducible assumption)
    | (with_reducible (first | apply State.qCtrl_keeps | apply keepsOut_ok))
    | (dsimp only)

theorem State.enableCq_keeps {s0 : Base} {s : State} (p : Nat) (c : Nat) (h : Keeps s0 s) :
    Keeps s0 (State.enableCq s p c) := by
  unfold State.enableCq
  repeat' first
    | (with_reducible assumption)
    | (with_reducible (first | apply State.modCq_keeps))
    | (dsimp only)
    | split
    | rfl
    | (intro _ _ _ _)
    | (intro _ _ _)
    | (intro _ _)
    | (with_reducible refine Keeps.upd ?_ ?_ ?_ ?_)

theorem State.cqCtrl_keeps {s0 : Base} {s : State} (p : Nat) (c : Nat) (x : Word) (h : Keeps s0 s) :
    Keeps s0 (State.cqCtrl s p c x) := by
  unfold State.cqCtrl
  repeat' first
    | (with_reducible assumption)
    | (with_reducible (first | apply State.enableCq_keeps | apply State.gated_keeps | apply State.modCq_keeps))
    | (dsimp only)
    | split
    | rfl
    | (intro _ _ _ _)
    | (intro _ _ _)
    | (intro _ _)
    | (with_reducible refine Keeps.upd ?_ ?_ ?_ ?_)

theorem execCqCtrlWrite_keeps {s0 : Base} {s : State} (p : Nat) (c : Nat) (x : Word) (h : Keeps s0 s) :
    KeepsOut s0 (execCqCtrlWrite p c x s) := by
  unfold execCqCtrlWrite
  repeat' first
    | (with_reducible assumption)
    | (with_reducible (first | apply State.cqCtrl_keeps | apply keepsOut_ok))
    | (dsimp only)

theorem State.cqHead_keeps {s0 : Base} {s : State} (p : Nat) (c : Nat) (x : Word) (h : Keeps s0 s) :
    Keeps s0 (State.cqHead s p c x) := by
  unfold State.cqHead
  repeat' first
    | (with_reducible assumption)
    | (with_reducible (first | apply State.gated_keeps | apply State.modCq_keeps))
    | (dsimp only)
    | split
    | rfl
    | (intro _ _ _ _)
    | (intro _ _ _)
    | (intro _ _)
    | (with_reducible refine Keeps.upd ?_ ?_ ?_ ?_)

theorem execCqHeadWrite_keeps {s0 : Base} {s : State} (p : Nat) (c : Nat) (x : Word) (h : Keeps s0 s) :
    KeepsOut s0 (execCqHeadWrite p c x s) := by
  unfold execCqHeadWrite
  repeat' first
    | (with_reducible assumption)
    | (with_reducible (first | apply State.cqHead_keeps | apply keepsOut_ok))
    | (dsimp only)

theorem State.mkAdd_keeps {s0 : Base} {s : State} (p : Nat) (x : Word) (h : Keeps s0 s) :
    Keeps s0 (State.mkAdd s p x) := by
  unfold State.mkAdd
  repeat' first
    | (with_reducible assumption)
    | (with_reducible (first | apply State.addMark_keeps | apply State.gated_keeps))
    | (dsimp only)
    | (intro _ _ _ _)
    | (intro _ _ _)
    | (intro _ _)

theorem execMkAdd_keeps {s0 : Base} {s : State} (p : Nat) (x : Word) (h : Keeps s0 s) :
    KeepsOut s0 (execMkAdd p x s) := by
  unfold execMkAdd
  repeat' first
    | (with_reducible assumption)
    | (with_reducible (first | apply State.mkAdd_keeps | apply keepsOut_ok))
    | (dsimp only)

theorem State.fetchErr_keeps {s0 : Base} {s : State} (p : Nat) (q : Nat) (h : Keeps s0 s) :
    Keeps s0 (State.fetchErr s p q) := by
  unfold State.fetchErr
  repeat' first
    | (with_reducible assumption)
    | (with_reducible (first | apply State.logErr_keeps | apply State.modSq_keeps | apply State.schEvent_keeps))
    | (dsimp only)
    | rfl
    | (intro _ _ _ _)
    | (intro _ _ _)
    | (intro _ _)
    | (with_reducible refine Keeps.upd ?_ ?_ ?_ ?_)

theorem State.takeRecord_keeps {s0 : Base} {s : State} (p : Nat) (q : Nat) (img : Line) (h : Keeps s0 s) :
    Keeps s0 (State.takeRecord s p q img) := by
  unfold State.takeRecord
  repeat' first
    | (with_reducible assumption)
    | (with_reducible (first | apply State.modSq_keeps | apply State.schEvent_keeps))
    | (dsimp only)
    | split
    | rfl
    | (intro _ _ _ _)
    | (intro _ _ _)
    | (intro _ _)
    | (with_reducible refine Keeps.upd ?_ ?_ ?_ ?_)

theorem State.recordCopy_keeps {s0 : Base} {s : State} (p : Nat) (q : Nat) (host : Option Line) (h : Keeps s0 s) :
    Keeps s0 (State.recordCopy s p q host) := by
  unfold State.recordCopy
  repeat' first
    | (with_reducible assumption)
    | (with_reducible (first | apply State.fetchErr_keeps | apply State.readPart_keeps | apply State.takeRecord_keeps))
    | (dsimp only)
    | split
    | (refine Keeps.snd (by assumption) ?_)
    | (refine Keeps.fst (by assumption) ?_)

theorem execRecordCopy_keeps {s0 : Base} {s : State} (p : Nat) (q : Nat) (host : Option Line) (h : Keeps s0 s) :
    KeepsOut s0 (execRecordCopy p q host s) := by
  unfold execRecordCopy
  repeat' first
    | (with_reducible assumption)
    | (with_reducible (first | apply State.recordCopy_keeps | apply keepsOut_ok))
    | (dsimp only)

theorem State.raiseEv_keeps {s0 : Base} {s : State} (c : Nat) (bit : Nat) (h : Keeps s0 s) :
    Keeps s0 (State.raiseEv s c bit) := by
  unfold State.raiseEv
  repeat' first
    | (with_reducible assumption)
    | (with_reducible (first | apply State.modCtl_keeps))
    | (dsimp only)
    | rfl
    | (intro _ _ _ _)
    | (intro _ _ _)
    | (intro _ _)
    | (with_reducible refine Keeps.upd ?_ ?_ ?_ ?_)

theorem State.laneNoCq_keeps {s0 : Base} {s : State} (p : Nat) (core : Nat) (h : Keeps s0 s) :
    Keeps s0 (State.laneNoCq s p core) := by
  unfold State.laneNoCq
  repeat' first
    | (with_reducible assumption)
    | (with_reducible (first | apply State.logErr_keeps | apply State.schEvent_keeps))
    | (dsimp only)
    | rfl
    | (with_reducible refine Keeps.upd ?_ ?_ ?_ ?_)

theorem State.postWaiters_keeps {s0 : Base} {s : State} (p : Nat) (q : Nat) (seq : Nat) (r : BitVec 256) (h : Keeps s0 s) :
    Keeps s0 (State.postWaiters s p q seq r) := by
  unfold State.postWaiters
  repeat' first
    | (with_reducible assumption)
    | (with_reducible (first | apply Keeps.foldl | apply State.cqPostIn_keeps | apply State.modSq_keeps | apply Keeps.foldl_snd | apply Keeps.foldl_fst))
    | (dsimp only)
    | split
    | rfl
    | (refine Keeps.snd (by assumption) ?_)
    | (refine Keeps.fst (by assumption) ?_)
    | (intro _ _ _ _)
    | (intro _ _ _)
    | (intro _ _)
    | (with_reducible refine Keeps.upd ?_ ?_ ?_ ?_)

theorem State.postCmd_keeps {s0 : Base} {s : State} (p : Nat) (c : Cmd) (status : Nat) (r : BitVec 256) (h : Keeps s0 s) :
    Keeps s0 (State.postCmd s p c status r) := by
  unfold State.postCmd
  repeat' first
    | (with_reducible assumption)
    | (with_reducible (first | apply State.cqPostIn_keeps | apply State.cqRelease_keeps | apply State.laneNoCq_keeps))
    | (dsimp only)
    | split
    | (refine Keeps.snd (by assumption) ?_)
    | (refine Keeps.fst (by assumption) ?_)

theorem State.raiseCev_keeps {s0 : Base} {s : State} (c : Cmd) (h : Keeps s0 s) :
    Keeps s0 (State.raiseCev s c) := by
  unfold State.raiseCev
  repeat' first
    | (with_reducible assumption)
    | (with_reducible (first | apply Keeps.foldl | apply State.raiseEv_keeps))
    | (dsimp only)
    | split
    | (intro _ _ _ _)
    | (intro _ _ _)
    | (intro _ _)

theorem State.completeCmd_keeps {s0 : Base} {s : State} (p : Nat) (id : Nat) (status : Nat) (detail : Nat) (h : Keeps s0 s) :
    Keeps s0 (State.completeCmd s p id status detail) := by
  unfold State.completeCmd
  repeat' first
    | (with_reducible assumption)
    | (with_reducible (first | apply Keeps.foldl | apply State.incReg_keeps | apply State.keepDone_keeps | apply State.modPart_keeps | apply State.modSch_keeps | apply State.postCmd_keeps | apply State.postWaiters_keeps | apply State.raiseCev_keeps | apply State.recomputeEnd_keeps | apply State.schEvent_keeps | apply State.settleCarry_keeps | apply State.signal_keeps))
    | (dsimp only)
    | split
    | rfl
    | (refine Keeps.snd (by assumption) ?_)
    | (refine Keeps.fst (by assumption) ?_)
    | (intro _ _ _ _)
    | (intro _ _ _)
    | (intro _ _)
    | (with_reducible refine Keeps.upd ?_ ?_ ?_ ?_)

theorem State.commandComplete_keeps {s0 : Base} {s : State} (p : Nat) (id : Nat) (t : Nat) (h : Keeps s0 s) :
    Keeps s0 (State.commandComplete s p id t) := by
  unfold State.commandComplete
  repeat' first
    | (with_reducible assumption)
    | (with_reducible (first | apply State.advance_keeps | apply State.completeCmd_keeps))
    | (dsimp only)
    | split
    | (refine Keeps.snd (by assumption) ?_)
    | (refine Keeps.fst (by assumption) ?_)

theorem execCommandComplete_keeps {s0 : Base} {s : State} (p : Nat) (id : Nat) (t : Nat) (h : Keeps s0 s) :
    KeepsOut s0 (execCommandComplete p id t s) := by
  unfold execCommandComplete
  repeat' first
    | (with_reducible assumption)
    | (with_reducible (first | apply State.commandComplete_keeps | apply keepsOut_ok))
    | (dsimp only)

theorem State.popHead_keeps {s0 : Base} {s : State} (p : Nat) (q : Nat) (core : Nat) (h : Keeps s0 s) :
    Keeps s0 (State.popHead s p q core) := by
  unfold State.popHead
  repeat' first
    | (with_reducible assumption)
    | (with_reducible (first | apply State.modSch_keeps | apply State.modSq_keeps))
    | (dsimp only)
    | split
    | rfl
    | (intro _ _ _ _)
    | (intro _ _ _)
    | (intro _ _)
    | (with_reducible refine Keeps.upd ?_ ?_ ?_ ?_)

theorem State.flagHead_keeps {s0 : Base} {s : State} (p : Nat) (q : Nat) (core : Nat) (b : Bool) (h : Keeps s0 s) :
    Keeps s0 (State.flagHead s p q core b) := by
  unfold State.flagHead
  repeat' first
    | (with_reducible assumption)
    | (with_reducible (first | apply State.modSch_keeps | apply State.modSq_keeps))
    | (dsimp only)
    | split
    | rfl
    | (refine Keeps.snd (by assumption) ?_)
    | (refine Keeps.fst (by assumption) ?_)
    | (intro _ _ _ _)
    | (intro _ _ _)
    | (intro _ _)
    | (with_reducible refine Keeps.upd ?_ ?_ ?_ ?_)

theorem State.rejectHead_keeps {s0 : Base} {s : State} (p : Nat) (q : Nat) (core : Nat) (img : Line) (st : Nat) (d : Nat) (h : Keeps s0 s) :
    Keeps s0 (State.rejectHead s p q core img st d) := by
  unfold State.rejectHead
  repeat' first
    | (with_reducible assumption)
    | (with_reducible (first | apply State.cqPost_keeps | apply State.cqReserve_keeps | apply State.keepDone_keeps | apply State.laneNoCq_keeps | apply State.popHead_keeps))
    | (dsimp only)
    | split

theorem State.dupHead_keeps {s0 : Base} {s : State} (p : Nat) (q : Nat) (img : Line) (h : Keeps s0 s) :
    Keeps s0 (State.dupHead s p q img) := by
  unfold State.dupHead
  repeat' first
    | (with_reducible assumption)
    | (with_reducible (first | apply State.cqPost_keeps | apply State.cqReserve_keeps | apply State.modSq_keeps | apply State.popHead_keeps))
    | (dsimp only)
    | split
    | rfl
    | (refine Keeps.snd (by assumption) ?_)
    | (refine Keeps.fst (by assumption) ?_)
    | (intro _ _ _ _)
    | (intro _ _ _)
    | (intro _ _)
    | (with_reducible refine Keeps.upd ?_ ?_ ?_ ?_)

theorem State.settleAll_keeps {s0 : Base} {s : State} (p : Nat) (h : Keeps s0 s) :
    Keeps s0 (State.settleAll s p) := by
  unfold State.settleAll
  repeat' first
    | (with_reducible assumption)
    | (with_reducible (first | apply Keeps.foldl | apply State.settleCarry_keeps | apply Keeps.ident))
    | (dsimp only)
    | (intro _ _ _ _)
    | (intro _ _ _)
    | (intro _ _)

theorem State.admitRecord_keeps {s0 : Base} {s : State} (p : Nat) (q : Nat) (core : Nat) (r : Line) (units : List Nat) (h : Keeps s0 s) :
    Keeps s0 (State.admitRecord s p q core r units) := by
  unfold State.admitRecord
  repeat' first
    | (with_reducible assumption)
    | (with_reducible (first | apply Keeps.foldl | apply State.cqReserve_keeps | apply State.modPart_keeps | apply State.modSch_keeps | apply State.popHead_keeps | apply Keeps.ident))
    | (dsimp only)
    | split
    | rfl
    | (intro _ _ _ _)
    | (intro _ _ _)
    | (intro _ _)
    | (with_reducible refine Keeps.upd ?_ ?_ ?_ ?_)

theorem State.tryAdmit_keeps {s0 : Base} {s : State} (p : Nat) (q : Nat) (core : Nat) (r : Line) (h : Keeps s0 s) :
    Keeps s0 (State.tryAdmit s p q core r) := by
  unfold State.tryAdmit
  repeat' first
    | (with_reducible assumption)
    | (with_reducible (first | apply State.admitRecord_keeps | apply State.flagHead_keeps | apply State.settleAll_keeps))
    | (dsimp only)
    | split

theorem State.commandAdmit_keeps {s0 : Base} {s : State} (p : Nat) (q : Nat) (core : Nat) (t : Nat) (h : Keeps s0 s) :
    Keeps s0 (State.commandAdmit s p q core t) := by
  unfold State.commandAdmit
  repeat' first
    | (with_reducible assumption)
    | (with_reducible (first | apply State.advance_keeps | apply State.dupHead_keeps | apply State.rejectHead_keeps | apply State.tryAdmit_keeps))
    | (dsimp only)
    | split
    | (refine Keeps.snd (by assumption) ?_)
    | (refine Keeps.fst (by assumption) ?_)

theorem execCommandAdmit_keeps {s0 : Base} {s : State} (p : Nat) (q : Nat) (core : Nat) (t : Nat) (h : Keeps s0 s) :
    KeepsOut s0 (execCommandAdmit p q core t s) := by
  unfold execCommandAdmit
  repeat' first
    | (with_reducible assumption)
    | (with_reducible (first | apply State.commandAdmit_keeps | apply keepsOut_ok))
    | (dsimp only)

theorem State.finishCmd_keeps {s0 : Base} {s : State} (p : Nat) (id : Nat) (moved : Nat) (status : Nat) (detail : Nat) (h : Keeps s0 s) :
    Keeps s0 (State.finishCmd s p id moved status detail) := by
  unfold State.finishCmd
  repeat' first
    | (with_reducible assumption)
    | (with_reducible (first | apply State.modCmd_keeps))
    | (dsimp only)
    | rfl
    | (intro _ _ _ _)
    | (intro _ _ _)
    | (intro _ _)
    | (with_reducible refine Keeps.upd ?_ ?_ ?_ ?_)

end Sys2Proof.Machine
end

