-- ==== Sys2Proof/Laws/KeepsMemCmds.lean ====
section
/-!
SUPPORT. What the operations of Machine/MemCmds.lean leave in place.
-/

namespace Sys2Proof.Machine

open Sys2Proof

theorem State.flipUnit_keeps {s0 : Base} {s : State} (u : Nat) (f : Nat) (h : Keeps s0 s) :
    Keeps s0 (State.flipUnit s u f) := by
  unfold State.flipUnit
  refine Keeps.setMem h (fun w => ?_)
  rw [Mem.wf_iff] at w ⊢
  dsimp only
  exact ⟨w.1, w.2.1, NatMap.wf_upd _ _ w.2.2.1, w.2.2.2⟩

theorem State.onDie_keeps {s0 : Base} {s : State} (ch : Nat) (die : Nat) (h : Keeps s0 s) :
    Keeps s0 (State.onDie s ch die) := by
  unfold State.onDie
  repeat' first
    | (with_reducible assumption)
    | (with_reducible (first | apply State.incReg_keeps | apply State.logErr_keeps | apply State.stkEvent_keeps))
    | (dsimp only)
    | rfl
    | (with_reducible refine Keeps.upd ?_ ?_ ?_ ?_)

theorem execChannelRead_keeps {s0 : Base} {s : State} (ch : Nat) (l : Nat) (flip : Nat) (die : Option Nat) (req : Nat) (h : Keeps s0 s) :
    KeepsOut s0 (execChannelRead ch l flip die req s) := by
  unfold execChannelRead
  repeat' first
    | (with_reducible assumption)
    | (with_reducible (first | apply State.flipUnit_keeps | apply State.onDie_keeps | apply State.readDramLine_keeps | apply keepsOut_ok))
    | (dsimp only)
    | split
    | (refine Keeps.snd (by assumption) ?_)
    | (refine Keeps.fst (by assumption) ?_)

theorem execChannelWrite_keeps {s0 : Base} {s : State} (ch : Nat) (l : Nat) (data : Line) (h : Keeps s0 s) :
    KeepsOut s0 (execChannelWrite ch l data s) := by
  unfold execChannelWrite
  repeat' first
    | (with_reducible assumption)
    | (with_reducible (first | apply State.fullWrite_keeps | apply keepsOut_ok))
    | (dsimp only)
    | split

theorem execPartialWrite_keeps {s0 : Base} {s : State} (ch : Nat) (l : Nat) (data : Line) (valid : BitVec 64) (core : Option Nat) (h : Keeps s0 s) :
    KeepsOut s0 (execPartialWrite ch l data valid core s) := by
  unfold execPartialWrite
  repeat' first
    | (with_reducible assumption)
    | (with_reducible (first | apply State.noteChan_keeps | apply State.partialWrite_keeps | apply keepsOut_ok))
    | (dsimp only)
    | split
    | (refine Keeps.snd (by assumption) ?_)
    | (refine Keeps.fst (by assumption) ?_)
    | (intro _ _ _ _)
    | (intro _ _ _)
    | (intro _ _)

theorem execWcAgeFlush_keeps {s0 : Base} {s : State} (ch : Nat) (t : Nat) (h : Keeps s0 s) :
    KeepsOut s0 (execWcAgeFlush ch t s) := by
  unfold execWcAgeFlush
  repeat' first
    | (with_reducible assumption)
    | (with_reducible (first | apply State.advance_keeps | apply State.flushWhere_keeps | apply keepsOut_ok))
    | (dsimp only)
    | (intro _ _ _ _)
    | (intro _ _ _)
    | (intro _ _)

theorem execWcMarker_keeps {s0 : Base} {s : State} (c : Nat) (ch : Nat) (h : Keeps s0 s) :
    KeepsOut s0 (execWcMarker c ch s) := by
  unfold execWcMarker
  repeat' first
    | (with_reducible assumption)
    | (with_reducible (first | apply State.flushChan_keeps | apply keepsOut_ok))
    | (dsimp only)
    | split

theorem execSramAccess_keeps {s0 : Base} {s : State} (g : Nat) (kind : Nat) (i : Nat) (flip : Nat) (off : Nat) (data : List Byte) (h : Keeps s0 s) :
    KeepsOut s0 (execSramAccess g kind i flip off data s) := by
  unfold execSramAccess
  repeat' first
    | (with_reducible assumption)
    | (with_reducible (first | apply State.flipUnit_keeps | apply State.readWord_keeps | apply State.writeWord_keeps | apply keepsOut_ok))
    | (dsimp only)
    | split

theorem execRefresh_keeps {s0 : Base} {s : State} (t : Nat) (h : Keeps s0 s) :
    KeepsOut s0 (execRefresh t s) := by
  unfold execRefresh
  repeat' first
    | (with_reducible assumption)
    | (with_reducible (first | apply State.advance_keeps | apply keepsOut_ok))
    | (dsimp only)

theorem State.stopTileCmds_keeps {s0 : Base} {s : State} (t : Nat) (h : Keeps s0 s) :
    Keeps s0 (State.stopTileCmds s t) := by
  unfold State.stopTileCmds
  repeat' first
    | (with_reducible assumption)
    | (dsimp only)
    | split
    | rfl
    | (refine Keeps.snd (by assumption) ?_)
    | (refine Keeps.fst (by assumption) ?_)
    | (intro _ _ _ _)
    | (intro _ _ _)
    | (intro _ _)
    | (with_reducible refine Keeps.upd ?_ ?_ ?_ ?_)

theorem State.haltRecords_keeps {s0 : Base} {s : State} (t : Nat) (code : Nat) (h : Keeps s0 s) :
    Keeps s0 (State.haltRecords s t code) := by
  unfold State.haltRecords
  repeat' first
    | (with_reducible assumption)
    | (with_reducible (first | apply Keeps.foldl | apply State.logErr_keeps))
    | (dsimp only)
    | split
    | rfl
    | (refine Keeps.snd (by assumption) ?_)
    | (refine Keeps.fst (by assumption) ?_)
    | (intro _ _ _ _)
    | (intro _ _ _)
    | (intro _ _)
    | (with_reducible refine Keeps.upd ?_ ?_ ?_ ?_)

theorem State.modAgit_keeps {s0 : Base} {s : State} (ch : Nat) (f : Agit → Agit) (h : Keeps s0 s) :
    Keeps s0 (State.modAgit s ch f) := by
  unfold State.modAgit
  repeat' first
    | (with_reducible assumption)
    | (dsimp only)
    | rfl
    | (with_reducible refine Keeps.upd ?_ ?_ ?_ ?_)

theorem State.haltStack_keeps {s0 : Base} {s : State} (t : Nat) (code : Nat) (h : Keeps s0 s) :
    Keeps s0 (State.haltStack s t code) := by
  unfold State.haltStack
  try generalize List.range 32 = l32
  repeat' first
    | (with_reducible assumption)
    | (with_reducible (first | apply Keeps.foldl | apply State.flushChan_keeps | apply State.haltRecords_keeps | apply State.modAgit_keeps | apply State.modStack_keeps | apply State.stkEvent_keeps | apply State.stopTileCmds_keeps))
    | (dsimp only)
    | split
    | rfl
    | (intro _ _ _ _)
    | (intro _ _ _)
    | (intro _ _)
    | (with_reducible refine Keeps.upd ?_ ?_ ?_ ?_)

theorem State.trip_keeps {s0 : Base} {s : State} (unit : Nat) (h : Keeps s0 s) :
    Keeps s0 (State.trip s unit) := by
  unfold State.trip
  repeat' first
    | (with_reducible assumption)
    | (with_reducible (first | apply State.logErr_keeps))
    | (dsimp only)
    | split
    | rfl
    | (with_reducible refine Keeps.upd ?_ ?_ ?_ ?_)

theorem State.judgeWarning_keeps {s0 : Base} {s : State} (temp : Int) (h : Keeps s0 s) :
    Keeps s0 (State.judgeWarning s temp) := by
  unfold State.judgeWarning
  repeat' first
    | (with_reducible assumption)
    | (dsimp only)
    | split
    | rfl
    | (with_reducible refine Keeps.upd ?_ ?_ ?_ ?_)

theorem State.thermal_keeps {s0 : Base} {s : State} (t : Nat) (temp : Int) (h : Keeps s0 s) :
    Keeps s0 (State.thermal s t temp) := by
  unfold State.thermal
  repeat' first
    | (with_reducible assumption)
    | (with_reducible (first | apply State.haltStack_keeps | apply State.judgeWarning_keeps | apply State.modStack_keeps | apply State.trip_keeps))
    | (dsimp only)
    | split
    | rfl
    | (intro _ _ _ _)
    | (intro _ _ _)
    | (intro _ _)
    | (with_reducible refine Keeps.upd ?_ ?_ ?_ ?_)

theorem execThermalReading_keeps {s0 : Base} {s : State} (tile : Nat) (temp : Int) (t : Nat) (h : Keeps s0 s) :
    KeepsOut s0 (execThermalReading tile temp t s) := by
  unfold execThermalReading
  repeat' first
    | (with_reducible assumption)
    | (with_reducible (first | apply State.advance_keeps | apply State.thermal_keeps | apply keepsOut_ok))
    | (dsimp only)

theorem execSensorSilence_keeps {s0 : Base} {s : State} (tile : Nat) (t : Nat) (h : Keeps s0 s) :
    KeepsOut s0 (execSensorSilence tile t s) := by
  unfold execSensorSilence
  repeat' first
    | (with_reducible assumption)
    | (with_reducible (first | apply State.advance_keeps | apply State.haltStack_keeps | apply keepsOut_ok))
    | (dsimp only)
    | split
    | (intro _ _ _ _)
    | (intro _ _ _)
    | (intro _ _)

theorem execWarningClear_keeps {s0 : Base} {s : State} (t : Nat) (h : Keeps s0 s) :
    KeepsOut s0 (execWarningClear t s) := by
  unfold execWarningClear
  repeat' first
    | (with_reducible assumption)
    | (with_reducible (first | apply State.advance_keeps | apply keepsOut_ok))
    | (dsimp only)
    | split
    | rfl
    | (with_reducible refine Keeps.upd ?_ ?_ ?_ ?_)

theorem State.junction_keeps {s0 : Base} {s : State} (die : Nat) (temp : Int) (h : Keeps s0 s) :
    Keeps s0 (State.junction s die temp) := by
  unfold State.junction
  repeat' first
    | (with_reducible assumption)
    | (with_reducible (first | apply State.trip_keeps))
    | (dsimp only)
    | split
    | rfl
    | (with_reducible refine Keeps.upd ?_ ?_ ?_ ?_)

theorem execIodieJunctionReading_keeps {s0 : Base} {s : State} (die : Nat) (temp : Int) (t : Nat) (h : Keeps s0 s) :
    KeepsOut s0 (execIodieJunctionReading die temp t s) := by
  unfold execIodieJunctionReading
  repeat' first
    | (with_reducible assumption)
    | (with_reducible (first | apply State.advance_keeps | apply State.junction_keeps | apply keepsOut_ok))
    | (dsimp only)

theorem State.throttleStack_keeps {s0 : Base} {s : State} (t : Nat) (h : Keeps s0 s) :
    Keeps s0 (State.throttleStack s t) := by
  unfold State.throttleStack
  repeat' first
    | (with_reducible assumption)
    | (with_reducible (first | apply Keeps.foldl | apply State.logErr_keeps | apply State.modStack_keeps | apply State.stkEvent_keeps))
    | (dsimp only)
    | split
    | rfl
    | (refine Keeps.snd (by assumption) ?_)
    | (refine Keeps.fst (by assumption) ?_)
    | (intro _ _ _ _)
    | (intro _ _ _)
    | (intro _ _)
    | (with_reducible refine Keeps.upd ?_ ?_ ?_ ?_)

theorem State.applyThrottle_keeps {s0 : Base} {s : State}  (h : Keeps s0 s) :
    Keeps s0 (State.applyThrottle s) := by
  unfold State.applyThrottle
  try generalize List.range 16 = l16
  repeat' first
    | (with_reducible assumption)
    | (with_reducible (first | apply Keeps.foldl | apply State.modPart_keeps | apply State.throttleStack_keeps))
    | (dsimp only)
    | split
    | rfl
    | (refine Keeps.snd (by assumption) ?_)
    | (refine Keeps.fst (by assumption) ?_)
    | (intro _ _ _ _)
    | (intro _ _ _)
    | (intro _ _)
    | (with_reducible refine Keeps.upd ?_ ?_ ?_ ?_)

end Sys2Proof.Machine
end

