-- ==== Sys2Proof/Laws/KeepsAgitator.lean ====
section
/-!
SUPPORT. What the operations of Machine/Agitator.lean leave in place.
-/

namespace Sys2Proof.Machine

open Sys2Proof

theorem State.agCmd_keeps {s0 : Base} {s : State} (ch : Nat) (f : State → State) (h : Keeps s0 s) (h_f : ∀ (t : State), Keeps s0 t → Keeps s0 (f t)) :
    Keeps s0 (State.agCmd s ch f) := by
  unfold State.agCmd
  repeat' first
    | (with_reducible assumption)
    | (with_reducible (first | apply State.pfWrite_keeps | apply h_f))
    | (dsimp only)
    | split
    | (intro _ _ _ _)
    | (intro _ _ _)
    | (intro _ _)

theorem State.agStart_keeps {s0 : Base} {s : State} (ch : Nat) (h : Keeps s0 s) :
    Keeps s0 (State.agStart s ch) := by
  unfold State.agStart
  repeat' first
    | (with_reducible assumption)
    | (with_reducible (first | apply State.modAgit_keeps))
    | (dsimp only)
    | split
    | rfl
    | (intro _ _ _ _)
    | (intro _ _ _)
    | (intro _ _)
    | (with_reducible refine Keeps.upd ?_ ?_ ?_ ?_)

theorem execAgStart_keeps {s0 : Base} {s : State} (ch : Nat) (h : Keeps s0 s) :
    KeepsOut s0 (execAgStart ch s) := by
  unfold execAgStart
  repeat' first
    | (with_reducible assumption)
    | (with_reducible (first | apply State.agCmd_keeps | apply State.agStart_keeps | apply keepsOut_ok))
    | (dsimp only)
    | (intro _ _ _ _)
    | (intro _ _ _)
    | (intro _ _)

theorem State.agStop_keeps {s0 : Base} {s : State} (ch : Nat) (h : Keeps s0 s) :
    Keeps s0 (State.agStop s ch) := by
  unfold State.agStop
  repeat' first
    | (with_reducible assumption)
    | (with_reducible (first | apply State.modAgit_keeps))
    | (dsimp only)
    | rfl
    | (intro _ _ _ _)
    | (intro _ _ _)
    | (intro _ _)
    | (with_reducible refine Keeps.upd ?_ ?_ ?_ ?_)

theorem execAgStop_keeps {s0 : Base} {s : State} (ch : Nat) (h : Keeps s0 s) :
    KeepsOut s0 (execAgStop ch s) := by
  unfold execAgStop
  repeat' first
    | (with_reducible assumption)
    | (with_reducible (first | apply State.agCmd_keeps | apply State.agStop_keeps | apply keepsOut_ok))
    | (dsimp only)
    | (intro _ _ _ _)
    | (intro _ _ _)
    | (intro _ _)

theorem execAgClear_keeps {s0 : Base} {s : State} (ch : Nat) (h : Keeps s0 s) :
    KeepsOut s0 (execAgClear ch s) := by
  unfold execAgClear
  repeat' first
    | (with_reducible assumption)
    | (with_reducible (first | apply State.agCmd_keeps | apply State.modAgit_keeps | apply keepsOut_ok))
    | (dsimp only)
    | (intro _ _ _ _)
    | (intro _ _ _)
    | (intro _ _)

theorem State.atpCtrl_keeps {s0 : Base} {s : State} (ch : Nat) (x : Word) (h : Keeps s0 s) :
    Keeps s0 (State.atpCtrl s ch x) := by
  unfold State.atpCtrl
  repeat' first
    | (with_reducible assumption)
    | (with_reducible (first | apply State.modAgit_keeps))
    | (dsimp only)
    | split
    | rfl
    | (intro _ _ _ _)
    | (intro _ _ _)
    | (intro _ _)
    | (with_reducible refine Keeps.upd ?_ ?_ ?_ ?_)

theorem execAtpCtrlWrite_keeps {s0 : Base} {s : State} (ch : Nat) (x : Word) (h : Keeps s0 s) :
    KeepsOut s0 (execAtpCtrlWrite ch x s) := by
  unfold execAtpCtrlWrite
  repeat' first
    | (with_reducible assumption)
    | (with_reducible (first | apply State.atpCtrl_keeps | apply State.pfWrite_keeps | apply keepsOut_ok))
    | (dsimp only)
    | (intro _ _ _ _)
    | (intro _ _ _)
    | (intro _ _)

theorem State.atpEvent_keeps {s0 : Base} {s : State} (ch : Nat) (bit : Nat) (h : Keeps s0 s) :
    Keeps s0 (State.atpEvent s ch bit) := by
  unfold State.atpEvent
  repeat' first
    | (with_reducible assumption)
    | (with_reducible (first | apply State.raise_keeps))
    | (dsimp only)

theorem State.agRead_keeps {s0 : Base} {s : State} (ch : Nat) (l : Nat) (pass : Nat) (i : Nat) (raw : Bool) (h : Keeps s0 s) :
    Keeps s0 (State.agRead s ch l pass i raw).2 := by
  unfold State.agRead
  repeat' first
    | (with_reducible assumption)
    | (with_reducible (first | apply State.incReg_keeps | apply State.rawWrite_keeps | apply State.setUnit_keeps))
    | (dsimp only)
    | split
    | rfl
    | (refine Keeps.snd (by assumption) ?_)
    | (refine Keeps.fst (by assumption) ?_)
    | (intro _ _ _ _)
    | (intro _ _ _)
    | (intro _ _)
    | (with_reducible refine Keeps.upd ?_ ?_ ?_ ?_)

theorem State.agWrite_keeps {s0 : Base} {s : State} (ch : Nat) (l : Nat) (d : Line) (parts : Bool) (h : Keeps s0 s) :
    Keeps s0 (State.agWrite s ch l d parts) := by
  unfold State.agWrite
  try generalize List.range 8 = l8
  repeat' first
    | (with_reducible assumption)
    | (with_reducible (first | apply Keeps.foldl | apply State.fullWrite_keeps | apply State.partialWrite_keeps))
    | (dsimp only)
    | split
    | (intro _ _ _ _)
    | (intro _ _ _)
    | (intro _ _)

theorem State.agIssue_keeps {s0 : Base} {s : State} (ch : Nat) (h : Keeps s0 s) :
    Keeps s0 (State.agIssue s ch) := by
  unfold State.agIssue
  repeat' first
    | (with_reducible assumption)
    | (with_reducible (first | apply State.agRead_keeps | apply State.agWrite_keeps | apply State.modAgit_keeps))
    | (dsimp only)
    | split
    | rfl
    | (refine Keeps.snd (by assumption) ?_)
    | (refine Keeps.fst (by assumption) ?_)
    | (intro _ _ _ _)
    | (intro _ _ _)
    | (intro _ _)
    | (with_reducible refine Keeps.upd ?_ ?_ ?_ ?_)

theorem execAgitatorIssue_keeps {s0 : Base} {s : State} (ch : Nat) (t : Nat) (h : Keeps s0 s) :
    KeepsOut s0 (execAgitatorIssue ch t s) := by
  unfold execAgitatorIssue
  repeat' first
    | (with_reducible assumption)
    | (with_reducible (first | apply State.advance_keeps | apply State.agIssue_keeps | apply keepsOut_ok))
    | (dsimp only)

theorem State.proofCheck_keeps {s0 : Base} {s : State} (ch : Nat) (h : Keeps s0 s) :
    Keeps s0 (State.proofCheck s ch) := by
  unfold State.proofCheck
  repeat' first
    | (with_reducible assumption)
    | (with_reducible (first | apply State.atpEvent_keeps | apply State.modAgit_keeps))
    | (dsimp only)
    | split
    | rfl
    | (refine Keeps.snd (by assumption) ?_)
    | (refine Keeps.fst (by assumption) ?_)
    | (intro _ _ _ _)
    | (intro _ _ _)
    | (intro _ _)
    | (with_reducible refine Keeps.upd ?_ ?_ ?_ ?_)

theorem execProofCheck_keeps {s0 : Base} {s : State} (ch : Nat) (h : Keeps s0 s) :
    KeepsOut s0 (execProofCheck ch s) := by
  unfold execProofCheck
  repeat' first
    | (with_reducible assumption)
    | (with_reducible (first | apply State.proofCheck_keeps | apply keepsOut_ok))
    | (dsimp only)

theorem State.agEnd_keeps {s0 : Base} {s : State} (ch : Nat) (h : Keeps s0 s) :
    Keeps s0 (State.agEnd s ch) := by
  unfold State.agEnd
  repeat' first
    | (with_reducible assumption)
    | (with_reducible (first | apply State.atpEvent_keeps | apply State.modAgit_keeps))
    | (dsimp only)
    | split
    | rfl
    | (refine Keeps.snd (by assumption) ?_)
    | (refine Keeps.fst (by assumption) ?_)
    | (intro _ _ _ _)
    | (intro _ _ _)
    | (intro _ _)
    | (with_reducible refine Keeps.upd ?_ ?_ ?_ ?_)

theorem execAgitatorRunEnd_keeps {s0 : Base} {s : State} (ch : Nat) (t : Nat) (h : Keeps s0 s) :
    KeepsOut s0 (execAgitatorRunEnd ch t s) := by
  unfold execAgitatorRunEnd
  repeat' first
    | (with_reducible assumption)
    | (with_reducible (first | apply State.advance_keeps | apply State.agEnd_keeps | apply keepsOut_ok))
    | (dsimp only)

theorem State.agOwnership_keeps {s0 : Base} {s : State}  (h : Keeps s0 s) :
    Keeps s0 (State.agOwnership s) := by
  unfold State.agOwnership
  repeat' first
    | (with_reducible assumption)
    | (dsimp only)
    | split
    | rfl
    | (intro _ _ _ _)
    | (intro _ _ _)
    | (intro _ _)
    | (with_reducible refine Keeps.upd ?_ ?_ ?_ ?_)

end Sys2Proof.Machine
end

