-- ==== Sys2Proof/Laws/KeepsAssent.lean ====
section
/-!
SUPPORT. What the operations of Machine/Assent.lean leave in place.
-/

namespace Sys2Proof.Machine

open Sys2Proof

theorem State.writeArchive_keeps {s0 : Base} {s : State} {okay : Bool} {f : Archive → Archive} (h : Keeps s0 s) {u : State} (e : State.writeArchive s okay f = some u) :
    Keeps s0 u := by
  unfold State.writeArchive at e
  revert e
  repeat' first
    | (with_reducible assumption)
    | (rintro ⟨⟩)
    | (simp only [Option.map_eq_some_iff]; rintro ⟨_, _, rfl⟩)
    | (dsimp only)
    | split
    | rfl
    | (intro _ _ _ _)
    | (intro _ _ _)
    | (intro _ _)
    | (with_reducible refine Keeps.upd ?_ ?_ ?_ ?_)

theorem State.keepArchive_keeps {s0 : Base} {s : State} (f : Archive → Archive) (h : Keeps s0 s) :
    Keeps s0 (State.keepArchive s f) := by
  unfold State.keepArchive
  repeat' first
    | (with_reducible assumption)
    | (with_reducible (first | apply Keeps.getD))
    | (refine State.writeArchive_keeps ?_ (by assumption))
    | (dsimp only)
    | (intro _ _ _ _)
    | (intro _ _ _)
    | (intro _ _)

theorem State.sesEvent_keeps {s0 : Base} {s : State} (bit : Nat) (h : Keeps s0 s) :
    Keeps s0 (State.sesEvent s bit) := by
  unfold State.sesEvent
  repeat' first
    | (with_reducible assumption)
    | (with_reducible (first | apply State.raise_keeps))
    | (dsimp only)

theorem State.setAssent_keeps {s0 : Base} {s : State} (n : Nat) (a : Option Assent) (h : Keeps s0 s) :
    Keeps s0 (State.setAssent s n a) := by
  unfold State.setAssent
  repeat' first
    | (with_reducible assumption)
    | (dsimp only)
    | rfl
    | (with_reducible refine Keeps.upd ?_ ?_ ?_ ?_)

theorem State.expireAssents_keeps {s0 : Base} {s : State}  (h : Keeps s0 s) :
    Keeps s0 (State.expireAssents s) := by
  unfold State.expireAssents
  try generalize List.range 8 = l8
  repeat' first
    | (with_reducible assumption)
    | (with_reducible (first | apply Keeps.foldl | apply State.sesEvent_keeps | apply State.setAssent_keeps))
    | (dsimp only)
    | split
    | (refine Keeps.snd (by assumption) ?_)
    | (refine Keeps.fst (by assumption) ?_)
    | (intro _ _ _ _)
    | (intro _ _ _)
    | (intro _ _)

theorem State.useAssent_keeps {s0 : Base} {s : State} (n : Nat) (h : Keeps s0 s) :
    Keeps s0 (State.useAssent s n) := by
  unfold State.useAssent
  repeat' first
    | (with_reducible assumption)
    | (with_reducible (first | apply State.sesEvent_keeps | apply State.setAssent_keeps))
    | (dsimp only)

theorem State.reserveAssent_keeps {s0 : Base} {s : State} (n : Nat) (h : Keeps s0 s) :
    Keeps s0 (State.reserveAssent s n) := by
  unfold State.reserveAssent
  repeat' first
    | (with_reducible assumption)
    | (with_reducible (first | apply State.setAssent_keeps))
    | (dsimp only)
    | split
    | rfl
    | (refine Keeps.snd (by assumption) ?_)
    | (refine Keeps.fst (by assumption) ?_)
    | (with_reducible refine Keeps.upd ?_ ?_ ?_ ?_)

theorem State.returnAssent_keeps {s0 : Base} {s : State} (n : Option Nat) (h : Keeps s0 s) :
    Keeps s0 (State.returnAssent s n) := by
  unfold State.returnAssent
  repeat' first
    | (with_reducible assumption)
    | (with_reducible (first | apply State.sesEvent_keeps | apply State.setAssent_keeps))
    | (dsimp only)
    | split
    | rfl
    | (refine Keeps.snd (by assumption) ?_)
    | (refine Keeps.fst (by assumption) ?_)
    | (with_reducible refine Keeps.upd ?_ ?_ ?_ ?_)

theorem State.giveAssent_keeps {s0 : Base} {s : State} (owner : Bool) (kind : Nat) (d : BitVec 384) (h : Keeps s0 s) :
    Keeps s0 (State.giveAssent s owner kind d).2 := by
  unfold State.giveAssent
  try generalize List.range 8 = l8
  repeat' first
    | (with_reducible assumption)
    | (with_reducible (first | apply State.expireAssents_keeps | apply State.sesEvent_keeps | apply State.setAssent_keeps))
    | (dsimp only)
    | split
    | rfl
    | (refine Keeps.snd (by assumption) ?_)
    | (refine Keeps.fst (by assumption) ?_)
    | (intro _ _ _ _)
    | (intro _ _ _)
    | (intro _ _)
    | (with_reducible refine Keeps.upd ?_ ?_ ?_ ?_)

theorem execAssentExpiry_keeps {s0 : Base} {s : State} (t : Nat) (h : Keeps s0 s) :
    KeepsOut s0 (execAssentExpiry t s) := by
  unfold execAssentExpiry
  repeat' first
    | (with_reducible assumption)
    | (with_reducible (first | apply State.advance_keeps | apply State.expireAssents_keeps | apply keepsOut_ok))
    | (dsimp only)

end Sys2Proof.Machine
end

