-- ==== Sys2Proof/Laws/KeepsFlitOps.lean ====
section
/-!
SUPPORT. What the operations of Machine/FlitOps.lean leave in place.
-/

namespace Sys2Proof.Machine

open Sys2Proof

theorem State.rxTake_keeps {s0 : Base} {s : State} (q : Nat) (key : Nat) (h : Keeps s0 s) :
    Keeps s0 (State.rxTake s q key) := by
  unfold State.rxTake
  repeat' first
    | (with_reducible assumption)
    | (with_reducible (first | apply State.modPort_keeps))
    | (dsimp only)
    | split
    | rfl
    | (intro _ _ _ _)
    | (intro _ _ _)
    | (intro _ _)
    | (with_reducible refine Keeps.upd ?_ ?_ ?_ ?_)

theorem State.freeSlot_keeps {s0 : Base} {s : State} (x : Option RxSlot) (h : Keeps s0 s) :
    Keeps s0 (State.freeSlot s x) := by
  unfold State.freeSlot
  repeat' first
    | (with_reducible assumption)
    | (with_reducible (first | apply State.modPort_keeps))
    | (dsimp only)
    | split
    | rfl
    | (refine Keeps.snd (by assumption) ?_)
    | (refine Keeps.fst (by assumption) ?_)
    | (intro _ _ _ _)
    | (intro _ _ _)
    | (intro _ _)
    | (with_reducible refine Keeps.upd ?_ ?_ ?_ ?_)

theorem State.sendFlit_keeps {s0 : Base} {s : State} (q : Nat) (kind : Nat) (seq : Nat) (tag : Nat) (nmsg : Nat) (payload : List Byte) (h : Keeps s0 s) :
    Keeps s0 (State.sendFlit s q kind seq tag nmsg payload) := by
  unfold State.sendFlit
  repeat' first
    | (with_reducible assumption)
    | (with_reducible (first | apply State.emit_keeps | apply State.modPort_keeps))
    | (dsimp only)
    | split
    | (refine Keeps.snd (by assumption) ?_)
    | (refine Keeps.fst (by assumption) ?_)
    | (intro _ _ _ _)
    | (intro _ _ _)
    | (intro _ _)

theorem State.sendNak_keeps {s0 : Base} {s : State} (q : Nat) (h : Keeps s0 s) :
    Keeps s0 (State.sendNak s q) := by
  unfold State.sendNak
  repeat' first
    | (with_reducible assumption)
    | (with_reducible (first | apply State.modPort_keeps | apply State.sendFlit_keeps))
    | (dsimp only)
    | split
    | rfl
    | (refine Keeps.snd (by assumption) ?_)
    | (refine Keeps.fst (by assumption) ?_)
    | (intro _ _ _ _)
    | (intro _ _ _)
    | (intro _ _)
    | (with_reducible refine Keeps.upd ?_ ?_ ?_ ?_)

theorem State.mbxEvent_keeps {s0 : Base} {s : State} (q : Nat) (bit : Nat) (h : Keeps s0 s) :
    Keeps s0 (State.mbxEvent s q bit) := by
  unfold State.mbxEvent
  repeat' first
    | (with_reducible assumption)
    | (with_reducible (first | apply State.raise_keeps))
    | (dsimp only)

theorem State.portDown_keeps {s0 : Base} {s : State} (q : Nat) (st : PortState) (reason : Nat) (h : Keeps s0 s) :
    Keeps s0 (State.portDown s q st reason) := by
  unfold State.portDown
  repeat' first
    | (with_reducible assumption)
    | (with_reducible (first | apply State.logErr_keeps | apply State.mbxEvent_keeps | apply State.modPort_keeps))
    | (dsimp only)
    | split
    | rfl
    | (intro _ _ _ _)
    | (intro _ _ _)
    | (intro _ _)
    | (with_reducible refine Keeps.upd ?_ ?_ ?_ ?_)

theorem State.clearPort_keeps {s0 : Base} {s : State} (q : Nat) (h : Keeps s0 s) :
    Keeps s0 (State.clearPort s q) := by
  unfold State.clearPort
  repeat' first
    | (with_reducible assumption)
    | (with_reducible (first | apply State.modLinks_keeps | apply State.modPort_keeps))
    | (dsimp only)
    | split
    | rfl
    | (refine Keeps.snd (by assumption) ?_)
    | (refine Keeps.fst (by assumption) ?_)
    | (intro _ _ _ _)
    | (intro _ _ _)
    | (intro _ _)
    | (with_reducible refine Keeps.upd ?_ ?_ ?_ ?_)

theorem State.startTraining_keeps {s0 : Base} {s : State} (q : Nat) (h : Keeps s0 s) :
    Keeps s0 (State.startTraining s q) := by
  unfold State.startTraining
  repeat' first
    | (with_reducible assumption)
    | (with_reducible (first | apply State.modPort_keeps))
    | (dsimp only)
    | rfl
    | (intro _ _ _ _)
    | (intro _ _ _)
    | (intro _ _)
    | (with_reducible refine Keeps.upd ?_ ?_ ?_ ?_)

theorem State.portRetrain_keeps {s0 : Base} {s : State} (q : Nat) (dest : PortState) (h : Keeps s0 s) :
    Keeps s0 (State.portRetrain s q dest) := by
  unfold State.portRetrain
  repeat' first
    | (with_reducible assumption)
    | (with_reducible (first | apply State.clearPort_keeps | apply State.incReg_keeps | apply State.mbxEvent_keeps | apply State.modPort_keeps | apply State.portDown_keeps | apply State.startTraining_keeps))
    | (dsimp only)
    | split
    | rfl
    | (intro _ _ _ _)
    | (intro _ _ _)
    | (intro _ _)
    | (with_reducible refine Keeps.upd ?_ ?_ ?_ ?_)

theorem State.violation_keeps {s0 : Base} {s : State} (q : Nat) (code : Nat) (seq : Nat) (h : Keeps s0 s) :
    Keeps s0 (State.violation s q code seq) := by
  unfold State.violation
  repeat' first
    | (with_reducible assumption)
    | (with_reducible (first | apply State.clearPort_keeps | apply State.incReg_keeps | apply State.logErr_keeps | apply State.mbxEvent_keeps | apply State.modPort_keeps | apply State.portDown_keeps | apply State.portRetrain_keeps | apply State.sendMsg_keeps))
    | (dsimp only)
    | split
    | rfl
    | (intro _ _ _ _)
    | (intro _ _ _)
    | (intro _ _)
    | (with_reducible refine Keeps.upd ?_ ?_ ?_ ?_)

end Sys2Proof.Machine
end

