-- ==== Sys2Proof/Laws/KeepsEngine.lean ====
section
/-!
SUPPORT. What the operations of Machine/Engine.lean leave in place.
-/

namespace Sys2Proof.Machine

open Sys2Proof

theorem Eng.snd_keeps {α : Type} {s0 : Base} {a : α} {t : Eng} {p : α × Eng} (e : p = (a, t)) (h : Keeps s0 p.2.s) :
    Keeps s0 t.s := by subst e; exact h

theorem Eng.foldl_keeps {α : Type} {s0 : Base} {f : Eng → α → Eng} {l : List α} {x : Eng} (h : Keeps s0 x.s)
    (hf : ∀ t a, Keeps s0 t.s → Keeps s0 (f t a).s) : Keeps s0 (l.foldl f x).s := by
  induction l generalizing x with
  | nil => exact h
  | cons a l ih => exact ih (hf x a h)

theorem Eng.foldl_snd_keeps {α β : Type} {s0 : Base} {f : β × Eng → α → β × Eng} {l : List α} {x : β × Eng}
    (h : Keeps s0 x.2.s) (hf : ∀ t a, Keeps s0 t.2.s → Keeps s0 (f t a).2.s) : Keeps s0 (l.foldl f x).2.s := by
  induction l generalizing x with
  | nil => exact h
  | cons a l ih => exact ih (hf x a h)

theorem Eng.read_keeps {s0 : Base} {e : Eng} (acc : Access) (pa : Nat) (n : Nat) (h : Keeps s0 e.s) :
    Keeps s0 (Eng.read e acc pa n).2.s := by
  unfold Eng.read
  repeat' first
    | (with_reducible assumption)
    | (with_reducible (first | apply State.readPart_keeps))
    | (dsimp only)
    | split
    | rfl
    | (refine Keeps.snd (by assumption) ?_)
    | (refine Keeps.fst (by assumption) ?_)
    | (refine Eng.snd_keeps (by assumption) ?_)
    | (with_reducible refine Keeps.upd ?_ ?_ ?_ ?_)

theorem Eng.write_keeps {s0 : Base} {e : Eng} (pa : Nat) (bs : List Byte) (h : Keeps s0 e.s) :
    Keeps s0 (Eng.write e pa bs).s := by
  unfold Eng.write
  repeat' first
    | (with_reducible assumption)
    | (with_reducible (first | apply State.writePart_keeps))
    | (dsimp only)
    | split
    | rfl
    | (refine Keeps.snd (by assumption) ?_)
    | (refine Keeps.fst (by assumption) ?_)
    | (refine Eng.snd_keeps (by assumption) ?_)
    | (with_reducible refine Keeps.upd ?_ ?_ ?_ ?_)

theorem Eng.writeLocal_keeps {s0 : Base} {e : Eng} (a : Nat) (bs : List Byte) (h : Keeps s0 e.s) :
    Keeps s0 (Eng.writeLocal e a bs).s := by
  unfold Eng.writeLocal
  repeat' first
    | (with_reducible assumption)
    | (with_reducible (first | apply State.writeDev_keeps))
    | (dsimp only)
    | split
    | rfl
    | (refine Keeps.snd (by assumption) ?_)
    | (refine Keeps.fst (by assumption) ?_)
    | (refine Eng.snd_keeps (by assumption) ?_)
    | (with_reducible refine Keeps.upd ?_ ?_ ?_ ?_)

theorem Eng.writeWhole_keeps {s0 : Base} {e : Eng} (pa : Nat) (bs : List Byte) (h : Keeps s0 e.s) :
    Keeps s0 (Eng.writeWhole e pa bs).s := by
  unfold Eng.writeWhole
  repeat' first
    | (with_reducible assumption)
    | (with_reducible (first | apply Eng.write_keeps))
    | (dsimp only)
    | split
    | rfl
    | (with_reducible refine Keeps.upd ?_ ?_ ?_ ?_)

theorem Eng.pick_keeps {s0 : Base} {e : Eng} (a : Option Nat) (b : Byte) (h : Keeps s0 e.s) :
    Keeps s0 (Eng.pick e a b).2.s := by
  unfold Eng.pick
  repeat' first
    | (with_reducible assumption)
    | (with_reducible (first | apply State.draw_keeps))
    | (dsimp only)
    | split
    | rfl
    | (refine Keeps.snd (by assumption) ?_)
    | (refine Keeps.fst (by assumption) ?_)
    | (refine Eng.snd_keeps (by assumption) ?_)
    | (with_reducible refine Keeps.upd ?_ ?_ ?_ ?_)

theorem Eng.note_keeps {s0 : Base} {e : Eng} (a : Option Nat) (old : Byte) (b : Byte) (h : Keeps s0 e.s) :
    Keeps s0 (Eng.note e a old b).s := by
  unfold Eng.note
  repeat' first
    | (with_reducible assumption)
    | (dsimp only)
    | split
    | rfl
    | (refine Keeps.snd (by assumption) ?_)
    | (refine Keeps.fst (by assumption) ?_)
    | (refine Eng.snd_keeps (by assumption) ?_)
    | (with_reducible refine Keeps.upd ?_ ?_ ?_ ?_)

theorem Eng.readOpen_keeps {s0 : Base} {e : Eng} (pa : Nat) (n : Nat) (h : Keeps s0 e.s) :
    Keeps s0 (Eng.readOpen e pa n).2.s := by
  unfold Eng.readOpen
  repeat' first
    | (with_reducible assumption)
    | (with_reducible (first | apply Keeps.foldl | apply Eng.pick_keeps | apply Eng.read_keeps | apply Keeps.foldl_snd | apply Keeps.foldl_fst | apply Eng.foldl_keeps | apply Eng.foldl_snd_keeps))
    | (dsimp only)
    | split
    | (intro _ _ _ _)
    | (intro _ _ _)
    | (intro _ _)

theorem Eng.writeNoted_keeps {s0 : Base} {e : Eng} (dst : Nat) (bs : List Byte) (h : Keeps s0 e.s) :
    Keeps s0 (Eng.writeNoted e dst bs).s := by
  unfold Eng.writeNoted
  repeat' first
    | (with_reducible assumption)
    | (with_reducible (first | apply Keeps.foldl | apply Eng.note_keeps | apply Eng.write_keeps | apply Keeps.foldl_snd | apply Keeps.foldl_fst | apply Eng.foldl_keeps | apply Eng.foldl_snd_keeps))
    | (dsimp only)
    | split
    | (intro _ _ _ _)
    | (intro _ _ _)
    | (intro _ _)

theorem Eng.mixRun_keeps {s0 : Base} {e : Eng} (src : Nat) (dst : Nat) (x0 : List (Byte × Nat)) (x1 : List Byte) (h : Keeps s0 e.s) :
    Keeps s0 (Eng.mixRun e src dst x0 x1).2.s := by
  induction x0 generalizing e x1 with
  | nil =>
    unfold Eng.mixRun
    repeat' first
      | (with_reducible assumption)
      | (with_reducible (first | apply State.draw_keeps | apply Eng.read_keeps | apply Eng.write_keeps))
      | (dsimp only)
      | split
      | rfl
      | (refine Keeps.snd (by assumption) ?_)
      | (refine Keeps.fst (by assumption) ?_)
      | (refine Eng.snd_keeps (by assumption) ?_)
      | (intro _ _ _ _)
      | (intro _ _ _)
      | (intro _ _)
      | (with_reducible refine Keeps.upd ?_ ?_ ?_ ?_)
  | cons hd tl ih =>
    unfold Eng.mixRun
    repeat' first
      | (with_reducible apply ih)
      | (with_reducible assumption)
      | (with_reducible (first | apply State.draw_keeps | apply Eng.read_keeps | apply Eng.write_keeps))
      | (dsimp only)
      | split
      | rfl
      | (refine Keeps.snd (by assumption) ?_)
      | (refine Keeps.fst (by assumption) ?_)
      | (refine Eng.snd_keeps (by assumption) ?_)
      | (intro _ _ _ _)
      | (intro _ _ _)
      | (intro _ _)
      | (with_reducible refine Keeps.upd ?_ ?_ ?_ ?_)

theorem Eng.copyRun_keeps {s0 : Base} {e : Eng} (src : Nat) (dst : Nat) (n : Nat) (h : Keeps s0 e.s) :
    Keeps s0 (Eng.copyRun e src dst n).s := by
  unfold Eng.copyRun
  repeat' first
    | (with_reducible assumption)
    | (with_reducible (first | apply Eng.mixRun_keeps | apply Eng.readOpen_keeps | apply Eng.writeNoted_keeps))
    | (dsimp only)

theorem Eng.copy_keeps {s0 : Base} {e : Eng} (src : Nat) (dst : Nat) (n : Nat) (h : Keeps s0 e.s) :
    Keeps s0 (Eng.copy e src dst n).s := by
  unfold Eng.copy
  repeat' first
    | (with_reducible assumption)
    | (with_reducible (first | apply Keeps.foldl | apply Eng.copyRun_keeps | apply Keeps.foldl_snd | apply Keeps.foldl_fst | apply Eng.foldl_keeps | apply Eng.foldl_snd_keeps))
    | (dsimp only)
    | (intro _ _ _ _)
    | (intro _ _ _)
    | (intro _ _)

theorem Eng.finish_keeps {s0 : Base} {e : Eng} (id : Nat) (status : Nat × Nat) (h : Keeps s0 e.s) :
    Keeps s0 (Eng.finish e id status) := by
  unfold Eng.finish
  repeat' first
    | (with_reducible assumption)
    | (with_reducible (first | apply State.finishCmd_keeps))
    | (dsimp only)
    | split
    | (refine Keeps.snd (by assumption) ?_)
    | (refine Keeps.fst (by assumption) ?_)
    | (refine Eng.snd_keeps (by assumption) ?_)

theorem State.runEngine_keeps {s0 : Base} {s : State} (p : Nat) (id : Nat) (cls : Nat) (op : Nat) (f : Line → Eng → State) (h : Keeps s0 s) (h_f : ∀ (b0 : Line) (t : Eng), Keeps s0 t.s → Keeps s0 (f b0 t)) :
    Keeps s0 (State.runEngine s p id cls op f) := by
  unfold State.runEngine
  repeat' first
    | (with_reducible assumption)
    | (with_reducible (first | apply h_f))
    | (dsimp only)
    | split
    | rfl
    | (refine Keeps.snd (by assumption) ?_)
    | (refine Keeps.fst (by assumption) ?_)
    | (refine Eng.snd_keeps (by assumption) ?_)
    | (with_reducible refine Keeps.upd ?_ ?_ ?_ ?_)

end Sys2Proof.Machine
end

