-- ==== Sys2Proof/Laws/KeepsLnk.lean ====
section
/-!
SUPPORT. What the operations of Machine/Lnk.lean leave in place.
-/

namespace Sys2Proof.Machine

open Sys2Proof

theorem State.modLnk_keeps {s0 : Base} {s : State} (p : Nat) (id : Nat) (f : LnkProg → LnkProg) (h : Keeps s0 s) :
    Keeps s0 (State.modLnk s p id f) := by
  unfold State.modLnk
  repeat' first
    | (with_reducible assumption)
    | (with_reducible (first | apply State.modLinks_keeps))
    | (dsimp only)
    | rfl
    | (intro _ _ _ _)
    | (intro _ _ _)
    | (intro _ _)
    | (with_reducible refine Keeps.upd ?_ ?_ ?_ ?_)

theorem State.lnkFinish_keeps {s0 : Base} {s : State} (p : Nat) (id : Nat) (status : Nat) (detail : Nat) (h : Keeps s0 s) :
    Keeps s0 (State.lnkFinish s p id status detail) := by
  unfold State.lnkFinish
  repeat' first
    | (with_reducible assumption)
    | (with_reducible (first | apply State.finishCmd_keeps | apply State.modLnk_keeps))
    | (dsimp only)
    | split
    | (refine Keeps.snd (by assumption) ?_)
    | (refine Keeps.fst (by assumption) ?_)
    | (intro _ _ _ _)
    | (intro _ _ _)
    | (intro _ _)

theorem State.lnkDone_keeps {s0 : Base} {s : State} (p : Nat) (id : Nat) (h : Keeps s0 s) :
    Keeps s0 (State.lnkDone s p id) := by
  unfold State.lnkDone
  repeat' first
    | (with_reducible assumption)
    | (with_reducible (first | apply State.lnkFinish_keeps))
    | (dsimp only)
    | split
    | (refine Keeps.snd (by assumption) ?_)
    | (refine Keeps.fst (by assumption) ?_)

theorem State.lnkWrite_keeps {s0 : Base} {s : State} (p : Nat) (c : Cmd) (tag : Nat) (h : Keeps s0 s) :
    Keeps s0 (State.lnkWrite s p c tag) := by
  unfold State.lnkWrite
  repeat' first
    | (with_reducible assumption)
    | (with_reducible (first | apply State.finish_keeps | apply Eng.finish_keeps | apply State.modCmd_keeps | apply State.modLnk_keeps | apply Eng.read_keeps | apply State.request_keeps | apply Keeps.ident))
    | (dsimp only)
    | split
    | rfl
    | (intro _ _ _ _)
    | (intro _ _ _)
    | (intro _ _)
    | (with_reducible refine Keeps.upd ?_ ?_ ?_ ?_)

theorem State.lnkRead_keeps {s0 : Base} {s : State} (p : Nat) (c : Cmd) (tag : Nat) (h : Keeps s0 s) :
    Keeps s0 (State.lnkRead s p c tag) := by
  unfold State.lnkRead
  repeat' first
    | (with_reducible assumption)
    | (with_reducible (first | apply State.modLnk_keeps | apply State.request_keeps | apply Keeps.ident))
    | (dsimp only)
    | rfl
    | (intro _ _ _ _)
    | (intro _ _ _)
    | (intro _ _)
    | (with_reducible refine Keeps.upd ?_ ?_ ?_ ?_)

theorem State.lnkNext_keeps {s0 : Base} {s : State} {p : Nat} {id : Nat} {op : Nat} (h : Keeps s0 s) {u : State} (e : State.lnkNext s p id op = some u) :
    Keeps s0 u := by
  unfold State.lnkNext at e
  revert e
  repeat' first
    | (with_reducible assumption)
    | (with_reducible (first | apply State.lnkRead_keeps | apply State.lnkWrite_keeps | apply State.modLnk_keeps | apply State.request_keeps))
    | (rintro ⟨⟩)
    | (simp only [Option.map_eq_some_iff]; rintro ⟨_, _, rfl⟩)
    | (dsimp only)
    | split
    | rfl
    | (refine Keeps.snd (by assumption) ?_)
    | (refine Keeps.fst (by assumption) ?_)
    | (intro _ _ _ _)
    | (intro _ _ _)
    | (intro _ _)
    | (with_reducible refine Keeps.upd ?_ ?_ ?_ ?_)

theorem State.lnkSend_keeps {s0 : Base} {s : State} (p : Nat) (id : Nat) (op : Nat) (x0 : Nat) (h : Keeps s0 s) :
    Keeps s0 (State.lnkSend s p id op x0) := by
  induction x0 generalizing s with
  | zero =>
    unfold State.lnkSend
    repeat' first
      | (with_reducible assumption)
      | (refine State.lnkNext_keeps ?_ (by assumption))
      | (dsimp only)
      | split
      | (refine Keeps.snd (by assumption) ?_)
      | (refine Keeps.fst (by assumption) ?_)
  | succ n ih =>
    unfold State.lnkSend
    repeat' first
      | (with_reducible apply ih)
      | (with_reducible assumption)
      | (refine State.lnkNext_keeps ?_ (by assumption))
      | (dsimp only)
      | split
      | (refine Keeps.snd (by assumption) ?_)
      | (refine Keeps.fst (by assumption) ?_)

theorem State.lnkPump_keeps {s0 : Base} {s : State} (p : Nat) (id : Nat) (h : Keeps s0 s) :
    Keeps s0 (State.lnkPump s p id) := by
  unfold State.lnkPump
  repeat' first
    | (with_reducible assumption)
    | (with_reducible (first | apply State.lnkDone_keeps | apply State.lnkSend_keeps | apply State.modCmd_keeps))
    | (dsimp only)
    | split
    | rfl
    | (refine Keeps.snd (by assumption) ?_)
    | (refine Keeps.fst (by assumption) ?_)
    | (intro _ _ _ _)
    | (intro _ _ _)
    | (intro _ _)
    | (with_reducible refine Keeps.upd ?_ ?_ ?_ ?_)

theorem State.lnkRun_keeps {s0 : Base} {s : State} (p : Nat) (id : Nat) (op : Nat) (h : Keeps s0 s) :
    Keeps s0 (State.lnkRun s p id op) := by
  unfold State.lnkRun
  repeat' first
    | (with_reducible assumption)
    | (with_reducible (first | apply State.lnkPump_keeps))
    | (dsimp only)
    | split
    | (refine Keeps.snd (by assumption) ?_)
    | (refine Keeps.fst (by assumption) ?_)

theorem execLnkPut_keeps {s0 : Base} {s : State} (p : Nat) (id : Nat) (h : Keeps s0 s) :
    KeepsOut s0 (execLnkPut p id s) := by
  unfold execLnkPut
  repeat' first
    | (with_reducible assumption)
    | (with_reducible (first | apply State.lnkRun_keeps | apply keepsOut_ok))
    | (dsimp only)

theorem execLnkGet_keeps {s0 : Base} {s : State} (p : Nat) (id : Nat) (h : Keeps s0 s) :
    KeepsOut s0 (execLnkGet p id s) := by
  unfold execLnkGet
  repeat' first
    | (with_reducible assumption)
    | (with_reducible (first | apply State.lnkRun_keeps | apply keepsOut_ok))
    | (dsimp only)

theorem State.lnkData_keeps {s0 : Base} {s : State} (p : Nat) (id : Nat) (off : Nat) (n : Nat) (poison : Bool) (b : List Byte) (h : Keeps s0 s) :
    Keeps s0 (State.lnkData s p id off n poison b) := by
  unfold State.lnkData
  repeat' first
    | (with_reducible assumption)
    | (with_reducible (first | apply State.finish_keeps | apply Eng.finish_keeps | apply State.lnkFinish_keeps | apply State.lnkPump_keeps | apply State.modCmd_keeps | apply State.modLnk_keeps | apply Eng.write_keeps))
    | (dsimp only)
    | split
    | rfl
    | (refine Keeps.snd (by assumption) ?_)
    | (refine Keeps.fst (by assumption) ?_)
    | (refine Eng.snd_keeps (by assumption) ?_)
    | (intro _ _ _ _)
    | (intro _ _ _)
    | (intro _ _)
    | (with_reducible refine Keeps.upd ?_ ?_ ?_ ?_)

theorem State.lnkAck_keeps {s0 : Base} {s : State} (p : Nat) (id : Nat) (n : Nat) (h : Keeps s0 s) :
    Keeps s0 (State.lnkAck s p id n) := by
  unfold State.lnkAck
  repeat' first
    | (with_reducible assumption)
    | (with_reducible (first | apply State.lnkPump_keeps | apply State.modLnk_keeps))
    | (dsimp only)
    | split
    | rfl
    | (refine Keeps.snd (by assumption) ?_)
    | (refine Keeps.fst (by assumption) ?_)
    | (intro _ _ _ _)
    | (intro _ _ _)
    | (intro _ _)
    | (with_reducible refine Keeps.upd ?_ ?_ ?_ ?_)

theorem State.lnkMarked_keeps {s0 : Base} {s : State} (p : Nat) (id : Nat) (h : Keeps s0 s) :
    Keeps s0 (State.lnkMarked s p id) := by
  unfold State.lnkMarked
  repeat' first
    | (with_reducible assumption)
    | (with_reducible (first | apply State.lnkDone_keeps | apply State.modLnk_keeps))
    | (dsimp only)
    | split
    | rfl
    | (refine Keeps.snd (by assumption) ?_)
    | (refine Keeps.fst (by assumption) ?_)
    | (intro _ _ _ _)
    | (intro _ _ _)
    | (intro _ _)
    | (with_reducible refine Keeps.upd ?_ ?_ ?_ ?_)

end Sys2Proof.Machine
end

