-- ==== Sys2Proof/Laws/KeepsMigration.lean ====
section
/-!
SUPPORT. What the operations of Machine/Migration.lean leave in place.
-/

namespace Sys2Proof.Machine

open Sys2Proof

theorem State.modMig_keeps {s0 : Base} {s : State} (p : Nat) (f : MigProg → MigProg) (h : Keeps s0 s) :
    Keeps s0 (State.modMig s p f) := by
  unfold State.modMig
  repeat' first
    | (with_reducible assumption)
    | (with_reducible (first | apply State.modLinks_keeps))
    | (dsimp only)
    | rfl
    | (intro _ _ _ _)
    | (intro _ _ _)
    | (intro _ _)
    | (with_reducible refine Keeps.upd ?_ ?_ ?_ ?_)

theorem State.migLoad_keeps {s0 : Base} {s : State} (p : Nat) (b : List Byte) (h : Keeps s0 s) :
    Keeps s0 (State.migLoad s p b) := by
  unfold State.migLoad
  try generalize List.range 32 = l32
  try generalize List.range 4096 = l4096
  try generalize List.range 8 = l8
  repeat' first
    | (with_reducible assumption)
    | (with_reducible (first | apply Keeps.foldl | apply State.modPart_keeps | apply State.modSch_keeps | apply Keeps.ident))
    | (dsimp only)
    | split
    | rfl
    | (refine Keeps.snd (by assumption) ?_)
    | (refine Keeps.fst (by assumption) ?_)
    | (intro _ _ _ _)
    | (intro _ _ _)
    | (intro _ _)
    | (with_reducible refine Keeps.upd ?_ ?_ ?_ ?_)

theorem State.migFail_keeps {s0 : Base} {s : State} (p : Nat) (detail : Nat) (h : Keeps s0 s) :
    Keeps s0 (State.migFail s p detail) := by
  unfold State.migFail
  repeat' first
    | (with_reducible assumption)
    | (with_reducible (first | apply State.logErr_keeps | apply State.modPart_keeps | apply State.request_keeps))
    | (dsimp only)
    | split
    | rfl
    | (refine Keeps.snd (by assumption) ?_)
    | (refine Keeps.fst (by assumption) ?_)
    | (intro _ _ _ _)
    | (intro _ _ _)
    | (intro _ _)
    | (with_reducible refine Keeps.upd ?_ ?_ ?_ ?_)

theorem State.migSendMem_keeps {s0 : Base} {s : State} (p : Nat) (tag : Nat) (x : Nat × Nat × Nat × Nat) (h : Keeps s0 s) :
    Keeps s0 (State.migSendMem s p tag x) := by
  unfold State.migSendMem
  repeat' first
    | (with_reducible assumption)
    | (with_reducible (first | apply State.migFail_keeps | apply State.modMig_keeps | apply State.readDev_keeps | apply State.request_keeps))
    | (dsimp only)
    | split
    | rfl
    | (refine Keeps.snd (by assumption) ?_)
    | (refine Keeps.fst (by assumption) ?_)
    | (intro _ _ _ _)
    | (intro _ _ _)
    | (intro _ _)
    | (with_reducible refine Keeps.upd ?_ ?_ ?_ ?_)

theorem State.migPump_keeps {s0 : Base} {s : State} (p : Nat) (h : Keeps s0 s) :
    Keeps s0 (State.migPump s p) := by
  unfold State.migPump
  repeat' first
    | (with_reducible assumption)
    | (with_reducible (first | apply State.migSendMem_keeps | apply State.modMig_keeps | apply State.request_keeps))
    | (dsimp only)
    | split
    | rfl
    | (refine Keeps.snd (by assumption) ?_)
    | (refine Keeps.fst (by assumption) ?_)
    | (intro _ _ _ _)
    | (intro _ _ _)
    | (intro _ _)
    | (with_reducible refine Keeps.upd ?_ ?_ ?_ ?_)

theorem State.migAck_keeps {s0 : Base} {s : State} (p : Nat) (step : Nat) (h : Keeps s0 s) :
    Keeps s0 (State.migAck s p step) := by
  unfold State.migAck
  repeat' first
    | (with_reducible assumption)
    | (with_reducible (first | apply State.migPump_keeps | apply State.modMig_keeps))
    | (dsimp only)
    | split
    | rfl
    | (intro _ _ _ _)
    | (intro _ _ _)
    | (intro _ _)
    | (with_reducible refine Keeps.upd ?_ ?_ ?_ ?_)

theorem State.migBreak_keeps {s0 : Base} {s : State} (p : Nat) (h : Keeps s0 s) :
    Keeps s0 (State.migBreak s p) := by
  unfold State.migBreak
  repeat' first
    | (with_reducible assumption)
    | (with_reducible (first | apply State.modPart_keeps))
    | (dsimp only)
    | rfl
    | (intro _ _ _ _)
    | (intro _ _ _)
    | (intro _ _)
    | (with_reducible refine Keeps.upd ?_ ?_ ?_ ?_)

theorem State.migBegin_keeps {s0 : Base} {s : State} (p : Nat) (m : Msg) (h : Keeps s0 s) :
    Keeps s0 (State.migBegin s p m) := by
  unfold State.migBegin
  repeat' first
    | (with_reducible assumption)
    | (with_reducible (first | apply State.modMig_keeps | apply State.modPart_keeps | apply State.request_keeps))
    | (dsimp only)
    | rfl
    | (intro _ _ _ _)
    | (intro _ _ _)
    | (intro _ _)
    | (with_reducible refine Keeps.upd ?_ ?_ ?_ ?_)

theorem State.migClearRest_keeps {s0 : Base} {s : State} (p : Nat) (h : Keeps s0 s) :
    Keeps s0 (State.migClearRest s p) := by
  unfold State.migClearRest
  try generalize List.range 256 = l256
  repeat' first
    | (with_reducible assumption)
    | (with_reducible (first | apply Keeps.foldl | apply State.zeroRange_keeps | apply Keeps.foldl_snd | apply Keeps.foldl_fst))
    | (dsimp only)
    | split
    | (intro _ _ _ _)
    | (intro _ _ _)
    | (intro _ _)

theorem State.migState?_keeps {s0 : Base} {s : State} {p : Nat} {m : Msg} (h : Keeps s0 s) {u : State} (e : State.migState? s p m = some u) :
    Keeps s0 u := by
  unfold State.migState? at e
  revert e
  repeat' first
    | (with_reducible assumption)
    | (with_reducible (first | apply State.migClearRest_keeps | apply State.migLoad_keeps | apply State.modMig_keeps | apply State.modPart_keeps))
    | (rintro ⟨⟩)
    | (simp only [Option.map_eq_some_iff]; rintro ⟨_, _, rfl⟩)
    | (dsimp only)
    | split
    | rfl
    | (intro _ _ _ _)
    | (intro _ _ _)
    | (intro _ _)
    | (with_reducible refine Keeps.upd ?_ ?_ ?_ ?_)

theorem State.migCtlIn_keeps {s0 : Base} {s : State} (m : Msg) (h : Keeps s0 s) : Keeps s0 (State.migCtlIn s m).2 := by
  unfold State.migCtlIn
  repeat' first
    | (with_reducible assumption)
    | (with_reducible (first | apply State.migBreak_keeps))
    | (dsimp only)
    | split

theorem State.migCtlIn_some_keeps {s0 : Base} {s t u : State} (m : Msg) (h : Keeps s0 s) (e : State.migCtlIn s m = (some t, u)) :
    Keeps s0 t := by
  unfold State.migCtlIn at e
  dsimp only at e
  repeat' split at e
  all_goals injection e with e1 e2
  all_goals first
    | (cases e1; done)
    | (injection e1 with e1; subst e1)
  all_goals first
    | exact State.migBegin_keeps _ _ h
    | exact State.migBreak_keeps _ h
    | exact State.migState?_keeps h (by assumption)

theorem State.migWriteIn_keeps {s0 : Base} {s : State} (m : Msg) (h : Keeps s0 s) :
    Keeps s0 (State.migWriteIn s m).2 := by
  unfold State.migWriteIn
  repeat' first
    | (with_reducible assumption)
    | (with_reducible (first | apply State.migBreak_keeps | apply State.writeDev_keeps))
    | (dsimp only)
    | split
    | (refine Keeps.snd (by assumption) ?_)
    | (refine Keeps.fst (by assumption) ?_)

end Sys2Proof.Machine
end

