-- ==== Sys2Proof/Laws/KeepsRduCmds.lean ====
section
/-!
SUPPORT. What the operations of Machine/RduCmds.lean leave in place.
-/

namespace Sys2Proof.Machine

open Sys2Proof

theorem State.sendDelta_keeps {s0 : Base} {s : State} (x : RUnit) (b : List Byte) (what : RPart) (h : Keeps s0 s) :
    Keeps s0 (State.sendDelta s x b what) := by
  unfold State.sendDelta
  repeat' first
    | (with_reducible assumption)
    | (with_reducible (first | apply State.modRed_keeps | apply State.sendRed_keeps))
    | (dsimp only)
    | split
    | rfl
    | (refine Keeps.snd (by assumption) ?_)
    | (refine Keeps.fst (by assumption) ?_)
    | (intro _ _ _ _)
    | (intro _ _ _)
    | (intro _ _)
    | (with_reducible refine Keeps.upd ?_ ?_ ?_ ?_)

theorem State.announceRed_keeps {s0 : Base} {s : State} (p : Nat) (rid : Nat) (h : Keeps s0 s) :
    Keeps s0 (State.announceRed s p rid) := by
  unfold State.announceRed
  repeat' first
    | (with_reducible assumption)
    | (with_reducible (first | apply State.sendDelta_keeps))
    | (dsimp only)
    | split
    | (refine Keeps.snd (by assumption) ?_)
    | (refine Keeps.fst (by assumption) ?_)

theorem State.rduOpen_keeps {s0 : Base} {s : State} (p : Nat) (id : Nat) (h : Keeps s0 s) :
    Keeps s0 (State.rduOpen s p id) := by
  unfold State.rduOpen
  repeat' first
    | (with_reducible assumption)
    | (with_reducible (first | apply State.announceRed_keeps | apply State.finishCmd_keeps | apply State.modCmd_keeps | apply State.redRecord_keeps))
    | (dsimp only)
    | split
    | rfl
    | (refine Keeps.snd (by assumption) ?_)
    | (refine Keeps.fst (by assumption) ?_)
    | (intro _ _ _ _)
    | (intro _ _ _)
    | (intro _ _)
    | (with_reducible refine Keeps.upd ?_ ?_ ?_ ?_)

theorem execRduOpen_keeps {s0 : Base} {s : State} (p : Nat) (id : Nat) (h : Keeps s0 s) :
    KeepsOut s0 (execRduOpen p id s) := by
  unfold execRduOpen
  repeat' first
    | (with_reducible assumption)
    | (with_reducible (first | apply State.rduOpen_keeps | apply keepsOut_ok))
    | (dsimp only)

theorem runContribute_keeps {s0 : Base} {e : Eng} (id : Nat) (r : Line) (h : Keeps s0 e.s) :
    Keeps s0 (runContribute id r e) := by
  unfold runContribute
  repeat' first
    | (with_reducible assumption)
    | (with_reducible (first | apply State.finish_keeps | apply Eng.finish_keeps | apply Eng.read_keeps | apply State.redDuplicate_keeps | apply State.redMerge_keeps | apply State.redRefuse_keeps))
    | (dsimp only)
    | split
    | rfl
    | (refine Keeps.snd (by assumption) ?_)
    | (refine Keeps.fst (by assumption) ?_)
    | (refine Eng.snd_keeps (by assumption) ?_)
    | (intro _ _ _ _)
    | (intro _ _ _)
    | (intro _ _)
    | (with_reducible refine Keeps.upd ?_ ?_ ?_ ?_)

theorem execRduContribute_keeps {s0 : Base} {s : State} (p : Nat) (id : Nat) (h : Keeps s0 s) :
    KeepsOut s0 (execRduContribute p id s) := by
  unfold execRduContribute
  repeat' first
    | (with_reducible assumption)
    | (with_reducible (first | apply runContribute_keeps | apply State.runEngine_keeps | apply keepsOut_ok))
    | (dsimp only)
    | (intro _ _ _ _)
    | (intro _ _ _)
    | (intro _ _)

theorem State.tileDelta_keeps {s0 : Base} {s : State} (p : Nat) (rid : Nat) (u : Nat) (x : RUnit) (h : Keeps s0 s) :
    Keeps s0 (State.tileDelta s p rid u x) := by
  unfold State.tileDelta
  repeat' first
    | (with_reducible assumption)
    | (with_reducible (first | apply State.modRed_keeps | apply State.redCheck_keeps))
    | (dsimp only)
    | split
    | rfl
    | (intro _ _ _ _)
    | (intro _ _ _)
    | (intro _ _)
    | (with_reducible refine Keeps.upd ?_ ?_ ?_ ?_)

theorem State.deltaSend_keeps {s0 : Base} {s : State} (p : Nat) (rid : Nat) (u : Nat) (h : Keeps s0 s) :
    Keeps s0 (State.deltaSend s p rid u) := by
  unfold State.deltaSend
  repeat' first
    | (with_reducible assumption)
    | (with_reducible (first | apply State.announceRed_keeps | apply State.sendDelta_keeps | apply State.sendResults_keeps | apply State.tileDelta_keeps))
    | (dsimp only)
    | split
    | rfl
    | (refine Keeps.snd (by assumption) ?_)
    | (refine Keeps.fst (by assumption) ?_)
    | (intro _ _ _ _)
    | (intro _ _ _)
    | (intro _ _)
    | (with_reducible refine Keeps.upd ?_ ?_ ?_ ?_)

theorem execDeltaSend_keeps {s0 : Base} {s : State} (p : Nat) (rid : Nat) (u : Nat) (h : Keeps s0 s) :
    KeepsOut s0 (execDeltaSend p rid u s) := by
  unfold execDeltaSend
  repeat' first
    | (with_reducible assumption)
    | (with_reducible (first | apply State.deltaSend_keeps | apply keepsOut_ok))
    | (dsimp only)

theorem State.deltaRetry_keeps {s0 : Base} {s : State} (p : Nat) (rid : Nat) (h : Keeps s0 s) :
    Keeps s0 (State.deltaRetry s p rid) := by
  unfold State.deltaRetry
  repeat' first
    | (with_reducible assumption)
    | (with_reducible (first | apply State.advance_keeps | apply State.modRed_keeps | apply State.sendRed_keeps))
    | (dsimp only)
    | split
    | rfl
    | (refine Keeps.snd (by assumption) ?_)
    | (refine Keeps.fst (by assumption) ?_)
    | (intro _ _ _ _)
    | (intro _ _ _)
    | (intro _ _)
    | (with_reducible refine Keeps.upd ?_ ?_ ?_ ?_)

theorem execDeltaRetry_keeps {s0 : Base} {s : State} (p : Nat) (rid : Nat) (h : Keeps s0 s) :
    KeepsOut s0 (execDeltaRetry p rid s) := by
  unfold execDeltaRetry
  repeat' first
    | (with_reducible assumption)
    | (with_reducible (first | apply State.deltaRetry_keeps | apply keepsOut_ok))
    | (dsimp only)

end Sys2Proof.Machine
end

