-- ==== Sys2Proof/Laws/KeepsMessages.lean ====
section
/-!
SUPPORT. What the operations of Machine/Messages.lean leave in place.
-/

namespace Sys2Proof.Machine

open Sys2Proof

theorem State.takeIn_keeps {s0 : Base} {s : State} (i : Nat) (op : Nat) (f : InMsg → State → State) (h : Keeps s0 s) (h_f : ∀ (b0 : InMsg) (t : State), Keeps s0 t → Keeps s0 (f b0 t)) :
    Keeps s0 (State.takeIn s i op f) := by
  unfold State.takeIn
  repeat' first
    | (with_reducible assumption)
    | (with_reducible (first | apply State.freeSlot_keeps | apply State.modLinks_keeps | apply h_f))
    | (dsimp only)
    | split
    | rfl
    | (refine Keeps.snd (by assumption) ?_)
    | (refine Keeps.fst (by assumption) ?_)
    | (intro _ _ _ _)
    | (intro _ _ _)
    | (intro _ _)
    | (with_reducible refine Keeps.upd ?_ ?_ ?_ ?_)

theorem State.refuse_keeps {s0 : Base} {s : State} (x : InMsg) (code : Nat) (h : Keeps s0 s) :
    Keeps s0 (State.refuse s x code) := by
  unfold State.refuse
  repeat' first
    | (with_reducible assumption)
    | (with_reducible (first | apply State.refuseRec_keeps | apply State.sendMsg_keeps))
    | (dsimp only)

theorem State.answerRead_keeps {s0 : Base} {s : State} (m : Msg) (r : Except (MemErr × Nat) (List Byte)) (h : Keeps s0 s) :
    Keeps s0 (State.answerRead s m r) := by
  unfold State.answerRead
  repeat' first
    | (with_reducible assumption)
    | (with_reducible (first | apply State.sendMsg_keeps))
    | (dsimp only)
    | split
    | (refine Keeps.snd (by assumption) ?_)
    | (refine Keeps.fst (by assumption) ?_)

theorem State.msgWrite_keeps {s0 : Base} {s : State} (x : InMsg) (h : Keeps s0 s) :
    Keeps s0 (State.msgWrite s x) := by
  unfold State.msgWrite
  repeat' first
    | (with_reducible assumption)
    | (with_reducible (first | apply State.refuse_keeps | apply State.sendMsg_keeps | apply Eng.write_keeps | apply State.writePart_keeps))
    | (dsimp only)
    | split
    | (refine Keeps.snd (by assumption) ?_)
    | (refine Keeps.fst (by assumption) ?_)

theorem State.msgRead_keeps {s0 : Base} {s : State} (x : InMsg) (h : Keeps s0 s) :
    Keeps s0 (State.msgRead s x) := by
  unfold State.msgRead
  repeat' first
    | (with_reducible assumption)
    | (with_reducible (first | apply State.answerRead_keeps | apply Eng.read_keeps | apply State.readPart_keeps | apply State.refuse_keeps))
    | (dsimp only)
    | split
    | (refine Keeps.snd (by assumption) ?_)
    | (refine Keeps.fst (by assumption) ?_)

theorem State.msgWriteSys_keeps {s0 : Base} {s : State} (x : InMsg) (h : Keeps s0 s) :
    Keeps s0 (State.msgWriteSys s x) := by
  unfold State.msgWriteSys
  repeat' first
    | (with_reducible assumption)
    | (with_reducible (first | apply State.refuse_keeps | apply State.sendMsg_keeps | apply State.writeDev_keeps))
    | (dsimp only)
    | split
    | (refine Keeps.snd (by assumption) ?_)
    | (refine Keeps.fst (by assumption) ?_)

theorem State.msgReadSys_keeps {s0 : Base} {s : State} (x : InMsg) (h : Keeps s0 s) :
    Keeps s0 (State.msgReadSys s x) := by
  unfold State.msgReadSys
  repeat' first
    | (with_reducible assumption)
    | (with_reducible (first | apply State.answerRead_keeps | apply State.readDev_keeps | apply State.refuse_keeps))
    | (dsimp only)
    | split
    | (refine Keeps.snd (by assumption) ?_)
    | (refine Keeps.fst (by assumption) ?_)

theorem State.msgMarkAdd_keeps {s0 : Base} {s : State} (x : InMsg) (h : Keeps s0 s) :
    Keeps s0 (State.msgMarkAdd s x) := by
  unfold State.msgMarkAdd
  repeat' first
    | (with_reducible assumption)
    | (with_reducible (first | apply State.addMark_keeps | apply State.refuse_keeps | apply State.sendMsg_keeps))
    | (dsimp only)
    | split
    | (refine Keeps.snd (by assumption) ?_)
    | (refine Keeps.fst (by assumption) ?_)

theorem execMsgWrite_keeps {s0 : Base} {s : State} (i : Nat) (h : Keeps s0 s) :
    KeepsOut s0 (execMsgWrite i s) := by
  unfold execMsgWrite
  repeat' first
    | (with_reducible assumption)
    | (with_reducible (first | apply State.msgWrite_keeps | apply State.takeIn_keeps | apply keepsOut_ok))
    | (dsimp only)
    | (intro _ _ _ _)
    | (intro _ _ _)
    | (intro _ _)

theorem execMsgRead_keeps {s0 : Base} {s : State} (i : Nat) (h : Keeps s0 s) :
    KeepsOut s0 (execMsgRead i s) := by
  unfold execMsgRead
  repeat' first
    | (with_reducible assumption)
    | (with_reducible (first | apply State.msgRead_keeps | apply State.takeIn_keeps | apply keepsOut_ok))
    | (dsimp only)
    | (intro _ _ _ _)
    | (intro _ _ _)
    | (intro _ _)

theorem execMsgWriteSys_keeps {s0 : Base} {s : State} (i : Nat) (h : Keeps s0 s) :
    KeepsOut s0 (execMsgWriteSys i s) := by
  unfold execMsgWriteSys
  repeat' first
    | (with_reducible assumption)
    | (with_reducible (first | apply State.msgWriteSys_keeps | apply State.takeIn_keeps | apply keepsOut_ok))
    | (dsimp only)
    | (intro _ _ _ _)
    | (intro _ _ _)
    | (intro _ _)

theorem execMsgReadSys_keeps {s0 : Base} {s : State} (i : Nat) (h : Keeps s0 s) :
    KeepsOut s0 (execMsgReadSys i s) := by
  unfold execMsgReadSys
  repeat' first
    | (with_reducible assumption)
    | (with_reducible (first | apply State.msgReadSys_keeps | apply State.takeIn_keeps | apply keepsOut_ok))
    | (dsimp only)
    | (intro _ _ _ _)
    | (intro _ _ _)
    | (intro _ _)

theorem execMsgMarkAdd_keeps {s0 : Base} {s : State} (i : Nat) (h : Keeps s0 s) :
    KeepsOut s0 (execMsgMarkAdd i s) := by
  unfold execMsgMarkAdd
  repeat' first
    | (with_reducible assumption)
    | (with_reducible (first | apply State.msgMarkAdd_keeps | apply State.takeIn_keeps | apply keepsOut_ok))
    | (dsimp only)
    | (intro _ _ _ _)
    | (intro _ _ _)
    | (intro _ _)

theorem State.msgMigWrite_keeps {s0 : Base} {s : State} (x : InMsg) (h : Keeps s0 s) :
    Keeps s0 (State.msgMigWrite s x) := by
  unfold State.msgMigWrite
  repeat' first
    | (with_reducible assumption)
    | (with_reducible (first | apply State.migWriteIn_keeps | apply State.refuse_keeps | apply State.sendMsg_keeps))
    | (dsimp only)
    | split
    | (refine Keeps.snd (by assumption) ?_)
    | (refine Keeps.fst (by assumption) ?_)

theorem State.msgMigCtl_keeps {s0 : Base} {s : State} (x : InMsg) (h : Keeps s0 s) :
    Keeps s0 (State.msgMigCtl s x) := by
  unfold State.msgMigCtl
  split
  · exact State.sendMsg_keeps _ (State.migCtlIn_some_keeps _ h (by assumption))
  · exact State.refuse_keeps _ _ (Keeps.snd (by assumption) (State.migCtlIn_keeps _ h))

theorem execMsgMigWrite_keeps {s0 : Base} {s : State} (i : Nat) (h : Keeps s0 s) :
    KeepsOut s0 (execMsgMigWrite i s) := by
  unfold execMsgMigWrite
  repeat' first
    | (with_reducible assumption)
    | (with_reducible (first | apply State.msgMigWrite_keeps | apply State.takeIn_keeps | apply keepsOut_ok))
    | (dsimp only)
    | (intro _ _ _ _)
    | (intro _ _ _)
    | (intro _ _)

theorem execMsgMigCtl_keeps {s0 : Base} {s : State} (i : Nat) (h : Keeps s0 s) :
    KeepsOut s0 (execMsgMigCtl i s) := by
  unfold execMsgMigCtl
  repeat' first
    | (with_reducible assumption)
    | (with_reducible (first | apply State.msgMigCtl_keeps | apply State.takeIn_keeps | apply keepsOut_ok))
    | (dsimp only)
    | (intro _ _ _ _)
    | (intro _ _ _)
    | (intro _ _)

theorem State.setPieces_keeps {s0 : Base} {s : State} (m : Msg) (x : Option RedPieces) (h : Keeps s0 s) :
    Keeps s0 (State.setPieces s m x) := by
  unfold State.setPieces
  repeat' first
    | (with_reducible assumption)
    | (dsimp only)
    | split
    | rfl
    | (refine Keeps.snd (by assumption) ?_)
    | (refine Keeps.fst (by assumption) ?_)
    | (intro _ _ _ _)
    | (intro _ _ _)
    | (intro _ _)
    | (with_reducible refine Keeps.upd ?_ ?_ ?_ ?_)

theorem State.takePiece_keeps {s0 : Base} {s : State} (m : Msg) (f : State → List Byte → State) (h : Keeps s0 s) (h_f : ∀ (t : State) (b1 : List Byte), Keeps s0 t → Keeps s0 (f t b1)) :
    Keeps s0 (State.takePiece s m f) := by
  unfold State.takePiece
  repeat' first
    | (with_reducible assumption)
    | (with_reducible (first | apply State.setPieces_keeps | apply h_f))
    | (dsimp only)
    | split
    | rfl
    | (refine Keeps.snd (by assumption) ?_)
    | (refine Keeps.fst (by assumption) ?_)
    | (intro _ _ _ _)
    | (intro _ _ _)
    | (intro _ _)
    | (with_reducible refine Keeps.upd ?_ ?_ ?_ ?_)

theorem State.takeDelta_keeps {s0 : Base} {s : State} (m : Msg) (b : List Byte) (h : Keeps s0 s) :
    Keeps s0 (State.takeDelta s m b) := by
  unfold State.takeDelta
  repeat' first
    | (with_reducible assumption)
    | (with_reducible (first | apply State.modRed_keeps | apply State.redCheck_keeps | apply State.sendMsg_keeps))
    | (dsimp only)
    | split
    | rfl
    | (refine Keeps.snd (by assumption) ?_)
    | (refine Keeps.fst (by assumption) ?_)
    | (intro _ _ _ _)
    | (intro _ _ _)
    | (intro _ _)
    | (with_reducible refine Keeps.upd ?_ ?_ ?_ ?_)

theorem State.takeResult_keeps {s0 : Base} {s : State} (m : Msg) (b : List Byte) (h : Keeps s0 s) :
    Keeps s0 (State.takeResult s m b) := by
  unfold State.takeResult
  repeat' first
    | (with_reducible assumption)
    | (with_reducible (first | apply State.closeRed_keeps | apply State.sendMsg_keeps | apply State.writeResult_keeps))
    | (dsimp only)
    | split
    | (refine Keeps.snd (by assumption) ?_)
    | (refine Keeps.fst (by assumption) ?_)

theorem execMsgRedDelta_keeps {s0 : Base} {s : State} (i : Nat) (h : Keeps s0 s) :
    KeepsOut s0 (execMsgRedDelta i s) := by
  unfold execMsgRedDelta
  repeat' first
    | (with_reducible assumption)
    | (with_reducible (first | apply State.takeDelta_keeps | apply State.takeIn_keeps | apply State.takePiece_keeps | apply keepsOut_ok))
    | (dsimp only)
    | (intro _ _ _ _)
    | (intro _ _ _)
    | (intro _ _)

theorem execMsgRedResult_keeps {s0 : Base} {s : State} (i : Nat) (h : Keeps s0 s) :
    KeepsOut s0 (execMsgRedResult i s) := by
  unfold execMsgRedResult
  repeat' first
    | (with_reducible assumption)
    | (with_reducible (first | apply State.takeIn_keeps | apply State.takePiece_keeps | apply State.takeResult_keeps | apply keepsOut_ok))
    | (dsimp only)
    | (intro _ _ _ _)
    | (intro _ _ _)
    | (intro _ _)

theorem State.msgViolation_keeps {s0 : Base} {s : State} (x : InMsg) (h : Keeps s0 s) :
    Keeps s0 (State.msgViolation s x) := by
  unfold State.msgViolation
  repeat' first
    | (with_reducible assumption)
    | (with_reducible (first | apply State.logErr_keeps | apply State.modPort_keeps))
    | (dsimp only)
    | rfl
    | (intro _ _ _ _)
    | (intro _ _ _)
    | (intro _ _)
    | (with_reducible refine Keeps.upd ?_ ?_ ?_ ?_)

theorem execMsgViolation_keeps {s0 : Base} {s : State} (i : Nat) (h : Keeps s0 s) :
    KeepsOut s0 (execMsgViolation i s) := by
  unfold execMsgViolation
  repeat' first
    | (with_reducible assumption)
    | (with_reducible (first | apply State.msgViolation_keeps | apply State.takeIn_keeps | apply keepsOut_ok))
    | (dsimp only)
    | (intro _ _ _ _)
    | (intro _ _ _)
    | (intro _ _)

theorem execMsgMgmt_keeps {s0 : Base} {s : State} (i : Nat) (h : Keeps s0 s) :
    KeepsOut s0 (execMsgMgmt i s) := by
  unfold execMsgMgmt
  repeat' first
    | (with_reducible assumption)
    | (with_reducible (first | apply State.emit_keeps | apply State.takeIn_keeps | apply keepsOut_ok))
    | (dsimp only)
    | (intro _ _ _ _)
    | (intro _ _ _)
    | (intro _ _)

theorem State.storeAnswer_keeps {s0 : Base} {s : State} (c : Nat) (dst : Nat) (tag : Nat) (late : Option Nat) (h : Keeps s0 s) :
    Keeps s0 (State.storeAnswer s c dst tag late) := by
  unfold State.storeAnswer
  repeat' first
    | (with_reducible assumption)
    | (with_reducible (first | apply State.dropSb_keeps | apply State.modCore_keeps))
    | (dsimp only)
    | split
    | rfl
    | (refine Keeps.snd (by assumption) ?_)
    | (refine Keeps.fst (by assumption) ?_)
    | (intro _ _ _ _)
    | (intro _ _ _)
    | (intro _ _)
    | (with_reducible refine Keeps.upd ?_ ?_ ?_ ?_)

theorem State.loadAnswer_keeps {s0 : Base} {s : State} (c : Nat) (dst : Nat) (tag : Nat) (a : List Byte ⊕ Nat) (h : Keeps s0 s) :
    Keeps s0 (State.loadAnswer s c dst tag a) := by
  unfold State.loadAnswer
  repeat' first
    | (with_reducible assumption)
    | (with_reducible (first | apply State.modCore_keeps))
    | (dsimp only)
    | split
    | rfl
    | (intro _ _ _ _)
    | (intro _ _ _)
    | (intro _ _)
    | (with_reducible refine Keeps.upd ?_ ?_ ?_ ?_)

theorem State.txnFail_keeps {s0 : Base} {s : State} (t : Txn) (st : Nat) (detail : Nat) (late : Nat) (sub : Nat) (h : Keeps s0 s) :
    Keeps s0 (State.txnFail s t st detail late sub) := by
  unfold State.txnFail
  repeat' first
    | (with_reducible assumption)
    | (with_reducible (first | apply State.lnkFinish_keeps | apply State.lnkRead_keeps | apply State.lnkWrite_keeps | apply State.load_keeps | apply State.loadAnswer_keeps | apply State.migFail_keeps | apply State.store_keeps | apply State.storeAnswer_keeps | apply Keeps.ident))
    | (dsimp only)
    | split
    | (refine Keeps.snd (by assumption) ?_)
    | (refine Keeps.fst (by assumption) ?_)
    | (refine Res.of_eq_ok (by assumption) ?_)
    | (refine Res.of_eq_fault (by assumption) ?_)
    | (refine Res.of_eq_wait (by assumption) ?_)
    | (refine Got.of_eq_ok (by assumption) ?_)
    | (refine Got.of_eq_fault (by assumption) ?_)
    | (refine Got.of_eq_wait (by assumption) ?_)

theorem State.routeDown_keeps {s0 : Base} {s : State} (t : Txn) (h : Keeps s0 s) :
    Keeps s0 (State.routeDown s t) := by
  unfold State.routeDown
  repeat' first
    | (with_reducible assumption)
    | (with_reducible (first | apply State.endTxn_keeps | apply State.txnFail_keeps))
    | (dsimp only)

theorem State.response_keeps {s0 : Base} {s : State} (x : InMsg) (fits : TxnKind → Bool) (f : State → Txn → State) (h : Keeps s0 s) (h_f : ∀ (t : State) (b1 : Txn), Keeps s0 t → Keeps s0 (f t b1)) :
    Keeps s0 (State.response s x fits f) := by
  unfold State.response
  repeat' first
    | (with_reducible assumption)
    | (with_reducible (first | apply State.endTxn_keeps | apply State.incReg_keeps | apply h_f))
    | (dsimp only)
    | split
    | (refine Keeps.snd (by assumption) ?_)
    | (refine Keeps.fst (by assumption) ?_)
    | (intro _ _ _ _)
    | (intro _ _ _)
    | (intro _ _)

theorem State.writeAck_keeps {s0 : Base} {s : State} (x : InMsg) (h : Keeps s0 s) :
    Keeps s0 (State.writeAck s x) := by
  unfold State.writeAck
  repeat' first
    | (with_reducible assumption)
    | (with_reducible (first | apply State.lnkAck_keeps | apply State.lnkWrite_keeps | apply State.migAck_keeps | apply State.response_keeps | apply State.store_keeps | apply State.storeAnswer_keeps | apply Keeps.ident))
    | (dsimp only)
    | split
    | (refine Keeps.snd (by assumption) ?_)
    | (refine Keeps.fst (by assumption) ?_)
    | (refine Res.of_eq_ok (by assumption) ?_)
    | (refine Res.of_eq_fault (by assumption) ?_)
    | (refine Res.of_eq_wait (by assumption) ?_)
    | (intro _ _ _ _)
    | (intro _ _ _)
    | (intro _ _)

theorem State.readData_keeps {s0 : Base} {s : State} (x : InMsg) (h : Keeps s0 s) :
    Keeps s0 (State.readData s x) := by
  unfold State.readData
  repeat' first
    | (with_reducible assumption)
    | (with_reducible (first | apply State.lnkData_keeps | apply State.lnkRead_keeps | apply State.load_keeps | apply State.loadAnswer_keeps | apply State.response_keeps | apply Keeps.ident))
    | (dsimp only)
    | split
    | (refine Keeps.snd (by assumption) ?_)
    | (refine Keeps.fst (by assumption) ?_)
    | (refine Got.of_eq_ok (by assumption) ?_)
    | (refine Got.of_eq_fault (by assumption) ?_)
    | (refine Got.of_eq_wait (by assumption) ?_)
    | (intro _ _ _ _)
    | (intro _ _ _)
    | (intro _ _)

theorem State.markAck_keeps {s0 : Base} {s : State} (x : InMsg) (h : Keeps s0 s) :
    Keeps s0 (State.markAck s x) := by
  unfold State.markAck
  repeat' first
    | (with_reducible assumption)
    | (with_reducible (first | apply State.lnkMarked_keeps | apply State.migAck_keeps | apply State.response_keeps | apply Keeps.ident))
    | (dsimp only)
    | split
    | (refine Keeps.snd (by assumption) ?_)
    | (refine Keeps.fst (by assumption) ?_)
    | (intro _ _ _ _)
    | (intro _ _ _)
    | (intro _ _)

theorem State.refused_keeps {s0 : Base} {s : State} (x : InMsg) (h : Keeps s0 s) :
    Keeps s0 (State.refused s x) := by
  unfold State.refused
  repeat' first
    | (with_reducible assumption)
    | (with_reducible (first | apply State.response_keeps | apply State.txnFail_keeps))
    | (dsimp only)
    | (intro _ _ _ _)
    | (intro _ _ _)
    | (intro _ _)

theorem State.openRefused_keeps {s0 : Base} {s : State} (p : Nat) (rid : Nat) (code : Nat) (h : Keeps s0 s) :
    Keeps s0 (State.openRefused s p rid code) := by
  unfold State.openRefused
  repeat' first
    | (with_reducible assumption)
    | (with_reducible (first | apply State.modCmd_keeps | apply State.redRecord_keeps))
    | (dsimp only)
    | split
    | rfl
    | (refine Keeps.snd (by assumption) ?_)
    | (refine Keeps.fst (by assumption) ?_)
    | (intro _ _ _ _)
    | (intro _ _ _)
    | (intro _ _)
    | (with_reducible refine Keeps.upd ?_ ?_ ?_ ?_)

theorem State.redAck_keeps {s0 : Base} {s : State} (x : InMsg) (h : Keeps s0 s) :
    Keeps s0 (State.redAck s x) := by
  unfold State.redAck
  repeat' first
    | (with_reducible assumption)
    | (with_reducible (first | apply State.modRed_keeps | apply State.openRefused_keeps | apply State.response_keeps))
    | (dsimp only)
    | split
    | rfl
    | (refine Keeps.snd (by assumption) ?_)
    | (refine Keeps.fst (by assumption) ?_)
    | (intro _ _ _ _)
    | (intro _ _ _)
    | (intro _ _)
    | (with_reducible refine Keeps.upd ?_ ?_ ?_ ?_)

theorem execMsgWriteAck_keeps {s0 : Base} {s : State} (i : Nat) (h : Keeps s0 s) :
    KeepsOut s0 (execMsgWriteAck i s) := by
  unfold execMsgWriteAck
  repeat' first
    | (with_reducible assumption)
    | (with_reducible (first | apply State.takeIn_keeps | apply State.writeAck_keeps | apply keepsOut_ok))
    | (dsimp only)
    | (intro _ _ _ _)
    | (intro _ _ _)
    | (intro _ _)

theorem execMsgReadData_keeps {s0 : Base} {s : State} (i : Nat) (h : Keeps s0 s) :
    KeepsOut s0 (execMsgReadData i s) := by
  unfold execMsgReadData
  repeat' first
    | (with_reducible assumption)
    | (with_reducible (first | apply State.readData_keeps | apply State.takeIn_keeps | apply keepsOut_ok))
    | (dsimp only)
    | (intro _ _ _ _)
    | (intro _ _ _)
    | (intro _ _)

theorem execMsgMarkAck_keeps {s0 : Base} {s : State} (i : Nat) (h : Keeps s0 s) :
    KeepsOut s0 (execMsgMarkAck i s) := by
  unfold execMsgMarkAck
  repeat' first
    | (with_reducible assumption)
    | (with_reducible (first | apply State.markAck_keeps | apply State.takeIn_keeps | apply keepsOut_ok))
    | (dsimp only)
    | (intro _ _ _ _)
    | (intro _ _ _)
    | (intro _ _)

theorem execMsgRefuse_keeps {s0 : Base} {s : State} (i : Nat) (h : Keeps s0 s) :
    KeepsOut s0 (execMsgRefuse i s) := by
  unfold execMsgRefuse
  repeat' first
    | (with_reducible assumption)
    | (with_reducible (first | apply State.refused_keeps | apply State.takeIn_keeps | apply keepsOut_ok))
    | (dsimp only)
    | (intro _ _ _ _)
    | (intro _ _ _)
    | (intro _ _)

theorem execMsgRedAck_keeps {s0 : Base} {s : State} (i : Nat) (h : Keeps s0 s) :
    KeepsOut s0 (execMsgRedAck i s) := by
  unfold execMsgRedAck
  repeat' first
    | (with_reducible assumption)
    | (with_reducible (first | apply State.redAck_keeps | apply State.takeIn_keeps | apply keepsOut_ok))
    | (dsimp only)
    | (intro _ _ _ _)
    | (intro _ _ _)
    | (intro _ _)

theorem State.txnTimeout_keeps {s0 : Base} {s : State} (dst : Nat) (tag : Nat) (h : Keeps s0 s) :
    Keeps s0 (State.txnTimeout s dst tag) := by
  unfold State.txnTimeout
  repeat' first
    | (with_reducible assumption)
    | (with_reducible (first | apply State.modLinks_keeps | apply State.routeDown_keeps))
    | (dsimp only)
    | split
    | rfl
    | (refine Keeps.snd (by assumption) ?_)
    | (refine Keeps.fst (by assumption) ?_)
    | (intro _ _ _ _)
    | (intro _ _ _)
    | (intro _ _)
    | (with_reducible refine Keeps.upd ?_ ?_ ?_ ?_)

theorem execTransactionTimeout_keeps {s0 : Base} {s : State} (dst : Nat) (tag : Nat) (t : Nat) (h : Keeps s0 s) :
    KeepsOut s0 (execTransactionTimeout dst tag t s) := by
  unfold execTransactionTimeout
  repeat' first
    | (with_reducible assumption)
    | (with_reducible (first | apply State.advance_keeps | apply State.txnTimeout_keeps | apply keepsOut_ok))
    | (dsimp only)

theorem State.tagQuarantineEnd_keeps {s0 : Base} {s : State} (dst : Nat) (tag : Nat) (h : Keeps s0 s) :
    Keeps s0 (State.tagQuarantineEnd s dst tag) := by
  unfold State.tagQuarantineEnd
  repeat' first
    | (with_reducible assumption)
    | (with_reducible (first | apply State.modLinks_keeps))
    | (dsimp only)
    | rfl
    | (intro _ _ _ _)
    | (intro _ _ _)
    | (intro _ _)
    | (with_reducible refine Keeps.upd ?_ ?_ ?_ ?_)

theorem execTagQuarantineEnd_keeps {s0 : Base} {s : State} (dst : Nat) (tag : Nat) (t : Nat) (h : Keeps s0 s) :
    KeepsOut s0 (execTagQuarantineEnd dst tag t s) := by
  unfold execTagQuarantineEnd
  repeat' first
    | (with_reducible assumption)
    | (with_reducible (first | apply State.advance_keeps | apply State.tagQuarantineEnd_keeps | apply keepsOut_ok))
    | (dsimp only)

end Sys2Proof.Machine
end

