-- ==== Sys2Proof/Laws/KeepsFlits.lean ====
section
/-!
SUPPORT. What the operations of Machine/Flits.lean leave in place.
-/

namespace Sys2Proof.Machine

open Sys2Proof

theorem State.badBlock_keeps {s0 : Base} {s : State} (q : Nat) (tick : Bool) (h : Keeps s0 s) :
    Keeps s0 (State.badBlock s q tick) := by
  unfold State.badBlock
  repeat' first
    | (with_reducible assumption)
    | (with_reducible (first | apply State.incReg_keeps | apply State.mbxEvent_keeps | apply State.modPort_keeps | apply State.portRetrain_keeps | apply State.sendNak_keeps))
    | (dsimp only)
    | split
    | rfl
    | (intro _ _ _ _)
    | (intro _ _ _)
    | (intro _ _)
    | (with_reducible refine Keeps.upd ?_ ?_ ?_ ?_)

theorem execBadBlock_keeps {s0 : Base} {s : State} (q : Nat) (tick : Bool) (t : Nat) (h : Keeps s0 s) :
    KeepsOut s0 (execBadBlock q tick t s) := by
  unfold execBadBlock
  repeat' first
    | (with_reducible assumption)
    | (with_reducible (first | apply State.advance_keeps | apply State.badBlock_keeps | apply keepsOut_ok))
    | (dsimp only)

theorem State.takeAck_keeps {s0 : Base} {s : State} (q : Nat) (n : Nat) (h : Keeps s0 s) :
    Keeps s0 (State.takeAck s q n) := by
  unfold State.takeAck
  repeat' first
    | (with_reducible assumption)
    | (with_reducible (first | apply State.modPort_keeps | apply State.violation_keeps))
    | (dsimp only)
    | split
    | rfl
    | (intro _ _ _ _)
    | (intro _ _ _)
    | (intro _ _)
    | (with_reducible refine Keeps.upd ?_ ?_ ?_ ?_)

theorem State.takeHeader_keeps {s0 : Base} {s : State} (q : Nat) (f : List Byte) (h : Keeps s0 s) :
    Keeps s0 (State.takeHeader s q f) := by
  unfold State.takeHeader
  repeat' first
    | (with_reducible assumption)
    | (with_reducible (first | apply Keeps.foldl | apply State.modPort_keeps | apply State.takeAck_keeps))
    | (dsimp only)
    | split
    | (intro _ _ _ _)
    | (intro _ _ _)
    | (intro _ _)

theorem State.takeMsg_keeps {s0 : Base} {s : State} (q : Nat) (slot : RxSlot) (m : Msg) (h : Keeps s0 s) :
    Keeps s0 (State.takeMsg s q slot m) := by
  unfold State.takeMsg
  repeat' first
    | (with_reducible assumption)
    | (with_reducible (first | apply State.queueMsg_keeps | apply State.refuseRec_keeps | apply State.sendMsg_keeps | apply State.toInbox_keeps))
    | (dsimp only)
    | split
    | (refine Keeps.snd (by assumption) ?_)
    | (refine Keeps.fst (by assumption) ?_)

theorem State.acceptData_keeps {s0 : Base} {s : State} (q : Nat) (f : List Byte) (h : Keeps s0 s) :
    Keeps s0 (State.acceptData s q f) := by
  unfold State.acceptData
  repeat' first
    | (with_reducible assumption)
    | (with_reducible (first | apply Keeps.foldl | apply State.freeSlot_keeps | apply State.inc64_keeps | apply State.modPort_keeps | apply State.refuse_keeps | apply State.rxTake_keeps | apply State.sendNak_keeps | apply State.takeMsg_keeps | apply State.violation_keeps))
    | (dsimp only)
    | split
    | rfl
    | (refine Keeps.snd (by assumption) ?_)
    | (refine Keeps.fst (by assumption) ?_)
    | (intro _ _ _ _)
    | (intro _ _ _)
    | (intro _ _)
    | (with_reducible refine Keeps.upd ?_ ?_ ?_ ?_)

theorem State.dataFlit_keeps {s0 : Base} {s : State} (q : Nat) (f : List Byte) (h : Keeps s0 s) :
    Keeps s0 (State.dataFlit s q f) := by
  unfold State.dataFlit
  repeat' first
    | (with_reducible assumption)
    | (with_reducible (first | apply State.acceptData_keeps | apply State.sendNak_keeps))
    | (dsimp only)
    | split

theorem State.nakFlit_keeps {s0 : Base} {s : State} (q : Nat) (f : List Byte) (h : Keeps s0 s) :
    Keeps s0 (State.nakFlit s q f) := by
  unfold State.nakFlit
  repeat' first
    | (with_reducible assumption)
    | (with_reducible (first | apply State.incReg_keeps | apply State.modPort_keeps | apply State.portRetrain_keeps))
    | (dsimp only)
    | split
    | rfl
    | (intro _ _ _ _)
    | (intro _ _ _)
    | (intro _ _)
    | (with_reducible refine Keeps.upd ?_ ?_ ?_ ?_)

theorem State.receive_keeps {s0 : Base} {s : State} (q : Nat) (kind : Nat) (block : List Byte) (f : State → List Byte → State) (h : Keeps s0 s) (h_f : ∀ (t : State) (b1 : List Byte), Keeps s0 t → Keeps s0 (f t b1)) :
    Keeps s0 (State.receive s q kind block f) := by
  unfold State.receive
  repeat' first
    | (with_reducible assumption)
    | (with_reducible (first | apply State.badBlock_keeps | apply State.incReg_keeps | apply State.sendNak_keeps | apply State.takeHeader_keeps | apply State.violation_keeps | apply h_f))
    | (dsimp only)
    | split
    | (refine Keeps.snd (by assumption) ?_)
    | (refine Keeps.fst (by assumption) ?_)

theorem execDataFlit_keeps {s0 : Base} {s : State} (q : Nat) (block : List Byte) (t : Nat) (h : Keeps s0 s) :
    KeepsOut s0 (execDataFlit q block t s) := by
  unfold execDataFlit
  repeat' first
    | (with_reducible assumption)
    | (with_reducible (first | apply State.advance_keeps | apply State.dataFlit_keeps | apply State.receive_keeps | apply keepsOut_ok))
    | (dsimp only)
    | (intro _ _ _ _)
    | (intro _ _ _)
    | (intro _ _)

theorem execNullFlit_keeps {s0 : Base} {s : State} (q : Nat) (block : List Byte) (t : Nat) (h : Keeps s0 s) :
    KeepsOut s0 (execNullFlit q block t s) := by
  unfold execNullFlit
  repeat' first
    | (with_reducible assumption)
    | (with_reducible (first | apply State.advance_keeps | apply State.receive_keeps | apply keepsOut_ok))
    | (dsimp only)
    | (intro _ _ _ _)
    | (intro _ _ _)
    | (intro _ _)

theorem execNakFlit_keeps {s0 : Base} {s : State} (q : Nat) (block : List Byte) (t : Nat) (h : Keeps s0 s) :
    KeepsOut s0 (execNakFlit q block t s) := by
  unfold execNakFlit
  repeat' first
    | (with_reducible assumption)
    | (with_reducible (first | apply State.advance_keeps | apply State.nakFlit_keeps | apply State.receive_keeps | apply keepsOut_ok))
    | (dsimp only)
    | (intro _ _ _ _)
    | (intro _ _ _)
    | (intro _ _)

theorem State.noteSent_keeps {s0 : Base} {s : State} (m : Msg) (h : Keeps s0 s) :
    Keeps s0 (State.noteSent s m) := by
  unfold State.noteSent
  repeat' first
    | (with_reducible assumption)
    | (with_reducible (first | apply State.modLinks_keeps))
    | (dsimp only)
    | split
    | rfl
    | (intro _ _ _ _)
    | (intro _ _ _)
    | (intro _ _)
    | (with_reducible refine Keeps.upd ?_ ?_ ?_ ?_)

theorem State.sendData_keeps {s0 : Base} {s : State} (q : Nat) (dir : Nat) (key : Nat) (ms : List TxMsg) (h : Keeps s0 s) :
    Keeps s0 (State.sendData s q dir key ms) := by
  unfold State.sendData
  repeat' first
    | (with_reducible assumption)
    | (with_reducible (first | apply Keeps.foldl | apply State.freeSlot_keeps | apply State.inc64_keeps | apply State.modLinks_keeps | apply State.modPort_keeps | apply State.noteSent_keeps | apply State.sendFlit_keeps))
    | (dsimp only)
    | split
    | rfl
    | (intro _ _ _ _)
    | (intro _ _ _)
    | (intro _ _)
    | (with_reducible refine Keeps.upd ?_ ?_ ?_ ?_)

theorem State.transmit_keeps {s0 : Base} {s : State} (q : Nat) (h : Keeps s0 s) :
    Keeps s0 (State.transmit s q) := by
  unfold State.transmit
  try generalize List.range 4 = l4
  repeat' first
    | (with_reducible assumption)
    | (with_reducible (first | apply State.modPort_keeps | apply State.sendData_keeps | apply State.sendFlit_keeps))
    | (dsimp only)
    | split
    | rfl
    | (refine Keeps.snd (by assumption) ?_)
    | (refine Keeps.fst (by assumption) ?_)
    | (intro _ _ _ _)
    | (intro _ _ _)
    | (intro _ _)
    | (with_reducible refine Keeps.upd ?_ ?_ ?_ ?_)

theorem execFlitTransmit_keeps {s0 : Base} {s : State} (q : Nat) (t : Nat) (h : Keeps s0 s) :
    KeepsOut s0 (execFlitTransmit q t s) := by
  unfold execFlitTransmit
  repeat' first
    | (with_reducible assumption)
    | (with_reducible (first | apply State.advance_keeps | apply State.transmit_keeps | apply keepsOut_ok))
    | (dsimp only)

theorem State.retryTimeout_keeps {s0 : Base} {s : State} (q : Nat) (h : Keeps s0 s) :
    Keeps s0 (State.retryTimeout s q) := by
  unfold State.retryTimeout
  repeat' first
    | (with_reducible assumption)
    | (with_reducible (first | apply State.modPort_keeps))
    | (dsimp only)
    | split
    | rfl
    | (intro _ _ _ _)
    | (intro _ _ _)
    | (intro _ _)
    | (with_reducible refine Keeps.upd ?_ ?_ ?_ ?_)

theorem execRetryTimeout_keeps {s0 : Base} {s : State} (q : Nat) (t : Nat) (h : Keeps s0 s) :
    KeepsOut s0 (execRetryTimeout q t s) := by
  unfold execRetryTimeout
  repeat' first
    | (with_reducible assumption)
    | (with_reducible (first | apply State.advance_keeps | apply State.retryTimeout_keeps | apply keepsOut_ok))
    | (dsimp only)

theorem State.trainingComplete_keeps {s0 : Base} {s : State} (q : Nat) (h : Keeps s0 s) :
    Keeps s0 (State.trainingComplete s q) := by
  unfold State.trainingComplete
  try generalize List.range 5 = l5
  repeat' first
    | (with_reducible assumption)
    | (with_reducible (first | apply Keeps.foldl | apply State.emit_keeps | apply State.modPort_keeps))
    | (dsimp only)
    | split
    | rfl
    | (refine Keeps.snd (by assumption) ?_)
    | (refine Keeps.fst (by assumption) ?_)
    | (intro _ _ _ _)
    | (intro _ _ _)
    | (intro _ _)
    | (with_reducible refine Keeps.upd ?_ ?_ ?_ ?_)

theorem execTrainingComplete_keeps {s0 : Base} {s : State} (q : Nat) (t : Nat) (h : Keeps s0 s) :
    KeepsOut s0 (execTrainingComplete q t s) := by
  unfold execTrainingComplete
  repeat' first
    | (with_reducible assumption)
    | (with_reducible (first | apply State.advance_keeps | apply State.trainingComplete_keeps | apply keepsOut_ok))
    | (dsimp only)

theorem execTrainingFail_keeps {s0 : Base} {s : State} (q : Nat) (t : Nat) (h : Keeps s0 s) :
    KeepsOut s0 (execTrainingFail q t s) := by
  unfold execTrainingFail
  repeat' first
    | (with_reducible assumption)
    | (with_reducible (first | apply State.advance_keeps | apply State.modPort_keeps | apply keepsOut_ok))
    | (dsimp only)
    | split
    | rfl
    | (intro _ _ _ _)
    | (intro _ _ _)
    | (intro _ _)
    | (with_reducible refine Keeps.upd ?_ ?_ ?_ ?_)

theorem State.dropBuffers_keeps {s0 : Base} {s : State} (q : Nat) (h : Keeps s0 s) :
    Keeps s0 (State.dropBuffers s q) := by
  unfold State.dropBuffers
  repeat' first
    | (with_reducible assumption)
    | (with_reducible (first | apply Keeps.foldl | apply State.clearPort_keeps | apply State.routeDown_keeps))
    | (dsimp only)
    | split
    | (refine Keeps.snd (by assumption) ?_)
    | (refine Keeps.fst (by assumption) ?_)
    | (intro _ _ _ _)
    | (intro _ _ _)
    | (intro _ _)

theorem State.retrainDeadline_keeps {s0 : Base} {s : State} (q : Nat) (h : Keeps s0 s) :
    Keeps s0 (State.retrainDeadline s q) := by
  unfold State.retrainDeadline
  repeat' first
    | (with_reducible assumption)
    | (with_reducible (first | apply State.dropBuffers_keeps | apply State.portDown_keeps))
    | (dsimp only)
    | split

theorem execRetrainDeadline_keeps {s0 : Base} {s : State} (q : Nat) (t : Nat) (h : Keeps s0 s) :
    KeepsOut s0 (execRetrainDeadline q t s) := by
  unfold execRetrainDeadline
  repeat' first
    | (with_reducible assumption)
    | (with_reducible (first | apply State.advance_keeps | apply State.retrainDeadline_keeps | apply keepsOut_ok))
    | (dsimp only)

theorem State.mbxRetrain_keeps {s0 : Base} {s : State} (q : Nat) (h : Keeps s0 s) :
    Keeps s0 (State.mbxRetrain s q) := by
  unfold State.mbxRetrain
  repeat' first
    | (with_reducible assumption)
    | (with_reducible (first | apply State.modPort_keeps | apply State.portRetrain_keeps | apply State.startTraining_keeps))
    | (dsimp only)
    | split
    | rfl
    | (refine Keeps.snd (by assumption) ?_)
    | (refine Keeps.fst (by assumption) ?_)
    | (intro _ _ _ _)
    | (intro _ _ _)
    | (intro _ _)
    | (with_reducible refine Keeps.upd ?_ ?_ ?_ ?_)

theorem execMbxRetrain_keeps {s0 : Base} {s : State} (q : Nat) (h : Keeps s0 s) :
    KeepsOut s0 (execMbxRetrain q s) := by
  unfold execMbxRetrain
  repeat' first
    | (with_reducible assumption)
    | (with_reducible (first | apply State.mbxRetrain_keeps | apply State.pfWrite_keeps | apply keepsOut_ok))
    | (dsimp only)
    | (intro _ _ _ _)
    | (intro _ _ _)
    | (intro _ _)

theorem State.mbxDark_keeps {s0 : Base} {s : State} (q : Nat) (h : Keeps s0 s) :
    Keeps s0 (State.mbxDark s q) := by
  unfold State.mbxDark
  repeat' first
    | (with_reducible assumption)
    | (with_reducible (first | apply State.dropBuffers_keeps | apply State.modPort_keeps | apply State.portDown_keeps))
    | (dsimp only)
    | rfl
    | (intro _ _ _ _)
    | (intro _ _ _)
    | (intro _ _)
    | (with_reducible refine Keeps.upd ?_ ?_ ?_ ?_)

theorem execMbxDark_keeps {s0 : Base} {s : State} (q : Nat) (h : Keeps s0 s) :
    KeepsOut s0 (execMbxDark q s) := by
  unfold execMbxDark
  repeat' first
    | (with_reducible assumption)
    | (with_reducible (first | apply State.mbxDark_keeps | apply State.pfWrite_keeps | apply keepsOut_ok))
    | (dsimp only)
    | (intro _ _ _ _)
    | (intro _ _ _)
    | (intro _ _)

theorem State.echo_keeps {s0 : Base} {s : State} (q : Nat) (sentAt : Nat) (turn : Nat) (h : Keeps s0 s) :
    Keeps s0 (State.echo s q sentAt turn) := by
  unfold State.echo
  repeat' first
    | (with_reducible assumption)
    | (with_reducible (first | apply State.emit_keeps | apply State.modPort_keeps | apply State.trip_keeps))
    | (dsimp only)
    | split
    | rfl
    | (intro _ _ _ _)
    | (intro _ _ _)
    | (intro _ _)
    | (with_reducible refine Keeps.upd ?_ ?_ ?_ ?_)

theorem State.identMsg_keeps {s0 : Base} {s : State} (q : Nat) (b : List Byte) (h : Keeps s0 s) :
    Keeps s0 (State.identMsg s q b) := by
  unfold State.identMsg
  try generalize List.range 17 = l17
  try generalize List.range 4 = l4
  repeat' first
    | (with_reducible assumption)
    | (with_reducible (first | apply State.dropBuffers_keeps | apply State.logErr_keeps | apply State.mbxEvent_keeps | apply State.modPort_keeps | apply State.pltEvent_keeps | apply State.portDown_keeps))
    | (dsimp only)
    | split
    | rfl
    | (intro _ _ _ _)
    | (intro _ _ _)
    | (intro _ _)
    | (with_reducible refine Keeps.upd ?_ ?_ ?_ ?_)

theorem State.trainFlit_keeps {s0 : Base} {s : State} (q : Nat) (m : TrainMsg) (h : Keeps s0 s) :
    Keeps s0 (State.trainFlit s q m) := by
  unfold State.trainFlit
  repeat' first
    | (with_reducible assumption)
    | (with_reducible (first | apply State.echo_keeps | apply State.emit_keeps | apply State.identMsg_keeps | apply State.violation_keeps))
    | (dsimp only)
    | split
    | (refine Keeps.snd (by assumption) ?_)
    | (refine Keeps.fst (by assumption) ?_)

theorem execTrainFlit_keeps {s0 : Base} {s : State} (q : Nat) (m : TrainMsg) (t : Nat) (h : Keeps s0 s) :
    KeepsOut s0 (execTrainFlit q m t s) := by
  unfold execTrainFlit
  repeat' first
    | (with_reducible assumption)
    | (with_reducible (first | apply State.advance_keeps | apply State.trainFlit_keeps | apply keepsOut_ok))
    | (dsimp only)

theorem execBlockLockLoss_keeps {s0 : Base} {s : State} (q : Nat) (t : Nat) (h : Keeps s0 s) :
    KeepsOut s0 (execBlockLockLoss q t s) := by
  unfold execBlockLockLoss
  repeat' first
    | (with_reducible assumption)
    | (with_reducible (first | apply State.advance_keeps | apply State.portRetrain_keeps | apply keepsOut_ok))
    | (dsimp only)

theorem execSignalOnDarkPort_keeps {s0 : Base} {s : State} (q : Nat) (h : Keeps s0 s) :
    KeepsOut s0 (execSignalOnDarkPort q s) := by
  unfold execSignalOnDarkPort
  repeat' first
    | (with_reducible assumption)
    | (with_reducible (first | apply State.logErr_keeps | apply State.pltEvent_keeps | apply keepsOut_ok))
    | (dsimp only)
    | split
    | rfl
    | (with_reducible refine Keeps.upd ?_ ?_ ?_ ?_)

end Sys2Proof.Machine
end

