-- ==== Sys2Proof/Laws/KeepsGrainOps.lean ====
section
/-!
SUPPORT. What the operations of Machine/GrainOps.lean leave in place.
-/

namespace Sys2Proof.Machine

open Sys2Proof

theorem State.setGrain_keeps {s0 : Base} {s : State} (g : Nat) (n : Nat) (x : GStream) (h : Keeps s0 s) :
    Keeps s0 (State.setGrain s g n x) := by
  unfold State.setGrain
  repeat' first
    | (with_reducible assumption)
    | (dsimp only)
    | rfl
    | (with_reducible refine Keeps.upd ?_ ?_ ?_ ?_)

theorem State.reserve_keeps {s0 : Base} {s : State} (g : Nat) (n : Nat) (r : Nat) (h : Keeps s0 s) :
    Keeps s0 (State.reserve s g n r).2 := by
  unfold State.reserve
  repeat' first
    | (with_reducible assumption)
    | (with_reducible (first | apply State.setGrain_keeps))
    | (dsimp only)

theorem State.reserveSr_keeps {s0 : Base} {s : State} (c : Nat) (wanted : Bool) (n : Nat) (h : Keeps s0 s) :
    Keeps s0 (State.reserveSr s c wanted n).2 := by
  unfold State.reserveSr
  repeat' first
    | (with_reducible assumption)
    | (with_reducible (first | apply State.reserve_keeps))
    | (dsimp only)
    | split

end Sys2Proof.Machine
end

