-- ==== Sys2Proof/Laws/KeepsEncoding.lean ====
section
/-!
SUPPORT. What the operations of Machine/Encoding.lean leave in place.
-/

namespace Sys2Proof.Machine

open Sys2Proof

end Sys2Proof.Machine
end

