-- ==== Sys2Proof/Laws/KeepsFlags.lean ====
section
/-!
SUPPORT. What the operations of Machine/Flags.lean leave in place.
-/

namespace Sys2Proof.Machine

open Sys2Proof

theorem State.fpEnd_keeps {s0 : Base} {s : State} (c : Nat) (fl : Nat) (h : Keeps s0 s) :
    Keeps s0 (State.fpEnd s c fl) := by
  unfold State.fpEnd
  repeat' first
    | (with_reducible assumption)
    | (with_reducible (first | apply State.modCtl_keeps))
    | (dsimp only)
    | split
    | rfl
    | (intro _ _ _ _)
    | (intro _ _ _)
    | (intro _ _)
    | (with_reducible refine Keeps.upd ?_ ?_ ?_ ?_)

theorem State.fpFinish_keeps {s0 : Base} {s : State} (c : Nat) (fl : Nat) (wr : State → State) (h : Keeps s0 s) (h_wr : ∀ (t : State), Keeps s0 t → Keeps s0 (wr t)) :
    Keeps s0 (State.fpFinish s c fl wr).st := by
  unfold State.fpFinish
  repeat' first
    | (with_reducible assumption)
    | (with_reducible (first | apply State.fpEnd_keeps | apply Res.ok_keeps | apply Res.fault_keeps | apply Res.wait_keeps | apply h_wr))
    | (dsimp only)
    | split
    | rfl
    | (with_reducible refine Keeps.upd ?_ ?_ ?_ ?_)

end Sys2Proof.Machine
end

