-- ==== Sys2Proof/Laws/KeepsInteger.lean ====
section
/-!
SUPPORT. What the operations of Machine/Integer.lean leave in place.
-/

namespace Sys2Proof.Machine

open Sys2Proof

theorem Res.ofG_keeps {s0 : Base} {s : State} (c : Nat) (rd : Nat) (r : Option Dword) (h : Keeps s0 s) :
    Keeps s0 (Res.ofG s c rd r).st := by
  unfold Res.ofG
  repeat' first
    | (with_reducible assumption)
    | (with_reducible (first | apply State.setG_keeps | apply Res.ok_keeps | apply Res.fault_keeps | apply Res.wait_keeps))
    | (dsimp only)
    | split
    | (refine Keeps.snd (by assumption) ?_)
    | (refine Keeps.fst (by assumption) ?_)

theorem semImm_keeps {s0 : Base} {s : State} (c : Nat) (w : Word) (h : Keeps s0 s) :
    Keeps s0 (semImm c w s).st := by
  unfold semImm
  repeat' first
    | (with_reducible assumption)
    | (with_reducible (first | apply Res.ofG_keeps | apply Res.ok_keeps | apply Res.fault_keeps | apply Res.wait_keeps))
    | (dsimp only)
    | split
    | (refine Res.of_eq_ok (by assumption) ?_)
    | (refine Res.of_eq_fault (by assumption) ?_)
    | (refine Res.of_eq_wait (by assumption) ?_)

theorem semAlu_keeps {s0 : Base} {s : State} (c : Nat) (w : Word) (h : Keeps s0 s) :
    Keeps s0 (semAlu c w s).st := by
  unfold semAlu
  repeat' first
    | (with_reducible assumption)
    | (with_reducible (first | apply Res.ofG_keeps | apply Res.ok_keeps | apply Res.fault_keeps | apply Res.wait_keeps))
    | (dsimp only)
    | split
    | (refine Res.of_eq_ok (by assumption) ?_)
    | (refine Res.of_eq_fault (by assumption) ?_)
    | (refine Res.of_eq_wait (by assumption) ?_)

theorem semMulDiv_keeps {s0 : Base} {s : State} (c : Nat) (w : Word) (h : Keeps s0 s) :
    Keeps s0 (semMulDiv c w s).st := by
  unfold semMulDiv
  repeat' first
    | (with_reducible assumption)
    | (with_reducible (first | apply State.bump_keeps | apply Res.ofG_keeps | apply Res.ok_keeps | apply Res.fault_keeps | apply Res.wait_keeps | apply Res.bind_keeps))
    | (dsimp only)
    | split
    | (refine Res.of_eq_ok (by assumption) ?_)
    | (refine Res.of_eq_fault (by assumption) ?_)
    | (refine Res.of_eq_wait (by assumption) ?_)
    | (intro _ _ _ _)
    | (intro _ _ _)
    | (intro _ _)

theorem execImmediateOp_keeps {s0 : Base} {s : State} (c : Nat) (w : Word) (h : Keeps s0 s) :
    KeepsOut s0 (execImmediateOp c w s) := by
  unfold execImmediateOp
  repeat' first
    | (with_reducible assumption)
    | (with_reducible (first | apply State.execute_keeps | apply semImm_keeps | apply keepsOut_ok))
    | (dsimp only)
    | (refine Res.of_eq_ok (by assumption) ?_)
    | (refine Res.of_eq_fault (by assumption) ?_)
    | (refine Res.of_eq_wait (by assumption) ?_)
    | (intro _ _ _ _)
    | (intro _ _ _)
    | (intro _ _)

theorem execAlu_keeps {s0 : Base} {s : State} (c : Nat) (w : Word) (h : Keeps s0 s) :
    KeepsOut s0 (execAlu c w s) := by
  unfold execAlu
  repeat' first
    | (with_reducible assumption)
    | (with_reducible (first | apply State.execute_keeps | apply semAlu_keeps | apply keepsOut_ok))
    | (dsimp only)
    | (refine Res.of_eq_ok (by assumption) ?_)
    | (refine Res.of_eq_fault (by assumption) ?_)
    | (refine Res.of_eq_wait (by assumption) ?_)
    | (intro _ _ _ _)
    | (intro _ _ _)
    | (intro _ _)

theorem execMuldiv_keeps {s0 : Base} {s : State} (c : Nat) (w : Word) (h : Keeps s0 s) :
    KeepsOut s0 (execMuldiv c w s) := by
  unfold execMuldiv
  repeat' first
    | (with_reducible assumption)
    | (with_reducible (first | apply State.execute_keeps | apply semMulDiv_keeps | apply keepsOut_ok))
    | (dsimp only)
    | (refine Res.of_eq_ok (by assumption) ?_)
    | (refine Res.of_eq_fault (by assumption) ?_)
    | (refine Res.of_eq_wait (by assumption) ?_)
    | (intro _ _ _ _)
    | (intro _ _ _)
    | (intro _ _)

theorem semLoad_keeps {s0 : Base} {s : State} (c : Nat) (w : Word) (h : Keeps s0 s) :
    Keeps s0 (semLoad c w s).st := by
  unfold semLoad
  repeat' first
    | (with_reducible assumption)
    | (with_reducible (first | apply State.load_keeps | apply State.setF_keeps | apply State.setG_keeps | apply Res.ok_keeps | apply Res.fault_keeps | apply Res.wait_keeps | apply Got.andThen_keeps))
    | (dsimp only)
    | split
    | (refine Keeps.snd (by assumption) ?_)
    | (refine Keeps.fst (by assumption) ?_)
    | (refine Got.of_eq_ok (by assumption) ?_)
    | (refine Got.of_eq_fault (by assumption) ?_)
    | (refine Got.of_eq_wait (by assumption) ?_)
    | (intro _ _ _ _)
    | (intro _ _ _)
    | (intro _ _)

theorem semStore_keeps {s0 : Base} {s : State} (c : Nat) (w : Word) (h : Keeps s0 s) :
    Keeps s0 (semStore c w s).st := by
  unfold semStore
  repeat' first
    | (with_reducible assumption)
    | (with_reducible (first | apply State.store_keeps | apply Res.ok_keeps | apply Res.fault_keeps | apply Res.wait_keeps))
    | (dsimp only)
    | split
    | (refine Res.of_eq_ok (by assumption) ?_)
    | (refine Res.of_eq_fault (by assumption) ?_)
    | (refine Res.of_eq_wait (by assumption) ?_)

theorem execLoad_keeps {s0 : Base} {s : State} (c : Nat) (w : Word) (h : Keeps s0 s) :
    KeepsOut s0 (execLoad c w s) := by
  unfold execLoad
  repeat' first
    | (with_reducible assumption)
    | (with_reducible (first | apply State.execute_keeps | apply semLoad_keeps | apply keepsOut_ok))
    | (dsimp only)
    | (refine Res.of_eq_ok (by assumption) ?_)
    | (refine Res.of_eq_fault (by assumption) ?_)
    | (refine Res.of_eq_wait (by assumption) ?_)
    | (intro _ _ _ _)
    | (intro _ _ _)
    | (intro _ _)

theorem execStore_keeps {s0 : Base} {s : State} (c : Nat) (w : Word) (h : Keeps s0 s) :
    KeepsOut s0 (execStore c w s) := by
  unfold execStore
  repeat' first
    | (with_reducible assumption)
    | (with_reducible (first | apply State.execute_keeps | apply semStore_keeps | apply keepsOut_ok))
    | (dsimp only)
    | (refine Res.of_eq_ok (by assumption) ?_)
    | (refine Res.of_eq_fault (by assumption) ?_)
    | (refine Res.of_eq_wait (by assumption) ?_)
    | (intro _ _ _ _)
    | (intro _ _ _)
    | (intro _ _)

theorem semBranch_keeps {s0 : Base} {s : State} (c : Nat) (w : Word) (h : Keeps s0 s) :
    Keeps s0 (semBranch c w s).st := by
  unfold semBranch
  repeat' first
    | (with_reducible assumption)
    | (with_reducible (first | apply State.btbResolve_keeps | apply Res.ok_keeps | apply Res.fault_keeps | apply Res.wait_keeps | apply TransRes.go_keeps | apply TransRes.fault_keeps | apply TransRes.wait_keeps))
    | (dsimp only)
    | split
    | rfl
    | (refine Keeps.snd (by assumption) ?_)
    | (refine Keeps.fst (by assumption) ?_)
    | (with_reducible refine Keeps.upd ?_ ?_ ?_ ?_)

theorem semJ_keeps {s0 : Base} {s : State} (c : Nat) (w : Word) (h : Keeps s0 s) :
    Keeps s0 (semJ c w s).st := by
  unfold semJ
  repeat' first
    | (with_reducible assumption)
    | (with_reducible (first | apply State.btbResolve_keeps | apply Res.ok_keeps | apply Res.fault_keeps | apply Res.wait_keeps | apply TransRes.go_keeps | apply TransRes.fault_keeps | apply TransRes.wait_keeps))
    | (dsimp only)
    | split
    | rfl
    | (with_reducible refine Keeps.upd ?_ ?_ ?_ ?_)

theorem semJal_keeps {s0 : Base} {s : State} (c : Nat) (w : Word) (h : Keeps s0 s) :
    Keeps s0 (semJal c w s).st := by
  unfold semJal
  repeat' first
    | (with_reducible assumption)
    | (with_reducible (first | apply State.btbResolve_keeps | apply State.setG_keeps | apply Res.ok_keeps | apply Res.fault_keeps | apply Res.wait_keeps | apply TransRes.go_keeps | apply TransRes.fault_keeps | apply TransRes.wait_keeps))
    | (dsimp only)
    | split
    | rfl
    | (with_reducible refine Keeps.upd ?_ ?_ ?_ ?_)

theorem semJalr_keeps {s0 : Base} {s : State} (c : Nat) (w : Word) (h : Keeps s0 s) :
    Keeps s0 (semJalr c w s).st := by
  unfold semJalr
  repeat' first
    | (with_reducible assumption)
    | (with_reducible (first | apply State.btbResolve_keeps | apply State.setG_keeps | apply Res.ok_keeps | apply Res.fault_keeps | apply Res.wait_keeps | apply TransRes.go_keeps | apply TransRes.fault_keeps | apply TransRes.wait_keeps))
    | (dsimp only)
    | split
    | rfl
    | (with_reducible refine Keeps.upd ?_ ?_ ?_ ?_)

theorem execBranch_keeps {s0 : Base} {s : State} (c : Nat) (w : Word) (h : Keeps s0 s) :
    KeepsOut s0 (execBranch c w s) := by
  unfold execBranch
  repeat' first
    | (with_reducible assumption)
    | (with_reducible (first | apply State.executeTransfer_keeps | apply semBranch_keeps | apply keepsOut_ok))
    | (dsimp only)
    | (refine Res.of_eq_ok (by assumption) ?_)
    | (refine Res.of_eq_fault (by assumption) ?_)
    | (refine Res.of_eq_wait (by assumption) ?_)
    | (refine TransRes.of_eq_go (by assumption) ?_)
    | (refine TransRes.of_eq_fault (by assumption) ?_)
    | (refine TransRes.of_eq_wait (by assumption) ?_)
    | (intro _ _ _ _)
    | (intro _ _ _)
    | (intro _ _)

theorem execJ_keeps {s0 : Base} {s : State} (c : Nat) (w : Word) (h : Keeps s0 s) :
    KeepsOut s0 (execJ c w s) := by
  unfold execJ
  repeat' first
    | (with_reducible assumption)
    | (with_reducible (first | apply State.executeTransfer_keeps | apply semJ_keeps | apply keepsOut_ok))
    | (dsimp only)
    | (refine Res.of_eq_ok (by assumption) ?_)
    | (refine Res.of_eq_fault (by assumption) ?_)
    | (refine Res.of_eq_wait (by assumption) ?_)
    | (refine TransRes.of_eq_go (by assumption) ?_)
    | (refine TransRes.of_eq_fault (by assumption) ?_)
    | (refine TransRes.of_eq_wait (by assumption) ?_)
    | (intro _ _ _ _)
    | (intro _ _ _)
    | (intro _ _)

theorem execJal_keeps {s0 : Base} {s : State} (c : Nat) (w : Word) (h : Keeps s0 s) :
    KeepsOut s0 (execJal c w s) := by
  unfold execJal
  repeat' first
    | (with_reducible assumption)
    | (with_reducible (first | apply State.executeTransfer_keeps | apply semJal_keeps | apply keepsOut_ok))
    | (dsimp only)
    | (refine Res.of_eq_ok (by assumption) ?_)
    | (refine Res.of_eq_fault (by assumption) ?_)
    | (refine Res.of_eq_wait (by assumption) ?_)
    | (refine TransRes.of_eq_go (by assumption) ?_)
    | (refine TransRes.of_eq_fault (by assumption) ?_)
    | (refine TransRes.of_eq_wait (by assumption) ?_)
    | (intro _ _ _ _)
    | (intro _ _ _)
    | (intro _ _)

theorem execJalr_keeps {s0 : Base} {s : State} (c : Nat) (w : Word) (h : Keeps s0 s) :
    KeepsOut s0 (execJalr c w s) := by
  unfold execJalr
  repeat' first
    | (with_reducible assumption)
    | (with_reducible (first | apply State.executeTransfer_keeps | apply semJalr_keeps | apply keepsOut_ok))
    | (dsimp only)
    | (refine Res.of_eq_ok (by assumption) ?_)
    | (refine Res.of_eq_fault (by assumption) ?_)
    | (refine Res.of_eq_wait (by assumption) ?_)
    | (refine TransRes.of_eq_go (by assumption) ?_)
    | (refine TransRes.of_eq_fault (by assumption) ?_)
    | (refine TransRes.of_eq_wait (by assumption) ?_)
    | (intro _ _ _ _)
    | (intro _ _ _)
    | (intro _ _)

end Sys2Proof.Machine
end

