-- ==== Sys2Proof/Laws/KeepsScalarFp.lean ====
section
/-!
SUPPORT. What the operations of Machine/ScalarFp.lean leave in place.
-/

namespace Sys2Proof.Machine

open Sys2Proof

theorem semFpOp_keeps {s0 : Base} {s : State} (c : Nat) (w : Word) (h : Keeps s0 s) :
    Keeps s0 (semFpOp c w s).st := by
  unfold semFpOp
  repeat' first
    | (with_reducible assumption)
    | (with_reducible (first | apply State.bump_keeps | apply State.fpFinish_keeps | apply State.setF_keeps | apply Res.ok_keeps | apply Res.fault_keeps | apply Res.wait_keeps | apply Res.bind_keeps))
    | (dsimp only)
    | split
    | (refine Res.of_eq_ok (by assumption) ?_)
    | (refine Res.of_eq_fault (by assumption) ?_)
    | (refine Res.of_eq_wait (by assumption) ?_)
    | (intro _ _ _ _)
    | (intro _ _ _)
    | (intro _ _)

theorem semFmaOp_keeps {s0 : Base} {s : State} (c : Nat) (w : Word) (h : Keeps s0 s) :
    Keeps s0 (semFmaOp c w s).st := by
  unfold semFmaOp
  repeat' first
    | (with_reducible assumption)
    | (with_reducible (first | apply State.fpFinish_keeps | apply State.setF_keeps | apply Res.ok_keeps | apply Res.fault_keeps | apply Res.wait_keeps))
    | (dsimp only)
    | split
    | (refine Res.of_eq_ok (by assumption) ?_)
    | (refine Res.of_eq_fault (by assumption) ?_)
    | (refine Res.of_eq_wait (by assumption) ?_)
    | (intro _ _ _ _)
    | (intro _ _ _)
    | (intro _ _)

theorem semFpCompare_keeps {s0 : Base} {s : State} (c : Nat) (w : Word) (h : Keeps s0 s) :
    Keeps s0 (semFpCompare c w s).st := by
  unfold semFpCompare
  repeat' first
    | (with_reducible assumption)
    | (with_reducible (first | apply State.fpFinish_keeps | apply State.setG_keeps | apply Res.ok_keeps | apply Res.fault_keeps | apply Res.wait_keeps))
    | (dsimp only)
    | split
    | (refine Res.of_eq_ok (by assumption) ?_)
    | (refine Res.of_eq_fault (by assumption) ?_)
    | (refine Res.of_eq_wait (by assumption) ?_)
    | (intro _ _ _ _)
    | (intro _ _ _)
    | (intro _ _)

theorem semFkind_keeps {s0 : Base} {s : State} (c : Nat) (w : Word) (h : Keeps s0 s) :
    Keeps s0 (semFkind c w s).st := by
  unfold semFkind
  repeat' first
    | (with_reducible assumption)
    | (with_reducible (first | apply State.setG_keeps | apply Res.ok_keeps | apply Res.fault_keeps | apply Res.wait_keeps))
    | (dsimp only)
    | split
    | (intro _ _ _ _)
    | (intro _ _ _)
    | (intro _ _)

theorem semFnarrow_keeps {s0 : Base} {s : State} (c : Nat) (w : Word) (h : Keeps s0 s) :
    Keeps s0 (semFnarrow c w s).st := by
  unfold semFnarrow
  repeat' first
    | (with_reducible assumption)
    | (with_reducible (first | apply State.fpFinish_keeps | apply State.setF_keeps | apply Res.ok_keeps | apply Res.fault_keeps | apply Res.wait_keeps))
    | (dsimp only)
    | split
    | (refine Res.of_eq_ok (by assumption) ?_)
    | (refine Res.of_eq_fault (by assumption) ?_)
    | (refine Res.of_eq_wait (by assumption) ?_)
    | (intro _ _ _ _)
    | (intro _ _ _)
    | (intro _ _)

theorem semFwiden_keeps {s0 : Base} {s : State} (c : Nat) (w : Word) (h : Keeps s0 s) :
    Keeps s0 (semFwiden c w s).st := by
  unfold semFwiden
  repeat' first
    | (with_reducible assumption)
    | (with_reducible (first | apply State.fpFinish_keeps | apply State.setF_keeps | apply Res.ok_keeps | apply Res.fault_keeps | apply Res.wait_keeps))
    | (dsimp only)
    | split
    | (refine Res.of_eq_ok (by assumption) ?_)
    | (refine Res.of_eq_fault (by assumption) ?_)
    | (refine Res.of_eq_wait (by assumption) ?_)
    | (intro _ _ _ _)
    | (intro _ _ _)
    | (intro _ _)

theorem semFtoi_keeps {s0 : Base} {s : State} (c : Nat) (w : Word) (h : Keeps s0 s) :
    Keeps s0 (semFtoi c w s).st := by
  unfold semFtoi
  repeat' first
    | (with_reducible assumption)
    | (with_reducible (first | apply State.fpFinish_keeps | apply State.setG_keeps | apply Res.ok_keeps | apply Res.fault_keeps | apply Res.wait_keeps))
    | (dsimp only)
    | split
    | (refine Res.of_eq_ok (by assumption) ?_)
    | (refine Res.of_eq_fault (by assumption) ?_)
    | (refine Res.of_eq_wait (by assumption) ?_)
    | (intro _ _ _ _)
    | (intro _ _ _)
    | (intro _ _)

theorem semItof_keeps {s0 : Base} {s : State} (c : Nat) (w : Word) (h : Keeps s0 s) :
    Keeps s0 (semItof c w s).st := by
  unfold semItof
  repeat' first
    | (with_reducible assumption)
    | (with_reducible (first | apply State.fpFinish_keeps | apply State.setF_keeps | apply Res.ok_keeps | apply Res.fault_keeps | apply Res.wait_keeps))
    | (dsimp only)
    | split
    | (refine Res.of_eq_ok (by assumption) ?_)
    | (refine Res.of_eq_fault (by assumption) ?_)
    | (refine Res.of_eq_wait (by assumption) ?_)
    | (intro _ _ _ _)
    | (intro _ _ _)
    | (intro _ _)

theorem semFmovg_keeps {s0 : Base} {s : State} (c : Nat) (w : Word) (h : Keeps s0 s) :
    Keeps s0 (semFmovg c w s).st := by
  unfold semFmovg
  repeat' first
    | (with_reducible assumption)
    | (with_reducible (first | apply State.setG_keeps | apply Res.ok_keeps | apply Res.fault_keeps | apply Res.wait_keeps))
    | (dsimp only)
    | split

theorem semFmovf_keeps {s0 : Base} {s : State} (c : Nat) (w : Word) (h : Keeps s0 s) :
    Keeps s0 (semFmovf c w s).st := by
  unfold semFmovf
  repeat' first
    | (with_reducible assumption)
    | (with_reducible (first | apply State.setF_keeps | apply Res.ok_keeps | apply Res.fault_keeps | apply Res.wait_keeps))
    | (dsimp only)
    | split

theorem execFpOp_keeps {s0 : Base} {s : State} (c : Nat) (w : Word) (h : Keeps s0 s) :
    KeepsOut s0 (execFpOp c w s) := by
  unfold execFpOp
  repeat' first
    | (with_reducible assumption)
    | (with_reducible (first | apply State.execute_keeps | apply semFpOp_keeps | apply keepsOut_ok))
    | (dsimp only)
    | (refine Res.of_eq_ok (by assumption) ?_)
    | (refine Res.of_eq_fault (by assumption) ?_)
    | (refine Res.of_eq_wait (by assumption) ?_)
    | (intro _ _ _ _)
    | (intro _ _ _)
    | (intro _ _)

theorem execFmaOp_keeps {s0 : Base} {s : State} (c : Nat) (w : Word) (h : Keeps s0 s) :
    KeepsOut s0 (execFmaOp c w s) := by
  unfold execFmaOp
  repeat' first
    | (with_reducible assumption)
    | (with_reducible (first | apply State.execute_keeps | apply semFmaOp_keeps | apply keepsOut_ok))
    | (dsimp only)
    | (refine Res.of_eq_ok (by assumption) ?_)
    | (refine Res.of_eq_fault (by assumption) ?_)
    | (refine Res.of_eq_wait (by assumption) ?_)
    | (intro _ _ _ _)
    | (intro _ _ _)
    | (intro _ _)

theorem execFpCompare_keeps {s0 : Base} {s : State} (c : Nat) (w : Word) (h : Keeps s0 s) :
    KeepsOut s0 (execFpCompare c w s) := by
  unfold execFpCompare
  repeat' first
    | (with_reducible assumption)
    | (with_reducible (first | apply State.execute_keeps | apply semFpCompare_keeps | apply keepsOut_ok))
    | (dsimp only)
    | (refine Res.of_eq_ok (by assumption) ?_)
    | (refine Res.of_eq_fault (by assumption) ?_)
    | (refine Res.of_eq_wait (by assumption) ?_)
    | (intro _ _ _ _)
    | (intro _ _ _)
    | (intro _ _)

theorem execFkind_keeps {s0 : Base} {s : State} (c : Nat) (w : Word) (h : Keeps s0 s) :
    KeepsOut s0 (execFkind c w s) := by
  unfold execFkind
  repeat' first
    | (with_reducible assumption)
    | (with_reducible (first | apply State.execute_keeps | apply semFkind_keeps | apply keepsOut_ok))
    | (dsimp only)
    | (refine Res.of_eq_ok (by assumption) ?_)
    | (refine Res.of_eq_fault (by assumption) ?_)
    | (refine Res.of_eq_wait (by assumption) ?_)
    | (intro _ _ _ _)
    | (intro _ _ _)
    | (intro _ _)

theorem execFnarrow_keeps {s0 : Base} {s : State} (c : Nat) (w : Word) (h : Keeps s0 s) :
    KeepsOut s0 (execFnarrow c w s) := by
  unfold execFnarrow
  repeat' first
    | (with_reducible assumption)
    | (with_reducible (first | apply State.execute_keeps | apply semFnarrow_keeps | apply keepsOut_ok))
    | (dsimp only)
    | (refine Res.of_eq_ok (by assumption) ?_)
    | (refine Res.of_eq_fault (by assumption) ?_)
    | (refine Res.of_eq_wait (by assumption) ?_)
    | (intro _ _ _ _)
    | (intro _ _ _)
    | (intro _ _)

theorem execFwiden_keeps {s0 : Base} {s : State} (c : Nat) (w : Word) (h : Keeps s0 s) :
    KeepsOut s0 (execFwiden c w s) := by
  unfold execFwiden
  repeat' first
    | (with_reducible assumption)
    | (with_reducible (first | apply State.execute_keeps | apply semFwiden_keeps | apply keepsOut_ok))
    | (dsimp only)
    | (refine Res.of_eq_ok (by assumption) ?_)
    | (refine Res.of_eq_fault (by assumption) ?_)
    | (refine Res.of_eq_wait (by assumption) ?_)
    | (intro _ _ _ _)
    | (intro _ _ _)
    | (intro _ _)

theorem execFtoi_keeps {s0 : Base} {s : State} (c : Nat) (w : Word) (h : Keeps s0 s) :
    KeepsOut s0 (execFtoi c w s) := by
  unfold execFtoi
  repeat' first
    | (with_reducible assumption)
    | (with_reducible (first | apply State.execute_keeps | apply semFtoi_keeps | apply keepsOut_ok))
    | (dsimp only)
    | (refine Res.of_eq_ok (by assumption) ?_)
    | (refine Res.of_eq_fault (by assumption) ?_)
    | (refine Res.of_eq_wait (by assumption) ?_)
    | (intro _ _ _ _)
    | (intro _ _ _)
    | (intro _ _)

theorem execItof_keeps {s0 : Base} {s : State} (c : Nat) (w : Word) (h : Keeps s0 s) :
    KeepsOut s0 (execItof c w s) := by
  unfold execItof
  repeat' first
    | (with_reducible assumption)
    | (with_reducible (first | apply State.execute_keeps | apply semItof_keeps | apply keepsOut_ok))
    | (dsimp only)
    | (refine Res.of_eq_ok (by assumption) ?_)
    | (refine Res.of_eq_fault (by assumption) ?_)
    | (refine Res.of_eq_wait (by assumption) ?_)
    | (intro _ _ _ _)
    | (intro _ _ _)
    | (intro _ _)

theorem execFmovg_keeps {s0 : Base} {s : State} (c : Nat) (w : Word) (h : Keeps s0 s) :
    KeepsOut s0 (execFmovg c w s) := by
  unfold execFmovg
  repeat' first
    | (with_reducible assumption)
    | (with_reducible (first | apply State.execute_keeps | apply semFmovg_keeps | apply keepsOut_ok))
    | (dsimp only)
    | (refine Res.of_eq_ok (by assumption) ?_)
    | (refine Res.of_eq_fault (by assumption) ?_)
    | (refine Res.of_eq_wait (by assumption) ?_)
    | (intro _ _ _ _)
    | (intro _ _ _)
    | (intro _ _)

theorem execFmovf_keeps {s0 : Base} {s : State} (c : Nat) (w : Word) (h : Keeps s0 s) :
    KeepsOut s0 (execFmovf c w s) := by
  unfold execFmovf
  repeat' first
    | (with_reducible assumption)
    | (with_reducible (first | apply State.execute_keeps | apply semFmovf_keeps | apply keepsOut_ok))
    | (dsimp only)
    | (refine Res.of_eq_ok (by assumption) ?_)
    | (refine Res.of_eq_fault (by assumption) ?_)
    | (refine Res.of_eq_wait (by assumption) ?_)
    | (intro _ _ _ _)
    | (intro _ _ _)
    | (intro _ _)

end Sys2Proof.Machine
end

