-- ==== Sys2Proof/Laws/KeepsSystem.lean ====
section
/-!
SUPPORT. What the operations of Machine/System.lean leave in place.
-/

namespace Sys2Proof.Machine

open Sys2Proof

theorem semGate_keeps {s0 : Base} {s : State} (c : Nat) (w : Word) (h : Keeps s0 s) :
    Keeps s0 (semGate c w s).st := by
  unfold semGate
  repeat' first
    | (with_reducible assumption)
    | (with_reducible (first | apply State.btbResolve_keeps | apply State.tableRead_keeps | apply Res.ok_keeps | apply Res.fault_keeps | apply Res.wait_keeps | apply TransRes.go_keeps | apply TransRes.fault_keeps | apply TransRes.wait_keeps))
    | (dsimp only)
    | split
    | rfl
    | (refine Keeps.snd (by assumption) ?_)
    | (refine Keeps.fst (by assumption) ?_)
    | (intro _ _ _ _)
    | (intro _ _ _)
    | (intro _ _)
    | (with_reducible refine Keeps.upd ?_ ?_ ?_ ?_)

theorem returnFrom_keeps {s0 : Base} {s : State} (c : Nat) (gate : Bool) (h : Keeps s0 s) :
    Keeps s0 (returnFrom c gate s).st := by
  unfold returnFrom
  repeat' first
    | (with_reducible assumption)
    | (with_reducible (first | apply State.btbResolve_keeps | apply State.load_keeps | apply Res.ok_keeps | apply Res.fault_keeps | apply Res.wait_keeps | apply TransRes.go_keeps | apply TransRes.fault_keeps | apply TransRes.wait_keeps))
    | (dsimp only)
    | split
    | rfl
    | (refine Keeps.snd (by assumption) ?_)
    | (refine Keeps.fst (by assumption) ?_)
    | (refine Got.of_eq_ok (by assumption) ?_)
    | (refine Got.of_eq_fault (by assumption) ?_)
    | (refine Got.of_eq_wait (by assumption) ?_)
    | (with_reducible refine Keeps.upd ?_ ?_ ?_ ?_)

theorem semRetg_keeps {s0 : Base} {s : State} (c : Nat) (w : Word) (h : Keeps s0 s) :
    Keeps s0 (semRetg c w s).st := by
  unfold semRetg
  repeat' first
    | (with_reducible assumption)
    | (with_reducible (first | apply returnFrom_keeps | apply Res.ok_keeps | apply Res.fault_keeps | apply Res.wait_keeps | apply TransRes.go_keeps | apply TransRes.fault_keeps | apply TransRes.wait_keeps))
    | (dsimp only)
    | split
    | (refine Res.of_eq_ok (by assumption) ?_)
    | (refine Res.of_eq_fault (by assumption) ?_)
    | (refine Res.of_eq_wait (by assumption) ?_)
    | (refine TransRes.of_eq_go (by assumption) ?_)
    | (refine TransRes.of_eq_fault (by assumption) ?_)
    | (refine TransRes.of_eq_wait (by assumption) ?_)

theorem semRete_keeps {s0 : Base} {s : State} (c : Nat) (w : Word) (h : Keeps s0 s) :
    Keeps s0 (semRete c w s).st := by
  unfold semRete
  repeat' first
    | (with_reducible assumption)
    | (with_reducible (first | apply returnFrom_keeps | apply Res.ok_keeps | apply Res.fault_keeps | apply Res.wait_keeps | apply TransRes.go_keeps | apply TransRes.fault_keeps | apply TransRes.wait_keeps))
    | (dsimp only)
    | split
    | (refine Res.of_eq_ok (by assumption) ?_)
    | (refine Res.of_eq_fault (by assumption) ?_)
    | (refine Res.of_eq_wait (by assumption) ?_)
    | (refine TransRes.of_eq_go (by assumption) ?_)
    | (refine TransRes.of_eq_fault (by assumption) ?_)
    | (refine TransRes.of_eq_wait (by assumption) ?_)

theorem cleanLines_keeps {s0 : Base} {x1 : State} (c : Nat) (x0 : List Nat) (x2 : State → Res) (h : Keeps s0 x1) (h_x2 : ∀ (t : State), Keeps s0 t → Keeps s0 (x2 t).st) :
    Keeps s0 (cleanLines c x0 x1 x2).st := by
  induction x0 generalizing x1 x2 with
  | nil =>
    unfold cleanLines
    repeat' first
      | (with_reducible assumption)
      | (with_reducible (first | apply State.l1Clean_keeps | apply State.sbRoom_keeps | apply Res.ok_keeps | apply Res.fault_keeps | apply Res.wait_keeps | apply h_x2))
      | (dsimp only)
      | (refine Res.of_eq_ok (by assumption) ?_)
      | (refine Res.of_eq_fault (by assumption) ?_)
      | (refine Res.of_eq_wait (by assumption) ?_)
      | (intro _ _ _ _)
      | (intro _ _ _)
      | (intro _ _)
  | cons hd tl ih =>
    unfold cleanLines
    repeat' first
      | (with_reducible apply ih)
      | (with_reducible assumption)
      | (with_reducible (first | apply State.l1Clean_keeps | apply State.sbRoom_keeps | apply Res.ok_keeps | apply Res.fault_keeps | apply Res.wait_keeps | apply h_x2))
      | (dsimp only)
      | (refine Res.of_eq_ok (by assumption) ?_)
      | (refine Res.of_eq_fault (by assumption) ?_)
      | (refine Res.of_eq_wait (by assumption) ?_)
      | (intro _ _ _ _)
      | (intro _ _ _)
      | (intro _ _)

theorem State.flushL1_keeps {s0 : Base} {s : State} (c : Nat) (k : State → Res) (h : Keeps s0 s) (h_k : ∀ (t : State), Keeps s0 t → Keeps s0 (k t).st) :
    Keeps s0 (State.flushL1 s c k).st := by
  unfold State.flushL1
  repeat' first
    | (with_reducible assumption)
    | (with_reducible (first | apply cleanLines_keeps | apply State.modCore_keeps | apply Res.ok_keeps | apply Res.fault_keeps | apply Res.wait_keeps | apply h_k))
    | (dsimp only)
    | rfl
    | (refine Res.of_eq_ok (by assumption) ?_)
    | (refine Res.of_eq_fault (by assumption) ?_)
    | (refine Res.of_eq_wait (by assumption) ?_)
    | (intro _ _ _ _)
    | (intro _ _ _)
    | (intro _ _)
    | (with_reducible refine Keeps.upd ?_ ?_ ?_ ?_)

theorem State.endKernel_keeps {s0 : Base} {s : State} (c : Nat) (e : CoreEnd) (h : Keeps s0 s) :
    Keeps s0 (State.endKernel s c e) := by
  unfold State.endKernel
  repeat' first
    | (with_reducible assumption)
    | (with_reducible (first | apply State.addRun_keeps | apply State.coreEnded_keeps | apply State.modCore_keeps))
    | (dsimp only)
    | rfl
    | (intro _ _ _ _)
    | (intro _ _ _)
    | (intro _ _)
    | (with_reducible refine Keeps.upd ?_ ?_ ?_ ?_)

theorem semEnd_keeps {s0 : Base} {s : State} (c : Nat) (w : Word) (fn : Nat) (e : CoreEnd) (h : Keeps s0 s) :
    Keeps s0 (semEnd c w fn e s).st := by
  unfold semEnd
  repeat' first
    | (with_reducible assumption)
    | (with_reducible (first | apply State.drain_keeps | apply State.endKernel_keeps | apply State.flushL1_keeps | apply Res.ok_keeps | apply Res.fault_keeps | apply Res.wait_keeps))
    | (dsimp only)
    | split
    | (refine Res.of_eq_ok (by assumption) ?_)
    | (refine Res.of_eq_fault (by assumption) ?_)
    | (refine Res.of_eq_wait (by assumption) ?_)
    | (intro _ _ _ _)
    | (intro _ _ _)
    | (intro _ _)

theorem semYield_keeps {s0 : Base} {s : State} (c : Nat) (w : Word) (h : Keeps s0 s) :
    Keeps s0 (semYield c w s).st := by
  unfold semYield
  repeat' first
    | (with_reducible assumption)
    | (with_reducible (first | apply semEnd_keeps | apply Res.ok_keeps | apply Res.fault_keeps | apply Res.wait_keeps))
    | (dsimp only)
    | (refine Res.of_eq_ok (by assumption) ?_)
    | (refine Res.of_eq_fault (by assumption) ?_)
    | (refine Res.of_eq_wait (by assumption) ?_)

theorem semEndk_keeps {s0 : Base} {s : State} (c : Nat) (w : Word) (h : Keeps s0 s) :
    Keeps s0 (semEndk c w s).st := by
  unfold semEndk
  repeat' first
    | (with_reducible assumption)
    | (with_reducible (first | apply semEnd_keeps | apply Res.ok_keeps | apply Res.fault_keeps | apply Res.wait_keeps))
    | (dsimp only)
    | (refine Res.of_eq_ok (by assumption) ?_)
    | (refine Res.of_eq_fault (by assumption) ?_)
    | (refine Res.of_eq_wait (by assumption) ?_)

theorem semBreak_keeps {s0 : Base} {s : State} (_c : Nat) (w : Word) (h : Keeps s0 s) :
    Keeps s0 (semBreak _c w s).st := by
  unfold semBreak
  repeat' first
    | (with_reducible assumption)
    | (with_reducible (first | apply Res.ok_keeps | apply Res.fault_keeps | apply Res.wait_keeps))
    | (dsimp only)
    | split
    | rfl
    | (with_reducible refine Keeps.upd ?_ ?_ ?_ ?_)

theorem State.setWaiting_keeps {s0 : Base} {s : State} (c : Nat) (b : Bool) (h : Keeps s0 s) :
    Keeps s0 (State.setWaiting s c b) := by
  unfold State.setWaiting
  repeat' first
    | (with_reducible assumption)
    | (with_reducible (first | apply State.modCore_keeps))
    | (dsimp only)
    | rfl
    | (intro _ _ _ _)
    | (intro _ _ _)
    | (intro _ _)
    | (with_reducible refine Keeps.upd ?_ ?_ ?_ ?_)

theorem State.waitev_keeps {s0 : Base} {s : State} (c : Nat) (w : Word) (h : Keeps s0 s) :
    Keeps s0 (State.waitev s c w) := by
  unfold State.waitev
  repeat' first
    | (with_reducible assumption)
    | (with_reducible (first | apply State.faultAt_keeps | apply State.modCtl_keeps | apply State.retire_keeps | apply State.setWaiting_keeps))
    | (dsimp only)
    | split
    | (refine Keeps.snd (by assumption) ?_)
    | (refine Keeps.fst (by assumption) ?_)

theorem execGate_keeps {s0 : Base} {s : State} (c : Nat) (w : Word) (h : Keeps s0 s) :
    KeepsOut s0 (execGate c w s) := by
  unfold execGate
  repeat' first
    | (with_reducible assumption)
    | (with_reducible (first | apply State.executeTransfer_keeps | apply semGate_keeps | apply keepsOut_ok))
    | (dsimp only)
    | (refine Res.of_eq_ok (by assumption) ?_)
    | (refine Res.of_eq_fault (by assumption) ?_)
    | (refine Res.of_eq_wait (by assumption) ?_)
    | (refine TransRes.of_eq_go (by assumption) ?_)
    | (refine TransRes.of_eq_fault (by assumption) ?_)
    | (refine TransRes.of_eq_wait (by assumption) ?_)
    | (intro _ _ _ _)
    | (intro _ _ _)
    | (intro _ _)

theorem execRetg_keeps {s0 : Base} {s : State} (c : Nat) (w : Word) (h : Keeps s0 s) :
    KeepsOut s0 (execRetg c w s) := by
  unfold execRetg
  repeat' first
    | (with_reducible assumption)
    | (with_reducible (first | apply State.executeTransfer_keeps | apply semRetg_keeps | apply keepsOut_ok))
    | (dsimp only)
    | (refine Res.of_eq_ok (by assumption) ?_)
    | (refine Res.of_eq_fault (by assumption) ?_)
    | (refine Res.of_eq_wait (by assumption) ?_)
    | (refine TransRes.of_eq_go (by assumption) ?_)
    | (refine TransRes.of_eq_fault (by assumption) ?_)
    | (refine TransRes.of_eq_wait (by assumption) ?_)
    | (intro _ _ _ _)
    | (intro _ _ _)
    | (intro _ _)

theorem execRete_keeps {s0 : Base} {s : State} (c : Nat) (w : Word) (h : Keeps s0 s) :
    KeepsOut s0 (execRete c w s) := by
  unfold execRete
  repeat' first
    | (with_reducible assumption)
    | (with_reducible (first | apply State.executeTransfer_keeps | apply semRete_keeps | apply keepsOut_ok))
    | (dsimp only)
    | (refine Res.of_eq_ok (by assumption) ?_)
    | (refine Res.of_eq_fault (by assumption) ?_)
    | (refine Res.of_eq_wait (by assumption) ?_)
    | (refine TransRes.of_eq_go (by assumption) ?_)
    | (refine TransRes.of_eq_fault (by assumption) ?_)
    | (refine TransRes.of_eq_wait (by assumption) ?_)
    | (intro _ _ _ _)
    | (intro _ _ _)
    | (intro _ _)

theorem execYield_keeps {s0 : Base} {s : State} (c : Nat) (w : Word) (h : Keeps s0 s) :
    KeepsOut s0 (execYield c w s) := by
  unfold execYield
  repeat' first
    | (with_reducible assumption)
    | (with_reducible (first | apply State.execute_keeps | apply semYield_keeps | apply keepsOut_ok))
    | (dsimp only)
    | (refine Res.of_eq_ok (by assumption) ?_)
    | (refine Res.of_eq_fault (by assumption) ?_)
    | (refine Res.of_eq_wait (by assumption) ?_)
    | (intro _ _ _ _)
    | (intro _ _ _)
    | (intro _ _)

theorem execEndk_keeps {s0 : Base} {s : State} (c : Nat) (w : Word) (h : Keeps s0 s) :
    KeepsOut s0 (execEndk c w s) := by
  unfold execEndk
  repeat' first
    | (with_reducible assumption)
    | (with_reducible (first | apply State.execute_keeps | apply semEndk_keeps | apply keepsOut_ok))
    | (dsimp only)
    | (refine Res.of_eq_ok (by assumption) ?_)
    | (refine Res.of_eq_fault (by assumption) ?_)
    | (refine Res.of_eq_wait (by assumption) ?_)
    | (intro _ _ _ _)
    | (intro _ _ _)
    | (intro _ _)

theorem execBreakpoint_keeps {s0 : Base} {s : State} (c : Nat) (w : Word) (h : Keeps s0 s) :
    KeepsOut s0 (execBreakpoint c w s) := by
  unfold execBreakpoint
  repeat' first
    | (with_reducible assumption)
    | (with_reducible (first | apply State.execute_keeps | apply semBreak_keeps | apply keepsOut_ok))
    | (dsimp only)
    | (refine Res.of_eq_ok (by assumption) ?_)
    | (refine Res.of_eq_fault (by assumption) ?_)
    | (refine Res.of_eq_wait (by assumption) ?_)
    | (intro _ _ _ _)
    | (intro _ _ _)
    | (intro _ _)

theorem execWaitev_keeps {s0 : Base} {s : State} (c : Nat) (w : Word) (h : Keeps s0 s) :
    KeepsOut s0 (execWaitev c w s) := by
  unfold execWaitev
  repeat' first
    | (with_reducible assumption)
    | (with_reducible (first | apply State.waitev_keeps | apply keepsOut_ok))
    | (dsimp only)

theorem State.modSr_keeps {s0 : Base} {s : State} (c : Nat) (f : SyncRegs → SyncRegs) (h : Keeps s0 s) :
    Keeps s0 (State.modSr s c f) := by
  unfold State.modSr
  repeat' first
    | (with_reducible assumption)
    | (with_reducible (first | apply State.modCore_keeps))
    | (dsimp only)
    | rfl
    | (intro _ _ _ _)
    | (intro _ _ _)
    | (intro _ _)
    | (with_reducible refine Keeps.upd ?_ ?_ ?_ ?_)

theorem State.setCregCtl_keeps {s0 : Base} {s : State} (c : Nat) (n : Nat) (v : Dword) (h : Keeps s0 s) :
    Keeps s0 (State.setCregCtl s c n v) := by
  unfold State.setCregCtl
  repeat' first
    | (with_reducible assumption)
    | (with_reducible (first | apply State.modCore_keeps | apply State.modCtl_keeps))
    | (dsimp only)
    | split
    | rfl
    | (refine Keeps.snd (by assumption) ?_)
    | (refine Keeps.fst (by assumption) ?_)
    | (intro _ _ _ _)
    | (intro _ _ _)
    | (intro _ _)
    | (with_reducible refine Keeps.upd ?_ ?_ ?_ ?_)

theorem State.setCregSync_keeps {s0 : Base} {s : State} (c : Nat) (n : Nat) (v : Dword) (h : Keeps s0 s) :
    Keeps s0 (State.setCregSync s c n v) := by
  unfold State.setCregSync
  repeat' first
    | (with_reducible assumption)
    | (with_reducible (first | apply State.modSr_keeps))
    | (dsimp only)
    | split
    | rfl
    | (refine Keeps.snd (by assumption) ?_)
    | (refine Keeps.fst (by assumption) ?_)
    | (intro _ _ _ _)
    | (intro _ _ _)
    | (intro _ _)
    | (with_reducible refine Keeps.upd ?_ ?_ ?_ ?_)

theorem State.setCreg_keeps {s0 : Base} {s : State} (c : Nat) (n : Nat) (v : Dword) (h : Keeps s0 s) :
    Keeps s0 (State.setCreg s c n v) := by
  unfold State.setCreg
  repeat' first
    | (with_reducible assumption)
    | (with_reducible (first | apply State.modCore_keeps | apply State.setCregCtl_keeps | apply State.setCregSync_keeps))
    | (dsimp only)
    | split
    | rfl
    | (intro _ _ _ _)
    | (intro _ _ _)
    | (intro _ _)
    | (with_reducible refine Keeps.upd ?_ ?_ ?_ ?_)

theorem cregOpSem_keeps {s0 : Base} {s : State} (c : Nat) (w : Word) (op : Nat) (f : Dword → Dword → Option Dword) (h : Keeps s0 s) :
    Keeps s0 (cregOpSem c w op f s).st := by
  unfold cregOpSem
  repeat' first
    | (with_reducible assumption)
    | (with_reducible (first | apply State.setCreg_keeps | apply State.setG_keeps | apply Res.ok_keeps | apply Res.fault_keeps | apply Res.wait_keeps))
    | (dsimp only)
    | split
    | (refine Keeps.snd (by assumption) ?_)
    | (refine Keeps.fst (by assumption) ?_)

theorem semMfc_keeps {s0 : Base} {s : State} (c : Nat) (w : Word) (h : Keeps s0 s) :
    Keeps s0 (semMfc c w s).st := by
  unfold semMfc
  repeat' first
    | (with_reducible assumption)
    | (with_reducible (first | apply cregOpSem_keeps | apply Res.ok_keeps | apply Res.fault_keeps | apply Res.wait_keeps))
    | (dsimp only)
    | (refine Res.of_eq_ok (by assumption) ?_)
    | (refine Res.of_eq_fault (by assumption) ?_)
    | (refine Res.of_eq_wait (by assumption) ?_)
    | (intro _ _ _ _)
    | (intro _ _ _)
    | (intro _ _)

theorem semMtc_keeps {s0 : Base} {s : State} (c : Nat) (w : Word) (h : Keeps s0 s) :
    Keeps s0 (semMtc c w s).st := by
  unfold semMtc
  repeat' first
    | (with_reducible assumption)
    | (with_reducible (first | apply cregOpSem_keeps | apply Res.ok_keeps | apply Res.fault_keeps | apply Res.wait_keeps))
    | (dsimp only)
    | (refine Res.of_eq_ok (by assumption) ?_)
    | (refine Res.of_eq_fault (by assumption) ?_)
    | (refine Res.of_eq_wait (by assumption) ?_)
    | (intro _ _ _ _)
    | (intro _ _ _)
    | (intro _ _)

theorem semSwc_keeps {s0 : Base} {s : State} (c : Nat) (w : Word) (h : Keeps s0 s) :
    Keeps s0 (semSwc c w s).st := by
  unfold semSwc
  repeat' first
    | (with_reducible assumption)
    | (with_reducible (first | apply cregOpSem_keeps | apply Res.ok_keeps | apply Res.fault_keeps | apply Res.wait_keeps))
    | (dsimp only)
    | (refine Res.of_eq_ok (by assumption) ?_)
    | (refine Res.of_eq_fault (by assumption) ?_)
    | (refine Res.of_eq_wait (by assumption) ?_)
    | (intro _ _ _ _)
    | (intro _ _ _)
    | (intro _ _)

theorem semSetc_keeps {s0 : Base} {s : State} (c : Nat) (w : Word) (h : Keeps s0 s) :
    Keeps s0 (semSetc c w s).st := by
  unfold semSetc
  repeat' first
    | (with_reducible assumption)
    | (with_reducible (first | apply cregOpSem_keeps | apply Res.ok_keeps | apply Res.fault_keeps | apply Res.wait_keeps))
    | (dsimp only)
    | (refine Res.of_eq_ok (by assumption) ?_)
    | (refine Res.of_eq_fault (by assumption) ?_)
    | (refine Res.of_eq_wait (by assumption) ?_)
    | (intro _ _ _ _)
    | (intro _ _ _)
    | (intro _ _)

theorem semClrc_keeps {s0 : Base} {s : State} (c : Nat) (w : Word) (h : Keeps s0 s) :
    Keeps s0 (semClrc c w s).st := by
  unfold semClrc
  repeat' first
    | (with_reducible assumption)
    | (with_reducible (first | apply cregOpSem_keeps | apply Res.ok_keeps | apply Res.fault_keeps | apply Res.wait_keeps))
    | (dsimp only)
    | (refine Res.of_eq_ok (by assumption) ?_)
    | (refine Res.of_eq_fault (by assumption) ?_)
    | (refine Res.of_eq_wait (by assumption) ?_)
    | (intro _ _ _ _)
    | (intro _ _ _)
    | (intro _ _)

theorem execMfc_keeps {s0 : Base} {s : State} (c : Nat) (w : Word) (h : Keeps s0 s) :
    KeepsOut s0 (execMfc c w s) := by
  unfold execMfc
  repeat' first
    | (with_reducible assumption)
    | (with_reducible (first | apply State.execute_keeps | apply semMfc_keeps | apply keepsOut_ok))
    | (dsimp only)
    | (refine Res.of_eq_ok (by assumption) ?_)
    | (refine Res.of_eq_fault (by assumption) ?_)
    | (refine Res.of_eq_wait (by assumption) ?_)
    | (intro _ _ _ _)
    | (intro _ _ _)
    | (intro _ _)

theorem execMtc_keeps {s0 : Base} {s : State} (c : Nat) (w : Word) (h : Keeps s0 s) :
    KeepsOut s0 (execMtc c w s) := by
  unfold execMtc
  repeat' first
    | (with_reducible assumption)
    | (with_reducible (first | apply State.execute_keeps | apply semMtc_keeps | apply keepsOut_ok))
    | (dsimp only)
    | (refine Res.of_eq_ok (by assumption) ?_)
    | (refine Res.of_eq_fault (by assumption) ?_)
    | (refine Res.of_eq_wait (by assumption) ?_)
    | (intro _ _ _ _)
    | (intro _ _ _)
    | (intro _ _)

theorem execSwc_keeps {s0 : Base} {s : State} (c : Nat) (w : Word) (h : Keeps s0 s) :
    KeepsOut s0 (execSwc c w s) := by
  unfold execSwc
  repeat' first
    | (with_reducible assumption)
    | (with_reducible (first | apply State.execute_keeps | apply semSwc_keeps | apply keepsOut_ok))
    | (dsimp only)
    | (refine Res.of_eq_ok (by assumption) ?_)
    | (refine Res.of_eq_fault (by assumption) ?_)
    | (refine Res.of_eq_wait (by assumption) ?_)
    | (intro _ _ _ _)
    | (intro _ _ _)
    | (intro _ _)

theorem execSetc_keeps {s0 : Base} {s : State} (c : Nat) (w : Word) (h : Keeps s0 s) :
    KeepsOut s0 (execSetc c w s) := by
  unfold execSetc
  repeat' first
    | (with_reducible assumption)
    | (with_reducible (first | apply State.execute_keeps | apply semSetc_keeps | apply keepsOut_ok))
    | (dsimp only)
    | (refine Res.of_eq_ok (by assumption) ?_)
    | (refine Res.of_eq_fault (by assumption) ?_)
    | (refine Res.of_eq_wait (by assumption) ?_)
    | (intro _ _ _ _)
    | (intro _ _ _)
    | (intro _ _)

theorem execClrc_keeps {s0 : Base} {s : State} (c : Nat) (w : Word) (h : Keeps s0 s) :
    KeepsOut s0 (execClrc c w s) := by
  unfold execClrc
  repeat' first
    | (with_reducible assumption)
    | (with_reducible (first | apply State.execute_keeps | apply semClrc_keeps | apply keepsOut_ok))
    | (dsimp only)
    | (refine Res.of_eq_ok (by assumption) ?_)
    | (refine Res.of_eq_fault (by assumption) ?_)
    | (refine Res.of_eq_wait (by assumption) ?_)
    | (intro _ _ _ _)
    | (intro _ _ _)
    | (intro _ _)

theorem semFenceS_keeps {s0 : Base} {s : State} (c : Nat) (w : Word) (h : Keeps s0 s) :
    Keeps s0 (semFenceS c w s).st := by
  unfold semFenceS
  repeat' first
    | (with_reducible assumption)
    | (with_reducible (first | apply State.drain_keeps | apply Res.ok_keeps | apply Res.fault_keeps | apply Res.wait_keeps))
    | (dsimp only)
    | split
    | (refine Res.of_eq_ok (by assumption) ?_)
    | (refine Res.of_eq_fault (by assumption) ?_)
    | (refine Res.of_eq_wait (by assumption) ?_)
    | (intro _ _ _ _)
    | (intro _ _ _)
    | (intro _ _)

theorem semFenceL_keeps {s0 : Base} {s : State} (_c : Nat) (w : Word) (h : Keeps s0 s) :
    Keeps s0 (semFenceL _c w s).st := by
  unfold semFenceL
  repeat' first
    | (with_reducible assumption)
    | (with_reducible (first | apply Res.ok_keeps | apply Res.fault_keeps | apply Res.wait_keeps))
    | (dsimp only)
    | split

theorem State.acceptAll_keeps {s0 : Base} {s : State} (c : Nat) (h : Keeps s0 s) :
    Keeps s0 (State.acceptAll s c) := by
  unfold State.acceptAll
  repeat' first
    | (with_reducible assumption)
    | (with_reducible (first | apply State.acceptSb_keeps | apply Keeps.foldr))
    | (dsimp only)
    | (intro _ _ _ _)
    | (intro _ _ _)
    | (intro _ _)

theorem semFenceA_keeps {s0 : Base} {s : State} (c : Nat) (w : Word) (h : Keeps s0 s) :
    Keeps s0 (semFenceA c w s).st := by
  unfold semFenceA
  repeat' first
    | (with_reducible assumption)
    | (with_reducible (first | apply State.acceptAll_keeps | apply Res.ok_keeps | apply Res.fault_keeps | apply Res.wait_keeps))
    | (dsimp only)
    | split
    | (intro _ _ _ _)
    | (intro _ _ _)
    | (intro _ _)

theorem flushForFence_keeps {s0 : Base} {x1 : State} (c : Nat) (x0 : List (Nat × WcEntry)) (h : Keeps s0 x1) :
    Keeps s0 (flushForFence c x0 x1).st := by
  induction x0 generalizing x1 with
  | nil =>
    unfold flushForFence
    repeat' first
      | (with_reducible assumption)
      | (with_reducible (first | apply State.flushEntry_keeps | apply State.modCore_keeps | apply State.setWc_keeps | apply Res.ok_keeps | apply Res.fault_keeps | apply Res.wait_keeps))
      | (dsimp only)
      | split
      | rfl
      | (refine Keeps.snd (by assumption) ?_)
      | (refine Keeps.fst (by assumption) ?_)
      | (intro _ _ _ _)
      | (intro _ _ _)
      | (intro _ _)
      | (with_reducible refine Keeps.upd ?_ ?_ ?_ ?_)
  | cons hd tl ih =>
    unfold flushForFence
    repeat' first
      | (with_reducible apply ih)
      | (with_reducible assumption)
      | (with_reducible (first | apply State.flushEntry_keeps | apply State.modCore_keeps | apply State.setWc_keeps | apply Res.ok_keeps | apply Res.fault_keeps | apply Res.wait_keeps))
      | (dsimp only)
      | split
      | rfl
      | (refine Keeps.snd (by assumption) ?_)
      | (refine Keeps.fst (by assumption) ?_)
      | (intro _ _ _ _)
      | (intro _ _ _)
      | (intro _ _)
      | (with_reducible refine Keeps.upd ?_ ?_ ?_ ?_)

theorem semFenceE_keeps {s0 : Base} {s : State} (c : Nat) (w : Word) (h : Keeps s0 s) :
    Keeps s0 (semFenceE c w s).st := by
  unfold semFenceE
  repeat' first
    | (with_reducible assumption)
    | (with_reducible (first | apply State.drain_keeps | apply flushForFence_keeps | apply Res.ok_keeps | apply Res.fault_keeps | apply Res.wait_keeps))
    | (dsimp only)
    | split
    | (refine Res.of_eq_ok (by assumption) ?_)
    | (refine Res.of_eq_fault (by assumption) ?_)
    | (refine Res.of_eq_wait (by assumption) ?_)
    | (intro _ _ _ _)
    | (intro _ _ _)
    | (intro _ _)

theorem execFenceS_keeps {s0 : Base} {s : State} (c : Nat) (w : Word) (h : Keeps s0 s) :
    KeepsOut s0 (execFenceS c w s) := by
  unfold execFenceS
  repeat' first
    | (with_reducible assumption)
    | (with_reducible (first | apply State.execute_keeps | apply semFenceS_keeps | apply keepsOut_ok))
    | (dsimp only)
    | (refine Res.of_eq_ok (by assumption) ?_)
    | (refine Res.of_eq_fault (by assumption) ?_)
    | (refine Res.of_eq_wait (by assumption) ?_)
    | (intro _ _ _ _)
    | (intro _ _ _)
    | (intro _ _)

theorem execFenceL_keeps {s0 : Base} {s : State} (c : Nat) (w : Word) (h : Keeps s0 s) :
    KeepsOut s0 (execFenceL c w s) := by
  unfold execFenceL
  repeat' first
    | (with_reducible assumption)
    | (with_reducible (first | apply State.execute_keeps | apply semFenceL_keeps | apply keepsOut_ok))
    | (dsimp only)
    | (refine Res.of_eq_ok (by assumption) ?_)
    | (refine Res.of_eq_fault (by assumption) ?_)
    | (refine Res.of_eq_wait (by assumption) ?_)
    | (intro _ _ _ _)
    | (intro _ _ _)
    | (intro _ _)

theorem execFenceA_keeps {s0 : Base} {s : State} (c : Nat) (w : Word) (h : Keeps s0 s) :
    KeepsOut s0 (execFenceA c w s) := by
  unfold execFenceA
  repeat' first
    | (with_reducible assumption)
    | (with_reducible (first | apply State.execute_keeps | apply semFenceA_keeps | apply keepsOut_ok))
    | (dsimp only)
    | (refine Res.of_eq_ok (by assumption) ?_)
    | (refine Res.of_eq_fault (by assumption) ?_)
    | (refine Res.of_eq_wait (by assumption) ?_)
    | (intro _ _ _ _)
    | (intro _ _ _)
    | (intro _ _)

theorem execFenceE_keeps {s0 : Base} {s : State} (c : Nat) (w : Word) (h : Keeps s0 s) :
    KeepsOut s0 (execFenceE c w s) := by
  unfold execFenceE
  repeat' first
    | (with_reducible assumption)
    | (with_reducible (first | apply State.execute_keeps | apply semFenceE_keeps | apply keepsOut_ok))
    | (dsimp only)
    | (refine Res.of_eq_ok (by assumption) ?_)
    | (refine Res.of_eq_fault (by assumption) ?_)
    | (refine Res.of_eq_wait (by assumption) ?_)
    | (intro _ _ _ _)
    | (intro _ _ _)
    | (intro _ _)

theorem State.dtabLoad_keeps {s0 : Base} {s : State} (c : Nat) (h : Keeps s0 s) :
    Keeps s0 (State.dtabLoad s c) := by
  unfold State.dtabLoad
  generalize (4112 : Nat) = len, List.range 512 = uops
  repeat' first
    | (with_reducible assumption)
    | (with_reducible (first | apply State.modCluster_keeps | apply State.modCore_keeps | apply State.readPart_keeps))
    | (dsimp only)
    | split
    | rfl
    | (refine Keeps.snd (by assumption) ?_)
    | (refine Keeps.fst (by assumption) ?_)
    | (intro _ _ _ _)
    | (intro _ _ _)
    | (intro _ _)
    | (with_reducible refine Keeps.upd ?_ ?_ ?_ ?_)

theorem State.syncEffect_keeps {s0 : Base} {s : State} (c : Nat) (h : Keeps s0 s) :
    Keeps s0 (State.syncEffect s c) := by
  unfold State.syncEffect
  repeat' first
    | (with_reducible assumption)
    | (with_reducible (first | apply State.dtabLoad_keeps | apply State.modCore_keeps))
    | (dsimp only)
    | split
    | rfl
    | (refine Keeps.snd (by assumption) ?_)
    | (refine Keeps.fst (by assumption) ?_)
    | (intro _ _ _ _)
    | (intro _ _ _)
    | (intro _ _)
    | (with_reducible refine Keeps.upd ?_ ?_ ?_ ?_)

theorem State.acceptWriteBacks_keeps {s0 : Base} {s : State} (c : Nat) (h : Keeps s0 s) :
    Keeps s0 (State.acceptWriteBacks s c) := by
  unfold State.acceptWriteBacks
  repeat' first
    | (with_reducible assumption)
    | (with_reducible (first | apply State.acceptSb_keeps | apply Keeps.foldr))
    | (dsimp only)
    | split
    | (refine Keeps.snd (by assumption) ?_)
    | (refine Keeps.fst (by assumption) ?_)
    | (intro _ _ _ _)
    | (intro _ _ _)
    | (intro _ _)

theorem semSync_keeps {s0 : Base} {s : State} (c : Nat) (w : Word) (h : Keeps s0 s) :
    Keeps s0 (semSync c w s).st := by
  unfold semSync
  repeat' first
    | (with_reducible assumption)
    | (with_reducible (first | apply State.acceptWriteBacks_keeps | apply State.flushL1_keeps | apply State.syncEffect_keeps | apply Res.ok_keeps | apply Res.fault_keeps | apply Res.wait_keeps))
    | (dsimp only)
    | split
    | (refine Res.of_eq_ok (by assumption) ?_)
    | (refine Res.of_eq_fault (by assumption) ?_)
    | (refine Res.of_eq_wait (by assumption) ?_)
    | (intro _ _ _ _)
    | (intro _ _ _)
    | (intro _ _)

theorem execSync_keeps {s0 : Base} {s : State} (c : Nat) (w : Word) (h : Keeps s0 s) :
    KeepsOut s0 (execSync c w s) := by
  unfold execSync
  repeat' first
    | (with_reducible assumption)
    | (with_reducible (first | apply State.execute_keeps | apply semSync_keeps | apply keepsOut_ok))
    | (dsimp only)
    | (refine Res.of_eq_ok (by assumption) ?_)
    | (refine Res.of_eq_fault (by assumption) ?_)
    | (refine Res.of_eq_wait (by assumption) ?_)
    | (intro _ _ _ _)
    | (intro _ _ _)
    | (intro _ _)

theorem State.maintain_keeps {s0 : Base} {s : State} (c : Nat) (set : Nat) (way : Nat) (clean : Bool) (inv : Bool) (h : Keeps s0 s) :
    Keeps s0 (State.maintain s c set way clean inv).st := by
  unfold State.maintain
  repeat' first
    | (with_reducible assumption)
    | (with_reducible (first | apply State.l1Clean_keeps | apply State.l1Drop_keeps | apply State.sbRoom_keeps | apply Res.ok_keeps | apply Res.fault_keeps | apply Res.wait_keeps))
    | (dsimp only)
    | split
    | (refine Res.of_eq_ok (by assumption) ?_)
    | (refine Res.of_eq_fault (by assumption) ?_)
    | (refine Res.of_eq_wait (by assumption) ?_)
    | (intro _ _ _ _)
    | (intro _ _ _)
    | (intro _ _)

theorem cacheByAddr_keeps {s0 : Base} {s : State} (c : Nat) (w : Word) (op : Nat) (clean : Bool) (inv : Bool) (h : Keeps s0 s) :
    Keeps s0 (cacheByAddr c w op clean inv s).st := by
  unfold cacheByAddr
  repeat' first
    | (with_reducible assumption)
    | (with_reducible (first | apply State.maintain_keeps | apply Res.ok_keeps | apply Res.fault_keeps | apply Res.wait_keeps))
    | (dsimp only)
    | split
    | (refine Keeps.snd (by assumption) ?_)
    | (refine Keeps.fst (by assumption) ?_)
    | (refine Res.of_eq_ok (by assumption) ?_)
    | (refine Res.of_eq_fault (by assumption) ?_)
    | (refine Res.of_eq_wait (by assumption) ?_)

theorem cacheBySetWay_keeps {s0 : Base} {s : State} (c : Nat) (w : Word) (op : Nat) (clean : Bool) (inv : Bool) (h : Keeps s0 s) :
    Keeps s0 (cacheBySetWay c w op clean inv s).st := by
  unfold cacheBySetWay
  repeat' first
    | (with_reducible assumption)
    | (with_reducible (first | apply State.maintain_keeps | apply Res.ok_keeps | apply Res.fault_keeps | apply Res.wait_keeps))
    | (dsimp only)
    | split
    | (refine Res.of_eq_ok (by assumption) ?_)
    | (refine Res.of_eq_fault (by assumption) ?_)
    | (refine Res.of_eq_wait (by assumption) ?_)

theorem semCleanA_keeps {s0 : Base} {s : State} (c : Nat) (w : Word) (h : Keeps s0 s) :
    Keeps s0 (semCleanA c w s).st := by
  unfold semCleanA
  repeat' first
    | (with_reducible assumption)
    | (with_reducible (first | apply cacheByAddr_keeps | apply Res.ok_keeps | apply Res.fault_keeps | apply Res.wait_keeps))
    | (dsimp only)
    | (refine Res.of_eq_ok (by assumption) ?_)
    | (refine Res.of_eq_fault (by assumption) ?_)
    | (refine Res.of_eq_wait (by assumption) ?_)

theorem semInvA_keeps {s0 : Base} {s : State} (c : Nat) (w : Word) (h : Keeps s0 s) :
    Keeps s0 (semInvA c w s).st := by
  unfold semInvA
  repeat' first
    | (with_reducible assumption)
    | (with_reducible (first | apply cacheByAddr_keeps | apply Res.ok_keeps | apply Res.fault_keeps | apply Res.wait_keeps))
    | (dsimp only)
    | (refine Res.of_eq_ok (by assumption) ?_)
    | (refine Res.of_eq_fault (by assumption) ?_)
    | (refine Res.of_eq_wait (by assumption) ?_)

theorem semClinvA_keeps {s0 : Base} {s : State} (c : Nat) (w : Word) (h : Keeps s0 s) :
    Keeps s0 (semClinvA c w s).st := by
  unfold semClinvA
  repeat' first
    | (with_reducible assumption)
    | (with_reducible (first | apply cacheByAddr_keeps | apply Res.ok_keeps | apply Res.fault_keeps | apply Res.wait_keeps))
    | (dsimp only)
    | (refine Res.of_eq_ok (by assumption) ?_)
    | (refine Res.of_eq_fault (by assumption) ?_)
    | (refine Res.of_eq_wait (by assumption) ?_)

theorem semCleanSw_keeps {s0 : Base} {s : State} (c : Nat) (w : Word) (h : Keeps s0 s) :
    Keeps s0 (semCleanSw c w s).st := by
  unfold semCleanSw
  repeat' first
    | (with_reducible assumption)
    | (with_reducible (first | apply cacheBySetWay_keeps | apply Res.ok_keeps | apply Res.fault_keeps | apply Res.wait_keeps))
    | (dsimp only)
    | (refine Res.of_eq_ok (by assumption) ?_)
    | (refine Res.of_eq_fault (by assumption) ?_)
    | (refine Res.of_eq_wait (by assumption) ?_)

theorem semInvSw_keeps {s0 : Base} {s : State} (c : Nat) (w : Word) (h : Keeps s0 s) :
    Keeps s0 (semInvSw c w s).st := by
  unfold semInvSw
  repeat' first
    | (with_reducible assumption)
    | (with_reducible (first | apply cacheBySetWay_keeps | apply Res.ok_keeps | apply Res.fault_keeps | apply Res.wait_keeps))
    | (dsimp only)
    | (refine Res.of_eq_ok (by assumption) ?_)
    | (refine Res.of_eq_fault (by assumption) ?_)
    | (refine Res.of_eq_wait (by assumption) ?_)

theorem semClinvSw_keeps {s0 : Base} {s : State} (c : Nat) (w : Word) (h : Keeps s0 s) :
    Keeps s0 (semClinvSw c w s).st := by
  unfold semClinvSw
  repeat' first
    | (with_reducible assumption)
    | (with_reducible (first | apply cacheBySetWay_keeps | apply Res.ok_keeps | apply Res.fault_keeps | apply Res.wait_keeps))
    | (dsimp only)
    | (refine Res.of_eq_ok (by assumption) ?_)
    | (refine Res.of_eq_fault (by assumption) ?_)
    | (refine Res.of_eq_wait (by assumption) ?_)

theorem semIinvAll_keeps {s0 : Base} {s : State} (c : Nat) (w : Word) (h : Keeps s0 s) :
    Keeps s0 (semIinvAll c w s).st := by
  unfold semIinvAll
  repeat' first
    | (with_reducible assumption)
    | (with_reducible (first | apply State.modCore_keeps | apply Res.ok_keeps | apply Res.fault_keeps | apply Res.wait_keeps))
    | (dsimp only)
    | split
    | rfl
    | (intro _ _ _ _)
    | (intro _ _ _)
    | (intro _ _)
    | (with_reducible refine Keeps.upd ?_ ?_ ?_ ?_)

theorem execCleanA_keeps {s0 : Base} {s : State} (c : Nat) (w : Word) (h : Keeps s0 s) :
    KeepsOut s0 (execCleanA c w s) := by
  unfold execCleanA
  repeat' first
    | (with_reducible assumption)
    | (with_reducible (first | apply State.execute_keeps | apply semCleanA_keeps | apply keepsOut_ok))
    | (dsimp only)
    | (refine Res.of_eq_ok (by assumption) ?_)
    | (refine Res.of_eq_fault (by assumption) ?_)
    | (refine Res.of_eq_wait (by assumption) ?_)
    | (intro _ _ _ _)
    | (intro _ _ _)
    | (intro _ _)

theorem execInvA_keeps {s0 : Base} {s : State} (c : Nat) (w : Word) (h : Keeps s0 s) :
    KeepsOut s0 (execInvA c w s) := by
  unfold execInvA
  repeat' first
    | (with_reducible assumption)
    | (with_reducible (first | apply State.execute_keeps | apply semInvA_keeps | apply keepsOut_ok))
    | (dsimp only)
    | (refine Res.of_eq_ok (by assumption) ?_)
    | (refine Res.of_eq_fault (by assumption) ?_)
    | (refine Res.of_eq_wait (by assumption) ?_)
    | (intro _ _ _ _)
    | (intro _ _ _)
    | (intro _ _)

theorem execClinvA_keeps {s0 : Base} {s : State} (c : Nat) (w : Word) (h : Keeps s0 s) :
    KeepsOut s0 (execClinvA c w s) := by
  unfold execClinvA
  repeat' first
    | (with_reducible assumption)
    | (with_reducible (first | apply State.execute_keeps | apply semClinvA_keeps | apply keepsOut_ok))
    | (dsimp only)
    | (refine Res.of_eq_ok (by assumption) ?_)
    | (refine Res.of_eq_fault (by assumption) ?_)
    | (refine Res.of_eq_wait (by assumption) ?_)
    | (intro _ _ _ _)
    | (intro _ _ _)
    | (intro _ _)

theorem execCleanSw_keeps {s0 : Base} {s : State} (c : Nat) (w : Word) (h : Keeps s0 s) :
    KeepsOut s0 (execCleanSw c w s) := by
  unfold execCleanSw
  repeat' first
    | (with_reducible assumption)
    | (with_reducible (first | apply State.execute_keeps | apply semCleanSw_keeps | apply keepsOut_ok))
    | (dsimp only)
    | (refine Res.of_eq_ok (by assumption) ?_)
    | (refine Res.of_eq_fault (by assumption) ?_)
    | (refine Res.of_eq_wait (by assumption) ?_)
    | (intro _ _ _ _)
    | (intro _ _ _)
    | (intro _ _)

theorem execInvSw_keeps {s0 : Base} {s : State} (c : Nat) (w : Word) (h : Keeps s0 s) :
    KeepsOut s0 (execInvSw c w s) := by
  unfold execInvSw
  repeat' first
    | (with_reducible assumption)
    | (with_reducible (first | apply State.execute_keeps | apply semInvSw_keeps | apply keepsOut_ok))
    | (dsimp only)
    | (refine Res.of_eq_ok (by assumption) ?_)
    | (refine Res.of_eq_fault (by assumption) ?_)
    | (refine Res.of_eq_wait (by assumption) ?_)
    | (intro _ _ _ _)
    | (intro _ _ _)
    | (intro _ _)

theorem execClinvSw_keeps {s0 : Base} {s : State} (c : Nat) (w : Word) (h : Keeps s0 s) :
    KeepsOut s0 (execClinvSw c w s) := by
  unfold execClinvSw
  repeat' first
    | (with_reducible assumption)
    | (with_reducible (first | apply State.execute_keeps | apply semClinvSw_keeps | apply keepsOut_ok))
    | (dsimp only)
    | (refine Res.of_eq_ok (by assumption) ?_)
    | (refine Res.of_eq_fault (by assumption) ?_)
    | (refine Res.of_eq_wait (by assumption) ?_)
    | (intro _ _ _ _)
    | (intro _ _ _)
    | (intro _ _)

theorem execIinvAll_keeps {s0 : Base} {s : State} (c : Nat) (w : Word) (h : Keeps s0 s) :
    KeepsOut s0 (execIinvAll c w s) := by
  unfold execIinvAll
  repeat' first
    | (with_reducible assumption)
    | (with_reducible (first | apply State.execute_keeps | apply semIinvAll_keeps | apply keepsOut_ok))
    | (dsimp only)
    | (refine Res.of_eq_ok (by assumption) ?_)
    | (refine Res.of_eq_fault (by assumption) ?_)
    | (refine Res.of_eq_wait (by assumption) ?_)
    | (intro _ _ _ _)
    | (intro _ _ _)
    | (intro _ _)

theorem State.takeAsync_keeps {s0 : Base} {s : State} (c : Nat) (h : Keeps s0 s) :
    Keeps s0 (State.takeAsync s c) := by
  unfold State.takeAsync
  try generalize List.range 9 = l9
  repeat' first
    | (with_reducible assumption)
    | (with_reducible (first | apply State.enterExc_keeps | apply State.modCore_keeps | apply State.modCtl_keeps | apply State.takeLate_keeps))
    | (dsimp only)
    | split
    | rfl
    | (refine Keeps.snd (by assumption) ?_)
    | (refine Keeps.fst (by assumption) ?_)
    | (intro _ _ _ _)
    | (intro _ _ _)
    | (intro _ _)
    | (with_reducible refine Keeps.upd ?_ ?_ ?_ ?_)

theorem State.async_keeps {s0 : Base} {s : State} (c : Nat) (h : Keeps s0 s) :
    Keeps s0 (State.async s c) := by
  unfold State.async
  repeat' first
    | (with_reducible assumption)
    | (with_reducible (first | apply State.modCtl_keeps | apply State.retire_keeps | apply State.setWaiting_keeps | apply State.takeAsync_keeps))
    | (dsimp only)
    | split

theorem execAsyncException_keeps {s0 : Base} {s : State} (c : Nat) (h : Keeps s0 s) :
    KeepsOut s0 (execAsyncException c s) := by
  unfold execAsyncException
  repeat' first
    | (with_reducible assumption)
    | (with_reducible (first | apply State.async_keeps | apply keepsOut_ok))
    | (dsimp only)

end Sys2Proof.Machine
end

