-- ==== Sys2Proof/Laws/KeepsLaunch.lean ====
section
/-!
SUPPORT. What the operations of Machine/Launch.lean leave in place.
-/

namespace Sys2Proof.Machine

open Sys2Proof

theorem State.krnLaunch_keeps {s0 : Base} {s : State} (p : Nat) (id : Nat) (h : Keeps s0 s) :
    Keeps s0 (State.krnLaunch s p id) := by
  unfold State.krnLaunch
  repeat' first
    | (with_reducible assumption)
    | (with_reducible (first | apply State.modCmd_keeps))
    | (dsimp only)
    | split
    | rfl
    | (refine Keeps.snd (by assumption) ?_)
    | (refine Keeps.fst (by assumption) ?_)
    | (intro _ _ _ _)
    | (intro _ _ _)
    | (intro _ _)
    | (with_reducible refine Keeps.upd ?_ ?_ ?_ ?_)

theorem execKrnLaunch_keeps {s0 : Base} {s : State} (p : Nat) (id : Nat) (h : Keeps s0 s) :
    KeepsOut s0 (execKrnLaunch p id s) := by
  unfold execKrnLaunch
  repeat' first
    | (with_reducible assumption)
    | (with_reducible (first | apply State.krnLaunch_keeps | apply keepsOut_ok))
    | (dsimp only)

theorem State.kernelStart_keeps {s0 : Base} {s : State} (p : Nat) (id : Nat) (core : Nat) (h : Keeps s0 s) :
    Keeps s0 (State.kernelStart s p id core) := by
  unfold State.kernelStart
  repeat' first
    | (with_reducible assumption)
    | (with_reducible (first | apply State.modCmd_keeps | apply State.modCore_keeps))
    | (dsimp only)
    | split
    | rfl
    | (refine Keeps.snd (by assumption) ?_)
    | (refine Keeps.fst (by assumption) ?_)
    | (intro _ _ _ _)
    | (intro _ _ _)
    | (intro _ _)
    | (with_reducible refine Keeps.upd ?_ ?_ ?_ ?_)

theorem execKernelStart_keeps {s0 : Base} {s : State} (p : Nat) (id : Nat) (core : Nat) (h : Keeps s0 s) :
    KeepsOut s0 (execKernelStart p id core s) := by
  unfold execKernelStart
  repeat' first
    | (with_reducible assumption)
    | (with_reducible (first | apply State.kernelStart_keeps | apply keepsOut_ok))
    | (dsimp only)

theorem State.runSyn_keeps {s0 : Base} {s : State} (p : Nat) (id : Nat) (op : Nat) (f : Line → State → State) (h : Keeps s0 s) (h_f : ∀ (b0 : Line) (t : State), Keeps s0 t → Keeps s0 (f b0 t)) :
    Keeps s0 (State.runSyn s p id op f) := by
  unfold State.runSyn
  repeat' first
    | (with_reducible assumption)
    | (with_reducible (first | apply State.completeCmd_keeps | apply State.modCmd_keeps | apply h_f))
    | (dsimp only)
    | split
    | rfl
    | (refine Keeps.snd (by assumption) ?_)
    | (refine Keeps.fst (by assumption) ?_)
    | (intro _ _ _ _)
    | (intro _ _ _)
    | (intro _ _)
    | (with_reducible refine Keeps.upd ?_ ?_ ?_ ?_)

theorem execSynNop_keeps {s0 : Base} {s : State} (p : Nat) (id : Nat) (h : Keeps s0 s) :
    KeepsOut s0 (execSynNop p id s) := by
  unfold execSynNop
  repeat' first
    | (with_reducible assumption)
    | (with_reducible (first | apply State.runSyn_keeps | apply keepsOut_ok))
    | (dsimp only)
    | (intro _ _ _ _)
    | (intro _ _ _)
    | (intro _ _)

theorem execSynMarkAdd_keeps {s0 : Base} {s : State} (p : Nat) (id : Nat) (h : Keeps s0 s) :
    KeepsOut s0 (execSynMarkAdd p id s) := by
  unfold execSynMarkAdd
  repeat' first
    | (with_reducible assumption)
    | (with_reducible (first | apply State.addMark_keeps | apply State.runSyn_keeps | apply keepsOut_ok))
    | (dsimp only)
    | (intro _ _ _ _)
    | (intro _ _ _)
    | (intro _ _)

theorem execSynMarkSet_keeps {s0 : Base} {s : State} (p : Nat) (id : Nat) (h : Keeps s0 s) :
    KeepsOut s0 (execSynMarkSet p id s) := by
  unfold execSynMarkSet
  repeat' first
    | (with_reducible assumption)
    | (with_reducible (first | apply State.runSyn_keeps | apply State.setMark_keeps | apply keepsOut_ok))
    | (dsimp only)
    | (intro _ _ _ _)
    | (intro _ _ _)
    | (intro _ _)

theorem State.synTimestamp_keeps {s0 : Base} {s : State} (p : Nat) (id : Nat) (h : Keeps s0 s) :
    Keeps s0 (State.synTimestamp s p id) := by
  unfold State.synTimestamp
  repeat' first
    | (with_reducible assumption)
    | (with_reducible (first | apply State.completeCmd_keeps | apply State.finishCmd_keeps | apply Eng.write_keeps))
    | (dsimp only)
    | split
    | rfl
    | (refine Keeps.snd (by assumption) ?_)
    | (refine Keeps.fst (by assumption) ?_)
    | (refine Eng.snd_keeps (by assumption) ?_)
    | (with_reducible refine Keeps.upd ?_ ?_ ?_ ?_)

theorem execSynTimestamp_keeps {s0 : Base} {s : State} (p : Nat) (id : Nat) (h : Keeps s0 s) :
    KeepsOut s0 (execSynTimestamp p id s) := by
  unfold execSynTimestamp
  repeat' first
    | (with_reducible assumption)
    | (with_reducible (first | apply State.synTimestamp_keeps | apply keepsOut_ok))
    | (dsimp only)

theorem State.synFrameAlign_keeps {s0 : Base} {s : State} (p : Nat) (id : Nat) (h : Keeps s0 s) :
    Keeps s0 (State.synFrameAlign s p id) := by
  unfold State.synFrameAlign
  repeat' first
    | (with_reducible assumption)
    | (with_reducible (first | apply State.modCmd_keeps))
    | (dsimp only)
    | split
    | rfl
    | (refine Keeps.snd (by assumption) ?_)
    | (refine Keeps.fst (by assumption) ?_)
    | (intro _ _ _ _)
    | (intro _ _ _)
    | (intro _ _)
    | (with_reducible refine Keeps.upd ?_ ?_ ?_ ?_)

theorem execSynFrameAlign_keeps {s0 : Base} {s : State} (p : Nat) (id : Nat) (h : Keeps s0 s) :
    KeepsOut s0 (execSynFrameAlign p id s) := by
  unfold execSynFrameAlign
  repeat' first
    | (with_reducible assumption)
    | (with_reducible (first | apply State.synFrameAlign_keeps | apply keepsOut_ok))
    | (dsimp only)

theorem execSynWatchdog_keeps {s0 : Base} {s : State} (p : Nat) (id : Nat) (h : Keeps s0 s) :
    KeepsOut s0 (execSynWatchdog p id s) := by
  unfold execSynWatchdog
  repeat' first
    | (with_reducible assumption)
    | (with_reducible (first | apply State.load_keeps | apply State.modPart_keeps | apply State.runSyn_keeps | apply keepsOut_ok))
    | (dsimp only)
    | split
    | rfl
    | (refine Got.of_eq_ok (by assumption) ?_)
    | (refine Got.of_eq_fault (by assumption) ?_)
    | (refine Got.of_eq_wait (by assumption) ?_)
    | (intro _ _ _ _)
    | (intro _ _ _)
    | (intro _ _)
    | (with_reducible refine Keeps.upd ?_ ?_ ?_ ?_)

theorem State.synEvent_keeps {s0 : Base} {s : State} (p : Nat) (id : Nat) (h : Keeps s0 s) :
    Keeps s0 (State.synEvent s p id) := by
  unfold State.synEvent
  repeat' first
    | (with_reducible assumption)
    | (with_reducible (first | apply Keeps.foldl | apply State.completeCmd_keeps | apply State.modCmd_keeps | apply State.raiseEv_keeps))
    | (dsimp only)
    | split
    | rfl
    | (refine Keeps.snd (by assumption) ?_)
    | (refine Keeps.fst (by assumption) ?_)
    | (intro _ _ _ _)
    | (intro _ _ _)
    | (intro _ _)
    | (with_reducible refine Keeps.upd ?_ ?_ ?_ ?_)

theorem execSynEvent_keeps {s0 : Base} {s : State} (p : Nat) (id : Nat) (h : Keeps s0 s) :
    KeepsOut s0 (execSynEvent p id s) := by
  unfold execSynEvent
  repeat' first
    | (with_reducible assumption)
    | (with_reducible (first | apply State.synEvent_keeps | apply keepsOut_ok))
    | (dsimp only)

end Sys2Proof.Machine
end

