-- ==== Sys2Proof/Laws/KeepsPartOps.lean ====
section
/-!
SUPPORT. What the operations of Machine/PartOps.lean leave in place.
-/

namespace Sys2Proof.Machine

open Sys2Proof

theorem State.fireTimer_keeps {s0 : Base} {s : State} (p : Nat) (i : Nat) (h : Keeps s0 s) :
    Keeps s0 (State.fireTimer s p i) := by
  unfold State.fireTimer
  repeat' first
    | (with_reducible assumption)
    | (with_reducible (first | apply State.addMark_keeps | apply State.logErr_keeps | apply State.modPart_keeps | apply Keeps.ident))
    | (dsimp only)
    | split
    | rfl
    | (refine Keeps.snd (by assumption) ?_)
    | (refine Keeps.fst (by assumption) ?_)
    | (intro _ _ _ _)
    | (intro _ _ _)
    | (intro _ _)
    | (with_reducible refine Keeps.upd ?_ ?_ ?_ ?_)

theorem State.timerExpiry_keeps {s0 : Base} {s : State} (p : Nat) (i : Nat) (kind : Nat) (h : Keeps s0 s) :
    Keeps s0 (State.timerExpiry s p i kind) := by
  unfold State.timerExpiry
  repeat' first
    | (with_reducible assumption)
    | (with_reducible (first | apply State.advance_keeps | apply State.fireTimer_keeps))
    | (dsimp only)
    | split

theorem execPeriodicTimerExpiry_keeps {s0 : Base} {s : State} (p : Nat) (i : Nat) (h : Keeps s0 s) :
    KeepsOut s0 (execPeriodicTimerExpiry p i s) := by
  unfold execPeriodicTimerExpiry
  repeat' first
    | (with_reducible assumption)
    | (with_reducible (first | apply State.timerExpiry_keeps | apply keepsOut_ok))
    | (dsimp only)

theorem execOneshotTimerExpiry_keeps {s0 : Base} {s : State} (p : Nat) (i : Nat) (h : Keeps s0 s) :
    KeepsOut s0 (execOneshotTimerExpiry p i s) := by
  unfold execOneshotTimerExpiry
  repeat' first
    | (with_reducible assumption)
    | (with_reducible (first | apply State.timerExpiry_keeps | apply keepsOut_ok))
    | (dsimp only)

theorem execWatchdogExpiry_keeps {s0 : Base} {s : State} (p : Nat) (i : Nat) (h : Keeps s0 s) :
    KeepsOut s0 (execWatchdogExpiry p i s) := by
  unfold execWatchdogExpiry
  repeat' first
    | (with_reducible assumption)
    | (with_reducible (first | apply State.timerExpiry_keeps | apply keepsOut_ok))
    | (dsimp only)

theorem State.fireDue_keeps {s0 : Base} {s : State} (p : Nat) (h : Keeps s0 s) :
    Keeps s0 (State.fireDue s p) := by
  unfold State.fireDue
  repeat' first
    | (with_reducible assumption)
    | (with_reducible (first | apply Keeps.foldl | apply State.fireTimer_keeps))
    | (dsimp only)
    | split
    | (intro _ _ _ _)
    | (intro _ _ _)
    | (intro _ _)

theorem State.closeSess_keeps {s0 : Base} {s : State} (p : Nat) (h : Keeps s0 s) :
    Keeps s0 (State.closeSess s p) := by
  unfold State.closeSess
  repeat' first
    | (with_reducible assumption)
    | (with_reducible (first | apply State.modSess_keeps))
    | (dsimp only)
    | split
    | rfl
    | (intro _ _ _ _)
    | (intro _ _ _)
    | (intro _ _)
    | (with_reducible refine Keeps.upd ?_ ?_ ?_ ?_)

theorem State.setPart_keeps {s0 : Base} {s : State} (p : Nat) (st : PState) (reason : Nat) (h : Keeps s0 s) :
    Keeps s0 (State.setPart s p st reason) := by
  unfold State.setPart
  repeat' first
    | (with_reducible assumption)
    | (with_reducible (first | apply State.modPart_keeps | apply State.pgEvent_keeps))
    | (dsimp only)
    | rfl
    | (intro _ _ _ _)
    | (intro _ _ _)
    | (intro _ _)
    | (with_reducible refine Keeps.upd ?_ ?_ ?_ ?_)

theorem State.refuseReq_keeps {s0 : Base} {s : State} (p : Nat) (h : Keeps s0 s) :
    Keeps s0 (State.refuseReq s p) := by
  unfold State.refuseReq
  repeat' first
    | (with_reducible assumption)
    | (with_reducible (first | apply State.modPart_keeps | apply State.pltEvent_keeps | apply State.request_keeps))
    | (dsimp only)
    | rfl
    | (intro _ _ _ _)
    | (intro _ _ _)
    | (intro _ _)
    | (with_reducible refine Keeps.upd ?_ ?_ ?_ ?_)

theorem State.enterHeld_keeps {s0 : Base} {s : State} (p : Nat) (reason : Nat) (h : Keeps s0 s) :
    Keeps s0 (State.enterHeld s p reason) := by
  unfold State.enterHeld
  repeat' first
    | (with_reducible assumption)
    | (with_reducible (first | apply Keeps.foldl | apply State.modCore_keeps | apply State.modPart_keeps | apply State.modSch_keeps | apply State.setPart_keeps))
    | (dsimp only)
    | split
    | rfl
    | (intro _ _ _ _)
    | (intro _ _ _)
    | (intro _ _)
    | (with_reducible refine Keeps.upd ?_ ?_ ?_ ?_)

theorem execHeldCoreStop_keeps {s0 : Base} {s : State} (p : Nat) (h : Keeps s0 s) :
    KeepsOut s0 (execHeldCoreStop p s) := by
  unfold execHeldCoreStop
  repeat' first
    | (with_reducible assumption)
    | (with_reducible (first | apply Keeps.foldl | apply State.advance_keeps | apply State.stopCore_keeps | apply keepsOut_ok))
    | (dsimp only)
    | split
    | (intro _ _ _ _)
    | (intro _ _ _)
    | (intro _ _)

theorem State.zeroPart_keeps {s0 : Base} {s : State} (p : Nat) (h : Keeps s0 s) :
    Keeps s0 (State.zeroPart s p) := by
  unfold State.zeroPart
  repeat' first
    | (with_reducible assumption)
    | (with_reducible (first | apply Keeps.foldl | apply State.zeroRange_keeps | apply Keeps.foldl_snd | apply Keeps.foldl_fst))
    | (dsimp only)
    | (intro _ _ _ _)
    | (intro _ _ _)
    | (intro _ _)

theorem State.partlyZero_keeps {s0 : Base} {s : State} (p : Nat) (h : Keeps s0 s) :
    Keeps s0 (State.partlyZero s p) := by
  unfold State.partlyZero
  refine Keeps.setMem (State.draw_keeps h) (fun w => ?_)
  rw [Mem.wf_iff] at w ⊢
  dsimp only
  exact ⟨NatMap.wf_filterKeys _ w.1, NatMap.wf_filterKeys _ w.2.1, NatMap.wf_filterKeys _ w.2.2.1, w.2.2.2⟩

theorem State.seedGrains_keeps {s0 : Base} {s : State} (p : Nat) (h : Keeps s0 s) :
    Keeps s0 (State.seedGrains s p) := by
  unfold State.seedGrains
  try generalize List.range 32 = l32
  repeat' first
    | (with_reducible assumption)
    | (with_reducible (first | apply Keeps.foldl | apply State.setGrain_keeps))
    | (dsimp only)
    | (intro _ _ _ _)
    | (intro _ _ _)
    | (intro _ _)

theorem State.resetCores_keeps {s0 : Base} {s : State} (p : Nat) (h : Keeps s0 s) :
    Keeps s0 (State.resetCores s p) := by
  unfold State.resetCores
  repeat' first
    | (with_reducible assumption)
    | (with_reducible (first | apply Keeps.foldl))
    | (dsimp only)
    | rfl
    | (intro _ _ _ _)
    | (intro _ _ _)
    | (intro _ _)
    | (with_reducible refine Keeps.upd ?_ ?_ ?_ ?_)

theorem State.resetSched_keeps {s0 : Base} {s : State} (p : Nat) (h : Keeps s0 s) :
    Keeps s0 (State.resetSched s p) := by
  unfold State.resetSched
  exact Keeps.setRegs (State.modSch_keeps _ _ h) (fun w => NatMap.wf_filterKeys _ w)

theorem State.enterLoading_keeps {s0 : Base} {s : State} (p : Nat) (h : Keeps s0 s) :
    Keeps s0 (State.enterLoading s p) := by
  unfold State.enterLoading
  repeat' first
    | (with_reducible assumption)
    | (with_reducible (first | apply State.modPart_keeps | apply State.request_keeps | apply State.resetCores_keeps | apply State.resetSched_keeps | apply State.seedGrains_keeps | apply State.setPart_keeps))
    | (dsimp only)
    | split
    | rfl
    | (intro _ _ _ _)
    | (intro _ _ _)
    | (intro _ _)
    | (with_reducible refine Keeps.upd ?_ ?_ ?_ ?_)

theorem execLoadingComplete_keeps {s0 : Base} {s : State} (p : Nat) (h : Keeps s0 s) :
    KeepsOut s0 (execLoadingComplete p s) := by
  unfold execLoadingComplete
  repeat' first
    | (with_reducible assumption)
    | (with_reducible (first | apply State.modPart_keeps | apply State.zeroPart_keeps | apply keepsOut_ok))
    | (dsimp only)
    | split
    | rfl
    | (intro _ _ _ _)
    | (intro _ _ _)
    | (intro _ _)
    | (with_reducible refine Keeps.upd ?_ ?_ ?_ ?_)

theorem State.enterRunning_keeps {s0 : Base} {s : State} (p : Nat) (h : Keeps s0 s) :
    Keeps s0 (State.enterRunning s p) := by
  unfold State.enterRunning
  repeat' first
    | (with_reducible assumption)
    | (with_reducible (first | apply State.modPart_keeps | apply State.request_keeps | apply State.seedGrains_keeps | apply State.setPart_keeps))
    | (dsimp only)
    | split
    | rfl
    | (intro _ _ _ _)
    | (intro _ _ _)
    | (intro _ _)
    | (with_reducible refine Keeps.upd ?_ ?_ ?_ ?_)

theorem State.enterOff_keeps {s0 : Base} {s : State} (p : Nat) (reason : Nat) (h : Keeps s0 s) :
    Keeps s0 (State.enterOff s p reason) := by
  unfold State.enterOff
  repeat' first
    | (with_reducible assumption)
    | (with_reducible (first | apply State.closeSess_keeps | apply State.setPart_keeps))
    | (dsimp only)
    | rfl
    | (with_reducible refine Keeps.upd ?_ ?_ ?_ ?_)

theorem State.leaveLoading_keeps {s0 : Base} {s : State} (p : Nat) (h : Keeps s0 s) :
    Keeps s0 (State.leaveLoading s p) := by
  unfold State.leaveLoading
  repeat' first
    | (with_reducible assumption)
    | (with_reducible (first | apply State.partlyZero_keeps))
    | (dsimp only)
    | split

theorem State.abortCmd_keeps {s0 : Base} {s : State} (p : Nat) (id : Nat) (h : Keeps s0 s) :
    Keeps s0 (State.abortCmd s p id) := by
  unfold State.abortCmd
  repeat' first
    | (with_reducible assumption)
    | (with_reducible (first | apply Keeps.foldl | apply State.addRun_keeps | apply State.completeCmd_keeps | apply State.modCmd_keeps | apply State.modCore_keeps | apply Keeps.foldl_snd | apply Keeps.foldl_fst))
    | (dsimp only)
    | split
    | rfl
    | (refine Keeps.snd (by assumption) ?_)
    | (refine Keeps.fst (by assumption) ?_)
    | (intro _ _ _ _)
    | (intro _ _ _)
    | (intro _ _)
    | (with_reducible refine Keeps.upd ?_ ?_ ?_ ?_)

theorem State.resumeCore_keeps {s0 : Base} {s : State} (c : Nat) (h : Keeps s0 s) :
    Keeps s0 (State.resumeCore s c) := by
  unfold State.resumeCore
  repeat' first
    | (with_reducible assumption)
    | (with_reducible (first | apply State.modCore_keeps))
    | (dsimp only)
    | split
    | rfl
    | (intro _ _ _ _)
    | (intro _ _ _)
    | (intro _ _)
    | (with_reducible refine Keeps.upd ?_ ?_ ?_ ?_)

theorem State.releaseRun_keeps {s0 : Base} {s : State} (p : Nat) (h : Keeps s0 s) :
    Keeps s0 (State.releaseRun s p) := by
  unfold State.releaseRun
  repeat' first
    | (with_reducible assumption)
    | (with_reducible (first | apply Keeps.foldl | apply State.abortCmd_keeps | apply State.modPart_keeps | apply State.modSch_keeps | apply State.request_keeps | apply State.resumeCore_keeps | apply State.setPart_keeps | apply Keeps.foldl_snd | apply Keeps.ident))
    | (dsimp only)
    | split
    | rfl
    | (intro _ _ _ _)
    | (intro _ _ _)
    | (intro _ _)
    | (with_reducible refine Keeps.upd ?_ ?_ ?_ ?_)

theorem State.enterDraining_keeps {s0 : Base} {s : State} (p : Nat) (h : Keeps s0 s) :
    Keeps s0 (State.enterDraining s p) := by
  unfold State.enterDraining
  repeat' first
    | (with_reducible assumption)
    | (with_reducible (first | apply Keeps.foldl | apply State.abortCmd_keeps | apply State.modPart_keeps | apply State.request_keeps | apply State.setPart_keeps | apply Keeps.ident))
    | (dsimp only)
    | split
    | rfl
    | (intro _ _ _ _)
    | (intro _ _ _)
    | (intro _ _)
    | (with_reducible refine Keeps.upd ?_ ?_ ?_ ?_)

theorem State.flushPart_keeps {s0 : Base} {s : State} (p : Nat) (h : Keeps s0 s) :
    Keeps s0 (State.flushPart s p) := by
  unfold State.flushPart
  repeat' first
    | (with_reducible assumption)
    | (with_reducible (first | apply Keeps.foldl | apply State.flushChan_keeps))
    | (dsimp only)
    | (intro _ _ _ _)
    | (intro _ _ _)
    | (intro _ _)

theorem execDrainComplete_keeps {s0 : Base} {s : State} (p : Nat) (h : Keeps s0 s) :
    KeepsOut s0 (execDrainComplete p s) := by
  unfold execDrainComplete
  repeat' first
    | (with_reducible assumption)
    | (with_reducible (first | apply State.flushPart_keeps | apply State.modPart_keeps | apply keepsOut_ok))
    | (dsimp only)
    | split
    | rfl
    | (intro _ _ _ _)
    | (intro _ _ _)
    | (intro _ _)
    | (with_reducible refine Keeps.upd ?_ ?_ ?_ ?_)

theorem State.enterMigrating_keeps {s0 : Base} {s : State} (p : Nat) (dev : Nat) (part : Nat) (h : Keeps s0 s) :
    Keeps s0 (State.enterMigrating s p dev part) := by
  unfold State.enterMigrating
  repeat' first
    | (with_reducible assumption)
    | (with_reducible (first | apply State.modMig_keeps | apply State.modPart_keeps | apply State.request_keeps | apply State.setPart_keeps))
    | (dsimp only)
    | rfl
    | (intro _ _ _ _)
    | (intro _ _ _)
    | (intro _ _)
    | (with_reducible refine Keeps.upd ?_ ?_ ?_ ?_)

theorem execMigrationLastAck_keeps {s0 : Base} {s : State} (p : Nat) (h : Keeps s0 s) :
    KeepsOut s0 (execMigrationLastAck p s) := by
  unfold execMigrationLastAck
  repeat' first
    | (with_reducible assumption)
    | (with_reducible (first | apply State.modPart_keeps | apply keepsOut_ok))
    | (dsimp only)
    | split
    | rfl
    | (intro _ _ _ _)
    | (intro _ _ _)
    | (intro _ _)
    | (with_reducible refine Keeps.upd ?_ ?_ ?_ ?_)

theorem State.applyReq_keeps {s0 : Base} {s : State} (p : Nat) (h : Keeps s0 s) :
    Keeps s0 (State.applyReq s p) := by
  unfold State.applyReq
  repeat' first
    | (with_reducible assumption)
    | (with_reducible (first | apply State.enterDraining_keeps | apply State.enterLoading_keeps | apply State.enterMigrating_keeps | apply State.enterOff_keeps | apply State.leaveLoading_keeps | apply State.refuseReq_keeps | apply State.releaseRun_keeps | apply State.request_keeps))
    | (dsimp only)
    | split
    | (refine Keeps.snd (by assumption) ?_)
    | (refine Keeps.fst (by assumption) ?_)

theorem State.secondTick_keeps {s0 : Base} {s : State} (p : Nat) (h : Keeps s0 s) :
    Keeps s0 (State.secondTick s p) := by
  unfold State.secondTick
  repeat' first
    | (with_reducible assumption)
    | (with_reducible (first | apply Keeps.foldl | apply State.abortCmd_keeps | apply State.migFail_keeps | apply State.modPart_keeps | apply Keeps.ident))
    | (dsimp only)
    | split
    | rfl
    | (intro _ _ _ _)
    | (intro _ _ _)
    | (intro _ _)
    | (with_reducible refine Keeps.upd ?_ ?_ ?_ ?_)

theorem State.step5_keeps {s0 : Base} {s : State} (p : Nat) (h : Keeps s0 s) :
    Keeps s0 (State.step5 s p) := by
  unfold State.step5
  repeat' first
    | (with_reducible assumption)
    | (with_reducible (first | apply State.applyReq_keeps | apply State.enterHeld_keeps | apply State.enterOff_keeps | apply State.enterRunning_keeps | apply State.leaveLoading_keeps | apply State.migFail_keeps | apply State.modPart_keeps | apply State.request_keeps | apply State.secondTick_keeps | apply State.zeroPart_keeps))
    | (dsimp only)
    | split
    | rfl
    | (refine Keeps.snd (by assumption) ?_)
    | (refine Keeps.fst (by assumption) ?_)
    | (intro _ _ _ _)
    | (intro _ _ _)
    | (intro _ _)
    | (with_reducible refine Keeps.upd ?_ ?_ ?_ ?_)

end Sys2Proof.Machine
end

