-- ==== Sys2Proof/Laws/KeepsInstall.lean ====
section
/-!
SUPPORT. What the operations of Machine/Install.lean leave in place.
-/

namespace Sys2Proof.Machine

open Sys2Proof

theorem State.dropEdges_keeps {s0 : Base} {s : State}  (h : Keeps s0 s) :
    Keeps s0 (State.dropEdges s) := by
  unfold State.dropEdges
  try generalize List.range 5 = l5
  repeat' first
    | (with_reducible assumption)
    | (with_reducible (first | apply Keeps.foldl | apply State.incReg_keeps | apply State.pltEvent_keeps))
    | (dsimp only)
    | rfl
    | (intro _ _ _ _)
    | (intro _ _ _)
    | (intro _ _)
    | (with_reducible refine Keeps.upd ?_ ?_ ?_ ?_)

theorem State.latchEdge_keeps {s0 : Base} {s : State} (input : Nat) (rising : Bool) (h : Keeps s0 s) :
    Keeps s0 (State.latchEdge s input rising) := by
  unfold State.latchEdge
  repeat' first
    | (with_reducible assumption)
    | (dsimp only)
    | split
    | rfl
    | (refine Keeps.snd (by assumption) ?_)
    | (refine Keeps.fst (by assumption) ?_)
    | (intro _ _ _ _)
    | (intro _ _ _)
    | (intro _ _)
    | (with_reducible refine Keeps.upd ?_ ?_ ?_ ?_)

theorem execInputEdge_keeps {s0 : Base} {s : State} (input : Nat) (rising : Bool) (h : Keeps s0 s) :
    KeepsOut s0 (execInputEdge input rising s) := by
  unfold execInputEdge
  repeat' first
    | (with_reducible assumption)
    | (with_reducible (first | apply State.latchEdge_keeps | apply keepsOut_ok))
    | (dsimp only)

theorem execEdgeDeliver_keeps {s0 : Base} {s : State} (input : Nat) (h : Keeps s0 s) :
    KeepsOut s0 (execEdgeDeliver input s) := by
  unfold execEdgeDeliver
  repeat' first
    | (with_reducible assumption)
    | (with_reducible (first | apply State.addMark_keeps | apply keepsOut_ok))
    | (dsimp only)
    | split
    | rfl
    | (refine Keeps.snd (by assumption) ?_)
    | (refine Keeps.fst (by assumption) ?_)
    | (with_reducible refine Keeps.upd ?_ ?_ ?_ ?_)

theorem State.installDecode_keeps {s0 : Base} {s : State} (g : Nat) (t : DecodeTab) (h : Keeps s0 s) :
    Keeps s0 (State.installDecode s g t) := by
  unfold State.installDecode
  repeat' first
    | (with_reducible assumption)
    | (with_reducible (first | apply State.modCluster_keeps))
    | (dsimp only)
    | split
    | rfl
    | (intro _ _ _ _)
    | (intro _ _ _)
    | (intro _ _)
    | (with_reducible refine Keeps.upd ?_ ?_ ?_ ?_)

theorem State.newDecode_keeps {s0 : Base} {s : State} (old : PartSec) (new : PartSec) (h : Keeps s0 s) :
    Keeps s0 (State.newDecode s old new) := by
  unfold State.newDecode
  repeat' first
    | (with_reducible assumption)
    | (with_reducible (first | apply Keeps.foldl | apply State.installDecode_keeps))
    | (dsimp only)
    | split
    | (intro _ _ _ _)
    | (intro _ _ _)
    | (intro _ _)

theorem State.createPart_keeps {s0 : Base} {s : State} (q : PartSec) (h : Keeps s0 s) :
    Keeps s0 (State.createPart s q) := by
  unfold State.createPart
  repeat' first
    | (with_reducible assumption)
    | (with_reducible (first | apply State.logErr_keeps | apply State.modPart_keeps | apply State.pltEvent_keeps | apply State.request_keeps | apply State.setPart_keeps))
    | (dsimp only)
    | split
    | rfl
    | (intro _ _ _ _)
    | (intro _ _ _)
    | (intro _ _)
    | (with_reducible refine Keeps.upd ?_ ?_ ?_ ?_)

theorem State.changePart_keeps {s0 : Base} {s : State} (old : Option PartSec) (q : PartSec) (h : Keeps s0 s) :
    Keeps s0 (State.changePart s old q) := by
  unfold State.changePart
  repeat' first
    | (with_reducible assumption)
    | (with_reducible (first | apply State.createPart_keeps | apply State.modPart_keeps | apply State.newDecode_keeps))
    | (dsimp only)
    | split
    | rfl
    | (refine Keeps.snd (by assumption) ?_)
    | (refine Keeps.fst (by assumption) ?_)
    | (intro _ _ _ _)
    | (intro _ _ _)
    | (intro _ _)
    | (with_reducible refine Keeps.upd ?_ ?_ ?_ ?_)

theorem State.dropPart_keeps {s0 : Base} {s : State} (p : Nat) (h : Keeps s0 s) :
    Keeps s0 (State.dropPart s p) := by
  unfold State.dropPart
  repeat' first
    | (with_reducible assumption)
    | (with_reducible (first | apply State.closeSess_keeps))
    | (dsimp only)
    | rfl
    | (with_reducible refine Keeps.upd ?_ ?_ ?_ ?_)

theorem State.rePort_keeps {s0 : Base} {s : State} (q : Nat) (h : Keeps s0 s) :
    Keeps s0 (State.rePort s q) := by
  unfold State.rePort
  repeat' first
    | (with_reducible assumption)
    | (with_reducible (first | apply State.modPort_keeps | apply State.portDown_keeps | apply State.startTraining_keeps))
    | (dsimp only)
    | split
    | rfl
    | (intro _ _ _ _)
    | (intro _ _ _)
    | (intro _ _)
    | (with_reducible refine Keeps.upd ?_ ?_ ?_ ?_)

theorem State.installSystem_keeps {s0 : Base} {s : State} (pl : Plate) (atBoot : Bool) (h : Keeps s0 s) :
    Keeps s0 (State.installSystem s pl atBoot) := by
  unfold State.installSystem
  try generalize List.range 16 = l16
  repeat' first
    | (with_reducible assumption)
    | (with_reducible (first | apply Keeps.foldl | apply State.rePort_keeps))
    | (dsimp only)
    | split
    | rfl
    | (intro _ _ _ _)
    | (intro _ _ _)
    | (intro _ _)
    | (with_reducible refine Keeps.upd ?_ ?_ ?_ ?_)

theorem State.checkStacks_keeps {s0 : Base} {s : State} (y : SysSec) (h : Keeps s0 s) :
    Keeps s0 (State.checkStacks s y) := by
  unfold State.checkStacks
  repeat' first
    | (with_reducible assumption)
    | (with_reducible (first | apply State.logErr_keeps | apply State.pltEvent_keeps))
    | (dsimp only)
    | split
    | rfl
    | (with_reducible refine Keeps.upd ?_ ?_ ?_ ?_)

theorem State.rejudge_keeps {s0 : Base} {s : State}  (h : Keeps s0 s) :
    Keeps s0 (State.rejudge s) := by
  unfold State.rejudge
  try generalize List.range 16 = l16
  repeat' first
    | (with_reducible assumption)
    | (with_reducible (first | apply Keeps.foldl | apply State.judgeWarning_keeps))
    | (dsimp only)
    | split
    | (intro _ _ _ _)
    | (intro _ _ _)
    | (intro _ _)

theorem State.holdPlate_keeps {s0 : Base} {s : State} (pl : Plate) (bytes : List Byte) (persist : Bool) (h : Keeps s0 s) :
    Keeps s0 (State.holdPlate s pl bytes persist) := by
  unfold State.holdPlate
  repeat' first
    | (with_reducible assumption)
    | (with_reducible (first | apply State.keepArchive_keeps | apply State.raise_keeps))
    | (dsimp only)
    | split
    | rfl
    | (intro _ _ _ _)
    | (intro _ _ _)
    | (intro _ _)
    | (with_reducible refine Keeps.upd ?_ ?_ ?_ ?_)

theorem State.endRepair_keeps {s0 : Base} {s : State} (code : Nat) (h : Keeps s0 s) :
    Keeps s0 (State.endRepair s code) := by
  unfold State.endRepair
  repeat' first
    | (with_reducible assumption)
    | (with_reducible (first | apply State.emit_keeps | apply State.raise_keeps))
    | (dsimp only)
    | split
    | rfl
    | (refine Keeps.snd (by assumption) ?_)
    | (refine Keeps.fst (by assumption) ?_)
    | (with_reducible refine Keeps.upd ?_ ?_ ?_ ?_)

theorem State.repairOwned_keeps {s0 : Base} {s : State}  (h : Keeps s0 s) :
    Keeps s0 (State.repairOwned s) := by
  unfold State.repairOwned
  repeat' first
    | (with_reducible assumption)
    | (with_reducible (first | apply State.endRepair_keeps | apply State.request_keeps))
    | (dsimp only)
    | split
    | (refine Keeps.snd (by assumption) ?_)
    | (refine Keeps.fst (by assumption) ?_)

theorem State.installPlate_keeps {s0 : Base} {s : State} (new : Plate) (bytes : List Byte) (persist : Bool) (atBoot : Bool) (h : Keeps s0 s) :
    Keeps s0 (State.installPlate s new bytes persist atBoot) := by
  unfold State.installPlate
  try generalize List.range 16 = l16
  repeat' first
    | (with_reducible assumption)
    | (with_reducible (first | apply Keeps.foldl | apply State.agOwnership_keeps | apply State.changePart_keeps | apply State.checkStacks_keeps | apply State.dropEdges_keeps | apply State.dropPart_keeps | apply State.holdPlate_keeps | apply State.installSystem_keeps | apply State.pltEvent_keeps | apply State.rejudge_keeps | apply State.repairOwned_keeps))
    | (dsimp only)
    | split
    | rfl
    | (refine Keeps.snd (by assumption) ?_)
    | (refine Keeps.fst (by assumption) ?_)
    | (intro _ _ _ _)
    | (intro _ _ _)
    | (intro _ _)
    | (with_reducible refine Keeps.upd ?_ ?_ ?_ ?_)

theorem State.step4_keeps {s0 : Base} {s : State}  (h : Keeps s0 s) :
    Keeps s0 (State.step4 s) := by
  unfold State.step4
  repeat' first
    | (with_reducible assumption)
    | (with_reducible (first | apply State.installPlate_keeps | apply State.useAssent_keeps))
    | (dsimp only)
    | split
    | rfl
    | (refine Keeps.snd (by assumption) ?_)
    | (refine Keeps.fst (by assumption) ?_)
    | (with_reducible refine Keeps.upd ?_ ?_ ?_ ?_)

theorem State.bootInstall_keeps {s0 : Base} {s : State}  (h : Keeps s0 s) :
    Keeps s0 (State.bootInstall s) := by
  unfold State.bootInstall
  repeat' first
    | (with_reducible assumption)
    | (with_reducible (first | apply State.installPlate_keeps))
    | (dsimp only)
    | split
    | (refine Keeps.snd (by assumption) ?_)
    | (refine Keeps.fst (by assumption) ?_)

theorem State.applyUnlock_keeps {s0 : Base} {s : State}  (h : Keeps s0 s) :
    Keeps s0 (State.applyUnlock s) := by
  unfold State.applyUnlock
  try generalize List.range 16 = l16
  repeat' first
    | (with_reducible assumption)
    | (with_reducible (first | apply Keeps.foldl | apply State.closeSess_keeps | apply State.emit_keeps | apply State.sesEvent_keeps))
    | (refine State.writeArchive_keeps ?_ (by assumption))
    | (dsimp only)
    | split
    | rfl
    | (refine Keeps.snd (by assumption) ?_)
    | (refine Keeps.fst (by assumption) ?_)
    | (intro _ _ _ _)
    | (intro _ _ _)
    | (intro _ _)
    | (with_reducible refine Keeps.upd ?_ ?_ ?_ ?_)

end Sys2Proof.Machine
end

