-- ==== Sys2Proof/Laws/KeepsRepair.lean ====
section
/-!
SUPPORT. What the operations of Machine/Repair.lean leave in place.
-/

namespace Sys2Proof.Machine

open Sys2Proof

theorem State.persistMap_keeps {s0 : Base} {s : State} (stores : Bool) (h : Keeps s0 s) :
    Keeps s0 (State.persistMap s stores).2 := by
  unfold State.persistMap
  repeat' first
    | (with_reducible assumption)
    | (refine State.writeArchive_keeps ?_ (by assumption))
    | (dsimp only)
    | split
    | rfl
    | (refine Keeps.snd (by assumption) ?_)
    | (refine Keeps.fst (by assumption) ?_)
    | (intro _ _ _ _)
    | (intro _ _ _)
    | (intro _ _)
    | (with_reducible refine Keeps.upd ?_ ?_ ?_ ?_)

theorem State.takeRepairAssent_keeps {s0 : Base} {s : State} (r : List Byte) (h : Keeps s0 s) :
    Keeps s0 (State.takeRepairAssent s r) := by
  unfold State.takeRepairAssent
  repeat' first
    | (with_reducible assumption)
    | (with_reducible (first | apply State.useAssent_keeps))
    | (dsimp only)
    | split
    | (refine Keeps.snd (by assumption) ?_)
    | (refine Keeps.fst (by assumption) ?_)

theorem State.recordRepair_keeps {s0 : Base} {s : State} (r : List Byte) (origin : Nat) (stores : Bool) (h : Keeps s0 s) :
    Keeps s0 (State.recordRepair s r origin stores).2 := by
  unfold State.recordRepair
  repeat' first
    | (with_reducible assumption)
    | (with_reducible (first | apply State.persistMap_keeps))
    | (dsimp only)
    | rfl
    | (with_reducible refine Keeps.upd ?_ ?_ ?_ ?_)

theorem State.beginRepair_keeps {s0 : Base} {s : State} (o : RepairOp) (h : Keeps s0 s) :
    Keeps s0 (State.beginRepair s o) := by
  unfold State.beginRepair
  repeat' first
    | (with_reducible assumption)
    | (dsimp only)
    | rfl
    | (with_reducible refine Keeps.upd ?_ ?_ ?_ ?_)

theorem State.repairApply_keeps {s0 : Base} {s : State} (o : RepairOp) (stores : Bool) (h : Keeps s0 s) :
    Keeps s0 (State.repairApply s o stores) := by
  unfold State.repairApply
  repeat' first
    | (with_reducible assumption)
    | (with_reducible (first | apply State.beginRepair_keeps | apply State.endRepair_keeps | apply State.expireAssents_keeps | apply State.recordRepair_keeps | apply State.request_keeps | apply State.takeRepairAssent_keeps))
    | (dsimp only)
    | split
    | (refine Keeps.snd (by assumption) ?_)
    | (refine Keeps.fst (by assumption) ?_)

theorem State.repairRemove_keeps {s0 : Base} {s : State} (o : RepairOp) (stores : Bool) (h : Keeps s0 s) :
    Keeps s0 (State.repairRemove s o stores) := by
  unfold State.repairRemove
  repeat' first
    | (with_reducible assumption)
    | (with_reducible (first | apply State.beginRepair_keeps | apply State.endRepair_keeps | apply State.persistMap_keeps | apply State.request_keeps))
    | (dsimp only)
    | split
    | rfl
    | (intro _ _ _ _)
    | (intro _ _ _)
    | (intro _ _)
    | (with_reducible refine Keeps.upd ?_ ?_ ?_ ?_)

theorem State.rprCmd_keeps {s0 : Base} {s : State} (f : State → State) (h : Keeps s0 s) (h_f : ∀ (t : State), Keeps s0 t → Keeps s0 (f t)) :
    Keeps s0 (State.rprCmd s f) := by
  unfold State.rprCmd
  repeat' first
    | (with_reducible assumption)
    | (with_reducible (first | apply State.pfWrite_keeps | apply h_f))
    | (dsimp only)
    | split
    | (intro _ _ _ _)
    | (intro _ _ _)
    | (intro _ _)

theorem execRprApply_keeps {s0 : Base} {s : State} (stores : Bool) (h : Keeps s0 s) :
    KeepsOut s0 (execRprApply stores s) := by
  unfold execRprApply
  repeat' first
    | (with_reducible assumption)
    | (with_reducible (first | apply State.repairApply_keeps | apply State.request_keeps | apply State.rprCmd_keeps | apply keepsOut_ok))
    | (dsimp only)
    | rfl
    | (intro _ _ _ _)
    | (intro _ _ _)
    | (intro _ _)
    | (with_reducible refine Keeps.upd ?_ ?_ ?_ ?_)

theorem execRprRemove_keeps {s0 : Base} {s : State} (stores : Bool) (h : Keeps s0 s) :
    KeepsOut s0 (execRprRemove stores s) := by
  unfold execRprRemove
  repeat' first
    | (with_reducible assumption)
    | (with_reducible (first | apply State.repairRemove_keeps | apply State.request_keeps | apply State.rprCmd_keeps | apply keepsOut_ok))
    | (dsimp only)
    | rfl
    | (intro _ _ _ _)
    | (intro _ _ _)
    | (intro _ _)
    | (with_reducible refine Keeps.upd ?_ ?_ ?_ ?_)

theorem State.repairDigestCmd_keeps {s0 : Base} {s : State}  (h : Keeps s0 s) :
    Keeps s0 (State.repairDigestCmd s) := by
  unfold State.repairDigestCmd
  repeat' first
    | (with_reducible assumption)
    | (with_reducible (first | apply State.beginRepair_keeps | apply State.endRepair_keeps | apply State.request_keeps))
    | (dsimp only)
    | rfl
    | (with_reducible refine Keeps.upd ?_ ?_ ?_ ?_)

theorem execRprDigest_keeps {s0 : Base} {s : State}  (h : Keeps s0 s) :
    KeepsOut s0 (execRprDigest s) := by
  unfold execRprDigest
  repeat' first
    | (with_reducible assumption)
    | (with_reducible (first | apply State.repairDigestCmd_keeps | apply State.rprCmd_keeps | apply keepsOut_ok))
    | (dsimp only)
    | (intro _ _ _ _)
    | (intro _ _ _)
    | (intro _ _)

theorem State.repairDone_keeps {s0 : Base} {s : State} (code : Nat) (lines : List Nat) (stores : Bool) (h : Keeps s0 s) :
    Keeps s0 (State.repairDone s code lines stores) := by
  unfold State.repairDone
  repeat' first
    | (with_reducible assumption)
    | (with_reducible (first | apply Keeps.foldl | apply State.endRepair_keeps | apply State.fullWrite_keeps | apply State.recordRepair_keeps | apply State.request_keeps | apply Keeps.foldl_snd | apply Keeps.foldl_fst))
    | (dsimp only)
    | split
    | (refine Keeps.snd (by assumption) ?_)
    | (refine Keeps.fst (by assumption) ?_)
    | (intro _ _ _ _)
    | (intro _ _ _)
    | (intro _ _)

theorem execRepairOperationComplete_keeps {s0 : Base} {s : State} (code : Nat) (lines : List Nat) (stores : Bool) (h : Keeps s0 s) :
    KeepsOut s0 (execRepairOperationComplete code lines stores s) := by
  unfold execRepairOperationComplete
  repeat' first
    | (with_reducible assumption)
    | (with_reducible (first | apply State.repairDone_keeps | apply keepsOut_ok))
    | (dsimp only)

end Sys2Proof.Machine
end

