-- ==== Sys2Proof/Laws/KeepsPlate.lean ====
section
/-!
SUPPORT. What the operations of Machine/Plate.lean leave in place.
-/

namespace Sys2Proof.Machine

open Sys2Proof

theorem State.pltCmd_keeps {s0 : Base} {s : State} (f : State → State) (h : Keeps s0 s) (h_f : ∀ (t : State), Keeps s0 t → Keeps s0 (f t)) :
    Keeps s0 (State.pltCmd s f) := by
  unfold State.pltCmd
  repeat' first
    | (with_reducible assumption)
    | (with_reducible (first | apply State.pfWrite_keeps | apply h_f))
    | (dsimp only)
    | split
    | rfl
    | (intro _ _ _ _)
    | (intro _ _ _)
    | (intro _ _)
    | (with_reducible refine Keeps.upd ?_ ?_ ?_ ?_)

theorem State.stageFail_keeps {s0 : Base} {s : State} (e : Nat × Nat) (h : Keeps s0 s) :
    Keeps s0 (State.stageFail s e) := by
  unfold State.stageFail
  repeat' first
    | (with_reducible assumption)
    | (with_reducible (first | apply State.logErr_keeps | apply State.pltEvent_keeps))
    | (dsimp only)
    | rfl
    | (with_reducible refine Keeps.upd ?_ ?_ ?_ ?_)

theorem State.stageCopy_keeps {s0 : Base} {s : State} (host : Option (List Byte)) (h : Keeps s0 s) :
    Keeps s0 (State.stageCopy s host).2 := by
  unfold State.stageCopy
  repeat' first
    | (with_reducible assumption)
    | (with_reducible (first | apply State.readDev_keeps))
    | (dsimp only)
    | split
    | (refine Keeps.snd (by assumption) ?_)
    | (refine Keeps.fst (by assumption) ?_)
    | (intro _ _ _ _)
    | (intro _ _ _)
    | (intro _ _)

theorem State.stagePlate_keeps {s0 : Base} {s : State} (host : Option (List Byte)) (h : Keeps s0 s) :
    Keeps s0 (State.stagePlate s host) := by
  unfold State.stagePlate
  repeat' first
    | (with_reducible assumption)
    | (with_reducible (first | apply State.stageCopy_keeps | apply State.stageFail_keeps))
    | (dsimp only)
    | split
    | rfl
    | (refine Keeps.snd (by assumption) ?_)
    | (refine Keeps.fst (by assumption) ?_)
    | (with_reducible refine Keeps.upd ?_ ?_ ?_ ?_)

theorem execPltStage_keeps {s0 : Base} {s : State} (host : Option (List Byte)) (h : Keeps s0 s) :
    KeepsOut s0 (execPltStage host s) := by
  unfold execPltStage
  repeat' first
    | (with_reducible assumption)
    | (with_reducible (first | apply State.pltCmd_keeps | apply State.stagePlate_keeps | apply keepsOut_ok))
    | (dsimp only)
    | (intro _ _ _ _)
    | (intro _ _ _)
    | (intro _ _)

theorem State.validationDone_keeps {s0 : Base} {s : State}  (h : Keeps s0 s) :
    Keeps s0 (State.validationDone s) := by
  unfold State.validationDone
  split
  · have h1 := State.expireAssents_keeps h
    dsimp only
    generalize State.expireAssents s = u at h1 ⊢
    generalize State.validate u _ _ _ = v
    repeat' first
      | (with_reducible assumption)
      | (with_reducible (first | apply State.pltEvent_keeps | apply State.reserveAssent_keeps | apply State.stageFail_keeps))
      | split
      | rfl
      | (with_reducible refine Keeps.upd ?_ ?_ ?_ ?_)
  · exact h

theorem execPlateValidationDone_keeps {s0 : Base} {s : State} (t : Nat) (h : Keeps s0 s) :
    KeepsOut s0 (execPlateValidationDone t s) := by
  unfold execPlateValidationDone
  repeat' first
    | (with_reducible assumption)
    | (with_reducible (first | apply State.advance_keeps | apply State.validationDone_keeps | apply keepsOut_ok))
    | (dsimp only)

theorem State.abortPlate_keeps {s0 : Base} {s : State}  (h : Keeps s0 s) :
    Keeps s0 (State.abortPlate s) := by
  unfold State.abortPlate
  repeat' first
    | (with_reducible assumption)
    | (with_reducible (first | apply State.returnAssent_keeps))
    | (dsimp only)
    | split
    | rfl
    | (refine Keeps.snd (by assumption) ?_)
    | (refine Keeps.fst (by assumption) ?_)
    | (with_reducible refine Keeps.upd ?_ ?_ ?_ ?_)

theorem execPltAbort_keeps {s0 : Base} {s : State}  (h : Keeps s0 s) :
    KeepsOut s0 (execPltAbort s) := by
  unfold execPltAbort
  repeat' first
    | (with_reducible assumption)
    | (with_reducible (first | apply State.abortPlate_keeps | apply State.pltCmd_keeps | apply keepsOut_ok))
    | (dsimp only)
    | (intro _ _ _ _)
    | (intro _ _ _)
    | (intro _ _)

theorem State.requestPart_keeps {s0 : Base} {s : State} (p : Nat) (r : PartReq) (h : Keeps s0 s) :
    Keeps s0 (State.requestPart s p r) := by
  unfold State.requestPart
  repeat' first
    | (with_reducible assumption)
    | (with_reducible (first | apply State.modPart_keeps | apply State.pltEvent_keeps | apply State.request_keeps))
    | (dsimp only)
    | split
    | rfl
    | (intro _ _ _ _)
    | (intro _ _ _)
    | (intro _ _)
    | (with_reducible refine Keeps.upd ?_ ?_ ?_ ?_)

theorem State.partCmd_keeps {s0 : Base} {s : State} (p : Nat) (r : PartReq) (h : Keeps s0 s) :
    Keeps s0 (State.partCmd s p r) := by
  unfold State.partCmd
  repeat' first
    | (with_reducible assumption)
    | (with_reducible (first | apply State.pfWrite_keeps | apply State.requestPart_keeps))
    | (dsimp only)
    | rfl
    | (intro _ _ _ _)
    | (intro _ _ _)
    | (intro _ _)
    | (with_reducible refine Keeps.upd ?_ ?_ ?_ ?_)

theorem execPltStart_keeps {s0 : Base} {s : State} (p : Nat) (h : Keeps s0 s) :
    KeepsOut s0 (execPltStart p s) := by
  unfold execPltStart
  repeat' first
    | (with_reducible assumption)
    | (with_reducible (first | apply State.partCmd_keeps | apply keepsOut_ok))
    | (dsimp only)

theorem execPltStop_keeps {s0 : Base} {s : State} (p : Nat) (h : Keeps s0 s) :
    KeepsOut s0 (execPltStop p s) := by
  unfold execPltStop
  repeat' first
    | (with_reducible assumption)
    | (with_reducible (first | apply State.partCmd_keeps | apply keepsOut_ok))
    | (dsimp only)

theorem execPltRelease_keeps {s0 : Base} {s : State} (p : Nat) (h : Keeps s0 s) :
    KeepsOut s0 (execPltRelease p s) := by
  unfold execPltRelease
  repeat' first
    | (with_reducible assumption)
    | (with_reducible (first | apply State.partCmd_keeps | apply keepsOut_ok))
    | (dsimp only)

theorem execMigrateOut_keeps {s0 : Base} {s : State} (p : Nat) (dev : Nat) (part : Nat) (h : Keeps s0 s) :
    KeepsOut s0 (execMigrateOut p dev part s) := by
  unfold execMigrateOut
  repeat' first
    | (with_reducible assumption)
    | (with_reducible (first | apply State.partCmd_keeps | apply keepsOut_ok))
    | (dsimp only)

theorem execPgRelease_keeps {s0 : Base} {s : State} (p : Nat) (h : Keeps s0 s) :
    KeepsOut s0 (execPgRelease p s) := by
  unfold execPgRelease
  repeat' first
    | (with_reducible assumption)
    | (with_reducible (first | apply State.denyPage_keeps | apply State.requestPart_keeps | apply State.vfWrite_keeps | apply keepsOut_ok))
    | (dsimp only)
    | split
    | rfl
    | (intro _ _ _ _)
    | (intro _ _ _)
    | (intro _ _)
    | (with_reducible refine Keeps.upd ?_ ?_ ?_ ?_)

end Sys2Proof.Machine
end

