-- ==== Sys2Proof/Laws/KeepsSessions.lean ====
section
/-!
SUPPORT. What the operations of Machine/Sessions.lean leave in place.
-/

namespace Sys2Proof.Machine

open Sys2Proof

theorem State.authFail_keeps {s0 : Base} {s : State} (role : Nat) (part : Nat) (unit : Nat) (h : Keeps s0 s) :
    Keeps s0 (State.authFail s role part unit) := by
  unfold State.authFail
  repeat' first
    | (with_reducible assumption)
    | (with_reducible (first | apply State.logErr_keeps | apply State.sesEvent_keeps))
    | (dsimp only)
    | split
    | rfl
    | (with_reducible refine Keeps.upd ?_ ?_ ?_ ?_)

theorem State.psCmd_keeps {s0 : Base} {s : State} (p : Nat) (f : State → State) (h : Keeps s0 s) (h_f : ∀ (t : State), Keeps s0 t → Keeps s0 (f t)) :
    Keeps s0 (State.psCmd s p f) := by
  unfold State.psCmd
  repeat' first
    | (with_reducible assumption)
    | (with_reducible (first | apply State.denyPage_keeps | apply State.modSess_keeps | apply State.vfWrite_keeps | apply h_f))
    | (dsimp only)
    | split
    | rfl
    | (intro _ _ _ _)
    | (intro _ _ _)
    | (intro _ _)
    | (with_reducible refine Keeps.upd ?_ ?_ ?_ ?_)

theorem State.psResult_keeps {s0 : Base} {s : State} (p : Nat) (r : Nat) (h : Keeps s0 s) :
    Keeps s0 (State.psResult s p r) := by
  unfold State.psResult
  repeat' first
    | (with_reducible assumption)
    | (with_reducible (first | apply State.modSess_keeps))
    | (dsimp only)
    | rfl
    | (intro _ _ _ _)
    | (intro _ _ _)
    | (intro _ _)
    | (with_reducible refine Keeps.upd ?_ ?_ ?_ ?_)

theorem State.psChallenge_keeps {s0 : Base} {s : State} (p : Nat) (h : Keeps s0 s) :
    Keeps s0 (State.psChallenge s p) := by
  unfold State.psChallenge
  repeat' first
    | (with_reducible assumption)
    | (with_reducible (first | apply State.draw_keeps | apply State.modSess_keeps | apply State.psResult_keeps))
    | (dsimp only)
    | split
    | rfl
    | (intro _ _ _ _)
    | (intro _ _ _)
    | (intro _ _)
    | (with_reducible refine Keeps.upd ?_ ?_ ?_ ?_)

theorem execPsChallenge_keeps {s0 : Base} {s : State} (p : Nat) (t : Nat) (h : Keeps s0 s) :
    KeepsOut s0 (execPsChallenge p t s) := by
  unfold execPsChallenge
  repeat' first
    | (with_reducible assumption)
    | (with_reducible (first | apply State.advance_keeps | apply State.denyPage_keeps | apply State.psChallenge_keeps | apply State.psCmd_keeps | apply State.vfWrite_keeps | apply keepsOut_ok))
    | (dsimp only)
    | split
    | (intro _ _ _ _)
    | (intro _ _ _)
    | (intro _ _)

theorem State.psMismatch_keeps {s0 : Base} {s : State} (p : Nat) (h : Keeps s0 s) :
    Keeps s0 (State.psMismatch s p) := by
  unfold State.psMismatch
  repeat' first
    | (with_reducible assumption)
    | (with_reducible (first | apply State.authFail_keeps | apply State.modSess_keeps))
    | (dsimp only)
    | split
    | rfl
    | (intro _ _ _ _)
    | (intro _ _ _)
    | (intro _ _)
    | (with_reducible refine Keeps.upd ?_ ?_ ?_ ?_)

theorem State.psOpen_keeps {s0 : Base} {s : State} (p : Nat) (h : Keeps s0 s) :
    Keeps s0 (State.psOpen s p) := by
  unfold State.psOpen
  repeat' first
    | (with_reducible assumption)
    | (with_reducible (first | apply State.modSess_keeps | apply State.psMismatch_keeps | apply State.psResult_keeps))
    | (dsimp only)
    | split
    | rfl
    | (refine Keeps.snd (by assumption) ?_)
    | (refine Keeps.fst (by assumption) ?_)
    | (intro _ _ _ _)
    | (intro _ _ _)
    | (intro _ _)
    | (with_reducible refine Keeps.upd ?_ ?_ ?_ ?_)

theorem execPsOpen_keeps {s0 : Base} {s : State} (p : Nat) (t : Nat) (h : Keeps s0 s) :
    KeepsOut s0 (execPsOpen p t s) := by
  unfold execPsOpen
  repeat' first
    | (with_reducible assumption)
    | (with_reducible (first | apply State.advance_keeps | apply State.psCmd_keeps | apply State.psOpen_keeps | apply keepsOut_ok))
    | (dsimp only)
    | (intro _ _ _ _)
    | (intro _ _ _)
    | (intro _ _)

theorem State.psClose_keeps {s0 : Base} {s : State} (p : Nat) (h : Keeps s0 s) :
    Keeps s0 (State.psClose s p) := by
  unfold State.psClose
  repeat' first
    | (with_reducible assumption)
    | (with_reducible (first | apply State.closeSess_keeps | apply State.psResult_keeps))
    | (dsimp only)
    | split

theorem execPsClose_keeps {s0 : Base} {s : State} (p : Nat) (h : Keeps s0 s) :
    KeepsOut s0 (execPsClose p s) := by
  unfold execPsClose
  repeat' first
    | (with_reducible assumption)
    | (with_reducible (first | apply State.psClose_keeps | apply State.psCmd_keeps | apply keepsOut_ok))
    | (dsimp only)
    | (intro _ _ _ _)
    | (intro _ _ _)
    | (intro _ _)

theorem State.nonceExpiry_keeps {s0 : Base} {s : State} (p : Nat) (h : Keeps s0 s) :
    Keeps s0 (State.nonceExpiry s p) := by
  unfold State.nonceExpiry
  repeat' first
    | (with_reducible assumption)
    | (with_reducible (first | apply State.modSess_keeps))
    | (dsimp only)
    | split
    | rfl
    | (intro _ _ _ _)
    | (intro _ _ _)
    | (intro _ _)
    | (with_reducible refine Keeps.upd ?_ ?_ ?_ ?_)

theorem execNonceExpiry_keeps {s0 : Base} {s : State} (p : Nat) (t : Nat) (h : Keeps s0 s) :
    KeepsOut s0 (execNonceExpiry p t s) := by
  unfold execNonceExpiry
  repeat' first
    | (with_reducible assumption)
    | (with_reducible (first | apply State.advance_keeps | apply State.nonceExpiry_keeps | apply keepsOut_ok))
    | (dsimp only)

theorem State.lockoutEnd_keeps {s0 : Base} {s : State} (p : Nat) (h : Keeps s0 s) :
    Keeps s0 (State.lockoutEnd s p) := by
  unfold State.lockoutEnd
  repeat' first
    | (with_reducible assumption)
    | (with_reducible (first | apply State.modSess_keeps))
    | (dsimp only)
    | split
    | rfl
    | (intro _ _ _ _)
    | (intro _ _ _)
    | (intro _ _)
    | (with_reducible refine Keeps.upd ?_ ?_ ?_ ?_)

theorem execLockoutEnd_keeps {s0 : Base} {s : State} (p : Nat) (t : Nat) (h : Keeps s0 s) :
    KeepsOut s0 (execLockoutEnd p t s) := by
  unfold execLockoutEnd
  repeat' first
    | (with_reducible assumption)
    | (with_reducible (first | apply State.advance_keeps | apply State.lockoutEnd_keeps | apply keepsOut_ok))
    | (dsimp only)

end Sys2Proof.Machine
end

