-- ==== Sys2Proof/Laws/KeepsRegisters.lean ====
section
/-!
SUPPORT. What the operations of Machine/Registers.lean leave in place.
-/

namespace Sys2Proof.Machine

open Sys2Proof

theorem State.clearReg_keeps {s0 : Base} {s : State} (v : RegView) (h : Keeps s0 s) :
    Keeps s0 (State.clearReg s v) := by
  unfold State.clearReg
  repeat' first
    | (with_reducible assumption)
    | (with_reducible (first | apply State.modSq_keeps | apply State.modStack_keeps | apply State.setReg_keeps))
    | (dsimp only)
    | split
    | rfl
    | (refine Keeps.snd (by assumption) ?_)
    | (refine Keeps.fst (by assumption) ?_)
    | (intro _ _ _ _)
    | (intro _ _ _)
    | (intro _ _)
    | (with_reducible refine Keeps.upd ?_ ?_ ?_ ?_)

theorem State.readReg_keeps {s0 : Base} {s : State} (path : Nat) (v : RegView) (h : Keeps s0 s) :
    Keeps s0 (State.readReg s path v).2 := by
  unfold State.readReg
  repeat' first
    | (with_reducible assumption)
    | (with_reducible (first | apply State.clearReg_keeps))
    | (dsimp only)
    | split
    | rfl
    | (refine Keeps.snd (by assumption) ?_)
    | (refine Keeps.fst (by assumption) ?_)
    | (with_reducible refine Keeps.upd ?_ ?_ ?_ ?_)

theorem State.wignBlk_keeps {s0 : Base} {s : State} (b : Blk) (h : Keeps s0 s) :
    Keeps s0 (State.wignBlk s b) := by
  unfold State.wignBlk
  repeat' first
    | (with_reducible assumption)
    | (with_reducible (first | apply State.countWign_keeps | apply State.modAgit_keeps))
    | (dsimp only)
    | split
    | rfl
    | (refine Keeps.snd (by assumption) ?_)
    | (refine Keeps.fst (by assumption) ?_)
    | (intro _ _ _ _)
    | (intro _ _ _)
    | (intro _ _)
    | (with_reducible refine Keeps.upd ?_ ?_ ?_ ?_)

theorem State.sendPending_keeps {s0 : Base} {s : State} (fn : Nat) (v : Nat) (h : Keeps s0 s) :
    Keeps s0 (State.sendPending s fn v) := by
  unfold State.sendPending
  repeat' first
    | (with_reducible assumption)
    | (with_reducible (first | apply State.sendMsix_keeps | apply State.setPend_keeps))
    | (dsimp only)
    | split

theorem State.msixWrite_keeps {s0 : Base} {s : State} (fn : Nat) (o : Nat) (w : Word) (h : Keeps s0 s) :
    Keeps s0 (State.msixWrite s fn o w) := by
  unfold State.msixWrite
  repeat' first
    | (with_reducible assumption)
    | (with_reducible (first | apply State.sendPending_keeps | apply State.setReg_keeps))
    | (dsimp only)
    | split

theorem State.errHead_keeps {s0 : Base} {s : State} (x : Word) (h : Keeps s0 s) :
    Keeps s0 (State.errHead s x) := by
  unfold State.errHead
  repeat' first
    | (with_reducible assumption)
    | (dsimp only)
    | split
    | rfl
    | (with_reducible refine Keeps.upd ?_ ?_ ?_ ?_)

theorem execErrHeadWrite_keeps {s0 : Base} {s : State} (x : Word) (h : Keeps s0 s) :
    KeepsOut s0 (execErrHeadWrite x s) := by
  unfold execErrHeadWrite
  repeat' first
    | (with_reducible assumption)
    | (with_reducible (first | apply State.errHead_keeps | apply State.pfWrite_keeps | apply keepsOut_ok))
    | (dsimp only)
    | (intro _ _ _ _)
    | (intro _ _ _)
    | (intro _ _)

theorem State.partCmdWrite_keeps {s0 : Base} {s : State} (p : Nat) (w : Word) (h : Keeps s0 s) :
    Keeps s0 (State.partCmdWrite s p w) := by
  unfold State.partCmdWrite
  repeat' first
    | (with_reducible assumption)
    | (with_reducible (first | apply State.requestPart_keeps))
    | (dsimp only)
    | split
    | rfl
    | (refine Keeps.snd (by assumption) ?_)
    | (refine Keeps.fst (by assumption) ?_)
    | (with_reducible refine Keeps.upd ?_ ?_ ?_ ?_)

theorem State.woWrite_keeps {s0 : Base} {s : State} (path : Nat) (b : Blk) (o : Nat) (w : Word) (h : Keeps s0 s) :
    Keeps s0 (State.woWrite s path b o w) := by
  unfold State.woWrite
  repeat' first
    | (with_reducible assumption)
    | (with_reducible (first | apply State.abortPlate_keeps | apply State.agStart_keeps | apply State.agStop_keeps | apply State.mbxDark_keeps | apply State.mbxRetrain_keeps | apply State.modAgit_keeps | apply State.modPort_keeps | apply State.partCmdWrite_keeps | apply State.repairDigestCmd_keeps | apply State.setReg_keeps))
    | (dsimp only)
    | split
    | rfl
    | (refine Keeps.snd (by assumption) ?_)
    | (refine Keeps.fst (by assumption) ?_)
    | (intro _ _ _ _)
    | (intro _ _ _)
    | (intro _ _)
    | (with_reducible refine Keeps.upd ?_ ?_ ?_ ?_)

theorem State.rwWrite_keeps {s0 : Base} {s : State} (b : Blk) (o : Nat) (k : Nat) (w : Word) (h : Keeps s0 s) :
    Keeps s0 (State.rwWrite s b o k w) := by
  unfold State.rwWrite
  repeat' first
    | (with_reducible assumption)
    | (with_reducible (first | apply State.atpCtrl_keeps | apply State.errHead_keeps | apply State.msixWrite_keeps | apply State.setReg_keeps))
    | (dsimp only)
    | split
    | rfl
    | (refine Keeps.snd (by assumption) ?_)
    | (refine Keeps.fst (by assumption) ?_)
    | (with_reducible refine Keeps.upd ?_ ?_ ?_ ?_)

theorem State.rwdWrite_keeps {s0 : Base} {s : State} (b : Blk) (o : Nat) (k : Nat) (w : Word) (h : Keeps s0 s) :
    Keeps s0 (State.rwdWrite s b o k w) := by
  unfold State.rwdWrite
  repeat' first
    | (with_reducible assumption)
    | (with_reducible (first | apply State.setReg_keeps))
    | (dsimp only)
    | split
    | (refine Keeps.snd (by assumption) ?_)
    | (refine Keeps.fst (by assumption) ?_)

theorem State.writeCtl_keeps {s0 : Base} {s : State} (path : Nat) (x : Nat) (w : Word) (h : Keeps s0 s) :
    Keeps s0 (State.writeCtl s path x w) := by
  unfold State.writeCtl
  repeat' first
    | (with_reducible assumption)
    | (with_reducible (first | apply State.rwWrite_keeps | apply State.rwdWrite_keeps | apply State.wignBlk_keeps | apply State.woWrite_keeps))
    | (dsimp only)
    | split
    | (refine Keeps.snd (by assumption) ?_)
    | (refine Keeps.fst (by assumption) ?_)

theorem State.pgWrite_keeps {s0 : Base} {s : State} (p : Nat) (o : Nat) (w : Word) (h : Keeps s0 s) :
    Keeps s0 (State.pgWrite s p o w) := by
  unfold State.pgWrite
  repeat' first
    | (with_reducible assumption)
    | (with_reducible (first | apply State.denyPage_keeps | apply State.requestPart_keeps | apply State.setReg_keeps))
    | (dsimp only)
    | split
    | rfl
    | (refine Keeps.snd (by assumption) ?_)
    | (refine Keeps.fst (by assumption) ?_)
    | (with_reducible refine Keeps.upd ?_ ?_ ?_ ?_)

theorem State.psWrite_keeps {s0 : Base} {s : State} (p : Nat) (o : Nat) (w : Word) (h : Keeps s0 s) :
    Keeps s0 (State.psWrite s p o w) := by
  unfold State.psWrite
  repeat' first
    | (with_reducible assumption)
    | (with_reducible (first | apply State.modSess_keeps | apply State.psChallenge_keeps | apply State.psClose_keeps | apply State.psOpen_keeps))
    | (dsimp only)
    | split
    | rfl
    | (refine Keeps.snd (by assumption) ?_)
    | (refine Keeps.fst (by assumption) ?_)
    | (intro _ _ _ _)
    | (intro _ _ _)
    | (intro _ _)
    | (with_reducible refine Keeps.upd ?_ ?_ ?_ ?_)

theorem State.sqWrite_keeps {s0 : Base} {s : State} (p : Nat) (q : Nat) (o : Nat) (w : Word) (h : Keeps s0 s) :
    Keeps s0 (State.sqWrite s p q o w) := by
  unfold State.sqWrite
  repeat' first
    | (with_reducible assumption)
    | (with_reducible (first | apply State.countWign_keeps | apply State.disableQueue_keeps | apply State.enableQueue_keeps | apply State.modSq_keeps | apply State.qTail_keeps))
    | (dsimp only)
    | split
    | rfl
    | (refine Keeps.snd (by assumption) ?_)
    | (refine Keeps.fst (by assumption) ?_)
    | (intro _ _ _ _)
    | (intro _ _ _)
    | (intro _ _)
    | (with_reducible refine Keeps.upd ?_ ?_ ?_ ?_)

theorem State.cqRegWrite_keeps {s0 : Base} {s : State} (p : Nat) (c : Nat) (o : Nat) (w : Word) (h : Keeps s0 s) :
    Keeps s0 (State.cqRegWrite s p c o w) := by
  unfold State.cqRegWrite
  repeat' first
    | (with_reducible assumption)
    | (with_reducible (first | apply State.countWign_keeps | apply State.cqCtrl_keeps | apply State.cqHead_keeps | apply State.modCq_keeps))
    | (dsimp only)
    | split
    | rfl
    | (refine Keeps.snd (by assumption) ?_)
    | (refine Keeps.fst (by assumption) ?_)
    | (intro _ _ _ _)
    | (intro _ _ _)
    | (intro _ _)
    | (with_reducible refine Keeps.upd ?_ ?_ ?_ ?_)

theorem State.schWrite_keeps {s0 : Base} {s : State} (p : Nat) (o : Nat) (w : Word) (h : Keeps s0 s) :
    Keeps s0 (State.schWrite s p o w) := by
  unfold State.schWrite
  repeat' first
    | (with_reducible assumption)
    | (with_reducible (first | apply State.cqRegWrite_keeps | apply State.mkAdd_keeps | apply State.noSession_keeps | apply State.setReg_keeps | apply State.sqWrite_keeps))
    | (dsimp only)
    | split

theorem State.writePage_keeps {s0 : Base} {s : State} (p : Nat) (x : Nat) (w : Word) (h : Keeps s0 s) :
    Keeps s0 (State.writePage s p x w) := by
  unfold State.writePage
  repeat' first
    | (with_reducible assumption)
    | (with_reducible (first | apply State.denyPage_keeps | apply State.msixWrite_keeps | apply State.pgWrite_keeps | apply State.psWrite_keeps | apply State.schWrite_keeps))
    | (dsimp only)
    | split

theorem State.flagAccess_keeps {s0 : Base} {s : State} (path : Nat) (off : Nat) (kind : Nat) (h : Keeps s0 s) :
    Keeps s0 (State.flagAccess s path off kind) := by
  unfold State.flagAccess
  repeat' first
    | (with_reducible assumption)
    | (with_reducible (first | apply State.devEvent_keeps | apply State.incReg_keeps | apply State.orReg_keeps | apply State.setReg_keeps))
    | (dsimp only)
    | split

theorem State.readW0_keeps {s0 : Base} {s : State} (path : Nat) (x : Nat) (h : Keeps s0 s) :
    Keeps s0 (State.readW0 s path x).2 := by
  unfold State.readW0
  repeat' first
    | (with_reducible assumption)
    | (with_reducible (first | apply State.denyPage_keeps | apply State.noSession_keeps | apply State.readReg_keeps))
    | (dsimp only)
    | split

theorem State.writeW0_keeps {s0 : Base} {s : State} (path : Nat) (x : Nat) (w : Word) (h : Keeps s0 s) :
    Keeps s0 (State.writeW0 s path x w) := by
  unfold State.writeW0
  repeat' first
    | (with_reducible assumption)
    | (with_reducible (first | apply State.pfWrite_keeps | apply State.writeCtl_keeps | apply State.writePage_keeps))
    | (dsimp only)
    | split
    | (intro _ _ _ _)
    | (intro _ _ _)
    | (intro _ _)

theorem State.narrowWrite_keeps {s0 : Base} {s : State} (path : Nat) (x : Nat) (h : Keeps s0 s) :
    Keeps s0 (State.narrowWrite s path x) := by
  unfold State.narrowWrite
  repeat' first
    | (with_reducible assumption)
    | (with_reducible (first | apply State.countWign_keeps | apply State.denyPage_keeps | apply State.modCq_keeps | apply State.modSq_keeps | apply State.noSession_keeps | apply State.pfWrite_keeps | apply State.wignBlk_keeps))
    | (dsimp only)
    | split
    | rfl
    | (refine Keeps.snd (by assumption) ?_)
    | (refine Keeps.fst (by assumption) ?_)
    | (intro _ _ _ _)
    | (intro _ _ _)
    | (intro _ _)
    | (with_reducible refine Keeps.upd ?_ ?_ ?_ ?_)

theorem State.w0Read_keeps {s0 : Base} {s : State} (path : Nat) (off : Nat) (n : Nat) (en : Nat) (h : Keeps s0 s) :
    Keeps s0 (State.w0Read s path off n en).2 := by
  unfold State.w0Read
  repeat' first
    | (with_reducible assumption)
    | (with_reducible (first | apply State.flagAccess_keeps | apply State.readW0_keeps))
    | (dsimp only)
    | split
    | (refine Keeps.snd (by assumption) ?_)
    | (refine Keeps.fst (by assumption) ?_)
    | (intro _ _ _ _)
    | (intro _ _ _)
    | (intro _ _)

theorem State.w0Write_keeps {s0 : Base} {s : State} (path : Nat) (off : Nat) (en : Nat) (data : List Byte) (h : Keeps s0 s) :
    Keeps s0 (State.w0Write s path off en data) := by
  unfold State.w0Write
  repeat' first
    | (with_reducible assumption)
    | (with_reducible (first | apply State.flagAccess_keeps | apply State.narrowWrite_keeps | apply State.writeW0_keeps))
    | (dsimp only)
    | split
    | (refine Keeps.snd (by assumption) ?_)
    | (refine Keeps.fst (by assumption) ?_)

theorem State.w0Request_keeps {s0 : Base} {s : State} (path : Nat) (rid : Nat) (off : Nat) (n : Nat) (en : Nat) (h : Keeps s0 s) :
    Keeps s0 (State.w0Request s path rid off n en) := by
  unfold State.w0Request
  repeat' first
    | (with_reducible assumption)
    | (with_reducible (first | apply State.emit_keeps | apply State.hostRefused_keeps | apply State.w0Read_keeps))
    | (dsimp only)
    | split
    | (intro _ _ _ _)
    | (intro _ _ _)
    | (intro _ _)

theorem execRcRegisterRead_keeps {s0 : Base} {s : State} (path : Nat) (rid : Nat) (off : Nat) (n : Nat) (en : Nat) (h : Keeps s0 s) :
    KeepsOut s0 (execRcRegisterRead path rid off n en s) := by
  unfold execRcRegisterRead
  repeat' first
    | (with_reducible assumption)
    | (with_reducible (first | apply State.w0Request_keeps | apply keepsOut_ok))
    | (dsimp only)

theorem execLoRegisterRead_keeps {s0 : Base} {s : State} (path : Nat) (rid : Nat) (off : Nat) (n : Nat) (en : Nat) (h : Keeps s0 s) :
    KeepsOut s0 (execLoRegisterRead path rid off n en s) := by
  unfold execLoRegisterRead
  repeat' first
    | (with_reducible assumption)
    | (with_reducible (first | apply State.w0Request_keeps | apply keepsOut_ok))
    | (dsimp only)

theorem State.w0Post_keeps {s0 : Base} {s : State} (path : Nat) (rid : Nat) (off : Nat) (en : Nat) (data : List Byte) (poisoned : Bool) (h : Keeps s0 s) :
    Keeps s0 (State.w0Post s path rid off en data poisoned) := by
  unfold State.w0Post
  repeat' first
    | (with_reducible assumption)
    | (with_reducible (first | apply State.emit_keeps | apply State.hostRefused_keeps | apply State.w0Write_keeps))
    | (dsimp only)
    | split

theorem execRegisterWrite_keeps {s0 : Base} {s : State} (path : Nat) (rid : Nat) (off : Nat) (en : Nat) (data : List Byte) (poisoned : Bool) (h : Keeps s0 s) :
    KeepsOut s0 (execRegisterWrite path rid off en data poisoned s) := by
  unfold execRegisterWrite
  repeat' first
    | (with_reducible assumption)
    | (with_reducible (first | apply State.w0Post_keeps | apply keepsOut_ok))
    | (dsimp only)

theorem execMsixUnmask_keeps {s0 : Base} {s : State} (fn : Nat) (v : Nat) (h : Keeps s0 s) :
    KeepsOut s0 (execMsixUnmask fn v s) := by
  unfold execMsixUnmask
  repeat' first
    | (with_reducible assumption)
    | (with_reducible (first | apply State.msixWrite_keeps | apply State.pfWrite_keeps | apply State.vfWrite_keeps | apply State.writePage_keeps | apply keepsOut_ok))
    | (dsimp only)
    | split
    | (intro _ _ _ _)
    | (intro _ _ _)
    | (intro _ _)

end Sys2Proof.Machine
end

