-- ==== Sys2Proof/Laws/KeepsSpdm.lean ====
section
/-!
SUPPORT. What the operations of Machine/Spdm.lean leave in place.
-/

namespace Sys2Proof.Machine

open Sys2Proof

theorem State.violates_keeps {s0 : Base} {s : State} (partner : Nat) (row : Nat) (answer : State → State) (aux : Nat) (h : Keeps s0 s) (h_answer : ∀ (t : State), Keeps s0 t → Keeps s0 (answer t)) :
    Keeps s0 (State.violates s partner row answer aux) := by
  unfold State.violates
  repeat' first
    | (with_reducible assumption)
    | (with_reducible (first | apply State.logErr_keeps | apply h_answer))
    | (dsimp only)
    | split
    | rfl
    | (intro _ _ _ _)
    | (intro _ _ _)
    | (intro _ _)
    | (with_reducible refine Keeps.upd ?_ ?_ ?_ ?_)

theorem execPartnerIgnoreEnd_keeps {s0 : Base} {s : State} (partner : Nat) (t : Nat) (h : Keeps s0 s) :
    KeepsOut s0 (execPartnerIgnoreEnd partner t s) := by
  unfold execPartnerIgnoreEnd
  repeat' first
    | (with_reducible assumption)
    | (with_reducible (first | apply State.advance_keeps | apply keepsOut_ok))
    | (dsimp only)
    | split
    | rfl
    | (with_reducible refine Keeps.upd ?_ ?_ ?_ ?_)

theorem execSmbusClockTimeout_keeps {s0 : Base} {s : State} (partner : Nat) (t : Nat) (h : Keeps s0 s) :
    KeepsOut s0 (execSmbusClockTimeout partner t s) := by
  unfold execSmbusClockTimeout
  repeat' first
    | (with_reducible assumption)
    | (with_reducible (first | apply State.advance_keeps | apply State.emit_keeps | apply State.violates_keeps | apply Keeps.ident | apply keepsOut_ok))
    | (dsimp only)
    | (intro _ _ _ _)
    | (intro _ _ _)
    | (intro _ _)

theorem State.endMgmt_keeps {s0 : Base} {s : State} (id : Nat) (h : Keeps s0 s) :
    Keeps s0 (State.endMgmt s id) := by
  unfold State.endMgmt
  repeat' first
    | (with_reducible assumption)
    | (with_reducible (first | apply State.sesEvent_keeps))
    | (dsimp only)
    | split
    | rfl
    | (refine Keeps.snd (by assumption) ?_)
    | (refine Keeps.fst (by assumption) ?_)
    | (intro _ _ _ _)
    | (intro _ _ _)
    | (intro _ _)
    | (with_reducible refine Keeps.upd ?_ ?_ ?_ ?_)

theorem State.touch_keeps {s0 : Base} {s : State} (id : Nat) (h : Keeps s0 s) :
    Keeps s0 (State.touch s id) := by
  unfold State.touch
  repeat' first
    | (with_reducible assumption)
    | (dsimp only)
    | split
    | rfl
    | (intro _ _ _ _)
    | (intro _ _ _)
    | (intro _ _)
    | (with_reducible refine Keeps.upd ?_ ?_ ?_ ?_)

theorem execHeartbeatTimeout_keeps {s0 : Base} {s : State} (session : Nat) (t : Nat) (h : Keeps s0 s) :
    KeepsOut s0 (execHeartbeatTimeout session t s) := by
  unfold execHeartbeatTimeout
  repeat' first
    | (with_reducible assumption)
    | (with_reducible (first | apply State.advance_keeps | apply State.endMgmt_keeps | apply Keeps.ident | apply keepsOut_ok))
    | (dsimp only)
    | split
    | (refine Keeps.snd (by assumption) ?_)
    | (refine Keeps.fst (by assumption) ?_)
    | (intro _ _ _ _)
    | (intro _ _ _)
    | (intro _ _)

theorem State.spdmError_keeps {s0 : Base} {s : State} (code : Nat) (h : Keeps s0 s) :
    Keeps s0 (State.spdmError s code) := by
  unfold State.spdmError
  repeat' first
    | (with_reducible assumption)
    | (with_reducible (first | apply State.emit_keeps))
    | (dsimp only)

theorem State.hear_keeps {s0 : Base} {s : State} (q : Ask) (busy : State → State) (f : State → State) (h : Keeps s0 s) (h_busy : ∀ (t : State), Keeps s0 t → Keeps s0 (busy t)) (h_f : ∀ (t : State), Keeps s0 t → Keeps s0 (f t)) :
    Keeps s0 (State.hear s q busy f) := by
  unfold State.hear
  repeat' first
    | (with_reducible assumption)
    | (with_reducible (first | apply State.advance_keeps | apply State.violates_keeps | apply Keeps.ident | apply h_busy | apply h_f))
    | (dsimp only)
    | split
    | (intro _ _ _ _)
    | (intro _ _ _)
    | (intro _ _)

theorem State.hearSpdm_keeps {s0 : Base} {s : State} (q : Ask) (f : State → State) (h : Keeps s0 s) (h_f : ∀ (t : State), Keeps s0 t → Keeps s0 (f t)) :
    Keeps s0 (State.hearSpdm s q f) := by
  unfold State.hearSpdm
  repeat' first
    | (with_reducible assumption)
    | (with_reducible (first | apply State.endMgmt_keeps | apply State.hear_keeps | apply State.spdmError_keeps | apply State.touch_keeps | apply State.violates_keeps | apply h_f))
    | (dsimp only)
    | split
    | (intro _ _ _ _)
    | (intro _ _ _)
    | (intro _ _)

theorem State.respond_keeps {s0 : Base} {s : State} (q : Ask) (code : Nat) (args : List Nat) (bytes : List Byte) (h : Keeps s0 s) :
    Keeps s0 (State.respond s q code args bytes) := by
  unfold State.respond
  repeat' first
    | (with_reducible assumption)
    | (with_reducible (first | apply State.emit_keeps | apply State.response_keeps | apply State.spdmError_keeps))
    | (dsimp only)
    | split
    | rfl
    | (intro _ _ _ _)
    | (intro _ _ _)
    | (intro _ _)
    | (with_reducible refine Keeps.upd ?_ ?_ ?_ ?_)

theorem State.unexpected_keeps {s0 : Base} {s : State} (q : Ask) (h : Keeps s0 s) :
    Keeps s0 (State.unexpected s q) := by
  unfold State.unexpected
  repeat' first
    | (with_reducible assumption)
    | (with_reducible (first | apply State.spdmError_keeps | apply State.violates_keeps))
    | (dsimp only)
    | (intro _ _ _ _)
    | (intro _ _ _)
    | (intro _ _)

theorem State.setStage_keeps {s0 : Base} {s : State} (q : Ask) (n : Nat) (h : Keeps s0 s) :
    Keeps s0 (State.setStage s q n) := by
  unfold State.setStage
  repeat' first
    | (with_reducible assumption)
    | (dsimp only)
    | rfl
    | (with_reducible refine Keeps.upd ?_ ?_ ?_ ?_)

theorem execGetVersion_keeps {s0 : Base} {s : State} (q : Ask) (h : Keeps s0 s) :
    KeepsOut s0 (execGetVersion q s) := by
  unfold execGetVersion
  repeat' first
    | (with_reducible assumption)
    | (with_reducible (first | apply State.hearSpdm_keeps | apply State.respond_keeps | apply State.setStage_keeps | apply State.unexpected_keeps | apply keepsOut_ok))
    | (dsimp only)
    | split
    | (intro _ _ _ _)
    | (intro _ _ _)
    | (intro _ _)

theorem execGetCapabilities_keeps {s0 : Base} {s : State} (q : Ask) (version : Nat) (largest : Nat) (h : Keeps s0 s) :
    KeepsOut s0 (execGetCapabilities q version largest s) := by
  unfold execGetCapabilities
  repeat' first
    | (with_reducible assumption)
    | (with_reducible (first | apply State.hearSpdm_keeps | apply State.respond_keeps | apply State.setStage_keeps | apply State.spdmError_keeps | apply State.unexpected_keeps | apply keepsOut_ok))
    | (dsimp only)
    | split
    | rfl
    | (intro _ _ _ _)
    | (intro _ _ _)
    | (intro _ _)
    | (with_reducible refine Keeps.upd ?_ ?_ ?_ ?_)

theorem execNegotiateAlgorithms_keeps {s0 : Base} {s : State} (q : Ask) (offered : Bool) (h : Keeps s0 s) :
    KeepsOut s0 (execNegotiateAlgorithms q offered s) := by
  unfold execNegotiateAlgorithms
  repeat' first
    | (with_reducible assumption)
    | (with_reducible (first | apply State.hearSpdm_keeps | apply State.respond_keeps | apply State.setStage_keeps | apply State.spdmError_keeps | apply State.unexpected_keeps | apply keepsOut_ok))
    | (dsimp only)
    | split
    | (intro _ _ _ _)
    | (intro _ _ _)
    | (intro _ _)

theorem State.negotiated_keeps {s0 : Base} {s : State} (q : Ask) (f : State → State) (h : Keeps s0 s) (h_f : ∀ (t : State), Keeps s0 t → Keeps s0 (f t)) :
    Keeps s0 (State.negotiated s q f) := by
  unfold State.negotiated
  repeat' first
    | (with_reducible assumption)
    | (with_reducible (first | apply State.hearSpdm_keeps | apply State.unexpected_keeps | apply h_f))
    | (dsimp only)
    | split
    | (intro _ _ _ _)
    | (intro _ _ _)
    | (intro _ _)

theorem execGetDigests_keeps {s0 : Base} {s : State} (q : Ask) (h : Keeps s0 s) :
    KeepsOut s0 (execGetDigests q s) := by
  unfold execGetDigests
  repeat' first
    | (with_reducible assumption)
    | (with_reducible (first | apply State.negotiated_keeps | apply State.respond_keeps | apply keepsOut_ok))
    | (dsimp only)
    | (intro _ _ _ _)
    | (intro _ _ _)
    | (intro _ _)

theorem execGetCertificate_keeps {s0 : Base} {s : State} (q : Ask) (slot : Nat) (off : Nat) (n : Nat) (h : Keeps s0 s) :
    KeepsOut s0 (execGetCertificate q slot off n s) := by
  unfold execGetCertificate
  repeat' first
    | (with_reducible assumption)
    | (with_reducible (first | apply State.negotiated_keeps | apply State.respond_keeps | apply State.spdmError_keeps | apply keepsOut_ok))
    | (dsimp only)
    | split
    | (intro _ _ _ _)
    | (intro _ _ _)
    | (intro _ _)

theorem execSpdmChallenge_keeps {s0 : Base} {s : State} (q : Ask) (slot : Nat) (nonce : List Byte) (h : Keeps s0 s) :
    KeepsOut s0 (execSpdmChallenge q slot nonce s) := by
  unfold execSpdmChallenge
  repeat' first
    | (with_reducible assumption)
    | (with_reducible (first | apply State.draw_keeps | apply State.negotiated_keeps | apply State.respond_keeps | apply State.spdmError_keeps | apply State.unexpected_keeps | apply keepsOut_ok))
    | (dsimp only)
    | split
    | (intro _ _ _ _)
    | (intro _ _ _)
    | (intro _ _)

theorem execGetMeasurements_keeps {s0 : Base} {s : State} (q : Ask) (index : Nat) (sign : Bool) (nonce : List Byte) (h : Keeps s0 s) :
    KeepsOut s0 (execGetMeasurements q index sign nonce s) := by
  unfold execGetMeasurements
  try generalize List.range 11 = l11
  repeat' first
    | (with_reducible assumption)
    | (with_reducible (first | apply State.draw_keeps | apply State.negotiated_keeps | apply State.respond_keeps | apply State.spdmError_keeps | apply keepsOut_ok))
    | (dsimp only)
    | split
    | (intro _ _ _ _)
    | (intro _ _ _)
    | (intro _ _)

theorem execPskExchange_keeps {s0 : Base} {s : State} (q : Ask) (role : Nat) (part : Nat) (h : Keeps s0 s) :
    KeepsOut s0 (execPskExchange q role part s) := by
  unfold execPskExchange
  repeat' first
    | (with_reducible assumption)
    | (with_reducible (first | apply State.negotiated_keeps | apply State.respond_keeps | apply State.spdmError_keeps | apply State.unexpected_keeps | apply Keeps.ident | apply keepsOut_ok))
    | (dsimp only)
    | split
    | rfl
    | (intro _ _ _ _)
    | (intro _ _ _)
    | (intro _ _)
    | (with_reducible refine Keeps.upd ?_ ?_ ?_ ?_)

theorem execPskFinish_keeps {s0 : Base} {s : State} (q : Ask) (key : BitVec 384) (h : Keeps s0 s) :
    KeepsOut s0 (execPskFinish q key s) := by
  unfold execPskFinish
  repeat' first
    | (with_reducible assumption)
    | (with_reducible (first | apply State.authFail_keeps | apply State.endMgmt_keeps | apply State.hearSpdm_keeps | apply State.respond_keeps | apply State.sesEvent_keeps | apply State.spdmError_keeps | apply State.unexpected_keeps | apply Keeps.ident | apply keepsOut_ok))
    | (dsimp only)
    | split
    | rfl
    | (refine Keeps.snd (by assumption) ?_)
    | (refine Keeps.fst (by assumption) ?_)
    | (intro _ _ _ _)
    | (intro _ _ _)
    | (intro _ _)
    | (with_reducible refine Keeps.upd ?_ ?_ ?_ ?_)

theorem State.inSession_keeps {s0 : Base} {s : State} (q : Ask) (f : MSess → State → State) (h : Keeps s0 s) (h_f : ∀ (b0 : MSess) (t : State), Keeps s0 t → Keeps s0 (f b0 t)) :
    Keeps s0 (State.inSession s q f) := by
  unfold State.inSession
  repeat' first
    | (with_reducible assumption)
    | (with_reducible (first | apply State.hearSpdm_keeps | apply State.spdmError_keeps | apply State.unexpected_keeps | apply h_f))
    | (dsimp only)
    | split
    | (refine Keeps.snd (by assumption) ?_)
    | (refine Keeps.fst (by assumption) ?_)
    | (intro _ _ _ _)
    | (intro _ _ _)
    | (intro _ _)

theorem execHeartbeat_keeps {s0 : Base} {s : State} (q : Ask) (h : Keeps s0 s) :
    KeepsOut s0 (execHeartbeat q s) := by
  unfold execHeartbeat
  repeat' first
    | (with_reducible assumption)
    | (with_reducible (first | apply State.inSession_keeps | apply State.respond_keeps | apply keepsOut_ok))
    | (dsimp only)
    | (intro _ _ _ _)
    | (intro _ _ _)
    | (intro _ _)

theorem execKeyUpdate_keeps {s0 : Base} {s : State} (q : Ask) (tag : Nat) (h : Keeps s0 s) :
    KeepsOut s0 (execKeyUpdate q tag s) := by
  unfold execKeyUpdate
  repeat' first
    | (with_reducible assumption)
    | (with_reducible (first | apply State.inSession_keeps | apply State.respond_keeps | apply keepsOut_ok))
    | (dsimp only)
    | (intro _ _ _ _)
    | (intro _ _ _)
    | (intro _ _)

theorem execEndSession_keeps {s0 : Base} {s : State} (q : Ask) (h : Keeps s0 s) :
    KeepsOut s0 (execEndSession q s) := by
  unfold execEndSession
  repeat' first
    | (with_reducible assumption)
    | (with_reducible (first | apply State.endMgmt_keeps | apply State.inSession_keeps | apply State.respond_keeps | apply Keeps.ident | apply keepsOut_ok))
    | (dsimp only)
    | (intro _ _ _ _)
    | (intro _ _ _)
    | (intro _ _)

theorem execChunkSend_keeps {s0 : Base} {s : State} (q : Ask) (handle : Nat) (seq : Nat) (last : Bool) (chunk : List Byte) (h : Keeps s0 s) :
    KeepsOut s0 (execChunkSend q handle seq last chunk s) := by
  unfold execChunkSend
  repeat' first
    | (with_reducible assumption)
    | (with_reducible (first | apply State.hearSpdm_keeps | apply State.respond_keeps | apply State.spdmError_keeps | apply keepsOut_ok))
    | (dsimp only)
    | split
    | rfl
    | (intro _ _ _ _)
    | (intro _ _ _)
    | (intro _ _)
    | (with_reducible refine Keeps.upd ?_ ?_ ?_ ?_)

theorem execChunkGet_keeps {s0 : Base} {s : State} (q : Ask) (handle : Nat) (seq : Nat) (h : Keeps s0 s) :
    KeepsOut s0 (execChunkGet q handle seq s) := by
  unfold execChunkGet
  repeat' first
    | (with_reducible assumption)
    | (with_reducible (first | apply State.emit_keeps | apply State.hearSpdm_keeps | apply State.response_keeps | apply State.spdmError_keeps | apply State.unexpected_keeps | apply keepsOut_ok))
    | (dsimp only)
    | split
    | rfl
    | (intro _ _ _ _)
    | (intro _ _ _)
    | (intro _ _)
    | (with_reducible refine Keeps.upd ?_ ?_ ?_ ?_)

theorem State.mctpControl_keeps {s0 : Base} {s : State} (q : Ask) (cmd : Nat) (body : List Byte) (h : Keeps s0 s) :
    Keeps s0 (State.mctpControl s q cmd body) := by
  unfold State.mctpControl
  repeat' first
    | (with_reducible assumption)
    | (with_reducible (first | apply State.emit_keeps | apply State.violates_keeps))
    | (dsimp only)
    | split
    | rfl
    | (refine Keeps.snd (by assumption) ?_)
    | (refine Keeps.fst (by assumption) ?_)
    | (intro _ _ _ _)
    | (intro _ _ _)
    | (intro _ _)
    | (with_reducible refine Keeps.upd ?_ ?_ ?_ ?_)

theorem execMctpControlMessage_keeps {s0 : Base} {s : State} (q : Ask) (cmd : Nat) (body : List Byte) (h : Keeps s0 s) :
    KeepsOut s0 (execMctpControlMessage q cmd body s) := by
  unfold execMctpControlMessage
  repeat' first
    | (with_reducible assumption)
    | (with_reducible (first | apply State.emit_keeps | apply State.hear_keeps | apply State.mctpControl_keeps | apply keepsOut_ok))
    | (dsimp only)
    | (intro _ _ _ _)
    | (intro _ _ _)
    | (intro _ _)

theorem State.setIde_keeps {s0 : Base} {s : State} (n : Nat) (x : IdeStream) (h : Keeps s0 s) :
    Keeps s0 (State.setIde s n x) := by
  unfold State.setIde
  repeat' first
    | (with_reducible assumption)
    | (dsimp only)
    | rfl
    | (with_reducible refine Keeps.upd ?_ ?_ ?_ ?_)

theorem State.ideKm_keeps {s0 : Base} {s : State} (r : IdeKm) (h : Keeps s0 s) :
    Keeps s0 (State.ideKm s r) := by
  unfold State.ideKm
  repeat' first
    | (with_reducible assumption)
    | (with_reducible (first | apply State.emit_keeps | apply State.setIde_keeps))
    | (dsimp only)
    | split
    | rfl
    | (refine Keeps.snd (by assumption) ?_)
    | (refine Keeps.fst (by assumption) ?_)
    | (intro _ _ _ _)
    | (intro _ _ _)
    | (intro _ _)
    | (with_reducible refine Keeps.upd ?_ ?_ ?_ ?_)

theorem execIdeKmRequest_keeps {s0 : Base} {s : State} (q : Ask) (r : IdeKm) (h : Keeps s0 s) :
    KeepsOut s0 (execIdeKmRequest q r s) := by
  unfold execIdeKmRequest
  repeat' first
    | (with_reducible assumption)
    | (with_reducible (first | apply State.ideKm_keeps | apply State.inSession_keeps | apply keepsOut_ok))
    | (dsimp only)
    | (intro _ _ _ _)
    | (intro _ _ _)
    | (intro _ _)

theorem State.loupe_keeps {s0 : Base} {s : State} (r : LoupeReq) (h : Keeps s0 s) :
    Keeps s0 (State.loupe s r) := by
  unfold State.loupe
  repeat' first
    | (with_reducible assumption)
    | (with_reducible (first | apply State.emit_keeps | apply State.readDev_keeps))
    | (dsimp only)
    | split
    | (refine Keeps.snd (by assumption) ?_)
    | (refine Keeps.fst (by assumption) ?_)

theorem execLoupeRequest_keeps {s0 : Base} {s : State} (r : LoupeReq) (h : Keeps s0 s) :
    KeepsOut s0 (execLoupeRequest r s) := by
  unfold execLoupeRequest
  repeat' first
    | (with_reducible assumption)
    | (with_reducible (first | apply State.loupe_keeps | apply keepsOut_ok))
    | (dsimp only)

end Sys2Proof.Machine
end

