-- ==== Sys2Proof/Laws/KeepsFlash.lean ====
section
/-!
SUPPORT. What the operations of Machine/Flash.lean leave in place.
-/

namespace Sys2Proof.Machine

open Sys2Proof

/-- Blowing cells leaves those that are blown as they are (R475). -/
theorem blow_keeps (bad : Option Nat) (v n : Nat) (f : Dword) : f &&& blow bad v n f = f := by
  induction n generalizing v f with
  | zero => simp [blow]
  | succ n ih =>
    unfold blow
    split
    · simp
    · have h := ih (v + 1) (f ||| BitVec.twoPow 64 v)
      apply BitVec.eq_of_getLsbD_eq
      intro i hi
      have hb := congrArg (fun x => BitVec.getLsbD x i) h
      simp only [BitVec.getLsbD_and, BitVec.getLsbD_or] at hb ⊢
      cases hf : f.getLsbD i <;> simp_all

theorem Keeps.setFuses {s0 : Base} {s : State} {f : Dword} (h : Keeps s0 s) (hf : s.nv.fuses &&& f = s.nv.fuses) :
    Keeps s0 { s with nv := { s.nv with fuses := f } } :=
  ⟨h.queue, h.draws, h.sent, by
    show s0.st.nv.fuses &&& f = s0.st.nv.fuses
    rw [← h.fuses, BitVec.and_assoc, hf], h.mem, h.regs, h.frame, h.last⟩

theorem State.program_keeps {s0 : Base} {s : State} (a : Nat) (bs : List Byte) (h : Keeps s0 s) :
    Keeps s0 (State.program s a bs) := by
  unfold State.program
  repeat' first
    | (with_reducible assumption)
    | (dsimp only)
    | rfl
    | (with_reducible refine Keeps.upd ?_ ?_ ?_ ?_)

theorem State.eraseFlash_keeps {s0 : Base} {s : State} (a : Nat) (n : Nat) (h : Keeps s0 s) :
    Keeps s0 (State.eraseFlash s a n) := by
  unfold State.eraseFlash
  repeat' first
    | (with_reducible assumption)
    | (dsimp only)
    | rfl
    | (intro _ _ _ _)
    | (intro _ _ _)
    | (intro _ _)
    | (with_reducible refine Keeps.upd ?_ ?_ ?_ ?_)

theorem State.writeSelector_keeps {s0 : Base} {s : State} (okay : Bool) (x : Selector) (h : Keeps s0 s) :
    Keeps s0 (State.writeSelector s okay x).2 := by
  unfold State.writeSelector
  repeat' first
    | (with_reducible assumption)
    | (dsimp only)
    | split
    | rfl
    | (refine Keeps.snd (by assumption) ?_)
    | (refine Keeps.fst (by assumption) ?_)
    | (with_reducible refine Keeps.upd ?_ ?_ ?_ ?_)

theorem State.fwuEvent_keeps {s0 : Base} {s : State} (bit : Nat) (h : Keeps s0 s) :
    Keeps s0 (State.fwuEvent s bit) := by
  unfold State.fwuEvent
  repeat' first
    | (with_reducible assumption)
    | (with_reducible (first | apply State.raise_keeps))
    | (dsimp only)

theorem State.tellRevert_keeps {s0 : Base} {s : State} (slot : Nat) (h : Keeps s0 s) :
    Keeps s0 (State.tellRevert s slot) := by
  unfold State.tellRevert
  repeat' first
    | (with_reducible assumption)
    | (with_reducible (first | apply State.fwuEvent_keeps | apply State.logErr_keeps))
    | (dsimp only)
    | rfl
    | (with_reducible refine Keeps.upd ?_ ?_ ?_ ?_)

theorem State.writeCounter_keeps {s0 : Base} {s : State} (okay : Bool) (c : Counter) (h : Keeps s0 s) :
    Keeps s0 (State.writeCounter s okay c) := by
  unfold State.writeCounter
  repeat' first
    | (with_reducible assumption)
    | (dsimp only)
    | split
    | rfl
    | (refine Keeps.snd (by assumption) ?_)
    | (refine Keeps.fst (by assumption) ?_)
    | (with_reducible refine Keeps.upd ?_ ?_ ?_ ?_)

theorem State.raiseFuses_keeps {s0 : Base} {s : State} (v : Nat) (bad : Option Nat) (h : Keeps s0 s) :
    Keeps s0 (State.raiseFuses s v bad).2 := by
  unfold State.raiseFuses
  have h1 := Keeps.setFuses h (blow_keeps bad s.fuseVersion (v - s.fuseVersion) s.nv.fuses)
  dsimp only at h1 ⊢
  split
  · exact h
  · repeat' first
      | (with_reducible assumption)
      | (with_reducible (first | apply State.fwuEvent_keeps | apply State.logErr_keeps))
      | exact h1
      | split

theorem State.confirm_keeps {s0 : Base} {s : State} (stores : Bool) (bad : Option Nat) (h : Keeps s0 s) :
    Keeps s0 (State.confirm s stores bad).2 := by
  unfold State.confirm
  repeat' first
    | (with_reducible assumption)
    | (with_reducible (first | apply State.fwuEvent_keeps | apply State.raiseFuses_keeps | apply State.writeSelector_keeps))
    | (dsimp only)
    | split
    | rfl
    | (refine Keeps.snd (by assumption) ?_)
    | (refine Keeps.fst (by assumption) ?_)
    | (with_reducible refine Keeps.upd ?_ ?_ ?_ ?_)

end Sys2Proof.Machine
end

