-- ==== Sys2Proof/Laws/KeepsHostCmds.lean ====
section
/-!
SUPPORT. What the operations of Machine/HostCmds.lean leave in place.
-/

namespace Sys2Proof.Machine

open Sys2Proof

theorem State.judgeHost_keeps {s0 : Base} {s : State}  (h : Keeps s0 s) :
    Keeps s0 (State.judgeHost s) := by
  unfold State.judgeHost
  repeat' first
    | (with_reducible assumption)
    | (with_reducible (first | apply State.hifEvent_keeps | apply State.logErr_keeps | apply State.pltEvent_keeps))
    | (dsimp only)
    | split
    | rfl
    | (with_reducible refine Keeps.upd ?_ ?_ ?_ ?_)

theorem State.linkTrained_keeps {s0 : Base} {s : State} (speed : Nat) (width : Nat) (flitMode : Bool) (h : Keeps s0 s) :
    Keeps s0 (State.linkTrained s speed width flitMode) := by
  unfold State.linkTrained
  repeat' first
    | (with_reducible assumption)
    | (with_reducible (first | apply State.hifEvent_keeps | apply State.judgeHost_keeps))
    | (dsimp only)
    | rfl
    | (with_reducible refine Keeps.upd ?_ ?_ ?_ ?_)

theorem execHostLinkRetrain_keeps {s0 : Base} {s : State} (speed : Nat) (width : Nat) (flitMode : Bool) (h : Keeps s0 s) :
    KeepsOut s0 (execHostLinkRetrain speed width flitMode s) := by
  unfold execHostLinkRetrain
  repeat' first
    | (with_reducible assumption)
    | (with_reducible (first | apply State.linkTrained_keeps | apply keepsOut_ok))
    | (dsimp only)

theorem State.readAll_keeps {s0 : Base} {s : State} (x0 : List (Nat × Nat)) (h : Keeps s0 s) :
    Keeps s0 (State.readAll s x0).2 := by
  induction x0 generalizing s with
  | nil =>
    unfold State.readAll
    repeat' first
      | (with_reducible assumption)
      | (with_reducible (first | apply State.readPiece_keeps))
      | (dsimp only)
      | split
      | (refine Keeps.snd (by assumption) ?_)
      | (refine Keeps.fst (by assumption) ?_)
  | cons hd tl ih =>
    unfold State.readAll
    repeat' first
      | (with_reducible apply ih)
      | (with_reducible assumption)
      | (with_reducible (first | apply State.readPiece_keeps))
      | (dsimp only)
      | split
      | (refine Keeps.snd (by assumption) ?_)
      | (refine Keeps.fst (by assumption) ?_)

theorem State.hostRead_keeps {s0 : Base} {s : State} (path : Nat) (rid : Nat) (part : Nat) (l : List (Nat × Nat)) (h : Keeps s0 s) :
    Keeps s0 (State.hostRead s path rid part l) := by
  unfold State.hostRead
  repeat' first
    | (with_reducible assumption)
    | (with_reducible (first | apply State.emit_keeps | apply State.hostRefused_keeps | apply State.readAll_keeps))
    | (dsimp only)
    | split
    | (refine Keeps.snd (by assumption) ?_)
    | (refine Keeps.fst (by assumption) ?_)

theorem State.answerRefused_keeps {s0 : Base} {s : State} (path : Nat) (row : Nat) (rid : Nat) (part : Nat) (read : Bool) (h : Keeps s0 s) :
    Keeps s0 (State.answerRefused s path row rid part read) := by
  unfold State.answerRefused
  repeat' first
    | (with_reducible assumption)
    | (with_reducible (first | apply State.emit_keeps | apply State.hostRefused_keeps | apply Eng.read_keeps))
    | (dsimp only)
    | split

theorem State.writeAll_keeps {s0 : Base} {s : State} (x0 : List (Nat × Nat)) (x1 : List Byte) (h : Keeps s0 s) :
    Keeps s0 (State.writeAll s x0 x1) := by
  induction x0 generalizing s x1 with
  | nil =>
    unfold State.writeAll
    repeat' first
      | (with_reducible assumption)
      | (with_reducible (first | apply State.writePiece_keeps))
      | (dsimp only)
  | cons hd tl ih =>
    unfold State.writeAll
    repeat' first
      | (with_reducible apply ih)
      | (with_reducible assumption)
      | (with_reducible (first | apply State.writePiece_keeps))
      | (dsimp only)

theorem State.pfW2Read_keeps {s0 : Base} {s : State} (rid : Nat) (off : Nat) (n : Nat) (h : Keeps s0 s) :
    Keeps s0 (State.pfW2Read s rid off n) := by
  unfold State.pfW2Read
  repeat' first
    | (with_reducible assumption)
    | (with_reducible (first | apply State.answerRefused_keeps | apply State.hostRead_keeps))
    | (dsimp only)
    | split
    | (refine Keeps.snd (by assumption) ?_)
    | (refine Keeps.fst (by assumption) ?_)
    | (intro _ _ _ _)
    | (intro _ _ _)
    | (intro _ _)

theorem execPfW2Read_keeps {s0 : Base} {s : State} (rid : Nat) (off : Nat) (n : Nat) (h : Keeps s0 s) :
    KeepsOut s0 (execPfW2Read rid off n s) := by
  unfold execPfW2Read
  repeat' first
    | (with_reducible assumption)
    | (with_reducible (first | apply State.pfW2Read_keeps | apply keepsOut_ok))
    | (dsimp only)

theorem State.pfW2Write_keeps {s0 : Base} {s : State} (rid : Nat) (off : Nat) (data : List Byte) (poisoned : Bool) (h : Keeps s0 s) :
    Keeps s0 (State.pfW2Write s rid off data poisoned) := by
  unfold State.pfW2Write
  repeat' first
    | (with_reducible assumption)
    | (with_reducible (first | apply State.answerRefused_keeps | apply State.writeAll_keeps))
    | (dsimp only)
    | split
    | (refine Keeps.snd (by assumption) ?_)
    | (refine Keeps.fst (by assumption) ?_)
    | (intro _ _ _ _)
    | (intro _ _ _)
    | (intro _ _)

theorem execPfW2Write_keeps {s0 : Base} {s : State} (rid : Nat) (off : Nat) (data : List Byte) (poisoned : Bool) (h : Keeps s0 s) :
    KeepsOut s0 (execPfW2Write rid off data poisoned s) := by
  unfold execPfW2Write
  repeat' first
    | (with_reducible assumption)
    | (with_reducible (first | apply State.pfW2Write_keeps | apply keepsOut_ok))
    | (dsimp only)

theorem State.vfRefused_keeps {s0 : Base} {s : State} (p : Nat) (row : Nat) (rid : Nat) (read : Bool) (h : Keeps s0 s) :
    Keeps s0 (State.vfRefused s p row rid read) := by
  unfold State.vfRefused
  repeat' first
    | (with_reducible assumption)
    | (with_reducible (first | apply State.answerRefused_keeps | apply State.denyPage_keeps | apply Eng.read_keeps))
    | (dsimp only)
    | split

theorem State.vfW2Read_keeps {s0 : Base} {s : State} (p : Nat) (rid : Nat) (off : Nat) (n : Nat) (h : Keeps s0 s) :
    Keeps s0 (State.vfW2Read s p rid off n) := by
  unfold State.vfW2Read
  repeat' first
    | (with_reducible assumption)
    | (with_reducible (first | apply State.answerRefused_keeps | apply State.hostRead_keeps | apply Eng.read_keeps | apply State.vfRefused_keeps))
    | (dsimp only)
    | split
    | (refine Keeps.snd (by assumption) ?_)
    | (refine Keeps.fst (by assumption) ?_)

theorem execVfW2Read_keeps {s0 : Base} {s : State} (p : Nat) (rid : Nat) (off : Nat) (n : Nat) (h : Keeps s0 s) :
    KeepsOut s0 (execVfW2Read p rid off n s) := by
  unfold execVfW2Read
  repeat' first
    | (with_reducible assumption)
    | (with_reducible (first | apply State.vfW2Read_keeps | apply keepsOut_ok))
    | (dsimp only)

theorem State.vfW2Write_keeps {s0 : Base} {s : State} (p : Nat) (rid : Nat) (off : Nat) (data : List Byte) (poisoned : Bool) (h : Keeps s0 s) :
    Keeps s0 (State.vfW2Write s p rid off data poisoned) := by
  unfold State.vfW2Write
  repeat' first
    | (with_reducible assumption)
    | (with_reducible (first | apply State.answerRefused_keeps | apply State.vfRefused_keeps | apply Eng.write_keeps | apply State.writeAll_keeps))
    | (dsimp only)
    | split
    | (refine Keeps.snd (by assumption) ?_)
    | (refine Keeps.fst (by assumption) ?_)

theorem execVfW2Write_keeps {s0 : Base} {s : State} (p : Nat) (rid : Nat) (off : Nat) (data : List Byte) (poisoned : Bool) (h : Keeps s0 s) :
    KeepsOut s0 (execVfW2Write p rid off data poisoned s) := by
  unfold execVfW2Write
  repeat' first
    | (with_reducible assumption)
    | (with_reducible (first | apply State.vfW2Write_keeps | apply keepsOut_ok))
    | (dsimp only)

theorem State.atomicOp_keeps {s0 : Base} {s : State} (path : Nat) (rid : Nat) (h : Keeps s0 s) :
    Keeps s0 (State.atomicOp s path rid) := by
  unfold State.atomicOp
  repeat' first
    | (with_reducible assumption)
    | (with_reducible (first | apply State.emit_keeps | apply State.hifEvent_keeps | apply State.hostRefused_keeps))
    | (dsimp only)
    | split

theorem execAtomicop_keeps {s0 : Base} {s : State} (path : Nat) (rid : Nat) (h : Keeps s0 s) :
    KeepsOut s0 (execAtomicop path rid s) := by
  unfold execAtomicop
  repeat' first
    | (with_reducible assumption)
    | (with_reducible (first | apply State.atomicOp_keeps | apply keepsOut_ok))
    | (dsimp only)

theorem State.vendorMessage_keeps {s0 : Base} {s : State} (rid : Nat) (kind : Nat) (mctp : Bool) (h : Keeps s0 s) :
    Keeps s0 (State.vendorMessage s rid kind mctp) := by
  unfold State.vendorMessage
  repeat' first
    | (with_reducible assumption)
    | (with_reducible (first | apply State.emit_keeps | apply State.hostRefused_keeps))
    | (dsimp only)
    | split

theorem execVendorDefinedMessage_keeps {s0 : Base} {s : State} (rid : Nat) (kind : Nat) (mctp : Bool) (h : Keeps s0 s) :
    KeepsOut s0 (execVendorDefinedMessage rid kind mctp s) := by
  unfold execVendorDefinedMessage
  repeat' first
    | (with_reducible assumption)
    | (with_reducible (first | apply State.vendorMessage_keeps | apply keepsOut_ok))
    | (dsimp only)

theorem State.clearMsix_keeps {s0 : Base} {s : State} (fn : Nat) (n : Nat) (h : Keeps s0 s) :
    Keeps s0 (State.clearMsix s fn n) := by
  unfold State.clearMsix
  refine ⟨h.queue, h.draws, h.sent, h.fuses, h.mem, fun w => ?_, h.frame, h.last⟩
  exact NatMap.wf_filterKeys (fun k => decide (k < msixKey fn 0) || decide (msixKey fn 0 + 16 * n ≤ k)) (h.regs w)

theorem State.clearFn_keeps {s0 : Base} {s : State} (fn : Nat) (h : Keeps s0 s) :
    Keeps s0 (State.clearFn s fn) := by
  unfold State.clearFn
  repeat' first
    | (with_reducible assumption)
    | (dsimp only)
    | rfl
    | (with_reducible refine Keeps.upd ?_ ?_ ?_ ?_)

theorem State.vfFlr_keeps {s0 : Base} {s : State} (p : Nat) (h : Keeps s0 s) :
    Keeps s0 (State.vfFlr s p) := by
  unfold State.vfFlr
  try generalize List.range 32 = l32
  repeat' first
    | (with_reducible assumption)
    | (with_reducible (first | apply Keeps.foldl | apply State.clearFn_keeps | apply State.clearMsix_keeps | apply State.closeSess_keeps | apply State.disableQueue_keeps | apply State.hifEvent_keeps | apply State.modCq_keeps | apply State.orReg_keeps | apply State.pgEvent_keeps | apply State.setReg_keeps))
    | (dsimp only)
    | split
    | rfl
    | (intro _ _ _ _)
    | (intro _ _ _)
    | (intro _ _)
    | (with_reducible refine Keeps.upd ?_ ?_ ?_ ?_)

theorem execVfFlr_keeps {s0 : Base} {s : State} (p : Nat) (h : Keeps s0 s) :
    KeepsOut s0 (execVfFlr p s) := by
  unfold execVfFlr
  repeat' first
    | (with_reducible assumption)
    | (with_reducible (first | apply State.vfFlr_keeps | apply keepsOut_ok))
    | (dsimp only)
    | split

theorem State.vfsOff_keeps {s0 : Base} {s : State}  (h : Keeps s0 s) :
    Keeps s0 (State.vfsOff s) := by
  unfold State.vfsOff
  try generalize List.range 16 = l16
  repeat' first
    | (with_reducible assumption)
    | (with_reducible (first | apply Keeps.foldl | apply State.vfFlr_keeps))
    | (dsimp only)
    | rfl
    | (intro _ _ _ _)
    | (intro _ _ _)
    | (intro _ _)
    | (with_reducible refine Keeps.upd ?_ ?_ ?_ ?_)

theorem State.pfFlr_keeps {s0 : Base} {s : State}  (h : Keeps s0 s) :
    Keeps s0 (State.pfFlr s) := by
  unfold State.pfFlr
  repeat' first
    | (with_reducible assumption)
    | (with_reducible (first | apply State.clearFn_keeps | apply State.clearMsix_keeps | apply State.hifEvent_keeps | apply State.setReg_keeps | apply State.vfsOff_keeps))
    | (dsimp only)
    | rfl
    | (with_reducible refine Keeps.upd ?_ ?_ ?_ ?_)

theorem execPfFlr_keeps {s0 : Base} {s : State}  (h : Keeps s0 s) :
    KeepsOut s0 (execPfFlr s) := by
  unfold execPfFlr
  repeat' first
    | (with_reducible assumption)
    | (with_reducible (first | apply State.pfFlr_keeps | apply keepsOut_ok))
    | (dsimp only)
    | split

theorem State.hotReset_keeps {s0 : Base} {s : State} (linkDown : Bool) (h : Keeps s0 s) :
    Keeps s0 (State.hotReset s linkDown) := by
  unfold State.hotReset
  repeat' first
    | (with_reducible assumption)
    | (with_reducible (first | apply State.hifEvent_keeps | apply State.logErr_keeps | apply State.pfFlr_keeps))
    | (dsimp only)
    | split
    | rfl
    | (with_reducible refine Keeps.upd ?_ ?_ ?_ ?_)

theorem execHotReset_keeps {s0 : Base} {s : State} (linkDown : Bool) (h : Keeps s0 s) :
    KeepsOut s0 (execHotReset linkDown s) := by
  unfold execHotReset
  repeat' first
    | (with_reducible assumption)
    | (with_reducible (first | apply State.hotReset_keeps | apply keepsOut_ok))
    | (dsimp only)

theorem execD3hotEntry_keeps {s0 : Base} {s : State} (fn : Nat) (h : Keeps s0 s) :
    KeepsOut s0 (execD3hotEntry fn s) := by
  unfold execD3hotEntry
  repeat' first
    | (with_reducible assumption)
    | (with_reducible (first | apply State.modFn_keeps | apply keepsOut_ok))
    | (dsimp only)
    | split
    | rfl
    | (intro _ _ _ _)
    | (intro _ _ _)
    | (intro _ _)
    | (with_reducible refine Keeps.upd ?_ ?_ ?_ ?_)

theorem execD0Return_keeps {s0 : Base} {s : State} (fn : Nat) (h : Keeps s0 s) :
    KeepsOut s0 (execD0Return fn s) := by
  unfold execD0Return
  repeat' first
    | (with_reducible assumption)
    | (with_reducible (first | apply State.modFn_keeps | apply keepsOut_ok))
    | (dsimp only)
    | split
    | rfl
    | (intro _ _ _ _)
    | (intro _ _ _)
    | (intro _ _)
    | (with_reducible refine Keeps.upd ?_ ?_ ?_ ?_)

theorem State.sendAllPending_keeps {s0 : Base} {s : State} (fn : Nat) (h : Keeps s0 s) :
    Keeps s0 (State.sendAllPending s fn) := by
  unfold State.sendAllPending
  repeat' first
    | (with_reducible assumption)
    | (with_reducible (first | apply Keeps.foldl | apply State.sendPending_keeps | apply Keeps.foldl_fst))
    | (dsimp only)
    | (intro _ _ _ _)
    | (intro _ _ _)
    | (intro _ _)

theorem State.configure_keeps {s0 : Base} {s : State} (r : CfgReq) (h : Keeps s0 s) :
    Keeps s0 (State.configure s r) := by
  unfold State.configure
  repeat' first
    | (with_reducible assumption)
    | (with_reducible (first | apply State.emit_keeps | apply State.modFn_keeps | apply State.sendAllPending_keeps | apply State.vfsOff_keeps))
    | (dsimp only)
    | split
    | rfl
    | (refine Keeps.snd (by assumption) ?_)
    | (refine Keeps.fst (by assumption) ?_)
    | (intro _ _ _ _)
    | (intro _ _ _)
    | (intro _ _)
    | (with_reducible refine Keeps.upd ?_ ?_ ?_ ?_)

theorem execConfigurationRequest_keeps {s0 : Base} {s : State} (r : CfgReq) (h : Keeps s0 s) :
    KeepsOut s0 (execConfigurationRequest r s) := by
  unfold execConfigurationRequest
  repeat' first
    | (with_reducible assumption)
    | (with_reducible (first | apply State.configure_keeps | apply State.emit_keeps | apply keepsOut_ok))
    | (dsimp only)
    | split

theorem State.cxlOwned_keeps {s0 : Base} {s : State}  (h : Keeps s0 s) :
    Keeps s0 (State.cxlOwned s) := by
  unfold State.cxlOwned
  repeat' first
    | (with_reducible assumption)
    | (with_reducible (first | apply State.hifEvent_keeps | apply State.incReg_keeps))
    | (dsimp only)

theorem State.cxlOutside_keeps {s0 : Base} {s : State} (rid : Nat) (h : Keeps s0 s) :
    Keeps s0 (State.cxlOutside s rid) := by
  unfold State.cxlOutside
  repeat' first
    | (with_reducible assumption)
    | (with_reducible (first | apply State.logErr_keeps))
    | (dsimp only)
    | rfl
    | (with_reducible refine Keeps.upd ?_ ?_ ?_ ?_)

theorem State.cxlRead_keeps {s0 : Base} {s : State} (addr : Nat) (rid : Nat) (h : Keeps s0 s) :
    Keeps s0 (State.cxlRead s addr rid) := by
  unfold State.cxlRead
  repeat' first
    | (with_reducible assumption)
    | (with_reducible (first | apply State.cxlOutside_keeps | apply State.cxlOwned_keeps | apply State.emit_keeps | apply State.readPiece_keeps))
    | (dsimp only)
    | split
    | rfl
    | (refine Keeps.snd (by assumption) ?_)
    | (refine Keeps.fst (by assumption) ?_)
    | (intro _ _ _ _)
    | (intro _ _ _)
    | (intro _ _)
    | (with_reducible refine Keeps.upd ?_ ?_ ?_ ?_)

theorem execCxlMemRead_keeps {s0 : Base} {s : State} (addr : Nat) (rid : Nat) (h : Keeps s0 s) :
    KeepsOut s0 (execCxlMemRead addr rid s) := by
  unfold execCxlMemRead
  repeat' first
    | (with_reducible assumption)
    | (with_reducible (first | apply State.cxlRead_keeps | apply keepsOut_ok))
    | (dsimp only)

theorem State.cxlWrite_keeps {s0 : Base} {s : State} (addr : Nat) (rid : Nat) (data : Line) (h : Keeps s0 s) :
    Keeps s0 (State.cxlWrite s addr rid data) := by
  unfold State.cxlWrite
  repeat' first
    | (with_reducible assumption)
    | (with_reducible (first | apply State.cxlOutside_keeps | apply State.cxlOwned_keeps | apply State.writePiece_keeps))
    | (dsimp only)
    | split
    | (refine Keeps.snd (by assumption) ?_)
    | (refine Keeps.fst (by assumption) ?_)

theorem execCxlMemWrite_keeps {s0 : Base} {s : State} (addr : Nat) (rid : Nat) (data : Line) (h : Keeps s0 s) :
    KeepsOut s0 (execCxlMemWrite addr rid data s) := by
  unfold execCxlMemWrite
  repeat' first
    | (with_reducible assumption)
    | (with_reducible (first | apply State.cxlWrite_keeps | apply keepsOut_ok))
    | (dsimp only)

theorem State.mailbox_keeps {s0 : Base} {s : State} (f : State → State) (h : Keeps s0 s) (h_f : ∀ (t : State), Keeps s0 t → Keeps s0 (f t)) :
    Keeps s0 (State.mailbox s f) := by
  unfold State.mailbox
  repeat' first
    | (with_reducible assumption)
    | (with_reducible (first | apply h_f))
    | (dsimp only)
    | split

theorem execIdentifyMemoryDevice_keeps {s0 : Base} {s : State}  (h : Keeps s0 s) :
    KeepsOut s0 (execIdentifyMemoryDevice s) := by
  unfold execIdentifyMemoryDevice
  repeat' first
    | (with_reducible assumption)
    | (with_reducible (first | apply State.emit_keeps | apply State.mailbox_keeps | apply keepsOut_ok))
    | (dsimp only)
    | (intro _ _ _ _)
    | (intro _ _ _)
    | (intro _ _)

theorem execGetEventRecords_keeps {s0 : Base} {s : State}  (h : Keeps s0 s) :
    KeepsOut s0 (execGetEventRecords s) := by
  unfold execGetEventRecords
  repeat' first
    | (with_reducible assumption)
    | (with_reducible (first | apply State.emit_keeps | apply State.mailbox_keeps | apply keepsOut_ok))
    | (dsimp only)
    | (intro _ _ _ _)
    | (intro _ _ _)
    | (intro _ _)

theorem execClearEventRecords_keeps {s0 : Base} {s : State} (n : Nat) (h : Keeps s0 s) :
    KeepsOut s0 (execClearEventRecords n s) := by
  unfold execClearEventRecords
  repeat' first
    | (with_reducible assumption)
    | (with_reducible (first | apply State.emit_keeps | apply State.mailbox_keeps | apply keepsOut_ok))
    | (dsimp only)
    | rfl
    | (intro _ _ _ _)
    | (intro _ _ _)
    | (intro _ _)
    | (with_reducible refine Keeps.upd ?_ ?_ ?_ ?_)

theorem execGetPoisonList_keeps {s0 : Base} {s : State} (addr : Nat) (n : Nat) (h : Keeps s0 s) :
    KeepsOut s0 (execGetPoisonList addr n s) := by
  unfold execGetPoisonList
  repeat' first
    | (with_reducible assumption)
    | (with_reducible (first | apply State.emit_keeps | apply State.mailbox_keeps | apply keepsOut_ok))
    | (dsimp only)
    | split
    | (intro _ _ _ _)
    | (intro _ _ _)
    | (intro _ _)

end Sys2Proof.Machine
end

