-- ==== Sys2Proof/Laws/KeepsBoot.lean ====
section
/-!
SUPPORT. What the operations of Machine/Boot.lean leave in place.
-/

namespace Sys2Proof.Machine

open Sys2Proof

theorem State.note_keeps {s0 : Base} {s : State} (r : JRec) (h : Keeps s0 s) :
    Keeps s0 (State.note s r) := by
  unfold State.note
  repeat' first
    | (with_reducible assumption)
    | (dsimp only)
    | rfl
    | (with_reducible refine Keeps.upd ?_ ?_ ?_ ?_)

theorem State.flushJournal_keeps {s0 : Base} {s : State} (stores : Bool) (h : Keeps s0 s) :
    Keeps s0 (State.flushJournal s stores) := by
  unfold State.flushJournal
  repeat' first
    | (with_reducible assumption)
    | (with_reducible (first | apply Keeps.foldl))
    | (dsimp only)
    | split
    | rfl
    | (intro _ _ _ _)
    | (intro _ _ _)
    | (intro _ _)
    | (with_reducible refine Keeps.upd ?_ ?_ ?_ ?_)

theorem State.scramble_keeps {s0 : Base} {s : State}  (h : Keeps s0 s) :
    Keeps s0 (State.scramble s) := by
  unfold State.scramble
  refine Keeps.foldl h (fun t a k => ?_)
  refine Keeps.setMem (Keeps.draw 1 k) (fun w => ?_)
  rw [Mem.wf_iff] at w ⊢
  exact ⟨NatMap.wf_set _ _ w.1, w.2⟩

theorem State.dropImage_keeps {s0 : Base} {s : State}  (h : Keeps s0 s) :
    Keeps s0 (State.dropImage s) := by
  unfold State.dropImage
  repeat' first
    | (with_reducible assumption)
    | (with_reducible (first | apply State.eraseFlash_keeps))
    | (dsimp only)
    | split
    | (refine Keeps.snd (by assumption) ?_)
    | (refine Keeps.fst (by assumption) ?_)

theorem State.cleared_keeps {s1 : State} {s : State} (cause : Nat) (h : Keeps ⟨s1, true⟩ s) :
    Keeps ⟨s1, true⟩ (State.cleared s cause) := by
  unfold State.cleared
  have k := State.scramble_keeps (State.dropImage_keeps h)
  refine ⟨k.queue, k.draws, k.sent, k.fuses, fun w => ?_, fun _ => rfl, fun b => Bool.noConfusion b, fun b => Bool.noConfusion b⟩
  have m := k.mem w
  rw [Mem.wf_iff] at m ⊢
  exact ⟨m.1, rfl, rfl, rfl⟩

theorem State.begun_keeps {s0 : Base} {s : State} (n : Nat) (kind : Nat) (unit : Nat) (h : Keeps s0 s) :
    Keeps s0 (State.begun s n kind unit) := by
  unfold State.begun
  repeat' first
    | (with_reducible assumption)
    | (with_reducible (first | apply Eng.note_keeps | apply State.note_keeps))
    | (dsimp only)
    | split
    | rfl
    | (with_reducible refine Keeps.upd ?_ ?_ ?_ ?_)

theorem State.beginBoot_keeps {s0 : Base} {s : State}  (h : Keeps s0 s) :
    Keeps s0 (State.beginBoot s) := by
  unfold State.beginBoot
  repeat' first
    | (with_reducible assumption)
    | (with_reducible (first | apply Eng.note_keeps | apply State.note_keeps))
    | (dsimp only)
    | split
    | rfl
    | (intro _ _ _ _)
    | (intro _ _ _)
    | (intro _ _)
    | (with_reducible refine Keeps.upd ?_ ?_ ?_ ?_)

theorem State.deviceReset_keeps {s1 : State} {s : State} (cause : Nat) (h : Keeps ⟨s1, true⟩ s) :
    Keeps ⟨s1, true⟩ (State.deviceReset s cause) := by
  unfold State.deviceReset
  repeat' first
    | (with_reducible assumption)
    | (with_reducible (first | apply State.beginBoot_keeps | apply State.cleared_keeps))
    | (dsimp only)
    | split

theorem State.failStep_keeps {s1 : State} {s : State} (code : Nat) (kind : Nat) (unit : Nat) (stores : Bool) (h : Keeps ⟨s1, true⟩ s) :
    Keeps ⟨s1, true⟩ (State.failStep s code kind unit stores) := by
  unfold State.failStep
  repeat' first
    | (with_reducible assumption)
    | (with_reducible (first | apply State.deviceReset_keeps | apply State.flushJournal_keeps | apply Eng.note_keeps | apply State.note_keeps))
    | (dsimp only)
    | rfl
    | (with_reducible refine Keeps.updT ?_ ?_)

theorem State.usePlate_keeps {s0 : Base} {s : State} (src : Nat) (pl : Plate) (bytes : List Byte) (h : Keeps s0 s) :
    Keeps s0 (State.usePlate s src pl bytes) := by
  unfold State.usePlate
  repeat' first
    | (with_reducible assumption)
    | (dsimp only)
    | rfl
    | (with_reducible refine Keeps.upd ?_ ?_ ?_ ?_)

theorem State.tryPlate_keeps {s0 : Base} {s : State} (src : Nat) (bytes : List Byte) (next : State → State) (h : Keeps s0 s) (h_next : ∀ (t : State), Keeps s0 t → Keeps s0 (next t)) :
    Keeps s0 (State.tryPlate s src bytes next) := by
  unfold State.tryPlate
  repeat' first
    | (with_reducible assumption)
    | (with_reducible (first | apply State.begun_keeps | apply State.logErr_keeps | apply Eng.note_keeps | apply State.note_keeps | apply State.usePlate_keeps | apply h_next))
    | (dsimp only)
    | split
    | rfl
    | (refine Keeps.snd (by assumption) ?_)
    | (refine Keeps.fst (by assumption) ?_)
    | (with_reducible refine Keeps.upd ?_ ?_ ?_ ?_)

theorem State.selectPlate_keeps {s1 : State} {s : State} (stores : Bool) (h : Keeps ⟨s1, true⟩ s) :
    Keeps ⟨s1, true⟩ (State.selectPlate s stores) := by
  unfold State.selectPlate
  repeat' first
    | (with_reducible assumption)
    | (with_reducible (first | apply State.failStep_keeps | apply Eng.note_keeps | apply State.note_keeps | apply State.tryPlate_keeps | apply State.usePlate_keeps))
    | (dsimp only)
    | split
    | rfl
    | (intro _ _ _ _)
    | (intro _ _ _)
    | (intro _ _)
    | (with_reducible refine Keeps.updT ?_ ?_)

theorem State.beginPorts_keeps {s0 : Base} {s : State}  (h : Keeps s0 s) :
    Keeps s0 (State.beginPorts s) := by
  unfold State.beginPorts
  try generalize List.range 16 = l16
  repeat' first
    | (with_reducible assumption)
    | (with_reducible (first | apply Keeps.foldl | apply State.portDown_keeps | apply State.startTraining_keeps))
    | (dsimp only)
    | split
    | (intro _ _ _ _)
    | (intro _ _ _)
    | (intro _ _)

theorem State.startWork_keeps {s1 : State} {s : State} (n : Nat) (stores : Bool) (h : Keeps ⟨s1, true⟩ s) :
    Keeps ⟨s1, true⟩ (State.startWork s n stores) := by
  unfold State.startWork
  repeat' first
    | (with_reducible assumption)
    | (with_reducible (first | apply Keeps.foldl | apply State.beginPorts_keeps | apply State.begun_keeps | apply State.selectPlate_keeps))
    | (dsimp only)
    | split
    | rfl
    | (refine Keeps.snd (by assumption) ?_)
    | (refine Keeps.fst (by assumption) ?_)
    | (intro _ _ _ _)
    | (intro _ _ _)
    | (intro _ _)
    | (with_reducible refine Keeps.updT ?_ ?_)

theorem State.endStep_keeps {s1 : State} {s : State} (outcome : Nat) (kind : Nat) (unit : Nat) (code : Nat) (stores : Bool) (h : Keeps ⟨s1, true⟩ s) :
    Keeps ⟨s1, true⟩ (State.endStep s outcome kind unit code stores) := by
  unfold State.endStep
  repeat' first
    | (with_reducible assumption)
    | (with_reducible (first | apply State.flushJournal_keeps | apply Eng.note_keeps | apply State.note_keeps | apply State.startWork_keeps))
    | (dsimp only)
    | split
    | rfl
    | (with_reducible refine Keeps.updT ?_ ?_)

theorem State.startFirmware_keeps {s0 : Base} {s : State} (slot : Nat) (h : Keeps s0 s) :
    Keeps s0 (State.startFirmware s slot) := by
  unfold State.startFirmware
  repeat' first
    | (with_reducible assumption)
    | (dsimp only)
    | split
    | rfl
    | (refine Keeps.snd (by assumption) ?_)
    | (refine Keeps.fst (by assumption) ?_)
    | (with_reducible refine Keeps.upd ?_ ?_ ?_ ?_)

theorem State.serviceImage_keeps {s0 : Base} {s : State}  (h : Keeps s0 s) :
    Keeps s0 (State.serviceImage s) := by
  unfold State.serviceImage
  repeat' first
    | (with_reducible assumption)
    | (with_reducible (first | apply State.startFirmware_keeps))
    | (dsimp only)
    | split
    | (refine Keeps.snd (by assumption) ?_)
    | (refine Keeps.fst (by assumption) ?_)

theorem State.atStep_keeps {s1 : State} {s : State} (n : Nat) (t : Nat) (stores : Bool) (f : State → State) (h : Keeps ⟨s1, true⟩ s) (h_f : ∀ (t : State), Keeps ⟨s1, true⟩ t → Keeps ⟨s1, true⟩ (f t)) :
    Keeps ⟨s1, true⟩ (State.atStep s n t stores f) := by
  unfold State.atStep
  repeat' first
    | (with_reducible assumption)
    | (with_reducible (first | apply State.advance_keeps | apply State.endStep_keeps | apply State.serviceImage_keeps | apply h_f))
    | (dsimp only)
    | split

theorem State.reportExcluded_keeps {s0 : Base} {s : State} (kind : Nat) (unit : Nat) (path : Nat) (h : Keeps s0 s) :
    Keeps s0 (State.reportExcluded s kind unit path) := by
  unfold State.reportExcluded
  repeat' first
    | (with_reducible assumption)
    | (with_reducible (first | apply State.logErr_keeps | apply Eng.note_keeps | apply State.note_keeps))
    | (dsimp only)
    | rfl
    | (with_reducible refine Keeps.upd ?_ ?_ ?_ ?_)

theorem State.dropGranule_keeps {s0 : Base} {s : State} (g : Nat) (h : Keeps s0 s) :
    Keeps s0 (State.dropGranule s g) := by
  unfold State.dropGranule
  repeat' first
    | (with_reducible assumption)
    | (dsimp only)
    | rfl
    | (with_reducible refine Keeps.upd ?_ ?_ ?_ ?_)

theorem State.dropChannel_keeps {s0 : Base} {s : State} (ch : Nat) (h : Keeps s0 s) :
    Keeps s0 (State.dropChannel s ch) := by
  unfold State.dropChannel
  repeat' first
    | (with_reducible assumption)
    | (with_reducible (first | apply State.dropGranule_keeps))
    | (dsimp only)
    | split
    | rfl
    | (with_reducible refine Keeps.upd ?_ ?_ ?_ ?_)

theorem State.untrain_keeps {s0 : Base} {s : State} (ch : Nat) (h : Keeps s0 s) :
    Keeps s0 (State.untrain s ch) := by
  unfold State.untrain
  repeat' first
    | (with_reducible assumption)
    | (dsimp only)
    | rfl
    | (with_reducible refine Keeps.upd ?_ ?_ ?_ ?_)

theorem State.enterService_keeps {s0 : Base} {s : State} (reason : Nat) (h : Keeps s0 s) :
    Keeps s0 (State.enterService s reason) := by
  unfold State.enterService
  repeat' first
    | (with_reducible assumption)
    | (dsimp only)
    | rfl
    | (with_reducible refine Keeps.upd ?_ ?_ ?_ ?_)

theorem execPowerOn_keeps {s1 : State} {s : State}  (h : Keeps ⟨s1, true⟩ s) :
    KeepsOut ⟨s1, true⟩ (execPowerOn s) := by
  unfold execPowerOn
  repeat' first
    | (with_reducible assumption)
    | (with_reducible (first | apply State.cleared_keeps | apply keepsOut_ok))
    | (dsimp only)
    | rfl
    | (with_reducible refine Keeps.updT ?_ ?_)

theorem execPwrgdDeassert_keeps {s1 : State} {s : State}  (h : Keeps ⟨s1, true⟩ s) :
    KeepsOut ⟨s1, true⟩ (execPwrgdDeassert s) := by
  unfold execPwrgdDeassert
  repeat' first
    | (with_reducible assumption)
    | (with_reducible (first | apply State.cleared_keeps | apply keepsOut_ok))
    | (dsimp only)
    | split
    | rfl
    | (with_reducible refine Keeps.updT ?_ ?_)

theorem execPwrgdAssert_keeps {s0 : Base} {s : State} (t : Nat) (hottest : Int) (h : Keeps s0 s) :
    KeepsOut s0 (execPwrgdAssert t hottest s) := by
  unfold execPwrgdAssert
  repeat' first
    | (with_reducible assumption)
    | (with_reducible (first | apply State.advance_keeps | apply State.beginBoot_keeps | apply State.trip_keeps | apply keepsOut_ok))
    | (dsimp only)
    | split
    | rfl
    | (with_reducible refine Keeps.upd ?_ ?_ ?_ ?_)

theorem execPerstAssert_keeps {s1 : State} {s : State}  (h : Keeps ⟨s1, true⟩ s) :
    KeepsOut ⟨s1, true⟩ (execPerstAssert s) := by
  unfold execPerstAssert
  repeat' first
    | (with_reducible assumption)
    | (with_reducible (first | apply State.cleared_keeps | apply keepsOut_ok))
    | (dsimp only)
    | split
    | rfl
    | (with_reducible refine Keeps.updT ?_ ?_)

theorem execPerstRelease_keeps {s0 : Base} {s : State} (t : Nat) (strap : Bool) (h : Keeps s0 s) :
    KeepsOut s0 (execPerstRelease t strap s) := by
  unfold execPerstRelease
  repeat' first
    | (with_reducible assumption)
    | (with_reducible (first | apply State.advance_keeps | apply State.beginBoot_keeps | apply keepsOut_ok))
    | (dsimp only)
    | split
    | rfl
    | (with_reducible refine Keeps.upd ?_ ?_ ?_ ?_)

theorem execHoldupChange_keeps {s0 : Base} {s : State} (asserted : Bool) (h : Keeps s0 s) :
    KeepsOut s0 (execHoldupChange asserted s) := by
  unfold execHoldupChange
  repeat' first
    | (with_reducible assumption)
    | (with_reducible (first | apply keepsOut_ok))
    | (dsimp only)
    | rfl
    | (with_reducible refine Keeps.upd ?_ ?_ ?_ ?_)

theorem execStepRom_keeps {s1 : State} {s : State} (t : Nat) (sound : Bool) (h : Keeps ⟨s1, true⟩ s) :
    KeepsOut ⟨s1, true⟩ (execStepRom t sound s) := by
  unfold execStepRom
  repeat' first
    | (with_reducible assumption)
    | (with_reducible (first | apply State.atStep_keeps | apply State.endStep_keeps | apply Eng.note_keeps | apply State.note_keeps | apply keepsOut_ok))
    | (dsimp only)
    | split
    | rfl
    | (intro _ _ _ _)
    | (intro _ _ _)
    | (intro _ _)
    | (with_reducible refine Keeps.updT ?_ ?_)

theorem State.joinJournal_keeps {s0 : Base} {s : State} (bootnum : Nat) (h : Keeps s0 s) :
    Keeps s0 (State.joinJournal s bootnum).2.2 := by
  unfold State.joinJournal
  repeat' first
    | (with_reducible assumption)
    | (dsimp only)
    | rfl
    | (intro _ _ _ _)
    | (intro _ _ _)
    | (intro _ _)
    | (with_reducible refine Keeps.upd ?_ ?_ ?_ ?_)

theorem State.settleTrial_keeps {s0 : Base} {s : State} (failed : Bool) (slot : Option Nat) (stores : Bool) (h : Keeps s0 s) :
    Keeps s0 (State.settleTrial s failed slot stores).2 := by
  unfold State.settleTrial
  repeat' first
    | (with_reducible assumption)
    | (with_reducible (first | apply State.tellRevert_keeps | apply State.writeSelector_keeps))
    | (dsimp only)
    | split
    | rfl
    | (refine Keeps.snd (by assumption) ?_)
    | (refine Keeps.fst (by assumption) ?_)
    | (with_reducible refine Keeps.upd ?_ ?_ ?_ ?_)

theorem State.flash_keeps {s1 : State} {s : State} (fails : Nat) (stores : Bool) (h : Keeps ⟨s1, true⟩ s) :
    Keeps ⟨s1, true⟩ (State.flash s fails stores) := by
  unfold State.flash
  repeat' first
    | (with_reducible assumption)
    | (with_reducible (first | apply State.endStep_keeps | apply State.enterService_keeps | apply State.failStep_keeps | apply State.joinJournal_keeps | apply Eng.note_keeps | apply State.note_keeps | apply State.settleTrial_keeps | apply State.writeCounter_keeps))
    | (dsimp only)
    | split
    | rfl
    | (refine Keeps.snd (by assumption) ?_)
    | (refine Keeps.fst (by assumption) ?_)
    | (intro _ _ _ _)
    | (intro _ _ _)
    | (intro _ _)
    | (with_reducible refine Keeps.updT ?_ ?_)

theorem execStepFlash_keeps {s1 : State} {s : State} (t : Nat) (fails : Nat) (stores : Bool) (h : Keeps ⟨s1, true⟩ s) :
    KeepsOut ⟨s1, true⟩ (execStepFlash t fails stores s) := by
  unfold execStepFlash
  repeat' first
    | (with_reducible assumption)
    | (with_reducible (first | apply State.atStep_keeps | apply State.flash_keeps | apply keepsOut_ok))
    | (dsimp only)
    | (intro _ _ _ _)
    | (intro _ _ _)
    | (intro _ _)

theorem State.holdHalf_keeps {s0 : Base} {s : State} (h : Option Nat) (hk : Keeps s0 s) :
    Keeps s0 (State.holdHalf s h) := by
  unfold State.holdHalf
  repeat' first
    | (with_reducible assumption)
    | (dsimp only)
    | split
    | rfl
    | (refine Keeps.snd (by assumption) ?_)
    | (refine Keeps.fst (by assumption) ?_)
    | (intro _ _ _ _)
    | (intro _ _ _)
    | (intro _ _)
    | (with_reducible refine Keeps.upd ?_ ?_ ?_ ?_)

theorem State.image_keeps {s1 : State} {s : State} (stores : Bool) (h : Keeps ⟨s1, true⟩ s) :
    Keeps ⟨s1, true⟩ (State.image s stores) := by
  unfold State.image
  dsimp only
  generalize s.imageOrder.headD 0 = a
  generalize (s.imageOrder.drop 1).headD 0 = b
  generalize s.stepPath 3 = path
  repeat' first
    | (with_reducible assumption)
    | (with_reducible (first | apply State.begun_keeps | apply State.endStep_keeps | apply State.enterService_keeps | apply State.holdHalf_keeps | apply Eng.note_keeps | apply State.note_keeps | apply State.startFirmware_keeps))
    | (dsimp only)
    | split
    | rfl
    | (intro _ _ _ _)
    | (intro _ _ _)
    | (intro _ _)
    | (with_reducible refine Keeps.updT ?_ ?_)

theorem execStepImage_keeps {s1 : State} {s : State} (t : Nat) (stores : Bool) (h : Keeps ⟨s1, true⟩ s) :
    KeepsOut ⟨s1, true⟩ (execStepImage t stores s) := by
  unfold execStepImage
  repeat' first
    | (with_reducible assumption)
    | (with_reducible (first | apply State.atStep_keeps | apply State.image_keeps | apply keepsOut_ok))
    | (dsimp only)
    | (intro _ _ _ _)
    | (intro _ _ _)
    | (intro _ _)

theorem State.stepOrMesh_keeps {s1 : State} {s : State} (sound : Bool) (code : Nat) (stores : Bool) (h : Keeps ⟨s1, true⟩ s) :
    Keeps ⟨s1, true⟩ (State.stepOrMesh s sound code stores) := by
  unfold State.stepOrMesh
  repeat' first
    | (with_reducible assumption)
    | (with_reducible (first | apply State.endStep_keeps | apply State.enterService_keeps))
    | (dsimp only)
    | split

theorem execStepClocks_keeps {s1 : State} {s : State} (t : Nat) (locked : Bool) (stores : Bool) (h : Keeps ⟨s1, true⟩ s) :
    KeepsOut ⟨s1, true⟩ (execStepClocks t locked stores s) := by
  unfold execStepClocks
  repeat' first
    | (with_reducible assumption)
    | (with_reducible (first | apply State.atStep_keeps | apply State.stepOrMesh_keeps | apply keepsOut_ok))
    | (dsimp only)
    | (intro _ _ _ _)
    | (intro _ _ _)
    | (intro _ _)

theorem State.hostReady_keeps {s0 : Base} {s : State}  (h : Keeps s0 s) :
    Keeps s0 (State.hostReady s) := by
  unfold State.hostReady
  repeat' first
    | (with_reducible assumption)
    | (with_reducible (first | apply Keeps.foldl | apply State.ringPut_keeps))
    | (dsimp only)
    | rfl
    | (intro _ _ _ _)
    | (intro _ _ _)
    | (intro _ _)
    | (with_reducible refine Keeps.upd ?_ ?_ ?_ ?_)

theorem execStepHost_keeps {s1 : State} {s : State} (t : Nat) (stores : Bool) (h : Keeps ⟨s1, true⟩ s) :
    KeepsOut ⟨s1, true⟩ (execStepHost t stores s) := by
  unfold execStepHost
  repeat' first
    | (with_reducible assumption)
    | (with_reducible (first | apply State.atStep_keeps | apply State.endStep_keeps | apply State.hostReady_keeps | apply keepsOut_ok))
    | (dsimp only)
    | (intro _ _ _ _)
    | (intro _ _ _)
    | (intro _ _)

theorem State.migrate_keeps {s0 : Base} {s : State} {n : Nat} {stores : Bool} (h : Keeps s0 s) {u : State}
    (e : State.migrate s n stores = some u) : Keeps s0 u := by
  unfold State.migrate at e
  generalize State.component s s.boot.slot 7 = prog at e
  dsimp only at e
  split at e
  · cases e
  · split at e
    · cases e
    · injection e with e
      subst e
      refine State.holdHalf_keeps _ (Keeps.upd h ?_ rfl rfl)
      split <;> rfl

theorem State.settings_keeps {s1 : State} {s : State} (stores : Bool) (h : Keeps ⟨s1, true⟩ s) :
    Keeps ⟨s1, true⟩ (State.settings s stores) := by
  unfold State.settings
  repeat' first
    | (with_reducible assumption)
    | (with_reducible (first | apply State.endStep_keeps | apply State.failStep_keeps | apply State.holdHalf_keeps | apply Keeps.getD))
    | (refine State.migrate_keeps ?_ (by assumption))
    | (dsimp only)
    | split
    | (refine Keeps.snd (by assumption) ?_)
    | (refine Keeps.fst (by assumption) ?_)
    | (intro _ _ _ _)
    | (intro _ _ _)
    | (intro _ _)

theorem execStepSettings_keeps {s1 : State} {s : State} (t : Nat) (stores : Bool) (h : Keeps ⟨s1, true⟩ s) :
    KeepsOut ⟨s1, true⟩ (execStepSettings t stores s) := by
  unfold execStepSettings
  repeat' first
    | (with_reducible assumption)
    | (with_reducible (first | apply State.atStep_keeps | apply State.settings_keeps | apply keepsOut_ok))
    | (dsimp only)
    | (intro _ _ _ _)
    | (intro _ _ _)
    | (intro _ _)

theorem execStepTiles_keeps {s1 : State} {s : State} (t : Nat) (sound : Bool) (stores : Bool) (h : Keeps ⟨s1, true⟩ s) :
    KeepsOut ⟨s1, true⟩ (execStepTiles t sound stores s) := by
  unfold execStepTiles
  repeat' first
    | (with_reducible assumption)
    | (with_reducible (first | apply State.atStep_keeps | apply State.failStep_keeps | apply State.stepOrMesh_keeps | apply keepsOut_ok))
    | (dsimp only)
    | split
    | (intro _ _ _ _)
    | (intro _ _ _)
    | (intro _ _)

theorem State.useStack_keeps {s0 : Base} {s : State} (t : Nat) (path : Nat) (slow : Bool) (h : Keeps s0 s) :
    Keeps s0 (State.useStack s t path slow) := by
  unfold State.useStack
  repeat' first
    | (with_reducible assumption)
    | (with_reducible (first | apply State.logErr_keeps | apply State.modStack_keeps | apply Eng.note_keeps | apply State.note_keeps))
    | (dsimp only)
    | split
    | rfl
    | (intro _ _ _ _)
    | (intro _ _ _)
    | (intro _ _)
    | (with_reducible refine Keeps.upd ?_ ?_ ?_ ?_)

theorem State.dropStack_keeps {s0 : Base} {s : State} (t : Nat) (path : Nat) (h : Keeps s0 s) :
    Keeps s0 (State.dropStack s t path) := by
  unfold State.dropStack
  try generalize List.range 16 = l16
  try generalize List.range 32 = l32
  repeat' first
    | (with_reducible assumption)
    | (with_reducible (first | apply Keeps.foldl | apply State.dropGranule_keeps | apply State.reportExcluded_keeps | apply State.untrain_keeps))
    | (dsimp only)
    | rfl
    | (intro _ _ _ _)
    | (intro _ _ _)
    | (intro _ _)
    | (with_reducible refine Keeps.upd ?_ ?_ ?_ ?_)

theorem State.trainStack_keeps {s0 : Base} {s : State} (t : Nat) (full : Bool) (low : Bool) (h : Keeps s0 s) :
    Keeps s0 (State.trainStack s t full low) := by
  unfold State.trainStack
  repeat' first
    | (with_reducible assumption)
    | (with_reducible (first | apply State.begun_keeps | apply State.dropStack_keeps | apply Eng.note_keeps | apply State.note_keeps | apply State.useStack_keeps))
    | (dsimp only)
    | split
    | rfl
    | (with_reducible refine Keeps.upd ?_ ?_ ?_ ?_)

theorem State.loseChannel_keeps {s0 : Base} {s : State} (ch : Nat) (h : Keeps s0 s) :
    Keeps s0 (State.loseChannel s ch) := by
  unfold State.loseChannel
  repeat' first
    | (with_reducible assumption)
    | (with_reducible (first | apply State.dropChannel_keeps | apply State.reportExcluded_keeps))
    | (dsimp only)
    | split

theorem State.endUnits_keeps {s1 : State} {s : State} (was : Bool) (stores : Bool) (h : Keeps ⟨s1, true⟩ s) :
    Keeps ⟨s1, true⟩ (State.endUnits s was stores) := by
  unfold State.endUnits
  repeat' first
    | (with_reducible assumption)
    | (with_reducible (first | apply State.endStep_keeps))
    | (dsimp only)
    | split
    | rfl
    | (with_reducible refine Keeps.updT ?_ ?_)

theorem State.freshUnits_keeps {s0 : Base} {s : State}  (h : Keeps s0 s) :
    Keeps s0 (State.freshUnits s).2 := by
  unfold State.freshUnits
  repeat' first
    | (with_reducible assumption)
    | (dsimp only)
    | rfl
    | (with_reducible refine Keeps.upd ?_ ?_ ?_ ?_)

theorem State.stacksStep_keeps {s1 : State} {s : State} (fail80 : List Nat) (fail64 : List Nat) (chans : List Nat) (refused : List Nat) (remaps : List (List Byte)) (stores : Bool) (h : Keeps ⟨s1, true⟩ s) :
    Keeps ⟨s1, true⟩ (State.stacksStep s fail80 fail64 chans refused remaps stores) := by
  unfold State.stacksStep
  try generalize List.range 16 = l16
  repeat' first
    | (with_reducible assumption)
    | (with_reducible (first | apply Keeps.foldl | apply State.endUnits_keeps | apply State.freshUnits_keeps | apply State.loseChannel_keeps | apply Eng.note_keeps | apply State.note_keeps | apply State.persistMap_keeps | apply State.refused_keeps | apply State.trainStack_keeps | apply State.untrain_keeps | apply State.zeroRange_keeps | apply Keeps.foldl_snd))
    | (dsimp only)
    | split
    | rfl
    | (refine Keeps.snd (by assumption) ?_)
    | (refine Keeps.fst (by assumption) ?_)
    | (intro _ _ _ _)
    | (intro _ _ _)
    | (intro _ _)
    | (with_reducible refine Keeps.updT ?_ ?_)

theorem execStepStacks_keeps {s1 : State} {s : State} (t : Nat) (fail80 : List Nat) (fail64 : List Nat) (chans : List Nat) (refused : List Nat) (remaps : List (List Byte)) (stores : Bool) (h : Keeps ⟨s1, true⟩ s) :
    KeepsOut ⟨s1, true⟩ (execStepStacks t fail80 fail64 chans refused remaps stores s) := by
  unfold execStepStacks
  repeat' first
    | (with_reducible assumption)
    | (with_reducible (first | apply State.atStep_keeps | apply State.refused_keeps | apply State.stacksStep_keeps | apply keepsOut_ok))
    | (dsimp only)
    | (intro _ _ _ _)
    | (intro _ _ _)
    | (intro _ _)

theorem State.spareCores_keeps {s0 : Base} {s : State} (g : Nat) (bad : List Nat) (h : Keeps s0 s) :
    Keeps s0 (State.spareCores s g bad) := by
  unfold State.spareCores
  try generalize List.range 18 = l18
  repeat' first
    | (with_reducible assumption)
    | (with_reducible (first | apply Keeps.foldl | apply State.dropGranule_keeps | apply Eng.note_keeps | apply State.note_keeps | apply State.reportExcluded_keeps))
    | (dsimp only)
    | split
    | rfl
    | (intro _ _ _ _)
    | (intro _ _ _)
    | (intro _ _)
    | (with_reducible refine Keeps.upd ?_ ?_ ?_ ?_)

theorem State.coresStep_keeps {s1 : State} {s : State} (failed : List Nat) (stores : Bool) (h : Keeps ⟨s1, true⟩ s) :
    Keeps ⟨s1, true⟩ (State.coresStep s failed stores) := by
  unfold State.coresStep
  try generalize List.range 256 = l256
  repeat' first
    | (with_reducible assumption)
    | (with_reducible (first | apply Keeps.foldl | apply State.endUnits_keeps | apply State.freshUnits_keeps | apply State.spareCores_keeps | apply Keeps.foldl_snd))
    | (dsimp only)
    | (intro _ _ _ _)
    | (intro _ _ _)
    | (intro _ _)

theorem execStepCores_keeps {s1 : State} {s : State} (t : Nat) (failed : List Nat) (stores : Bool) (h : Keeps ⟨s1, true⟩ s) :
    KeepsOut ⟨s1, true⟩ (execStepCores t failed stores s) := by
  unfold execStepCores
  repeat' first
    | (with_reducible assumption)
    | (with_reducible (first | apply State.atStep_keeps | apply State.coresStep_keeps | apply keepsOut_ok))
    | (dsimp only)
    | (intro _ _ _ _)
    | (intro _ _ _)
    | (intro _ _)

theorem State.trainEdge_keeps {s0 : Base} {s : State} (e : Nat) (lost : Nat) (h : Keeps s0 s) :
    Keeps s0 (State.trainEdge s e lost).2 := by
  unfold State.trainEdge
  repeat' first
    | (with_reducible assumption)
    | (with_reducible (first | apply State.logErr_keeps | apply Eng.note_keeps | apply State.note_keeps))
    | (dsimp only)
    | split
    | rfl
    | (with_reducible refine Keeps.upd ?_ ?_ ?_ ?_)

theorem State.meshStep_keeps {s1 : State} {s : State} (half : List Nat) (dead : List Nat) (stores : Bool) (h : Keeps ⟨s1, true⟩ s) :
    Keeps ⟨s1, true⟩ (State.meshStep s half dead stores) := by
  unfold State.meshStep
  try generalize List.range 32 = l32
  repeat' first
    | (with_reducible assumption)
    | (with_reducible (first | apply Keeps.foldl | apply State.endStep_keeps | apply State.endUnits_keeps | apply State.enterService_keeps | apply State.failStep_keeps | apply State.freshUnits_keeps | apply State.trainEdge_keeps | apply Keeps.foldl_snd | apply Keeps.foldl_fst))
    | (dsimp only)
    | split
    | rfl
    | (intro _ _ _ _)
    | (intro _ _ _)
    | (intro _ _)
    | (with_reducible refine Keeps.updT ?_ ?_)

theorem execStepMesh_keeps {s1 : State} {s : State} (t : Nat) (half : List Nat) (dead : List Nat) (stores : Bool) (h : Keeps ⟨s1, true⟩ s) :
    KeepsOut ⟨s1, true⟩ (execStepMesh t half dead stores s) := by
  unfold execStepMesh
  repeat' first
    | (with_reducible assumption)
    | (with_reducible (first | apply State.atStep_keeps | apply State.meshStep_keeps | apply keepsOut_ok))
    | (dsimp only)
    | (intro _ _ _ _)
    | (intro _ _ _)
    | (intro _ _)

theorem State.linksStep_keeps {s1 : State} {s : State} (stores : Bool) (h : Keeps ⟨s1, true⟩ s) :
    Keeps ⟨s1, true⟩ (State.linksStep s stores) := by
  unfold State.linksStep
  repeat' first
    | (with_reducible assumption)
    | (with_reducible (first | apply Keeps.foldl | apply State.endStep_keeps | apply Eng.note_keeps | apply State.note_keeps))
    | (dsimp only)
    | split
    | rfl
    | (intro _ _ _ _)
    | (intro _ _ _)
    | (intro _ _)
    | (with_reducible refine Keeps.updT ?_ ?_)

theorem execStepLinks_keeps {s1 : State} {s : State} (t : Nat) (stores : Bool) (h : Keeps ⟨s1, true⟩ s) :
    KeepsOut ⟨s1, true⟩ (execStepLinks t stores s) := by
  unfold execStepLinks
  repeat' first
    | (with_reducible assumption)
    | (with_reducible (first | apply State.atStep_keeps | apply State.linksStep_keeps | apply keepsOut_ok))
    | (dsimp only)
    | (intro _ _ _ _)
    | (intro _ _ _)
    | (intro _ _)

theorem State.shutterStep_keeps {s1 : State} {s : State} (stores : Bool) (h : Keeps ⟨s1, true⟩ s) :
    Keeps ⟨s1, true⟩ (State.shutterStep s stores) := by
  unfold State.shutterStep
  repeat' first
    | (with_reducible assumption)
    | (with_reducible (first | apply State.endStep_keeps))
    | (dsimp only)
    | split
    | rfl
    | (with_reducible refine Keeps.updT ?_ ?_)

theorem execStepShutter_keeps {s1 : State} {s : State} (t : Nat) (stores : Bool) (h : Keeps ⟨s1, true⟩ s) :
    KeepsOut ⟨s1, true⟩ (execStepShutter t stores s) := by
  unfold execStepShutter
  repeat' first
    | (with_reducible assumption)
    | (with_reducible (first | apply State.atStep_keeps | apply State.shutterStep_keeps | apply keepsOut_ok))
    | (dsimp only)
    | (intro _ _ _ _)
    | (intro _ _ _)
    | (intro _ _)

theorem State.loadDecodeDef_keeps {s0 : Base} {s : State}  (h : Keeps s0 s) :
    Keeps s0 (State.loadDecodeDef s) := by
  unfold State.loadDecodeDef
  try generalize List.range 256 = l256
  repeat' first
    | (with_reducible assumption)
    | (with_reducible (first | apply Keeps.foldl | apply State.installDecode_keeps))
    | (dsimp only)
    | (intro _ _ _ _)
    | (intro _ _ _)
    | (intro _ _)

theorem State.fixCxl_keeps {s0 : Base} {s : State}  (h : Keeps s0 s) :
    Keeps s0 (State.fixCxl s) := by
  unfold State.fixCxl
  try generalize List.range 256 = l256
  repeat' first
    | (with_reducible assumption)
    | (dsimp only)
    | split
    | rfl
    | (intro _ _ _ _)
    | (intro _ _ _)
    | (intro _ _)
    | (with_reducible refine Keeps.upd ?_ ?_ ?_ ?_)

theorem State.plateStep_keeps {s1 : State} {s : State} (stores : Bool) (h : Keeps ⟨s1, true⟩ s) :
    Keeps ⟨s1, true⟩ (State.plateStep s stores) := by
  unfold State.plateStep
  repeat' first
    | (with_reducible assumption)
    | (with_reducible (first | apply State.endStep_keeps | apply State.failStep_keeps | apply State.fixCxl_keeps | apply State.installPlate_keeps | apply State.judgeHost_keeps | apply State.loadDecodeDef_keeps))
    | (dsimp only)
    | split
    | rfl
    | (with_reducible refine Keeps.updT ?_ ?_)

theorem execStepPlate_keeps {s1 : State} {s : State} (t : Nat) (stores : Bool) (h : Keeps ⟨s1, true⟩ s) :
    KeepsOut ⟨s1, true⟩ (execStepPlate t stores s) := by
  unfold execStepPlate
  repeat' first
    | (with_reducible assumption)
    | (with_reducible (first | apply State.atStep_keeps | apply State.plateStep_keeps | apply keepsOut_ok))
    | (dsimp only)
    | (intro _ _ _ _)
    | (intro _ _ _)
    | (intro _ _)

theorem State.readyFirmware_keeps {s0 : Base} {s : State} (stores : Bool) (bad : Option Nat) (h : Keeps s0 s) :
    Keeps s0 (State.readyFirmware s stores bad) := by
  unfold State.readyFirmware
  repeat' first
    | (with_reducible assumption)
    | (with_reducible (first | apply State.confirm_keeps | apply State.raiseFuses_keeps))
    | (dsimp only)
    | split
    | (refine Keeps.snd (by assumption) ?_)
    | (refine Keeps.fst (by assumption) ?_)

theorem State.readyStep_keeps {s1 : State} {s : State} (stores : Bool) (bad : Option Nat) (h : Keeps ⟨s1, true⟩ s) :
    Keeps ⟨s1, true⟩ (State.readyStep s stores bad) := by
  unfold State.readyStep
  repeat' first
    | (with_reducible assumption)
    | (with_reducible (first | apply State.devEvent_keeps | apply State.endStep_keeps | apply State.readyFirmware_keeps | apply State.writeCounter_keeps))
    | (dsimp only)
    | split
    | rfl
    | (intro _ _ _ _)
    | (intro _ _ _)
    | (intro _ _)
    | (with_reducible refine Keeps.updT ?_ ?_)

theorem execStepReady_keeps {s1 : State} {s : State} (t : Nat) (stores : Bool) (bad : Option Nat) (h : Keeps ⟨s1, true⟩ s) :
    KeepsOut ⟨s1, true⟩ (execStepReady t stores bad s) := by
  unfold execStepReady
  repeat' first
    | (with_reducible assumption)
    | (with_reducible (first | apply State.atStep_keeps | apply State.readyStep_keeps | apply keepsOut_ok))
    | (dsimp only)
    | (intro _ _ _ _)
    | (intro _ _ _)
    | (intro _ _)

theorem State.stepWatchdog_keeps {s1 : State} {s : State} (done : List Nat) (h : Keeps ⟨s1, true⟩ s) :
    Keeps ⟨s1, true⟩ (State.stepWatchdog s done) := by
  unfold State.stepWatchdog
  repeat' first
    | (with_reducible assumption)
    | (with_reducible (first | apply Keeps.foldl | apply State.advance_keeps | apply State.deviceReset_keeps | apply Eng.note_keeps | apply State.note_keeps))
    | (dsimp only)
    | split
    | rfl
    | (intro _ _ _ _)
    | (intro _ _ _)
    | (intro _ _)
    | (with_reducible refine Keeps.updT ?_ ?_)

theorem execStepWatchdogExpiry_keeps {s1 : State} {s : State} (done : List Nat) (h : Keeps ⟨s1, true⟩ s) :
    KeepsOut ⟨s1, true⟩ (execStepWatchdogExpiry done s) := by
  unfold execStepWatchdogExpiry
  repeat' first
    | (with_reducible assumption)
    | (with_reducible (first | apply State.stepWatchdog_keeps | apply keepsOut_ok))
    | (dsimp only)

theorem State.safelightWatchdog_keeps {s1 : State} {s : State} (stores : Bool) (h : Keeps ⟨s1, true⟩ s) :
    Keeps ⟨s1, true⟩ (State.safelightWatchdog s stores) := by
  unfold State.safelightWatchdog
  repeat' first
    | (with_reducible assumption)
    | (with_reducible (first | apply Keeps.foldl | apply State.deviceReset_keeps | apply State.endMgmt_keeps | apply State.flushJournal_keeps | apply State.logErr_keeps | apply Eng.note_keeps | apply State.note_keeps | apply State.response_keeps | apply Keeps.ident))
    | (dsimp only)
    | split
    | rfl
    | (intro _ _ _ _)
    | (intro _ _ _)
    | (intro _ _)
    | (with_reducible refine Keeps.updT ?_ ?_)

theorem execSafelightWatchdogExpiry_keeps {s1 : State} {s : State} (t : Nat) (stores : Bool) (h : Keeps ⟨s1, true⟩ s) :
    KeepsOut ⟨s1, true⟩ (execSafelightWatchdogExpiry t stores s) := by
  unfold execSafelightWatchdogExpiry
  repeat' first
    | (with_reducible assumption)
    | (with_reducible (first | apply State.advance_keeps | apply State.safelightWatchdog_keeps | apply keepsOut_ok))
    | (dsimp only)

theorem execSafelightRestartComplete_keeps {s0 : Base} {s : State} (t : Nat) (h : Keeps s0 s) :
    KeepsOut s0 (execSafelightRestartComplete t s) := by
  unfold execSafelightRestartComplete
  repeat' first
    | (with_reducible assumption)
    | (with_reducible (first | apply State.advance_keeps | apply keepsOut_ok))
    | (dsimp only)
    | split
    | rfl
    | (with_reducible refine Keeps.upd ?_ ?_ ?_ ?_)

theorem execBootReset_keeps {s1 : State} {s : State}  (h : Keeps ⟨s1, true⟩ s) :
    KeepsOut ⟨s1, true⟩ (execBootReset s) := by
  unfold execBootReset
  repeat' first
    | (with_reducible assumption)
    | (with_reducible (first | apply State.deviceReset_keeps | apply State.pfWrite_keeps | apply keepsOut_ok))
    | (dsimp only)
    | (intro _ _ _ _)
    | (intro _ _ _)
    | (intro _ _)

theorem execClearFailrun_keeps {s0 : Base} {s : State} (stores : Bool) (h : Keeps s0 s) :
    KeepsOut s0 (execClearFailrun stores s) := by
  unfold execClearFailrun
  repeat' first
    | (with_reducible assumption)
    | (with_reducible (first | apply State.pfWrite_keeps | apply State.writeCounter_keeps | apply keepsOut_ok))
    | (dsimp only)
    | split
    | rfl
    | (intro _ _ _ _)
    | (intro _ _ _)
    | (intro _ _)
    | (with_reducible refine Keeps.upd ?_ ?_ ?_ ?_)

end Sys2Proof.Machine
end

