-- ==== Sys2Proof/Laws/KeepsCondenser.lean ====
section
/-!
SUPPORT. What the operations of Machine/Condenser.lean leave in place.
-/

namespace Sys2Proof.Machine

open Sys2Proof

theorem Eng.compressBlocks_keeps {s0 : Base} {e : Eng} (cls : Nat) (stream : Nat) (table : Nat) (x0 : List (Nat × Nat)) (x1 : Nat) (x2 : Nat) (h : Keeps s0 e.s) :
    Keeps s0 (Eng.compressBlocks e cls stream table x0 x1 x2).2.s := by
  induction x0 generalizing e x1 x2 with
  | nil =>
    unfold Eng.compressBlocks
    repeat' first
      | (with_reducible assumption)
      | (with_reducible (first | apply Eng.read_keeps | apply Eng.writeWhole_keeps))
      | (dsimp only)
      | split
      | rfl
      | (with_reducible refine Keeps.upd ?_ ?_ ?_ ?_)
  | cons hd tl ih =>
    unfold Eng.compressBlocks
    repeat' first
      | (with_reducible apply ih)
      | (with_reducible assumption)
      | (with_reducible (first | apply Eng.read_keeps | apply Eng.writeWhole_keeps))
      | (dsimp only)
      | split
      | rfl
      | (with_reducible refine Keeps.upd ?_ ?_ ?_ ?_)

theorem runCompress_keeps {s0 : Base} {e : Eng} (id : Nat) (r : Line) (h : Keeps s0 e.s) :
    Keeps s0 (runCompress id r e) := by
  unfold runCompress
  repeat' first
    | (with_reducible assumption)
    | (with_reducible (first | apply Eng.compressBlocks_keeps | apply State.finish_keeps | apply Eng.finish_keeps))
    | (dsimp only)

theorem Eng.decompressBlock_keeps {s0 : Base} {e : Eng} (base : Nat) (o1 : Nat) (o2 : Nat) (dst : Nat) (last : Bool) (h : Keeps s0 e.s) :
    Keeps s0 (Eng.decompressBlock e base o1 o2 dst last).2.s := by
  unfold Eng.decompressBlock
  repeat' first
    | (with_reducible assumption)
    | (with_reducible (first | apply Eng.read_keeps | apply Eng.writeWhole_keeps))
    | (dsimp only)
    | split
    | (refine Keeps.snd (by assumption) ?_)
    | (refine Keeps.fst (by assumption) ?_)
    | (refine Eng.snd_keeps (by assumption) ?_)

theorem Eng.decompressBlocks_keeps {s0 : Base} {e : Eng} (base : Nat) (dst : Nat) (x0 : List Nat) (x1 : Nat) (h : Keeps s0 e.s) :
    Keeps s0 (Eng.decompressBlocks e base dst x0 x1).2.s := by
  induction x0 generalizing e dst x1 with
  | nil => unfold Eng.decompressBlocks; exact h
  | cons hd tl ih =>
    cases tl with
    | nil => unfold Eng.decompressBlocks; exact h
    | cons b l =>
      unfold Eng.decompressBlocks
      repeat' first
        | (with_reducible assumption)
        | (with_reducible apply ih)
        | (with_reducible apply Eng.decompressBlock_keeps)
        | (dsimp only)
        | split

theorem runDecompress_keeps {s0 : Base} {e : Eng} (id : Nat) (r : Line) (h : Keeps s0 e.s) :
    Keeps s0 (runDecompress id r e) := by
  unfold runDecompress
  repeat' first
    | (with_reducible assumption)
    | (with_reducible (first | apply Eng.decompressBlocks_keeps | apply State.finish_keeps | apply Eng.finish_keeps | apply Eng.read_keeps))
    | (dsimp only)
    | split
    | (refine Keeps.snd (by assumption) ?_)
    | (refine Keeps.fst (by assumption) ?_)
    | (refine Eng.snd_keeps (by assumption) ?_)

end Sys2Proof.Machine
end

