-- ==== Sys2Proof/Laws/KeepsVector.lean ====
section
/-!
SUPPORT. What the operations of Machine/Vector.lean leave in place.
-/

namespace Sys2Proof.Machine

open Sys2Proof

theorem State.setQ_keeps {s0 : Base} {s : State} (c : Nat) (n : Nat) (v : Nat) (h : Keeps s0 s) :
    Keeps s0 (State.setQ s c n v) := by
  unfold State.setQ
  repeat' first
    | (with_reducible assumption)
    | (with_reducible (first | apply State.setF_keeps))
    | (dsimp only)

theorem semSvArith_keeps {s0 : Base} {s : State} (c : Nat) (w : Word) (h : Keeps s0 s) :
    Keeps s0 (semSvArith c w s).st := by
  unfold semSvArith
  repeat' first
    | (with_reducible assumption)
    | (with_reducible (first | apply State.fpFinish_keeps | apply Eng.read_keeps | apply State.setQ_keeps | apply Res.ok_keeps | apply Res.fault_keeps | apply Res.wait_keeps))
    | (dsimp only)
    | split
    | (refine Keeps.snd (by assumption) ?_)
    | (refine Keeps.fst (by assumption) ?_)
    | (refine Res.of_eq_ok (by assumption) ?_)
    | (refine Res.of_eq_fault (by assumption) ?_)
    | (refine Res.of_eq_wait (by assumption) ?_)
    | (intro _ _ _ _)
    | (intro _ _ _)
    | (intro _ _)

theorem semSvcvt_keeps {s0 : Base} {s : State} (c : Nat) (w : Word) (h : Keeps s0 s) :
    Keeps s0 (semSvcvt c w s).st := by
  unfold semSvcvt
  repeat' first
    | (with_reducible assumption)
    | (with_reducible (first | apply State.fpFinish_keeps | apply Eng.read_keeps | apply State.reserveSr_keeps | apply State.setQ_keeps | apply Res.ok_keeps | apply Res.fault_keeps | apply Res.wait_keeps))
    | (dsimp only)
    | split
    | (refine Res.of_eq_ok (by assumption) ?_)
    | (refine Res.of_eq_fault (by assumption) ?_)
    | (refine Res.of_eq_wait (by assumption) ?_)
    | (intro _ _ _ _)
    | (intro _ _ _)
    | (intro _ _)

theorem semSvshuf_keeps {s0 : Base} {s : State} (c : Nat) (w : Word) (h : Keeps s0 s) :
    Keeps s0 (semSvshuf c w s).st := by
  unfold semSvshuf
  repeat' first
    | (with_reducible assumption)
    | (with_reducible (first | apply State.setQ_keeps | apply Res.ok_keeps | apply Res.fault_keeps | apply Res.wait_keeps))
    | (dsimp only)
    | split
    | (intro _ _ _ _)
    | (intro _ _ _)
    | (intro _ _)

theorem execSvArith_keeps {s0 : Base} {s : State} (c : Nat) (w : Word) (h : Keeps s0 s) :
    KeepsOut s0 (execSvArith c w s) := by
  unfold execSvArith
  repeat' first
    | (with_reducible assumption)
    | (with_reducible (first | apply State.execute_keeps | apply semSvArith_keeps | apply keepsOut_ok))
    | (dsimp only)
    | (refine Res.of_eq_ok (by assumption) ?_)
    | (refine Res.of_eq_fault (by assumption) ?_)
    | (refine Res.of_eq_wait (by assumption) ?_)
    | (intro _ _ _ _)
    | (intro _ _ _)
    | (intro _ _)

theorem execSvcvt_keeps {s0 : Base} {s : State} (c : Nat) (w : Word) (h : Keeps s0 s) :
    KeepsOut s0 (execSvcvt c w s) := by
  unfold execSvcvt
  repeat' first
    | (with_reducible assumption)
    | (with_reducible (first | apply State.execute_keeps | apply semSvcvt_keeps | apply keepsOut_ok))
    | (dsimp only)
    | (refine Res.of_eq_ok (by assumption) ?_)
    | (refine Res.of_eq_fault (by assumption) ?_)
    | (refine Res.of_eq_wait (by assumption) ?_)
    | (intro _ _ _ _)
    | (intro _ _ _)
    | (intro _ _)

theorem execSvshuf_keeps {s0 : Base} {s : State} (c : Nat) (w : Word) (h : Keeps s0 s) :
    KeepsOut s0 (execSvshuf c w s) := by
  unfold execSvshuf
  repeat' first
    | (with_reducible assumption)
    | (with_reducible (first | apply State.execute_keeps | apply semSvshuf_keeps | apply keepsOut_ok))
    | (dsimp only)
    | (refine Res.of_eq_ok (by assumption) ?_)
    | (refine Res.of_eq_fault (by assumption) ?_)
    | (refine Res.of_eq_wait (by assumption) ?_)
    | (intro _ _ _ _)
    | (intro _ _ _)
    | (intro _ _)

theorem State.setGroup_keeps {s0 : Base} {s : State} (c : Nat) (base : Nat) (n : Nat) (x : Nat) (h : Keeps s0 s) :
    Keeps s0 (State.setGroup s c base n x) := by
  unfold State.setGroup
  repeat' first
    | (with_reducible assumption)
    | (with_reducible (first | apply Keeps.foldl | apply State.modRegs_keeps))
    | (dsimp only)
    | rfl
    | (intro _ _ _ _)
    | (intro _ _ _)
    | (intro _ _)
    | (with_reducible refine Keeps.upd ?_ ?_ ?_ ?_)

theorem State.setM_keeps {s0 : Base} {s : State} (c : Nat) (n : Nat) (x : Nat) (h : Keeps s0 s) :
    Keeps s0 (State.setM s c n x) := by
  unfold State.setM
  repeat' first
    | (with_reducible assumption)
    | (with_reducible (first | apply State.modRegs_keeps))
    | (dsimp only)
    | rfl
    | (intro _ _ _ _)
    | (intro _ _ _)
    | (intro _ _)
    | (with_reducible refine Keeps.upd ?_ ?_ ?_ ?_)

theorem State.vecEnd_keeps {s0 : Base} {s : State} (c : Nat) (fl : Nat) (beats : Nat) (h : Keeps s0 s) :
    Keeps s0 (State.vecEnd s c fl beats) := by
  unfold State.vecEnd
  repeat' first
    | (with_reducible assumption)
    | (with_reducible (first | apply State.bump_keeps | apply State.modCtl_keeps))
    | (dsimp only)
    | rfl
    | (intro _ _ _ _)
    | (intro _ _ _)
    | (intro _ _)
    | (with_reducible refine Keeps.upd ?_ ?_ ?_ ?_)

theorem State.vecDone_keeps {s0 : Base} {s : State} (c : Nat) (fl : Nat) (beats : Nat) (h : Keeps s0 s) :
    Keeps s0 (State.vecDone s c fl beats).st := by
  unfold State.vecDone
  repeat' first
    | (with_reducible assumption)
    | (with_reducible (first | apply State.vecEnd_keeps | apply Res.ok_keeps | apply Res.fault_keeps | apply Res.wait_keeps))
    | (dsimp only)

theorem State.vecStart_keeps {s0 : Base} {s : State} (c : Nat) (encoding : Bool) (needShape : Bool) (f : State → Res) (h : Keeps s0 s) (h_f : ∀ (t : State), Keeps s0 t → Keeps s0 (f t).st) :
    Keeps s0 (State.vecStart s c encoding needShape f).st := by
  unfold State.vecStart
  repeat' first
    | (with_reducible assumption)
    | (with_reducible (first | apply Res.ok_keeps | apply Res.fault_keeps | apply Res.wait_keeps | apply h_f))
    | (dsimp only)
    | split
    | (refine Res.of_eq_ok (by assumption) ?_)
    | (refine Res.of_eq_fault (by assumption) ?_)
    | (refine Res.of_eq_wait (by assumption) ?_)

theorem semVint_keeps {s0 : Base} {s : State} (c : Nat) (w : Word) (h : Keeps s0 s) :
    Keeps s0 (semVint c w s).st := by
  unfold semVint
  repeat' first
    | (with_reducible assumption)
    | (with_reducible (first | apply State.setGroup_keeps | apply State.vecDone_keeps | apply State.vecStart_keeps | apply Res.ok_keeps | apply Res.fault_keeps | apply Res.wait_keeps))
    | (dsimp only)
    | split
    | (refine Res.of_eq_ok (by assumption) ?_)
    | (refine Res.of_eq_fault (by assumption) ?_)
    | (refine Res.of_eq_wait (by assumption) ?_)
    | (intro _ _ _ _)
    | (intro _ _ _)
    | (intro _ _)

theorem semVfp_keeps {s0 : Base} {s : State} (c : Nat) (w : Word) (h : Keeps s0 s) :
    Keeps s0 (semVfp c w s).st := by
  unfold semVfp
  repeat' first
    | (with_reducible assumption)
    | (with_reducible (first | apply Eng.read_keeps | apply State.setGroup_keeps | apply State.vecDone_keeps | apply State.vecStart_keeps | apply Res.ok_keeps | apply Res.fault_keeps | apply Res.wait_keeps))
    | (dsimp only)
    | split
    | (refine Res.of_eq_ok (by assumption) ?_)
    | (refine Res.of_eq_fault (by assumption) ?_)
    | (refine Res.of_eq_wait (by assumption) ?_)
    | (intro _ _ _ _)
    | (intro _ _ _)
    | (intro _ _)

theorem semVmaskCompare_keeps {s0 : Base} {s : State} (c : Nat) (w : Word) (h : Keeps s0 s) :
    Keeps s0 (semVmaskCompare c w s).st := by
  unfold semVmaskCompare
  repeat' first
    | (with_reducible assumption)
    | (with_reducible (first | apply Eng.read_keeps | apply State.setM_keeps | apply State.vecDone_keeps | apply State.vecStart_keeps | apply Res.ok_keeps | apply Res.fault_keeps | apply Res.wait_keeps))
    | (dsimp only)
    | split
    | rfl
    | (refine Res.of_eq_ok (by assumption) ?_)
    | (refine Res.of_eq_fault (by assumption) ?_)
    | (refine Res.of_eq_wait (by assumption) ?_)
    | (intro _ _ _ _)
    | (intro _ _ _)
    | (intro _ _)
    | (with_reducible refine Keeps.upd ?_ ?_ ?_ ?_)

theorem semMaskLogic_keeps {s0 : Base} {s : State} (c : Nat) (w : Word) (h : Keeps s0 s) :
    Keeps s0 (semMaskLogic c w s).st := by
  unfold semMaskLogic
  repeat' first
    | (with_reducible assumption)
    | (with_reducible (first | apply State.setM_keeps | apply State.vecDone_keeps | apply State.vecStart_keeps | apply Res.ok_keeps | apply Res.fault_keeps | apply Res.wait_keeps))
    | (dsimp only)
    | split
    | rfl
    | (refine Keeps.snd (by assumption) ?_)
    | (refine Keeps.fst (by assumption) ?_)
    | (refine Res.of_eq_ok (by assumption) ?_)
    | (refine Res.of_eq_fault (by assumption) ?_)
    | (refine Res.of_eq_wait (by assumption) ?_)
    | (intro _ _ _ _)
    | (intro _ _ _)
    | (intro _ _)
    | (with_reducible refine Keeps.upd ?_ ?_ ?_ ?_)

theorem semVmpopc_keeps {s0 : Base} {s : State} (c : Nat) (w : Word) (h : Keeps s0 s) :
    Keeps s0 (semVmpopc c w s).st := by
  unfold semVmpopc
  repeat' first
    | (with_reducible assumption)
    | (with_reducible (first | apply State.setG_keeps | apply State.vecDone_keeps | apply State.vecStart_keeps | apply Res.ok_keeps | apply Res.fault_keeps | apply Res.wait_keeps))
    | (dsimp only)
    | (refine Res.of_eq_ok (by assumption) ?_)
    | (refine Res.of_eq_fault (by assumption) ?_)
    | (refine Res.of_eq_wait (by assumption) ?_)
    | (intro _ _ _ _)
    | (intro _ _ _)
    | (intro _ _)

theorem semVmfirst_keeps {s0 : Base} {s : State} (c : Nat) (w : Word) (h : Keeps s0 s) :
    Keeps s0 (semVmfirst c w s).st := by
  unfold semVmfirst
  repeat' first
    | (with_reducible assumption)
    | (with_reducible (first | apply State.setG_keeps | apply State.vecDone_keeps | apply State.vecStart_keeps | apply Res.ok_keeps | apply Res.fault_keeps | apply Res.wait_keeps))
    | (dsimp only)
    | split
    | (refine Keeps.snd (by assumption) ?_)
    | (refine Keeps.fst (by assumption) ?_)
    | (refine Res.of_eq_ok (by assumption) ?_)
    | (refine Res.of_eq_fault (by assumption) ?_)
    | (refine Res.of_eq_wait (by assumption) ?_)
    | (intro _ _ _ _)
    | (intro _ _ _)
    | (intro _ _)

theorem semVmset_keeps {s0 : Base} {s : State} (c : Nat) (w : Word) (h : Keeps s0 s) :
    Keeps s0 (semVmset c w s).st := by
  unfold semVmset
  repeat' first
    | (with_reducible assumption)
    | (with_reducible (first | apply State.setM_keeps | apply State.vecDone_keeps | apply State.vecStart_keeps | apply Res.ok_keeps | apply Res.fault_keeps | apply Res.wait_keeps))
    | (dsimp only)
    | rfl
    | (refine Res.of_eq_ok (by assumption) ?_)
    | (refine Res.of_eq_fault (by assumption) ?_)
    | (refine Res.of_eq_wait (by assumption) ?_)
    | (intro _ _ _ _)
    | (intro _ _ _)
    | (intro _ _)
    | (with_reducible refine Keeps.upd ?_ ?_ ?_ ?_)

theorem semVsetl_keeps {s0 : Base} {s : State} (c : Nat) (w : Word) (h : Keeps s0 s) :
    Keeps s0 (semVsetl c w s).st := by
  unfold semVsetl
  repeat' first
    | (with_reducible assumption)
    | (with_reducible (first | apply State.modCtl_keeps | apply State.setG_keeps | apply State.vecDone_keeps | apply State.vecStart_keeps | apply Res.ok_keeps | apply Res.fault_keeps | apply Res.wait_keeps))
    | (dsimp only)
    | rfl
    | (refine Res.of_eq_ok (by assumption) ?_)
    | (refine Res.of_eq_fault (by assumption) ?_)
    | (refine Res.of_eq_wait (by assumption) ?_)
    | (intro _ _ _ _)
    | (intro _ _ _)
    | (intro _ _)
    | (with_reducible refine Keeps.upd ?_ ?_ ?_ ?_)

theorem vmiscGroup_keeps {s0 : Base} {s : State} (c : Nat) (w : Word) (fn : Nat) (srcs : List Nat) (apart : List Nat) (nbeats : VCtx → Nat) (f : Core → VCtx → Nat → Nat) (h : Keeps s0 s) :
    Keeps s0 (vmiscGroup c w fn srcs apart nbeats f s).st := by
  unfold vmiscGroup
  repeat' first
    | (with_reducible assumption)
    | (with_reducible (first | apply State.setGroup_keeps | apply State.vecDone_keeps | apply State.vecStart_keeps | apply Res.ok_keeps | apply Res.fault_keeps | apply Res.wait_keeps))
    | (dsimp only)
    | split
    | rfl
    | (refine Res.of_eq_ok (by assumption) ?_)
    | (refine Res.of_eq_fault (by assumption) ?_)
    | (refine Res.of_eq_wait (by assumption) ?_)
    | (intro _ _ _ _)
    | (intro _ _ _)
    | (intro _ _)
    | (with_reducible refine Keeps.upd ?_ ?_ ?_ ?_)

theorem semVmv_keeps {s0 : Base} {s : State} (c : Nat) (w : Word) (h : Keeps s0 s) :
    Keeps s0 (semVmv c w s).st := by
  unfold semVmv
  repeat' first
    | (with_reducible assumption)
    | (with_reducible (first | apply vmiscGroup_keeps | apply Res.ok_keeps | apply Res.fault_keeps | apply Res.wait_keeps))
    | (dsimp only)
    | (refine Res.of_eq_ok (by assumption) ?_)
    | (refine Res.of_eq_fault (by assumption) ?_)
    | (refine Res.of_eq_wait (by assumption) ?_)
    | (intro _ _ _ _)
    | (intro _ _ _)
    | (intro _ _)

theorem semVmvScalar_keeps {s0 : Base} {s : State} (c : Nat) (w : Word) (h : Keeps s0 s) :
    Keeps s0 (semVmvScalar c w s).st := by
  unfold semVmvScalar
  repeat' first
    | (with_reducible assumption)
    | (with_reducible (first | apply vmiscGroup_keeps | apply Res.ok_keeps | apply Res.fault_keeps | apply Res.wait_keeps))
    | (dsimp only)
    | split
    | (refine Res.of_eq_ok (by assumption) ?_)
    | (refine Res.of_eq_fault (by assumption) ?_)
    | (refine Res.of_eq_wait (by assumption) ?_)
    | (intro _ _ _ _)
    | (intro _ _ _)
    | (intro _ _)

theorem semVext_keeps {s0 : Base} {s : State} (c : Nat) (w : Word) (h : Keeps s0 s) :
    Keeps s0 (semVext c w s).st := by
  unfold semVext
  repeat' first
    | (with_reducible assumption)
    | (with_reducible (first | apply State.setF_keeps | apply State.setG_keeps | apply State.vecDone_keeps | apply State.vecStart_keeps | apply Res.ok_keeps | apply Res.fault_keeps | apply Res.wait_keeps))
    | (dsimp only)
    | split
    | (refine Res.of_eq_ok (by assumption) ?_)
    | (refine Res.of_eq_fault (by assumption) ?_)
    | (refine Res.of_eq_wait (by assumption) ?_)
    | (intro _ _ _ _)
    | (intro _ _ _)
    | (intro _ _)

theorem semVslideup_keeps {s0 : Base} {s : State} (c : Nat) (w : Word) (h : Keeps s0 s) :
    Keeps s0 (semVslideup c w s).st := by
  unfold semVslideup
  repeat' first
    | (with_reducible assumption)
    | (with_reducible (first | apply State.setGroup_keeps | apply State.vecDone_keeps | apply State.vecStart_keeps | apply Res.ok_keeps | apply Res.fault_keeps | apply Res.wait_keeps))
    | (dsimp only)
    | split
    | (refine Res.of_eq_ok (by assumption) ?_)
    | (refine Res.of_eq_fault (by assumption) ?_)
    | (refine Res.of_eq_wait (by assumption) ?_)
    | (intro _ _ _ _)
    | (intro _ _ _)
    | (intro _ _)

theorem semVslidedn_keeps {s0 : Base} {s : State} (c : Nat) (w : Word) (h : Keeps s0 s) :
    Keeps s0 (semVslidedn c w s).st := by
  unfold semVslidedn
  repeat' first
    | (with_reducible assumption)
    | (with_reducible (first | apply vmiscGroup_keeps | apply Res.ok_keeps | apply Res.fault_keeps | apply Res.wait_keeps))
    | (dsimp only)
    | split
    | (refine Res.of_eq_ok (by assumption) ?_)
    | (refine Res.of_eq_fault (by assumption) ?_)
    | (refine Res.of_eq_wait (by assumption) ?_)
    | (intro _ _ _ _)
    | (intro _ _ _)
    | (intro _ _)

theorem semVgather_keeps {s0 : Base} {s : State} (c : Nat) (w : Word) (h : Keeps s0 s) :
    Keeps s0 (semVgather c w s).st := by
  unfold semVgather
  repeat' first
    | (with_reducible assumption)
    | (with_reducible (first | apply vmiscGroup_keeps | apply Res.ok_keeps | apply Res.fault_keeps | apply Res.wait_keeps))
    | (dsimp only)
    | split
    | (refine Res.of_eq_ok (by assumption) ?_)
    | (refine Res.of_eq_fault (by assumption) ?_)
    | (refine Res.of_eq_wait (by assumption) ?_)
    | (intro _ _ _ _)
    | (intro _ _ _)
    | (intro _ _)

theorem semVmerge_keeps {s0 : Base} {s : State} (c : Nat) (w : Word) (h : Keeps s0 s) :
    Keeps s0 (semVmerge c w s).st := by
  unfold semVmerge
  repeat' first
    | (with_reducible assumption)
    | (with_reducible (first | apply State.setGroup_keeps | apply State.vecDone_keeps | apply State.vecStart_keeps | apply Res.ok_keeps | apply Res.fault_keeps | apply Res.wait_keeps))
    | (dsimp only)
    | split
    | (refine Res.of_eq_ok (by assumption) ?_)
    | (refine Res.of_eq_fault (by assumption) ?_)
    | (refine Res.of_eq_wait (by assumption) ?_)
    | (intro _ _ _ _)
    | (intro _ _ _)
    | (intro _ _)

theorem semVid_keeps {s0 : Base} {s : State} (c : Nat) (w : Word) (h : Keeps s0 s) :
    Keeps s0 (semVid c w s).st := by
  unfold semVid
  repeat' first
    | (with_reducible assumption)
    | (with_reducible (first | apply vmiscGroup_keeps | apply Res.ok_keeps | apply Res.fault_keeps | apply Res.wait_keeps))
    | (dsimp only)
    | (refine Res.of_eq_ok (by assumption) ?_)
    | (refine Res.of_eq_fault (by assumption) ?_)
    | (refine Res.of_eq_wait (by assumption) ?_)
    | (intro _ _ _ _)
    | (intro _ _ _)
    | (intro _ _)

theorem semVredsum_keeps {s0 : Base} {s : State} (c : Nat) (w : Word) (h : Keeps s0 s) :
    Keeps s0 (semVredsum c w s).st := by
  unfold semVredsum
  repeat' first
    | (with_reducible assumption)
    | (with_reducible (first | apply Keeps.foldl | apply State.setG_keeps | apply State.vecDone_keeps | apply State.vecStart_keeps | apply Res.ok_keeps | apply Res.fault_keeps | apply Res.wait_keeps))
    | (dsimp only)
    | split
    | (refine Res.of_eq_ok (by assumption) ?_)
    | (refine Res.of_eq_fault (by assumption) ?_)
    | (refine Res.of_eq_wait (by assumption) ?_)
    | (intro _ _ _ _)
    | (intro _ _ _)
    | (intro _ _)

theorem semVfredsum_keeps {s0 : Base} {s : State} (c : Nat) (w : Word) (h : Keeps s0 s) :
    Keeps s0 (semVfredsum c w s).st := by
  unfold semVfredsum
  repeat' first
    | (with_reducible assumption)
    | (with_reducible (first | apply Keeps.foldl | apply State.setF_keeps | apply State.vecDone_keeps | apply State.vecStart_keeps | apply Res.ok_keeps | apply Res.fault_keeps | apply Res.wait_keeps))
    | (dsimp only)
    | split
    | (refine Res.of_eq_ok (by assumption) ?_)
    | (refine Res.of_eq_fault (by assumption) ?_)
    | (refine Res.of_eq_wait (by assumption) ?_)
    | (intro _ _ _ _)
    | (intro _ _ _)
    | (intro _ _)

theorem semVfredmaxmin_keeps {s0 : Base} {s : State} (c : Nat) (w : Word) (h : Keeps s0 s) :
    Keeps s0 (semVfredmaxmin c w s).st := by
  unfold semVfredmaxmin
  repeat' first
    | (with_reducible assumption)
    | (with_reducible (first | apply Keeps.foldl | apply State.draw_keeps | apply Eng.read_keeps | apply State.setF_keeps | apply State.vecDone_keeps | apply State.vecStart_keeps | apply Keeps.foldl_snd | apply Keeps.foldl_fst | apply Res.ok_keeps | apply Res.fault_keeps | apply Res.wait_keeps))
    | (dsimp only)
    | split
    | (refine Keeps.snd (by assumption) ?_)
    | (refine Keeps.fst (by assumption) ?_)
    | (refine Res.of_eq_ok (by assumption) ?_)
    | (refine Res.of_eq_fault (by assumption) ?_)
    | (refine Res.of_eq_wait (by assumption) ?_)
    | (intro _ _ _ _)
    | (intro _ _ _)
    | (intro _ _)

theorem execVint_keeps {s0 : Base} {s : State} (c : Nat) (w : Word) (h : Keeps s0 s) :
    KeepsOut s0 (execVint c w s) := by
  unfold execVint
  repeat' first
    | (with_reducible assumption)
    | (with_reducible (first | apply State.execute_keeps | apply semVint_keeps | apply keepsOut_ok))
    | (dsimp only)
    | (refine Res.of_eq_ok (by assumption) ?_)
    | (refine Res.of_eq_fault (by assumption) ?_)
    | (refine Res.of_eq_wait (by assumption) ?_)
    | (intro _ _ _ _)
    | (intro _ _ _)
    | (intro _ _)

theorem execVfp_keeps {s0 : Base} {s : State} (c : Nat) (w : Word) (h : Keeps s0 s) :
    KeepsOut s0 (execVfp c w s) := by
  unfold execVfp
  repeat' first
    | (with_reducible assumption)
    | (with_reducible (first | apply State.execute_keeps | apply semVfp_keeps | apply keepsOut_ok))
    | (dsimp only)
    | (refine Res.of_eq_ok (by assumption) ?_)
    | (refine Res.of_eq_fault (by assumption) ?_)
    | (refine Res.of_eq_wait (by assumption) ?_)
    | (intro _ _ _ _)
    | (intro _ _ _)
    | (intro _ _)

theorem execVmaskCompare_keeps {s0 : Base} {s : State} (c : Nat) (w : Word) (h : Keeps s0 s) :
    KeepsOut s0 (execVmaskCompare c w s) := by
  unfold execVmaskCompare
  repeat' first
    | (with_reducible assumption)
    | (with_reducible (first | apply State.execute_keeps | apply semVmaskCompare_keeps | apply keepsOut_ok))
    | (dsimp only)
    | (refine Res.of_eq_ok (by assumption) ?_)
    | (refine Res.of_eq_fault (by assumption) ?_)
    | (refine Res.of_eq_wait (by assumption) ?_)
    | (intro _ _ _ _)
    | (intro _ _ _)
    | (intro _ _)

theorem execMaskLogic_keeps {s0 : Base} {s : State} (c : Nat) (w : Word) (h : Keeps s0 s) :
    KeepsOut s0 (execMaskLogic c w s) := by
  unfold execMaskLogic
  repeat' first
    | (with_reducible assumption)
    | (with_reducible (first | apply State.execute_keeps | apply semMaskLogic_keeps | apply keepsOut_ok))
    | (dsimp only)
    | (refine Res.of_eq_ok (by assumption) ?_)
    | (refine Res.of_eq_fault (by assumption) ?_)
    | (refine Res.of_eq_wait (by assumption) ?_)
    | (intro _ _ _ _)
    | (intro _ _ _)
    | (intro _ _)

theorem execVmpopc_keeps {s0 : Base} {s : State} (c : Nat) (w : Word) (h : Keeps s0 s) :
    KeepsOut s0 (execVmpopc c w s) := by
  unfold execVmpopc
  repeat' first
    | (with_reducible assumption)
    | (with_reducible (first | apply State.execute_keeps | apply semVmpopc_keeps | apply keepsOut_ok))
    | (dsimp only)
    | (refine Res.of_eq_ok (by assumption) ?_)
    | (refine Res.of_eq_fault (by assumption) ?_)
    | (refine Res.of_eq_wait (by assumption) ?_)
    | (intro _ _ _ _)
    | (intro _ _ _)
    | (intro _ _)

theorem execVmfirst_keeps {s0 : Base} {s : State} (c : Nat) (w : Word) (h : Keeps s0 s) :
    KeepsOut s0 (execVmfirst c w s) := by
  unfold execVmfirst
  repeat' first
    | (with_reducible assumption)
    | (with_reducible (first | apply State.execute_keeps | apply semVmfirst_keeps | apply keepsOut_ok))
    | (dsimp only)
    | (refine Res.of_eq_ok (by assumption) ?_)
    | (refine Res.of_eq_fault (by assumption) ?_)
    | (refine Res.of_eq_wait (by assumption) ?_)
    | (intro _ _ _ _)
    | (intro _ _ _)
    | (intro _ _)

theorem execVmset_keeps {s0 : Base} {s : State} (c : Nat) (w : Word) (h : Keeps s0 s) :
    KeepsOut s0 (execVmset c w s) := by
  unfold execVmset
  repeat' first
    | (with_reducible assumption)
    | (with_reducible (first | apply State.execute_keeps | apply semVmset_keeps | apply keepsOut_ok))
    | (dsimp only)
    | (refine Res.of_eq_ok (by assumption) ?_)
    | (refine Res.of_eq_fault (by assumption) ?_)
    | (refine Res.of_eq_wait (by assumption) ?_)
    | (intro _ _ _ _)
    | (intro _ _ _)
    | (intro _ _)

theorem execVsetl_keeps {s0 : Base} {s : State} (c : Nat) (w : Word) (h : Keeps s0 s) :
    KeepsOut s0 (execVsetl c w s) := by
  unfold execVsetl
  repeat' first
    | (with_reducible assumption)
    | (with_reducible (first | apply State.execute_keeps | apply semVsetl_keeps | apply keepsOut_ok))
    | (dsimp only)
    | (refine Res.of_eq_ok (by assumption) ?_)
    | (refine Res.of_eq_fault (by assumption) ?_)
    | (refine Res.of_eq_wait (by assumption) ?_)
    | (intro _ _ _ _)
    | (intro _ _ _)
    | (intro _ _)

theorem execVmv_keeps {s0 : Base} {s : State} (c : Nat) (w : Word) (h : Keeps s0 s) :
    KeepsOut s0 (execVmv c w s) := by
  unfold execVmv
  repeat' first
    | (with_reducible assumption)
    | (with_reducible (first | apply State.execute_keeps | apply semVmv_keeps | apply keepsOut_ok))
    | (dsimp only)
    | (refine Res.of_eq_ok (by assumption) ?_)
    | (refine Res.of_eq_fault (by assumption) ?_)
    | (refine Res.of_eq_wait (by assumption) ?_)
    | (intro _ _ _ _)
    | (intro _ _ _)
    | (intro _ _)

theorem execVmvScalar_keeps {s0 : Base} {s : State} (c : Nat) (w : Word) (h : Keeps s0 s) :
    KeepsOut s0 (execVmvScalar c w s) := by
  unfold execVmvScalar
  repeat' first
    | (with_reducible assumption)
    | (with_reducible (first | apply State.execute_keeps | apply semVmvScalar_keeps | apply keepsOut_ok))
    | (dsimp only)
    | (refine Res.of_eq_ok (by assumption) ?_)
    | (refine Res.of_eq_fault (by assumption) ?_)
    | (refine Res.of_eq_wait (by assumption) ?_)
    | (intro _ _ _ _)
    | (intro _ _ _)
    | (intro _ _)

theorem execVext_keeps {s0 : Base} {s : State} (c : Nat) (w : Word) (h : Keeps s0 s) :
    KeepsOut s0 (execVext c w s) := by
  unfold execVext
  repeat' first
    | (with_reducible assumption)
    | (with_reducible (first | apply State.execute_keeps | apply semVext_keeps | apply keepsOut_ok))
    | (dsimp only)
    | (refine Res.of_eq_ok (by assumption) ?_)
    | (refine Res.of_eq_fault (by assumption) ?_)
    | (refine Res.of_eq_wait (by assumption) ?_)
    | (intro _ _ _ _)
    | (intro _ _ _)
    | (intro _ _)

theorem execVslideup_keeps {s0 : Base} {s : State} (c : Nat) (w : Word) (h : Keeps s0 s) :
    KeepsOut s0 (execVslideup c w s) := by
  unfold execVslideup
  repeat' first
    | (with_reducible assumption)
    | (with_reducible (first | apply State.execute_keeps | apply semVslideup_keeps | apply keepsOut_ok))
    | (dsimp only)
    | (refine Res.of_eq_ok (by assumption) ?_)
    | (refine Res.of_eq_fault (by assumption) ?_)
    | (refine Res.of_eq_wait (by assumption) ?_)
    | (intro _ _ _ _)
    | (intro _ _ _)
    | (intro _ _)

theorem execVslidedn_keeps {s0 : Base} {s : State} (c : Nat) (w : Word) (h : Keeps s0 s) :
    KeepsOut s0 (execVslidedn c w s) := by
  unfold execVslidedn
  repeat' first
    | (with_reducible assumption)
    | (with_reducible (first | apply State.execute_keeps | apply semVslidedn_keeps | apply keepsOut_ok))
    | (dsimp only)
    | (refine Res.of_eq_ok (by assumption) ?_)
    | (refine Res.of_eq_fault (by assumption) ?_)
    | (refine Res.of_eq_wait (by assumption) ?_)
    | (intro _ _ _ _)
    | (intro _ _ _)
    | (intro _ _)

theorem execVgather_keeps {s0 : Base} {s : State} (c : Nat) (w : Word) (h : Keeps s0 s) :
    KeepsOut s0 (execVgather c w s) := by
  unfold execVgather
  repeat' first
    | (with_reducible assumption)
    | (with_reducible (first | apply State.execute_keeps | apply semVgather_keeps | apply keepsOut_ok))
    | (dsimp only)
    | (refine Res.of_eq_ok (by assumption) ?_)
    | (refine Res.of_eq_fault (by assumption) ?_)
    | (refine Res.of_eq_wait (by assumption) ?_)
    | (intro _ _ _ _)
    | (intro _ _ _)
    | (intro _ _)

theorem execVmerge_keeps {s0 : Base} {s : State} (c : Nat) (w : Word) (h : Keeps s0 s) :
    KeepsOut s0 (execVmerge c w s) := by
  unfold execVmerge
  repeat' first
    | (with_reducible assumption)
    | (with_reducible (first | apply State.execute_keeps | apply semVmerge_keeps | apply keepsOut_ok))
    | (dsimp only)
    | (refine Res.of_eq_ok (by assumption) ?_)
    | (refine Res.of_eq_fault (by assumption) ?_)
    | (refine Res.of_eq_wait (by assumption) ?_)
    | (intro _ _ _ _)
    | (intro _ _ _)
    | (intro _ _)

theorem execVid_keeps {s0 : Base} {s : State} (c : Nat) (w : Word) (h : Keeps s0 s) :
    KeepsOut s0 (execVid c w s) := by
  unfold execVid
  repeat' first
    | (with_reducible assumption)
    | (with_reducible (first | apply State.execute_keeps | apply semVid_keeps | apply keepsOut_ok))
    | (dsimp only)
    | (refine Res.of_eq_ok (by assumption) ?_)
    | (refine Res.of_eq_fault (by assumption) ?_)
    | (refine Res.of_eq_wait (by assumption) ?_)
    | (intro _ _ _ _)
    | (intro _ _ _)
    | (intro _ _)

theorem execVredsum_keeps {s0 : Base} {s : State} (c : Nat) (w : Word) (h : Keeps s0 s) :
    KeepsOut s0 (execVredsum c w s) := by
  unfold execVredsum
  repeat' first
    | (with_reducible assumption)
    | (with_reducible (first | apply State.execute_keeps | apply semVredsum_keeps | apply keepsOut_ok))
    | (dsimp only)
    | (refine Res.of_eq_ok (by assumption) ?_)
    | (refine Res.of_eq_fault (by assumption) ?_)
    | (refine Res.of_eq_wait (by assumption) ?_)
    | (intro _ _ _ _)
    | (intro _ _ _)
    | (intro _ _)

theorem execVfredsum_keeps {s0 : Base} {s : State} (c : Nat) (w : Word) (h : Keeps s0 s) :
    KeepsOut s0 (execVfredsum c w s) := by
  unfold execVfredsum
  repeat' first
    | (with_reducible assumption)
    | (with_reducible (first | apply State.execute_keeps | apply semVfredsum_keeps | apply keepsOut_ok))
    | (dsimp only)
    | (refine Res.of_eq_ok (by assumption) ?_)
    | (refine Res.of_eq_fault (by assumption) ?_)
    | (refine Res.of_eq_wait (by assumption) ?_)
    | (intro _ _ _ _)
    | (intro _ _ _)
    | (intro _ _)

theorem execVfredmaxmin_keeps {s0 : Base} {s : State} (c : Nat) (w : Word) (h : Keeps s0 s) :
    KeepsOut s0 (execVfredmaxmin c w s) := by
  unfold execVfredmaxmin
  repeat' first
    | (with_reducible assumption)
    | (with_reducible (first | apply State.execute_keeps | apply semVfredmaxmin_keeps | apply keepsOut_ok))
    | (dsimp only)
    | (refine Res.of_eq_ok (by assumption) ?_)
    | (refine Res.of_eq_fault (by assumption) ?_)
    | (refine Res.of_eq_wait (by assumption) ?_)
    | (intro _ _ _ _)
    | (intro _ _ _)
    | (intro _ _)

end Sys2Proof.Machine
end

