-- ==== Sys2Proof/Laws/KeepsConvert.lean ====
section
/-!
SUPPORT. What the operations of Machine/Convert.lean leave in place.
-/

namespace Sys2Proof.Machine

open Sys2Proof

theorem State.cvtStart_keeps {s0 : Base} {s : State} (c : Nat) (w : Word) (kind : Nat) (f : State → Res) (h : Keeps s0 s) (h_f : ∀ (t : State), Keeps s0 t → Keeps s0 (f t).st) :
    Keeps s0 (State.cvtStart s c w kind f).st := by
  unfold State.cvtStart
  repeat' first
    | (with_reducible assumption)
    | (with_reducible (first | apply State.vecStart_keeps | apply Res.ok_keeps | apply Res.fault_keeps | apply Res.wait_keeps | apply h_f))
    | (dsimp only)
    | split
    | (refine Res.of_eq_ok (by assumption) ?_)
    | (refine Res.of_eq_fault (by assumption) ?_)
    | (refine Res.of_eq_wait (by assumption) ?_)
    | (intro _ _ _ _)
    | (intro _ _ _)
    | (intro _ _)

theorem convert_keeps {s0 : Base} {s : State} (c : Nat) (w : Word) (kind : Nat) (h : Keeps s0 s) :
    Keeps s0 (convert c w kind s).st := by
  unfold convert
  repeat' first
    | (with_reducible assumption)
    | (with_reducible (first | apply State.cvtStart_keeps | apply State.reserveSr_keeps | apply State.setGroup_keeps | apply State.vecDone_keeps | apply Res.ok_keeps | apply Res.fault_keeps | apply Res.wait_keeps))
    | (dsimp only)
    | split
    | (refine Res.of_eq_ok (by assumption) ?_)
    | (refine Res.of_eq_fault (by assumption) ?_)
    | (refine Res.of_eq_wait (by assumption) ?_)
    | (intro _ _ _ _)
    | (intro _ _ _)
    | (intro _ _)

theorem semCvt_keeps {s0 : Base} {s : State} (c : Nat) (w : Word) (h : Keeps s0 s) :
    Keeps s0 (semCvt c w s).st := by
  unfold semCvt
  repeat' first
    | (with_reducible assumption)
    | (with_reducible (first | apply convert_keeps | apply Res.ok_keeps | apply Res.fault_keeps | apply Res.wait_keeps))
    | (dsimp only)
    | (refine Res.of_eq_ok (by assumption) ?_)
    | (refine Res.of_eq_fault (by assumption) ?_)
    | (refine Res.of_eq_wait (by assumption) ?_)

theorem semCvtT_keeps {s0 : Base} {s : State} (c : Nat) (w : Word) (h : Keeps s0 s) :
    Keeps s0 (semCvtT c w s).st := by
  unfold semCvtT
  repeat' first
    | (with_reducible assumption)
    | (with_reducible (first | apply convert_keeps | apply Res.ok_keeps | apply Res.fault_keeps | apply Res.wait_keeps))
    | (dsimp only)
    | (refine Res.of_eq_ok (by assumption) ?_)
    | (refine Res.of_eq_fault (by assumption) ?_)
    | (refine Res.of_eq_wait (by assumption) ?_)

theorem semMxq_keeps {s0 : Base} {s : State} (c : Nat) (w : Word) (h : Keeps s0 s) :
    Keeps s0 (semMxq c w s).st := by
  unfold semMxq
  try generalize List.range 32 = l32
  repeat' first
    | (with_reducible assumption)
    | (with_reducible (first | apply State.cvtStart_keeps | apply Eng.read_keeps | apply State.reserveSr_keeps | apply State.setGroup_keeps | apply State.vecDone_keeps | apply Res.ok_keeps | apply Res.fault_keeps | apply Res.wait_keeps))
    | (dsimp only)
    | split
    | rfl
    | (refine Res.of_eq_ok (by assumption) ?_)
    | (refine Res.of_eq_fault (by assumption) ?_)
    | (refine Res.of_eq_wait (by assumption) ?_)
    | (intro _ _ _ _)
    | (intro _ _ _)
    | (intro _ _)
    | (with_reducible refine Keeps.upd ?_ ?_ ?_ ?_)

theorem semMxd_keeps {s0 : Base} {s : State} (c : Nat) (w : Word) (h : Keeps s0 s) :
    Keeps s0 (semMxd c w s).st := by
  unfold semMxd
  repeat' first
    | (with_reducible assumption)
    | (with_reducible (first | apply State.cvtStart_keeps | apply State.setGroup_keeps | apply State.vecDone_keeps | apply Res.ok_keeps | apply Res.fault_keeps | apply Res.wait_keeps))
    | (dsimp only)
    | split
    | rfl
    | (refine Res.of_eq_ok (by assumption) ?_)
    | (refine Res.of_eq_fault (by assumption) ?_)
    | (refine Res.of_eq_wait (by assumption) ?_)
    | (intro _ _ _ _)
    | (intro _ _ _)
    | (intro _ _)
    | (with_reducible refine Keeps.upd ?_ ?_ ?_ ?_)

theorem execCvt_keeps {s0 : Base} {s : State} (c : Nat) (w : Word) (h : Keeps s0 s) :
    KeepsOut s0 (execCvt c w s) := by
  unfold execCvt
  repeat' first
    | (with_reducible assumption)
    | (with_reducible (first | apply State.execute_keeps | apply semCvt_keeps | apply keepsOut_ok))
    | (dsimp only)
    | (refine Res.of_eq_ok (by assumption) ?_)
    | (refine Res.of_eq_fault (by assumption) ?_)
    | (refine Res.of_eq_wait (by assumption) ?_)
    | (intro _ _ _ _)
    | (intro _ _ _)
    | (intro _ _)

theorem execCvtT_keeps {s0 : Base} {s : State} (c : Nat) (w : Word) (h : Keeps s0 s) :
    KeepsOut s0 (execCvtT c w s) := by
  unfold execCvtT
  repeat' first
    | (with_reducible assumption)
    | (with_reducible (first | apply State.execute_keeps | apply semCvtT_keeps | apply keepsOut_ok))
    | (dsimp only)
    | (refine Res.of_eq_ok (by assumption) ?_)
    | (refine Res.of_eq_fault (by assumption) ?_)
    | (refine Res.of_eq_wait (by assumption) ?_)
    | (intro _ _ _ _)
    | (intro _ _ _)
    | (intro _ _)

theorem execMxq_keeps {s0 : Base} {s : State} (c : Nat) (w : Word) (h : Keeps s0 s) :
    KeepsOut s0 (execMxq c w s) := by
  unfold execMxq
  repeat' first
    | (with_reducible assumption)
    | (with_reducible (first | apply State.execute_keeps | apply semMxq_keeps | apply keepsOut_ok))
    | (dsimp only)
    | (refine Res.of_eq_ok (by assumption) ?_)
    | (refine Res.of_eq_fault (by assumption) ?_)
    | (refine Res.of_eq_wait (by assumption) ?_)
    | (intro _ _ _ _)
    | (intro _ _ _)
    | (intro _ _)

theorem execMxd_keeps {s0 : Base} {s : State} (c : Nat) (w : Word) (h : Keeps s0 s) :
    KeepsOut s0 (execMxd c w s) := by
  unfold execMxd
  repeat' first
    | (with_reducible assumption)
    | (with_reducible (first | apply State.execute_keeps | apply semMxd_keeps | apply keepsOut_ok))
    | (dsimp only)
    | (refine Res.of_eq_ok (by assumption) ?_)
    | (refine Res.of_eq_fault (by assumption) ?_)
    | (refine Res.of_eq_wait (by assumption) ?_)
    | (intro _ _ _ _)
    | (intro _ _ _)
    | (intro _ _)

end Sys2Proof.Machine
end

