-- ==== Sys2Proof/Laws/KeepsCoreEvents.lean ====
section
/-!
SUPPORT. What the operations of Machine/CoreEvents.lean leave in place.
-/

namespace Sys2Proof.Machine

open Sys2Proof

theorem execStoreAccept_keeps {s0 : Base} {s : State} (c : Nat) (i : Nat) (h : Keeps s0 s) :
    KeepsOut s0 (execStoreAccept c i s) := by
  unfold execStoreAccept
  repeat' first
    | (with_reducible assumption)
    | (with_reducible (first | apply State.acceptSb_keeps | apply keepsOut_ok))
    | (dsimp only)
    | split

theorem State.markL1_keeps {s0 : Base} {s : State} (c : Nat) (a : Nat) (ce : BitVec 8) (ue : BitVec 8) (h : Keeps s0 s) :
    Keeps s0 (State.markL1 s c a ce ue) := by
  unfold State.markL1
  repeat' first
    | (with_reducible assumption)
    | (with_reducible (first | apply State.setL1_keeps))
    | (dsimp only)
    | split
    | rfl
    | (refine Keeps.snd (by assumption) ?_)
    | (refine Keeps.fst (by assumption) ?_)
    | (with_reducible refine Keeps.upd ?_ ?_ ?_ ?_)

theorem State.l1dFill_keeps {s0 : Base} {s : State} (c : Nat) (pa : Nat) (ce : BitVec 8) (ue : BitVec 8) (h : Keeps s0 s) :
    Keeps s0 (State.l1dFill s c pa ce ue) := by
  unfold State.l1dFill
  repeat' first
    | (with_reducible assumption)
    | (with_reducible (first | apply State.faultAt_keeps | apply State.l1Fill_keeps | apply State.markL1_keeps | apply Eng.read_keeps))
    | (dsimp only)
    | split
    | (refine Keeps.snd (by assumption) ?_)
    | (refine Keeps.fst (by assumption) ?_)

theorem execL1dFill_keeps {s0 : Base} {s : State} (c : Nat) (a : Nat) (ce : BitVec 8) (ue : BitVec 8) (h : Keeps s0 s) :
    KeepsOut s0 (execL1dFill c a ce ue s) := by
  unfold execL1dFill
  repeat' first
    | (with_reducible assumption)
    | (with_reducible (first | apply State.l1dFill_keeps | apply keepsOut_ok))
    | (dsimp only)

theorem State.lineFill_keeps {s0 : Base} {s : State} (c : Nat) (a : Nat) (wrongPath : Bool) (late : Bool) (h : Keeps s0 s) :
    Keeps s0 (State.lineFill s c a wrongPath late) := by
  unfold State.lineFill
  repeat' first
    | (with_reducible assumption)
    | (with_reducible (first | apply State.bump_keeps | apply State.faultAt_keeps | apply State.fillLine_keeps))
    | (dsimp only)
    | split
    | (refine Keeps.snd (by assumption) ?_)
    | (refine Keeps.fst (by assumption) ?_)

theorem execInstructionLineFill_keeps {s0 : Base} {s : State} (c : Nat) (a : Nat) (wrongPath : Bool) (late : Bool) (h : Keeps s0 s) :
    KeepsOut s0 (execInstructionLineFill c a wrongPath late s) := by
  unfold execInstructionLineFill
  repeat' first
    | (with_reducible assumption)
    | (with_reducible (first | apply State.lineFill_keeps | apply keepsOut_ok))
    | (dsimp only)

theorem fixqLoads_keeps {s0 : Base} {x2 : State} (c : Nat) (pa : Nat) (x0 : Nat) (x1 : List Byte) (x3 : List Byte → State → Res) (h : Keeps s0 x2) (h_x3 : ∀ (b0 : List Byte) (t : State), Keeps s0 t → Keeps s0 (x3 b0 t).st) :
    Keeps s0 (fixqLoads c pa x0 x1 x2 x3).st := by
  induction x0 generalizing x2 x1 x3 with
  | zero =>
    unfold fixqLoads
    repeat' first
      | (with_reducible assumption)
      | (with_reducible (first | apply Eng.read_keeps | apply State.remoteRead_keeps | apply State.scalarRead_keeps | apply Res.ok_keeps | apply Res.fault_keeps | apply Res.wait_keeps | apply Got.andThen_keeps | apply h_x3))
      | (dsimp only)
      | split
      | (refine Res.of_eq_ok (by assumption) ?_)
      | (refine Res.of_eq_fault (by assumption) ?_)
      | (refine Res.of_eq_wait (by assumption) ?_)
      | (refine Got.of_eq_ok (by assumption) ?_)
      | (refine Got.of_eq_fault (by assumption) ?_)
      | (refine Got.of_eq_wait (by assumption) ?_)
      | (intro _ _ _ _)
      | (intro _ _ _)
      | (intro _ _)
  | succ n ih =>
    unfold fixqLoads
    repeat' first
      | (with_reducible apply ih)
      | (with_reducible assumption)
      | (with_reducible (first | apply Eng.read_keeps | apply State.remoteRead_keeps | apply State.scalarRead_keeps | apply Res.ok_keeps | apply Res.fault_keeps | apply Res.wait_keeps | apply Got.andThen_keeps | apply h_x3))
      | (dsimp only)
      | split
      | (refine Res.of_eq_ok (by assumption) ?_)
      | (refine Res.of_eq_fault (by assumption) ?_)
      | (refine Res.of_eq_wait (by assumption) ?_)
      | (refine Got.of_eq_ok (by assumption) ?_)
      | (refine Got.of_eq_fault (by assumption) ?_)
      | (refine Got.of_eq_wait (by assumption) ?_)
      | (intro _ _ _ _)
      | (intro _ _ _)
      | (intro _ _)

theorem semFixq_keeps {s0 : Base} {s : State} (c : Nat) (w : Word) (h : Keeps s0 s) :
    Keeps s0 (semFixq c w s).st := by
  unfold semFixq
  repeat' first
    | (with_reducible assumption)
    | (with_reducible (first | apply fixqLoads_keeps | apply State.image_keeps | apply State.modSch_keeps | apply Eng.read_keeps | apply Res.ok_keeps | apply Res.fault_keeps | apply Res.wait_keeps))
    | (dsimp only)
    | split
    | rfl
    | (refine Keeps.snd (by assumption) ?_)
    | (refine Keeps.fst (by assumption) ?_)
    | (refine Res.of_eq_ok (by assumption) ?_)
    | (refine Res.of_eq_fault (by assumption) ?_)
    | (refine Res.of_eq_wait (by assumption) ?_)
    | (intro _ _ _ _)
    | (intro _ _ _)
    | (intro _ _)
    | (with_reducible refine Keeps.upd ?_ ?_ ?_ ?_)

theorem execFixq_keeps {s0 : Base} {s : State} (c : Nat) (w : Word) (h : Keeps s0 s) :
    KeepsOut s0 (execFixq c w s) := by
  unfold execFixq
  repeat' first
    | (with_reducible assumption)
    | (with_reducible (first | apply State.execute_keeps | apply semFixq_keeps | apply keepsOut_ok))
    | (dsimp only)
    | (refine Res.of_eq_ok (by assumption) ?_)
    | (refine Res.of_eq_fault (by assumption) ?_)
    | (refine Res.of_eq_wait (by assumption) ?_)
    | (intro _ _ _ _)
    | (intro _ _ _)
    | (intro _ _)

end Sys2Proof.Machine
end

