-- ==== Sys2Proof/Laws/KeepsVectorMem.lean ====
section
/-!
SUPPORT. What the operations of Machine/VectorMem.lean leave in place.
-/

namespace Sys2Proof.Machine

open Sys2Proof

/-- What reading a run of elements gives, as a state. -/
def Run.st : Run → State
  | .done _ s => s
  | .fail _ _ _ s => s
  | .wait s => s

theorem Run.of_eq_done {s0 : Base} {s : State} {r : Run} {l : List Nat} (e : r = .done l s) (h : Keeps s0 r.st) : Keeps s0 s := by
  subst e; exact h
theorem Run.of_eq_fail {s0 : Base} {s : State} {r : Run} {j : Nat} {f : FaultInfo} {l : List Nat} (e : r = .fail j f l s)
    (h : Keeps s0 r.st) : Keeps s0 s := by subst e; exact h
theorem Run.of_eq_wait {s0 : Base} {s : State} {r : Run} (e : r = .wait s) (h : Keeps s0 r.st) : Keeps s0 s := by subst e; exact h
theorem Run.done_keeps {s0 : Base} {s : State} (l : List Nat) (h : Keeps s0 s) : Keeps s0 (Run.done l s).st := h
theorem Run.fail_keeps {s0 : Base} {s : State} (j : Nat) (f : FaultInfo) (l : List Nat) (h : Keeps s0 s) :
    Keeps s0 (Run.fail j f l s).st := h
theorem Run.wait_keeps {s0 : Base} {s : State} (h : Keeps s0 s) : Keeps s0 (Run.wait s).st := h
theorem Got.of_pair_ok {s0 : Base} {s : State} {p : Got × Nat} {b : List Byte} {k : Nat} (e : p = (.ok b s, k)) (h : Keeps s0 p.1.st) :
    Keeps s0 s := by subst e; exact h
theorem Got.of_pair_fault {s0 : Base} {s : State} {p : Got × Nat} {f : FaultInfo} {k : Nat} (e : p = (.fault f s, k))
    (h : Keeps s0 p.1.st) : Keeps s0 s := by subst e; exact h
theorem Got.of_pair_wait {s0 : Base} {s : State} {p : Got × Nat} {k : Nat} (e : p = (.wait s, k)) (h : Keeps s0 p.1.st) :
    Keeps s0 s := by subst e; exact h

theorem State.vecRead_keeps {s0 : Base} {s : State} (c : Nat) (k : Nat) (pa : Nat) (n : Nat) (h : Keeps s0 s) :
    Keeps s0 (State.vecRead s c k pa n).st := by
  unfold State.vecRead
  repeat' first
    | (with_reducible assumption)
    | (with_reducible (first | apply State.coreRead_keeps | apply Eng.read_keeps | apply State.remoteRead_keeps | apply Res.ok_keeps | apply Res.fault_keeps | apply Res.wait_keeps | apply Got.ok_keeps | apply Got.fault_keeps | apply Got.wait_keeps))
    | (dsimp only)
    | split
    | (refine Keeps.snd (by assumption) ?_)
    | (refine Keeps.fst (by assumption) ?_)
    | (refine Got.of_eq_ok (by assumption) ?_)
    | (refine Got.of_eq_fault (by assumption) ?_)
    | (refine Got.of_eq_wait (by assumption) ?_)

theorem readRun_keeps {s0 : Base} {x3 : State} (c : Nat) (x0 : List (Nat × Nat)) (x1 : Nat) (x2 : List Byte) (h : Keeps s0 x3) :
    Keeps s0 (readRun c x0 x1 x2 x3).1.st := by
  induction x0 generalizing x1 x2 x3 with
  | nil => unfold readRun; exact h
  | cons hd tl ih =>
    unfold readRun
    repeat' first
      | (with_reducible assumption)
      | (with_reducible apply ih)
      | (with_reducible (first | apply State.vecRead_keeps))
      | (dsimp only)
      | split
      | (refine Got.of_eq_ok (by assumption) ?_)
      | (with_reducible (first | apply Got.fault_keeps | apply Got.wait_keeps))
      | (refine Got.of_eq_fault (by assumption) ?_)
      | (refine Got.of_eq_wait (by assumption) ?_)

theorem loadElems_keeps {s0 : Base} {s : State} (c : Nat) (k0 : Core) (x : VCtx) (w : Word) (off : Nat → Nat) (l : List Nat) (r : Nat)
    (acc : List Nat) (h : Keeps s0 s) : Keeps s0 (loadElems c k0 x w off l r acc s).st := by
  induction l generalizing s r acc with
  | nil => unfold loadElems; exact h
  | cons hd tl ih =>
    unfold loadElems
    repeat' first
      | (with_reducible assumption)
      | (with_reducible apply ih)
      | (with_reducible (first | apply readRun_keeps | apply Run.fail_keeps | apply Run.wait_keeps))
      | (dsimp only)
      | split
      | (refine Got.of_pair_ok (by assumption) ?_)
      | (refine Got.of_pair_fault (by assumption) ?_)
      | (refine Got.of_pair_wait (by assumption) ?_)

theorem State.vecMemEnd_keeps {s0 : Base} {s : State} (c : Nat) (n : Nat) (h : Keeps s0 s) :
    Keeps s0 (State.vecMemEnd s c n) := by
  unfold State.vecMemEnd
  repeat' first
    | (with_reducible assumption)
    | (with_reducible (first | apply State.bump_keeps | apply State.modCtl_keeps))
    | (dsimp only)
    | rfl
    | (intro _ _ _ _)
    | (intro _ _ _)
    | (intro _ _)
    | (with_reducible refine Keeps.upd ?_ ?_ ?_ ?_)

theorem State.vecMemDone_keeps {s0 : Base} {s : State} (c : Nat) (n : Nat) (h : Keeps s0 s) :
    Keeps s0 (State.vecMemDone s c n).st := by
  unfold State.vecMemDone
  repeat' first
    | (with_reducible assumption)
    | (with_reducible (first | apply State.vecMemEnd_keeps | apply Res.ok_keeps | apply Res.fault_keeps | apply Res.wait_keeps))
    | (dsimp only)

theorem State.vecInterrupt_keeps {s0 : Base} {s : State} (c : Nat) (j : Nat) (f : FaultInfo) (h : Keeps s0 s) :
    Keeps s0 (State.vecInterrupt s c j f).st := by
  unfold State.vecInterrupt
  repeat' first
    | (with_reducible assumption)
    | (with_reducible (first | apply State.modCtl_keeps | apply Res.ok_keeps | apply Res.fault_keeps | apply Res.wait_keeps))
    | (dsimp only)
    | rfl
    | (intro _ _ _ _)
    | (intro _ _ _)
    | (intro _ _)
    | (with_reducible refine Keeps.upd ?_ ?_ ?_ ?_)

theorem State.vmemStart_keeps {s0 : Base} {s : State} (c : Nat) (w : Word) (encoding : Bool) (f : Core → VCtx → Res) (h : Keeps s0 s)
    (hf : ∀ k x, Keeps s0 (f k x).st) : Keeps s0 (State.vmemStart s c w encoding f).st := by
  unfold State.vmemStart
  dsimp only
  repeat' split
  all_goals first
    | exact h
    | exact hf _ _

theorem State.putLoaded_keeps {s0 : Base} {s : State} (c : Nat) (k : Core) (x : VCtx) (w : Word) (from_ : Nat) (l : List Nat) (h : Keeps s0 s) :
    Keeps s0 (State.putLoaded s c k x w from_ l) := by
  unfold State.putLoaded
  repeat' first
    | (with_reducible assumption)
    | (with_reducible (first | apply State.setGroup_keeps | apply State.setM_keeps))
    | (dsimp only)
    | split

theorem runLoad_keeps {s0 : Base} {s : State} (c : Nat) (w : Word) (k : Core) (x : VCtx) (h : Keeps s0 s) :
    Keeps s0 (runLoad c w k x s).st := loadElems_keeps c k x w _ _ _ _ h

theorem semVld_keeps {s0 : Base} {s : State} (c : Nat) (w : Word) (h : Keeps s0 s) :
    Keeps s0 (semVld c w s).st := by
  unfold semVld
  refine State.vmemStart_keeps c w _ _ h (fun k x => ?_)
  have hr := runLoad_keeps c w k x h
  dsimp only
  generalize runLoad c w k x s = r at hr
  repeat' first
    | (with_reducible (first | apply Res.wait_keeps | apply Res.fault_keeps | apply State.vecMemDone_keeps | apply State.vecInterrupt_keeps | apply State.putLoaded_keeps | apply State.modCtl_keeps))
    | exact hr
    | split

theorem semVldFirstFault_keeps {s0 : Base} {s : State} (c : Nat) (w : Word) (h : Keeps s0 s) :
    Keeps s0 (semVldFirstFault c w s).st := by
  unfold semVldFirstFault
  refine State.vmemStart_keeps c w _ _ h (fun k x => ?_)
  have hr := runLoad_keeps c w k x h
  dsimp only
  generalize runLoad c w k x s = r at hr
  repeat' first
    | (with_reducible (first | apply Res.wait_keeps | apply Res.fault_keeps | apply State.vecMemDone_keeps | apply State.vecInterrupt_keeps | apply State.putLoaded_keeps | apply State.modCtl_keeps))
    | exact hr
    | split

theorem semVst_keeps {s0 : Base} {s : State} (c : Nat) (w : Word) (h : Keeps s0 s) :
    Keeps s0 (semVst c w s).st := by
  unfold semVst
  repeat' first
    | (with_reducible assumption)
    | (with_reducible (first | apply State.draw_keeps | apply State.finish_keeps | apply Eng.finish_keeps | apply State.pushSb_keeps | apply State.sbRoom_keeps | apply State.vecInterrupt_keeps | apply State.vecMemDone_keeps | apply State.vmemStart_keeps | apply Res.ok_keeps | apply Res.fault_keeps | apply Res.wait_keeps))
    | (dsimp only)
    | split
    | (refine Keeps.snd (by assumption) ?_)
    | (refine Keeps.fst (by assumption) ?_)
    | (refine Res.of_eq_ok (by assumption) ?_)
    | (refine Res.of_eq_fault (by assumption) ?_)
    | (refine Res.of_eq_wait (by assumption) ?_)
    | (intro _ _ _ _)
    | (intro _ _ _)
    | (intro _ _)

theorem execVld_keeps {s0 : Base} {s : State} (c : Nat) (w : Word) (h : Keeps s0 s) :
    KeepsOut s0 (execVld c w s) := by
  unfold execVld
  repeat' first
    | (with_reducible assumption)
    | (with_reducible (first | apply State.execute_keeps | apply semVld_keeps | apply keepsOut_ok))
    | (dsimp only)
    | (refine Res.of_eq_ok (by assumption) ?_)
    | (refine Res.of_eq_fault (by assumption) ?_)
    | (refine Res.of_eq_wait (by assumption) ?_)
    | (intro _ _ _ _)
    | (intro _ _ _)
    | (intro _ _)

theorem execVldFirstFault_keeps {s0 : Base} {s : State} (c : Nat) (w : Word) (h : Keeps s0 s) :
    KeepsOut s0 (execVldFirstFault c w s) := by
  unfold execVldFirstFault
  repeat' first
    | (with_reducible assumption)
    | (with_reducible (first | apply State.execute_keeps | apply semVldFirstFault_keeps | apply keepsOut_ok))
    | (dsimp only)
    | (refine Res.of_eq_ok (by assumption) ?_)
    | (refine Res.of_eq_fault (by assumption) ?_)
    | (refine Res.of_eq_wait (by assumption) ?_)
    | (intro _ _ _ _)
    | (intro _ _ _)
    | (intro _ _)

theorem execVst_keeps {s0 : Base} {s : State} (c : Nat) (w : Word) (h : Keeps s0 s) :
    KeepsOut s0 (execVst c w s) := by
  unfold execVst
  repeat' first
    | (with_reducible assumption)
    | (with_reducible (first | apply State.execute_keeps | apply semVst_keeps | apply keepsOut_ok))
    | (dsimp only)
    | (refine Res.of_eq_ok (by assumption) ?_)
    | (refine Res.of_eq_fault (by assumption) ?_)
    | (refine Res.of_eq_wait (by assumption) ?_)
    | (intro _ _ _ _)
    | (intro _ _ _)
    | (intro _ _)

theorem State.setT_keeps {s0 : Base} {s : State} (c : Nat) (n : Nat) (x : VReg) (h : Keeps s0 s) :
    Keeps s0 (State.setT s c n x) := by
  unfold State.setT
  repeat' first
    | (with_reducible assumption)
    | (with_reducible (first | apply State.modRegs_keeps))
    | (dsimp only)
    | rfl
    | (intro _ _ _ _)
    | (intro _ _ _)
    | (intro _ _)
    | (with_reducible refine Keeps.upd ?_ ?_ ?_ ?_)

theorem State.setTs_keeps {s0 : Base} {s : State} (c : Nat) (n : Nat) (x : Line) (h : Keeps s0 s) :
    Keeps s0 (State.setTs s c n x) := by
  unfold State.setTs
  repeat' first
    | (with_reducible assumption)
    | (with_reducible (first | apply State.modRegs_keeps))
    | (dsimp only)
    | rfl
    | (intro _ _ _ _)
    | (intro _ _ _)
    | (intro _ _)
    | (with_reducible refine Keeps.upd ?_ ?_ ?_ ?_)

theorem State.setA_keeps {s0 : Base} {s : State} (c : Nat) (n : Nat) (x : VReg) (h : Keeps s0 s) :
    Keeps s0 (State.setA s c n x) := by
  unfold State.setA
  repeat' first
    | (with_reducible assumption)
    | (with_reducible (first | apply State.modRegs_keeps))
    | (dsimp only)
    | rfl
    | (intro _ _ _ _)
    | (intro _ _ _)
    | (intro _ _)
    | (with_reducible refine Keeps.upd ?_ ?_ ?_ ?_)

theorem State.setV_keeps {s0 : Base} {s : State} (c : Nat) (n : Nat) (x : VReg) (h : Keeps s0 s) :
    Keeps s0 (State.setV s c n x) := by
  unfold State.setV
  repeat' first
    | (with_reducible assumption)
    | (with_reducible (first | apply State.modRegs_keeps))
    | (dsimp only)
    | rfl
    | (intro _ _ _ _)
    | (intro _ _ _)
    | (intro _ _)
    | (with_reducible refine Keeps.upd ?_ ?_ ?_ ?_)

theorem readRows_keeps {s0 : Base} {x3 : State} (c : Nat) (k0 : Core) (w : Word) (len : Nat) (x0 : List Nat) (x1 : Nat) (x2 : List Byte) (h : Keeps s0 x3) :
    Keeps s0 (readRows c k0 w len x0 x1 x2 x3).st := by
  induction x0 generalizing x1 x2 x3 with
  | nil => unfold readRows; exact h
  | cons hd tl ih =>
    unfold readRows
    generalize (16 : Nat) = al
    repeat' first
      | (with_reducible assumption)
      | (with_reducible apply ih)
      | (with_reducible (first | apply readRun_keeps | apply Got.fault_keeps | apply Got.wait_keeps))
      | (dsimp only)
      | split
      | (refine Got.of_pair_ok (by assumption) ?_)
      | (refine Got.of_pair_fault (by assumption) ?_)
      | (refine Got.of_pair_wait (by assumption) ?_)

theorem tileLoad_keeps {s0 : Base} {s : State} (c : Nat) (w : Word) (fn : Nat) (n : Nat) (len : Nat) (h : Keeps s0 s) :
    Keeps s0 (tileLoad c w fn n len s).st := by
  unfold tileLoad
  repeat' first
    | (with_reducible assumption)
    | (with_reducible (first | apply State.bump_keeps | apply readRows_keeps | apply State.setT_keeps | apply Res.ok_keeps | apply Res.fault_keeps | apply Res.wait_keeps | apply Got.andThen_keeps))
    | (dsimp only)
    | split
    | (refine Got.of_eq_ok (by assumption) ?_)
    | (refine Got.of_eq_fault (by assumption) ?_)
    | (refine Got.of_eq_wait (by assumption) ?_)
    | (intro _ _ _ _)
    | (intro _ _ _)
    | (intro _ _)

theorem tileStore_keeps {s0 : Base} {s : State} (c : Nat) (w : Word) (fn : Nat) (n : Nat) (len : Nat) (h : Keeps s0 s) :
    Keeps s0 (tileStore c w fn n len s).st := by
  unfold tileStore
  repeat' first
    | (with_reducible assumption)
    | (with_reducible (first | apply State.bump_keeps | apply State.pushSb_keeps | apply State.sbRoom_keeps | apply Res.ok_keeps | apply Res.fault_keeps | apply Res.wait_keeps))
    | (dsimp only)
    | split
    | rfl
    | (refine Keeps.snd (by assumption) ?_)
    | (refine Keeps.fst (by assumption) ?_)
    | (refine Res.of_eq_ok (by assumption) ?_)
    | (refine Res.of_eq_fault (by assumption) ?_)
    | (refine Res.of_eq_wait (by assumption) ?_)
    | (intro _ _ _ _)
    | (intro _ _ _)
    | (intro _ _)
    | (with_reducible refine Keeps.upd ?_ ?_ ?_ ?_)

theorem semTld_keeps {s0 : Base} {s : State} (c : Nat) (w : Word) (h : Keeps s0 s) :
    Keeps s0 (semTld c w s).st := by
  unfold semTld
  repeat' first
    | (with_reducible assumption)
    | (with_reducible (first | apply tileLoad_keeps | apply Res.ok_keeps | apply Res.fault_keeps | apply Res.wait_keeps))
    | (dsimp only)
    | (refine Res.of_eq_ok (by assumption) ?_)
    | (refine Res.of_eq_fault (by assumption) ?_)
    | (refine Res.of_eq_wait (by assumption) ?_)

theorem semTldW_keeps {s0 : Base} {s : State} (c : Nat) (w : Word) (h : Keeps s0 s) :
    Keeps s0 (semTldW c w s).st := by
  unfold semTldW
  repeat' first
    | (with_reducible assumption)
    | (with_reducible (first | apply tileLoad_keeps | apply Res.ok_keeps | apply Res.fault_keeps | apply Res.wait_keeps))
    | (dsimp only)
    | (refine Res.of_eq_ok (by assumption) ?_)
    | (refine Res.of_eq_fault (by assumption) ?_)
    | (refine Res.of_eq_wait (by assumption) ?_)

theorem semTst_keeps {s0 : Base} {s : State} (c : Nat) (w : Word) (h : Keeps s0 s) :
    Keeps s0 (semTst c w s).st := by
  unfold semTst
  repeat' first
    | (with_reducible assumption)
    | (with_reducible (first | apply tileStore_keeps | apply Res.ok_keeps | apply Res.fault_keeps | apply Res.wait_keeps))
    | (dsimp only)
    | (refine Res.of_eq_ok (by assumption) ?_)
    | (refine Res.of_eq_fault (by assumption) ?_)
    | (refine Res.of_eq_wait (by assumption) ?_)

theorem semTstW_keeps {s0 : Base} {s : State} (c : Nat) (w : Word) (h : Keeps s0 s) :
    Keeps s0 (semTstW c w s).st := by
  unfold semTstW
  repeat' first
    | (with_reducible assumption)
    | (with_reducible (first | apply tileStore_keeps | apply Res.ok_keeps | apply Res.fault_keeps | apply Res.wait_keeps))
    | (dsimp only)
    | (refine Res.of_eq_ok (by assumption) ?_)
    | (refine Res.of_eq_fault (by assumption) ?_)
    | (refine Res.of_eq_wait (by assumption) ?_)

theorem semTsld_keeps {s0 : Base} {s : State} (c : Nat) (w : Word) (h : Keeps s0 s) :
    Keeps s0 (semTsld c w s).st := by
  unfold semTsld
  repeat' first
    | (with_reducible assumption)
    | (with_reducible (first | apply State.bump_keeps | apply readRows_keeps | apply State.setTs_keeps | apply Res.ok_keeps | apply Res.fault_keeps | apply Res.wait_keeps | apply Got.andThen_keeps))
    | (dsimp only)
    | split
    | (refine Got.of_eq_ok (by assumption) ?_)
    | (refine Got.of_eq_fault (by assumption) ?_)
    | (refine Got.of_eq_wait (by assumption) ?_)
    | (intro _ _ _ _)
    | (intro _ _ _)
    | (intro _ _)

theorem semTsst_keeps {s0 : Base} {s : State} (c : Nat) (w : Word) (h : Keeps s0 s) :
    Keeps s0 (semTsst c w s).st := by
  unfold semTsst
  repeat' first
    | (with_reducible assumption)
    | (with_reducible (first | apply State.bump_keeps | apply State.pushSb_keeps | apply State.sbRoom_keeps | apply Res.ok_keeps | apply Res.fault_keeps | apply Res.wait_keeps))
    | (dsimp only)
    | split
    | rfl
    | (refine Keeps.snd (by assumption) ?_)
    | (refine Keeps.fst (by assumption) ?_)
    | (refine Res.of_eq_ok (by assumption) ?_)
    | (refine Res.of_eq_fault (by assumption) ?_)
    | (refine Res.of_eq_wait (by assumption) ?_)
    | (intro _ _ _ _)
    | (intro _ _ _)
    | (intro _ _)
    | (with_reducible refine Keeps.upd ?_ ?_ ?_ ?_)

theorem execTld_keeps {s0 : Base} {s : State} (c : Nat) (w : Word) (h : Keeps s0 s) :
    KeepsOut s0 (execTld c w s) := by
  unfold execTld
  repeat' first
    | (with_reducible assumption)
    | (with_reducible (first | apply State.execute_keeps | apply semTld_keeps | apply keepsOut_ok))
    | (dsimp only)
    | (refine Res.of_eq_ok (by assumption) ?_)
    | (refine Res.of_eq_fault (by assumption) ?_)
    | (refine Res.of_eq_wait (by assumption) ?_)
    | (intro _ _ _ _)
    | (intro _ _ _)
    | (intro _ _)

theorem execTldW_keeps {s0 : Base} {s : State} (c : Nat) (w : Word) (h : Keeps s0 s) :
    KeepsOut s0 (execTldW c w s) := by
  unfold execTldW
  repeat' first
    | (with_reducible assumption)
    | (with_reducible (first | apply State.execute_keeps | apply semTldW_keeps | apply keepsOut_ok))
    | (dsimp only)
    | (refine Res.of_eq_ok (by assumption) ?_)
    | (refine Res.of_eq_fault (by assumption) ?_)
    | (refine Res.of_eq_wait (by assumption) ?_)
    | (intro _ _ _ _)
    | (intro _ _ _)
    | (intro _ _)

theorem execTst_keeps {s0 : Base} {s : State} (c : Nat) (w : Word) (h : Keeps s0 s) :
    KeepsOut s0 (execTst c w s) := by
  unfold execTst
  repeat' first
    | (with_reducible assumption)
    | (with_reducible (first | apply State.execute_keeps | apply semTst_keeps | apply keepsOut_ok))
    | (dsimp only)
    | (refine Res.of_eq_ok (by assumption) ?_)
    | (refine Res.of_eq_fault (by assumption) ?_)
    | (refine Res.of_eq_wait (by assumption) ?_)
    | (intro _ _ _ _)
    | (intro _ _ _)
    | (intro _ _)

theorem execTstW_keeps {s0 : Base} {s : State} (c : Nat) (w : Word) (h : Keeps s0 s) :
    KeepsOut s0 (execTstW c w s) := by
  unfold execTstW
  repeat' first
    | (with_reducible assumption)
    | (with_reducible (first | apply State.execute_keeps | apply semTstW_keeps | apply keepsOut_ok))
    | (dsimp only)
    | (refine Res.of_eq_ok (by assumption) ?_)
    | (refine Res.of_eq_fault (by assumption) ?_)
    | (refine Res.of_eq_wait (by assumption) ?_)
    | (intro _ _ _ _)
    | (intro _ _ _)
    | (intro _ _)

theorem execTsld_keeps {s0 : Base} {s : State} (c : Nat) (w : Word) (h : Keeps s0 s) :
    KeepsOut s0 (execTsld c w s) := by
  unfold execTsld
  repeat' first
    | (with_reducible assumption)
    | (with_reducible (first | apply State.execute_keeps | apply semTsld_keeps | apply keepsOut_ok))
    | (dsimp only)
    | (refine Res.of_eq_ok (by assumption) ?_)
    | (refine Res.of_eq_fault (by assumption) ?_)
    | (refine Res.of_eq_wait (by assumption) ?_)
    | (intro _ _ _ _)
    | (intro _ _ _)
    | (intro _ _)

theorem execTsst_keeps {s0 : Base} {s : State} (c : Nat) (w : Word) (h : Keeps s0 s) :
    KeepsOut s0 (execTsst c w s) := by
  unfold execTsst
  repeat' first
    | (with_reducible assumption)
    | (with_reducible (first | apply State.execute_keeps | apply semTsst_keeps | apply keepsOut_ok))
    | (dsimp only)
    | (refine Res.of_eq_ok (by assumption) ?_)
    | (refine Res.of_eq_fault (by assumption) ?_)
    | (refine Res.of_eq_wait (by assumption) ?_)
    | (intro _ _ _ _)
    | (intro _ _ _)
    | (intro _ _)

end Sys2Proof.Machine
end

