-- ==== Sys2Proof/Laws/KeepsCustom.lean ====
section
/-!
SUPPORT. What the operations of Machine/Custom.lean leave in place.
-/

namespace Sys2Proof.Machine

open Sys2Proof

theorem Res.ite_keeps {s0 : Base} {p : Prop} [Decidable p] {a b : Res} (h : Keeps s0 a.st) (k : Keeps s0 b.st) :
    Keeps s0 (if p then a else b).st := by
  split <;> assumption

theorem microSem_keeps {s0 : Base} {s : State} (c : Nat) (w : Word) (h : Keeps s0 s) :
    Keeps s0 (microSem c w s).st := by
  unfold microSem
  dsimp only
  generalize major w = m
  generalize fFunc w = f
  generalize fAmode w = md
  generalize fKind w = kd
  repeat' first
    | (with_reducible assumption)
    | (with_reducible (first | apply semAfromv_keeps | apply semAlu_keeps | apply semAred_keeps | apply semAzero_keeps | apply semCvt_keeps | apply semCvtT_keeps | apply semFkind_keeps | apply semFmaOp_keeps | apply semFmovf_keeps | apply semFmovg_keeps | apply semFnarrow_keeps | apply semFpCompare_keeps | apply semFpOp_keeps | apply semFtoi_keeps | apply semFwiden_keeps | apply semImm_keeps | apply semItof_keeps | apply semLoad_keeps | apply semMaskLogic_keeps | apply semMop_keeps | apply semMulDiv_keeps | apply semMxd_keeps | apply semMxq_keeps | apply semStore_keeps | apply semSvArith_keeps | apply semSvcvt_keeps | apply semSvshuf_keeps | apply semTfromv_keeps | apply semTld_keeps | apply semTldW_keeps | apply semTsfromv_keeps | apply semTsld_keeps | apply semTsst_keeps | apply semTst_keeps | apply semTstW_keeps | apply semVext_keeps | apply semVfp_keeps | apply semVfredmaxmin_keeps | apply semVfredsum_keeps | apply semVfroma_keeps | apply semVfromt_keeps | apply semVfromts_keeps | apply semVgather_keeps | apply semVid_keeps | apply semVint_keeps | apply semVld_keeps | apply semVldFirstFault_keeps | apply semVmaskCompare_keeps | apply semVmerge_keeps | apply semVmfirst_keeps | apply semVmpopc_keeps | apply semVmset_keeps | apply semVmv_keeps | apply semVmvScalar_keeps | apply semVredsum_keeps | apply semVsetl_keeps | apply semVslidedn_keeps | apply semVslideup_keeps | apply semVst_keeps | apply Res.ite_keeps | apply Res.ok_keeps | apply Res.fault_keeps | apply Res.wait_keeps))
    | (dsimp only)
    | split
    | (refine Keeps.snd (by assumption) ?_)
    | (refine Keeps.fst (by assumption) ?_)
    | (refine Res.of_eq_ok (by assumption) ?_)
    | (refine Res.of_eq_fault (by assumption) ?_)
    | (refine Res.of_eq_wait (by assumption) ?_)

theorem runUops_keeps {s0 : Base} {x2 : State} (c : Nat) (w : Word) (uops : List MicroOp) (x0 : Nat) (x1 : Nat) (h : Keeps s0 x2) :
    Keeps s0 (runUops c w uops x0 x1 x2).st := by
  induction x0 generalizing x2 x1 with
  | zero =>
    unfold runUops
    repeat' first
      | (with_reducible assumption)
      | (with_reducible (first | apply State.bump_keeps | apply State.endRemote_keeps | apply microSem_keeps | apply State.modCtl_keeps | apply Res.ok_keeps | apply Res.fault_keeps | apply Res.wait_keeps))
      | (dsimp only)
      | split
      | rfl
      | (refine Keeps.snd (by assumption) ?_)
      | (refine Keeps.fst (by assumption) ?_)
      | (refine Res.of_eq_ok (by assumption) ?_)
      | (refine Res.of_eq_fault (by assumption) ?_)
      | (refine Res.of_eq_wait (by assumption) ?_)
      | (intro _ _ _ _)
      | (intro _ _ _)
      | (intro _ _)
      | (with_reducible refine Keeps.upd ?_ ?_ ?_ ?_)
  | succ n ih =>
    unfold runUops
    repeat' first
      | (with_reducible apply ih)
      | (with_reducible assumption)
      | (with_reducible (first | apply State.bump_keeps | apply State.endRemote_keeps | apply microSem_keeps | apply State.modCtl_keeps | apply Res.ok_keeps | apply Res.fault_keeps | apply Res.wait_keeps))
      | (dsimp only)
      | split
      | rfl
      | (refine Keeps.snd (by assumption) ?_)
      | (refine Keeps.fst (by assumption) ?_)
      | (refine Res.of_eq_ok (by assumption) ?_)
      | (refine Res.of_eq_fault (by assumption) ?_)
      | (refine Res.of_eq_wait (by assumption) ?_)
      | (intro _ _ _ _)
      | (intro _ _ _)
      | (intro _ _)
      | (with_reducible refine Keeps.upd ?_ ?_ ?_ ?_)

theorem semCustom_keeps {s0 : Base} {s : State} (c : Nat) (w : Word) (h : Keeps s0 s) :
    Keeps s0 (semCustom c w s).st := by
  unfold semCustom
  try generalize List.range 32 = l32
  repeat' first
    | (with_reducible assumption)
    | (with_reducible (first | apply runUops_keeps | apply Res.ok_keeps | apply Res.fault_keeps | apply Res.wait_keeps))
    | (dsimp only)
    | split
    | (refine Keeps.snd (by assumption) ?_)
    | (refine Keeps.fst (by assumption) ?_)
    | (refine Res.of_eq_ok (by assumption) ?_)
    | (refine Res.of_eq_fault (by assumption) ?_)
    | (refine Res.of_eq_wait (by assumption) ?_)
    | (intro _ _ _ _)
    | (intro _ _ _)
    | (intro _ _)

theorem execCustomInstruction_keeps {s0 : Base} {s : State} (c : Nat) (w : Word) (h : Keeps s0 s) :
    KeepsOut s0 (execCustomInstruction c w s) := by
  unfold execCustomInstruction
  repeat' first
    | (with_reducible assumption)
    | (with_reducible (first | apply State.execute_keeps | apply semCustom_keeps | apply keepsOut_ok))
    | (dsimp only)
    | (refine Res.of_eq_ok (by assumption) ?_)
    | (refine Res.of_eq_fault (by assumption) ?_)
    | (refine Res.of_eq_wait (by assumption) ?_)
    | (intro _ _ _ _)
    | (intro _ _ _)
    | (intro _ _)

end Sys2Proof.Machine
end

