-- ==== Sys2Proof/Laws/KeepsErrors.lean ====
section
/-!
SUPPORT. What the operations of Machine/Errors.lean leave in place.
-/

namespace Sys2Proof.Machine

open Sys2Proof

theorem State.holdNow_keeps {s0 : Base} {s : State} (p : Nat) (h : Keeps s0 s) :
    Keeps s0 (State.holdNow s p) := by
  unfold State.holdNow
  repeat' first
    | (with_reducible assumption)
    | (with_reducible (first | apply State.enterHeld_keeps | apply State.leaveLoading_keeps | apply State.migFail_keeps))
    | (dsimp only)
    | split
    | (refine Keeps.snd (by assumption) ?_)
    | (refine Keeps.fst (by assumption) ?_)

theorem State.portsDark_keeps {s0 : Base} {s : State} (l : List Nat) (h : Keeps s0 s) :
    Keeps s0 (State.portsDark s l) := by
  unfold State.portsDark
  repeat' first
    | (with_reducible assumption)
    | (with_reducible (first | apply Keeps.foldl | apply State.portDown_keeps))
    | (dsimp only)
    | (intro _ _ _ _)
    | (intro _ _ _)
    | (intro _ _)

theorem State.parity_keeps {s0 : Base} {s : State} (kind : Nat) (unit : Nat) (h : Keeps s0 s) :
    Keeps s0 (State.parity s kind unit) := by
  unfold State.parity
  try generalize List.range 16 = l16
  repeat' first
    | (with_reducible assumption)
    | (with_reducible (first | apply Keeps.foldl | apply State.holdNow_keeps | apply State.logErr_keeps | apply State.portsDark_keeps))
    | (dsimp only)
    | split
    | rfl
    | (intro _ _ _ _)
    | (intro _ _ _)
    | (intro _ _)
    | (with_reducible refine Keeps.upd ?_ ?_ ?_ ?_)

theorem execParityError_keeps {s0 : Base} {s : State} (kind : Nat) (unit : Nat) (t : Nat) (h : Keeps s0 s) :
    KeepsOut s0 (execParityError kind unit t s) := by
  unfold execParityError
  repeat' first
    | (with_reducible assumption)
    | (with_reducible (first | apply State.advance_keeps | apply State.parity_keeps | apply keepsOut_ok))
    | (dsimp only)

theorem State.edgeFails_keeps {s0 : Base} {s : State} (e : Nat) (ports : List Nat) (h : Keeps s0 s) :
    Keeps s0 (State.edgeFails s e ports) := by
  unfold State.edgeFails
  repeat' first
    | (with_reducible assumption)
    | (with_reducible (first | apply State.logErr_keeps | apply State.portsDark_keeps))
    | (dsimp only)
    | split
    | rfl
    | (with_reducible refine Keeps.upd ?_ ?_ ?_ ?_)

theorem execMeshEdgeFailure_keeps {s0 : Base} {s : State} (e : Nat) (ports : List Nat) (t : Nat) (h : Keeps s0 s) :
    KeepsOut s0 (execMeshEdgeFailure e ports t s) := by
  unfold execMeshEdgeFailure
  repeat' first
    | (with_reducible assumption)
    | (with_reducible (first | apply State.advance_keeps | apply State.edgeFails_keeps | apply keepsOut_ok))
    | (dsimp only)

theorem execMeshFlitRetry_keeps {s0 : Base} {s : State} (e : Nat) (t : Nat) (h : Keeps s0 s) :
    KeepsOut s0 (execMeshFlitRetry e t s) := by
  unfold execMeshFlitRetry
  repeat' first
    | (with_reducible assumption)
    | (with_reducible (first | apply State.advance_keeps | apply State.logErr_keeps | apply keepsOut_ok))
    | (dsimp only)
    | rfl
    | (with_reducible refine Keeps.upd ?_ ?_ ?_ ?_)

theorem State.flashLog_keeps {s0 : Base} {s : State} (stores : Bool) (h : Keeps s0 s) :
    Keeps s0 (State.flashLog s stores) := by
  unfold State.flashLog
  repeat' first
    | (with_reducible assumption)
    | (dsimp only)
    | split
    | rfl
    | (refine Keeps.snd (by assumption) ?_)
    | (refine Keeps.fst (by assumption) ?_)
    | (with_reducible refine Keeps.upd ?_ ?_ ?_ ?_)

theorem execFlashLogWrite_keeps {s0 : Base} {s : State} (stores : Bool) (h : Keeps s0 s) :
    KeepsOut s0 (execFlashLogWrite stores s) := by
  unfold execFlashLogWrite
  repeat' first
    | (with_reducible assumption)
    | (with_reducible (first | apply State.flashLog_keeps | apply keepsOut_ok))
    | (dsimp only)

end Sys2Proof.Machine
end

