-- ==== Sys2Proof/Laws/KeepsReal.lean ====
section
/-!
SUPPORT. What the operations of Machine/Real.lean leave in place.
-/

namespace Sys2Proof.Machine

open Sys2Proof

end Sys2Proof.Machine
end

