-- ==== Sys2Proof/Laws/KeepsFixer.lean ====
section
/-!
SUPPORT. What the operations of Machine/Fixer.lean leave in place.
-/

namespace Sys2Proof.Machine

open Sys2Proof

theorem FixRun.foldl_keeps {α : Type} {s0 : Base} {f : FixRun → α → FixRun} {l : List α} {x : FixRun} (h : Keeps s0 x.e.s)
    (hf : ∀ t a, Keeps s0 t.e.s → Keeps s0 (f t a).e.s) : Keeps s0 (l.foldl f x).e.s := by
  induction l generalizing x with
  | nil => exact h
  | cons a l ih => exact ih (hf x a h)

theorem Eng.source_keeps {s0 : Base} {e : Eng} (b : List Byte) (x : FixSrc) (i : Nat) (h : Keeps s0 e.s) :
    Keeps s0 (Eng.source e b x i).2.2.s := by
  unfold Eng.source
  repeat' first
    | (with_reducible assumption)
    | (with_reducible (first | apply Keeps.foldl | apply Eng.read_keeps | apply Eng.readOpen_keeps | apply Keeps.foldl_snd | apply Keeps.foldl_fst | apply Eng.foldl_keeps | apply Eng.foldl_snd_keeps))
    | (dsimp only)
    | split
    | rfl
    | (refine Keeps.snd (by assumption) ?_)
    | (refine Keeps.fst (by assumption) ?_)
    | (refine Eng.snd_keeps (by assumption) ?_)
    | (intro _ _ _ _)
    | (intro _ _ _)
    | (intro _ _)
    | (with_reducible refine Keeps.upd ?_ ?_ ?_ ?_)

theorem fixOperand_keeps {s0 : Base} {e : Eng} (blk : List Byte) (use : Bool) (scalar : Bool) (val : Nat) (x : FixSrc) (i : Nat) (h : Keeps s0 e.s) :
    Keeps s0 (fixOperand blk use scalar val x i e).2.2.s := by
  unfold fixOperand
  repeat' first
    | (with_reducible assumption)
    | (with_reducible (first | apply Eng.source_keeps))
    | (dsimp only)
    | split

theorem FixRun.element_keeps {s0 : Base} {r : FixRun} (rec : Line) (blk : List Byte) (draws : List (List Dword)) (i : Nat) (h : Keeps s0 r.e.s) :
    Keeps s0 (FixRun.element r rec blk draws i).e.s := by
  unfold FixRun.element
  repeat' first
    | (with_reducible assumption)
    | (with_reducible (first | apply fixOperand_keeps | apply Eng.source_keeps | apply Eng.writeNoted_keeps))
    | (dsimp only)
    | split
    | rfl
    | (with_reducible refine Keeps.upd ?_ ?_ ?_ ?_)

theorem runFix_keeps {s0 : Base} {e : Eng} (id : Nat) (r : Line) (h : Keeps s0 e.s) :
    Keeps s0 (runFix id r e) := by
  unfold runFix
  repeat' first
    | (with_reducible assumption)
    | (with_reducible (first | apply Keeps.foldl | apply FixRun.element_keeps | apply State.finish_keeps | apply Eng.finish_keeps | apply Eng.read_keeps | apply State.reserve_keeps | apply Eng.write_keeps | apply Keeps.foldl_snd | apply Keeps.foldl_fst | apply Eng.foldl_keeps | apply Eng.foldl_snd_keeps | apply FixRun.foldl_keeps))
    | (dsimp only)
    | split
    | rfl
    | (refine Keeps.snd (by assumption) ?_)
    | (refine Keeps.fst (by assumption) ?_)
    | (refine Eng.snd_keeps (by assumption) ?_)
    | (intro _ _ _ _)
    | (intro _ _ _)
    | (intro _ _)
    | (with_reducible refine Keeps.upd ?_ ?_ ?_ ?_)

theorem execFixTensor_keeps {s0 : Base} {s : State} (p : Nat) (id : Nat) (h : Keeps s0 s) :
    KeepsOut s0 (execFixTensor p id s) := by
  unfold execFixTensor
  repeat' first
    | (with_reducible assumption)
    | (with_reducible (first | apply State.runEngine_keeps | apply runFix_keeps | apply keepsOut_ok))
    | (dsimp only)
    | (intro _ _ _ _)
    | (intro _ _ _)
    | (intro _ _)

end Sys2Proof.Machine
end

