-- ==== Sys2Proof/Laws/KeepsFwu.lean ====
section
/-!
SUPPORT. What the operations of Machine/Fwu.lean leave in place.
-/

namespace Sys2Proof.Machine

open Sys2Proof

theorem State.fwuAnswer_keeps {s0 : Base} {s : State} (code : Nat) (detail : Nat) (h : Keeps s0 s) :
    Keeps s0 (State.fwuAnswer s code detail) := by
  unfold State.fwuAnswer
  repeat' first
    | (with_reducible assumption)
    | (with_reducible (first | apply State.fwuEvent_keeps))
    | (dsimp only)
    | rfl
    | (with_reducible refine Keeps.upd ?_ ?_ ?_ ?_)

theorem State.fwuHeard_keeps {s0 : Base} {s : State}  (h : Keeps s0 s) :
    Keeps s0 (State.fwuHeard s) := by
  unfold State.fwuHeard
  repeat' first
    | (with_reducible assumption)
    | (dsimp only)
    | rfl
    | (with_reducible refine Keeps.upd ?_ ?_ ?_ ?_)

theorem State.fwuBegin_keeps {s0 : Base} {s : State} (path : Nat) (session : Nat) (len : Nat) (h : Keeps s0 s) :
    Keeps s0 (State.fwuBegin s path session len).2 := by
  unfold State.fwuBegin
  repeat' first
    | (with_reducible assumption)
    | (with_reducible (first | apply State.eraseFlash_keeps))
    | (dsimp only)
    | split
    | rfl
    | (with_reducible refine Keeps.upd ?_ ?_ ?_ ?_)

theorem State.requestData_keeps {s0 : Base} {s : State}  (h : Keeps s0 s) :
    Keeps s0 (State.requestData s) := by
  unfold State.requestData
  repeat' first
    | (with_reducible assumption)
    | (with_reducible (first | apply State.emit_keeps))
    | (dsimp only)

theorem execEraseComplete_keeps {s0 : Base} {s : State} (t : Nat) (h : Keeps s0 s) :
    KeepsOut s0 (execEraseComplete t s) := by
  unfold execEraseComplete
  repeat' first
    | (with_reducible assumption)
    | (with_reducible (first | apply State.advance_keeps | apply State.eraseFlash_keeps | apply State.requestData_keeps | apply keepsOut_ok))
    | (dsimp only)
    | split
    | rfl
    | (with_reducible refine Keeps.upd ?_ ?_ ?_ ?_)

theorem State.drawBytes_keeps {s0 : Base} {s : State} (n : Nat) (h : Keeps s0 s) :
    Keeps s0 (State.drawBytes s n).2 := by
  unfold State.drawBytes
  exact Keeps.draw n h

theorem State.putBlock_keeps {s0 : Base} {s : State} (off : Nat) (data : List Byte) (stores : Bool) (h : Keeps s0 s) :
    Keeps s0 (State.putBlock s off data stores).2 := by
  unfold State.putBlock
  repeat' first
    | (with_reducible assumption)
    | (with_reducible (first | apply State.drawBytes_keeps | apply State.eraseFlash_keeps | apply State.program_keeps))
    | (dsimp only)
    | split
    | rfl
    | (intro _ _ _ _)
    | (intro _ _ _)
    | (intro _ _)
    | (with_reducible refine Keeps.upd ?_ ?_ ?_ ?_)

theorem State.fwuWriteBlock_keeps {s0 : Base} {s : State} (stores : Bool) (h : Keeps s0 s) :
    Keeps s0 (State.fwuWriteBlock s stores).2 := by
  unfold State.fwuWriteBlock
  repeat' first
    | (with_reducible assumption)
    | (with_reducible (first | apply State.fwuHeard_keeps | apply State.putBlock_keeps))
    | (dsimp only)
    | split

theorem State.fwuVerify_keeps {s0 : Base} {s : State} (path : Nat) (h : Keeps s0 s) :
    Keeps s0 (State.fwuVerify s path).2 := by
  unfold State.fwuVerify
  repeat' first
    | (with_reducible assumption)
    | (with_reducible (first | apply State.fwuHeard_keeps))
    | (dsimp only)
    | split
    | rfl
    | (with_reducible refine Keeps.upd ?_ ?_ ?_ ?_)

theorem State.verifyDone_keeps {s0 : Base} {s : State}  (h : Keeps s0 s) :
    Keeps s0 (State.verifyDone s) := by
  unfold State.verifyDone
  repeat' first
    | (with_reducible assumption)
    | (with_reducible (first | apply State.emit_keeps | apply State.fwuAnswer_keeps | apply State.fwuEvent_keeps))
    | (dsimp only)
    | split
    | rfl
    | (with_reducible refine Keeps.upd ?_ ?_ ?_ ?_)

theorem execVerifyComplete_keeps {s0 : Base} {s : State} (t : Nat) (h : Keeps s0 s) :
    KeepsOut s0 (execVerifyComplete t s) := by
  unfold execVerifyComplete
  repeat' first
    | (with_reducible assumption)
    | (with_reducible (first | apply State.advance_keeps | apply State.verifyDone_keeps | apply keepsOut_ok))
    | (dsimp only)
    | split

theorem State.fwuActivate_keeps {s0 : Base} {s : State} (path : Nat) (autoconf : Bool) (reset : Bool) (stores : Bool) (h : Keeps s0 s) :
    Keeps s0 (State.fwuActivate s path autoconf reset stores).2 := by
  unfold State.fwuActivate
  repeat' first
    | (with_reducible assumption)
    | (with_reducible (first | apply State.fwuEvent_keeps | apply State.fwuHeard_keeps | apply State.reserveAssent_keeps | apply State.returnAssent_keeps | apply State.useAssent_keeps | apply State.writeSelector_keeps))
    | (dsimp only)
    | split
    | rfl
    | (refine Keeps.snd (by assumption) ?_)
    | (refine Keeps.fst (by assumption) ?_)
    | (with_reducible refine Keeps.upd ?_ ?_ ?_ ?_)

theorem execActivateReset_keeps {s1 : State} {s : State}  (h : Keeps ⟨s1, true⟩ s) :
    KeepsOut ⟨s1, true⟩ (execActivateReset s) := by
  unfold execActivateReset
  repeat' first
    | (with_reducible assumption)
    | (with_reducible (first | apply State.advance_keeps | apply State.deviceReset_keeps | apply keepsOut_ok))
    | (dsimp only)
    | split
    | (refine Keeps.snd (by assumption) ?_)
    | (refine Keeps.fst (by assumption) ?_)

theorem State.fwuEnd_keeps {s0 : Base} {s : State}  (h : Keeps s0 s) :
    Keeps s0 (State.fwuEnd s) := by
  unfold State.fwuEnd
  repeat' first
    | (with_reducible assumption)
    | (with_reducible (first | apply State.dropImage_keeps | apply State.fwuEvent_keeps))
    | (dsimp only)
    | rfl
    | (with_reducible refine Keeps.upd ?_ ?_ ?_ ?_)

theorem State.fwuAbort_keeps {s0 : Base} {s : State} (path : Nat) (h : Keeps s0 s) :
    Keeps s0 (State.fwuAbort s path).2 := by
  unfold State.fwuAbort
  repeat' first
    | (with_reducible assumption)
    | (with_reducible (first | apply State.fwuEnd_keeps))
    | (dsimp only)
    | split

theorem State.fwuConfirm_keeps {s0 : Base} {s : State} (stores : Bool) (bad : Option Nat) (h : Keeps s0 s) :
    Keeps s0 (State.fwuConfirm s stores bad).2 := by
  unfold State.fwuConfirm
  repeat' first
    | (with_reducible assumption)
    | (with_reducible (first | apply State.confirm_keeps))
    | (dsimp only)
    | split

theorem State.fwuRevert_keeps {s0 : Base} {s : State} (stores : Bool) (h : Keeps s0 s) :
    Keeps s0 (State.fwuRevert s stores).2 := by
  unfold State.fwuRevert
  repeat' first
    | (with_reducible assumption)
    | (with_reducible (first | apply State.tellRevert_keeps | apply State.writeSelector_keeps))
    | (dsimp only)
    | split
    | (refine Keeps.snd (by assumption) ?_)
    | (refine Keeps.fst (by assumption) ?_)

theorem State.updateTimeout_keeps {s0 : Base} {s : State}  (h : Keeps s0 s) :
    Keeps s0 (State.updateTimeout s) := by
  unfold State.updateTimeout
  repeat' first
    | (with_reducible assumption)
    | (with_reducible (first | apply State.fwuAnswer_keeps | apply State.fwuEnd_keeps))
    | (dsimp only)
    | split

theorem execUpdateTimeout_keeps {s0 : Base} {s : State} (t : Nat) (h : Keeps s0 s) :
    KeepsOut s0 (execUpdateTimeout t s) := by
  unfold execUpdateTimeout
  repeat' first
    | (with_reducible assumption)
    | (with_reducible (first | apply State.advance_keeps | apply State.updateTimeout_keeps | apply keepsOut_ok))
    | (dsimp only)

theorem State.fwuCmd_keeps {s0 : Base} {s : State} (recovery : Bool) (f : State → State) (h : Keeps s0 s) (h_f : ∀ (t : State), Keeps s0 t → Keeps s0 (f t)) :
    Keeps s0 (State.fwuCmd s recovery f) := by
  unfold State.fwuCmd
  repeat' first
    | (with_reducible assumption)
    | (with_reducible (first | apply State.fwuHeard_keeps | apply State.pfWrite_keeps | apply h_f))
    | (dsimp only)
    | split
    | rfl
    | (intro _ _ _ _)
    | (intro _ _ _)
    | (intro _ _)
    | (with_reducible refine Keeps.upd ?_ ?_ ?_ ?_)

theorem fwuReport_keeps {s0 : Base} {r : Nat × State} (h : Keeps s0 r.2) : Keeps s0 (fwuReport r) :=
  State.fwuAnswer_keeps _ _ h

theorem execFwuBegin_keeps {s0 : Base} {s : State} (t : Nat) (h : Keeps s0 s) :
    KeepsOut s0 (execFwuBegin t s) := by
  unfold execFwuBegin
  repeat' first
    | (with_reducible assumption)
    | (with_reducible (first | apply State.advance_keeps | apply State.fwuBegin_keeps | apply State.fwuCmd_keeps | apply fwuReport_keeps | apply keepsOut_ok))
    | (dsimp only)
    | (intro _ _ _ _)
    | (intro _ _ _)
    | (intro _ _)

theorem execFwuWriteBlock_keeps {s0 : Base} {s : State} (t : Nat) (stores : Bool) (h : Keeps s0 s) :
    KeepsOut s0 (execFwuWriteBlock t stores s) := by
  unfold execFwuWriteBlock
  repeat' first
    | (with_reducible assumption)
    | (with_reducible (first | apply State.advance_keeps | apply State.fwuCmd_keeps | apply fwuReport_keeps | apply State.fwuWriteBlock_keeps | apply keepsOut_ok))
    | (dsimp only)
    | (intro _ _ _ _)
    | (intro _ _ _)
    | (intro _ _)

theorem execFwuVerify_keeps {s0 : Base} {s : State} (t : Nat) (h : Keeps s0 s) :
    KeepsOut s0 (execFwuVerify t s) := by
  unfold execFwuVerify
  repeat' first
    | (with_reducible assumption)
    | (with_reducible (first | apply State.advance_keeps | apply State.fwuCmd_keeps | apply fwuReport_keeps | apply State.fwuVerify_keeps | apply keepsOut_ok))
    | (dsimp only)
    | split
    | (intro _ _ _ _)
    | (intro _ _ _)
    | (intro _ _)

theorem execFwuActivate_keeps {s0 : Base} {s : State} (t : Nat) (stores : Bool) (h : Keeps s0 s) :
    KeepsOut s0 (execFwuActivate t stores s) := by
  unfold execFwuActivate
  repeat' first
    | (with_reducible assumption)
    | (with_reducible (first | apply State.advance_keeps | apply State.fwuActivate_keeps | apply State.fwuCmd_keeps | apply fwuReport_keeps | apply keepsOut_ok))
    | (dsimp only)
    | (intro _ _ _ _)
    | (intro _ _ _)
    | (intro _ _)

theorem execFwuAbort_keeps {s0 : Base} {s : State} (t : Nat) (h : Keeps s0 s) :
    KeepsOut s0 (execFwuAbort t s) := by
  unfold execFwuAbort
  repeat' first
    | (with_reducible assumption)
    | (with_reducible (first | apply State.advance_keeps | apply State.fwuAbort_keeps | apply State.fwuCmd_keeps | apply fwuReport_keeps | apply keepsOut_ok))
    | (dsimp only)
    | (intro _ _ _ _)
    | (intro _ _ _)
    | (intro _ _)

theorem execFwuConfirm_keeps {s0 : Base} {s : State} (stores : Bool) (bad : Option Nat) (h : Keeps s0 s) :
    KeepsOut s0 (execFwuConfirm stores bad s) := by
  unfold execFwuConfirm
  repeat' first
    | (with_reducible assumption)
    | (with_reducible (first | apply State.fwuCmd_keeps | apply State.fwuConfirm_keeps | apply fwuReport_keeps | apply keepsOut_ok))
    | (dsimp only)
    | (intro _ _ _ _)
    | (intro _ _ _)
    | (intro _ _)

theorem execFwuRevert_keeps {s0 : Base} {s : State} (stores : Bool) (h : Keeps s0 s) :
    KeepsOut s0 (execFwuRevert stores s) := by
  unfold execFwuRevert
  repeat' first
    | (with_reducible assumption)
    | (with_reducible (first | apply State.fwuCmd_keeps | apply fwuReport_keeps | apply State.fwuRevert_keeps | apply keepsOut_ok))
    | (dsimp only)
    | (intro _ _ _ _)
    | (intro _ _ _)
    | (intro _ _)

theorem State.hearPldm_keeps {s0 : Base} {s : State} (q : Ask) (cmd : Nat) (f : State → State) (h : Keeps s0 s) (h_f : ∀ (t : State), Keeps s0 t → Keeps s0 (f t)) :
    Keeps s0 (State.hearPldm s q cmd f) := by
  unfold State.hearPldm
  repeat' first
    | (with_reducible assumption)
    | (with_reducible (first | apply State.emit_keeps | apply State.endMgmt_keeps | apply State.fwuHeard_keeps | apply State.hear_keeps | apply State.spdmError_keeps | apply State.touch_keeps | apply State.violates_keeps | apply h_f))
    | (dsimp only)
    | split
    | (refine Keeps.snd (by assumption) ?_)
    | (refine Keeps.fst (by assumption) ?_)
    | (intro _ _ _ _)
    | (intro _ _ _)
    | (intro _ _)

theorem State.pldmReply_keeps {s0 : Base} {s : State} (q : Ask) (cmd : Nat) (code : Nat) (body : List Byte) (h : Keeps s0 s) :
    Keeps s0 (State.pldmReply s q cmd code body) := by
  unfold State.pldmReply
  repeat' first
    | (with_reducible assumption)
    | (with_reducible (first | apply State.emit_keeps | apply State.fwuAnswer_keeps | apply State.logErr_keeps | apply Eng.source_keeps | apply State.violates_keeps))
    | (dsimp only)
    | split
    | rfl
    | (intro _ _ _ _)
    | (intro _ _ _)
    | (intro _ _)
    | (with_reducible refine Keeps.upd ?_ ?_ ?_ ?_)

theorem execRequestUpdate_keeps {s0 : Base} {s : State} (q : Ask) (maxXfer : Nat) (h : Keeps s0 s) :
    KeepsOut s0 (execRequestUpdate q maxXfer s) := by
  unfold execRequestUpdate
  repeat' first
    | (with_reducible assumption)
    | (with_reducible (first | apply State.hearPldm_keeps | apply State.pldmReply_keeps | apply keepsOut_ok))
    | (dsimp only)
    | split
    | rfl
    | (intro _ _ _ _)
    | (intro _ _ _)
    | (intro _ _)
    | (with_reducible refine Keeps.upd ?_ ?_ ?_ ?_)

theorem execPassComponentTable_keeps {s0 : Base} {s : State} (q : Ask) (ident : Nat) (h : Keeps s0 s) :
    KeepsOut s0 (execPassComponentTable q ident s) := by
  unfold execPassComponentTable
  repeat' first
    | (with_reducible assumption)
    | (with_reducible (first | apply State.hearPldm_keeps | apply State.pldmReply_keeps | apply keepsOut_ok))
    | (dsimp only)
    | split
    | rfl
    | (intro _ _ _ _)
    | (intro _ _ _)
    | (intro _ _)
    | (with_reducible refine Keeps.upd ?_ ?_ ?_ ?_)

theorem execUpdateComponent_keeps {s0 : Base} {s : State} (q : Ask) (ident : Nat) (size : Nat) (h : Keeps s0 s) :
    KeepsOut s0 (execUpdateComponent q ident size s) := by
  unfold execUpdateComponent
  repeat' first
    | (with_reducible assumption)
    | (with_reducible (first | apply State.fwuBegin_keeps | apply State.hearPldm_keeps | apply State.pldmReply_keeps | apply keepsOut_ok))
    | (dsimp only)
    | split
    | (intro _ _ _ _)
    | (intro _ _ _)
    | (intro _ _)

theorem State.pldmBlock_keeps {s0 : Base} {s : State} (stores : Bool) (h : Keeps s0 s) :
    Keeps s0 (State.pldmBlock s stores) := by
  unfold State.pldmBlock
  have hr : Keeps s0 (if s.env.holdup then (3, s) else s.putBlock (s.fwu.pldmNext - 4096) s.fwu.partBlock stores).2 := by
    split
    · exact h
    · exact State.putBlock_keeps _ _ _ h
  dsimp only
  generalize (if s.env.holdup then (3, s) else s.putBlock (s.fwu.pldmNext - 4096) s.fwu.partBlock stores) = r at hr ⊢
  generalize s.fwu.pldmNext - 4096 = off
  repeat' first
    | (with_reducible assumption)
    | (with_reducible (first | apply State.requestData_keeps | apply State.fwuAnswer_keeps | apply State.logErr_keeps | apply State.emit_keeps))
    | split
    | rfl
    | (with_reducible refine Keeps.upd ?_ ?_ ?_ ?_)

theorem execFirmwareDataReceive_keeps {s0 : Base} {s : State} (q : Ask) (data : List Byte) (stores : Bool) (h : Keeps s0 s) :
    KeepsOut s0 (execFirmwareDataReceive q data stores s) := by
  unfold execFirmwareDataReceive
  repeat' first
    | (with_reducible assumption)
    | (with_reducible (first | apply State.fwuHeard_keeps | apply State.hearPldm_keeps | apply State.pldmBlock_keeps | apply State.pldmReply_keeps | apply State.requestData_keeps | apply keepsOut_ok))
    | (dsimp only)
    | split
    | rfl
    | (intro _ _ _ _)
    | (intro _ _ _)
    | (intro _ _)
    | (with_reducible refine Keeps.upd ?_ ?_ ?_ ?_)

theorem execActivateFirmware_keeps {s0 : Base} {s : State} (q : Ask) (selfContained : Bool) (stores : Bool) (h : Keeps s0 s) :
    KeepsOut s0 (execActivateFirmware q selfContained stores s) := by
  unfold execActivateFirmware
  repeat' first
    | (with_reducible assumption)
    | (with_reducible (first | apply State.emit_keeps | apply State.fwuActivate_keeps | apply State.hearPldm_keeps | apply State.logErr_keeps | apply State.pldmReply_keeps | apply Eng.source_keeps | apply keepsOut_ok))
    | (dsimp only)
    | split
    | rfl
    | (intro _ _ _ _)
    | (intro _ _ _)
    | (intro _ _)
    | (with_reducible refine Keeps.upd ?_ ?_ ?_ ?_)

theorem State.pldmCancel_keeps {s0 : Base} {s : State} (q : Ask) (cmd : Nat) (h : Keeps s0 s) :
    Keeps s0 (State.pldmCancel s q cmd) := by
  unfold State.pldmCancel
  repeat' first
    | (with_reducible assumption)
    | (with_reducible (first | apply State.fwuAbort_keeps | apply State.pldmReply_keeps))
    | (dsimp only)

theorem execCancelUpdateComponent_keeps {s0 : Base} {s : State} (q : Ask) (h : Keeps s0 s) :
    KeepsOut s0 (execCancelUpdateComponent q s) := by
  unfold execCancelUpdateComponent
  repeat' first
    | (with_reducible assumption)
    | (with_reducible (first | apply State.hearPldm_keeps | apply State.pldmCancel_keeps | apply keepsOut_ok))
    | (dsimp only)
    | (intro _ _ _ _)
    | (intro _ _ _)
    | (intro _ _)

theorem execCancelUpdate_keeps {s0 : Base} {s : State} (q : Ask) (h : Keeps s0 s) :
    KeepsOut s0 (execCancelUpdate q s) := by
  unfold execCancelUpdate
  repeat' first
    | (with_reducible assumption)
    | (with_reducible (first | apply State.hearPldm_keeps | apply State.pldmCancel_keeps | apply keepsOut_ok))
    | (dsimp only)
    | (intro _ _ _ _)
    | (intro _ _ _)
    | (intro _ _)

theorem execGetStatus_keeps {s0 : Base} {s : State} (q : Ask) (h : Keeps s0 s) :
    KeepsOut s0 (execGetStatus q s) := by
  unfold execGetStatus
  repeat' first
    | (with_reducible assumption)
    | (with_reducible (first | apply State.emit_keeps | apply State.hearPldm_keeps | apply keepsOut_ok))
    | (dsimp only)
    | (intro _ _ _ _)
    | (intro _ _ _)
    | (intro _ _)

theorem execGetFirmwareParameters_keeps {s0 : Base} {s : State} (q : Ask) (h : Keeps s0 s) :
    KeepsOut s0 (execGetFirmwareParameters q s) := by
  unfold execGetFirmwareParameters
  repeat' first
    | (with_reducible assumption)
    | (with_reducible (first | apply State.emit_keeps | apply State.hearPldm_keeps | apply keepsOut_ok))
    | (dsimp only)
    | split
    | (refine Keeps.snd (by assumption) ?_)
    | (refine Keeps.fst (by assumption) ?_)
    | (intro _ _ _ _)
    | (intro _ _ _)
    | (intro _ _)

end Sys2Proof.Machine
end

