-- ==== Sys2Proof/Laws/KeepsGrainCmds.lean ====
section
/-!
SUPPORT. What the operations of Machine/GrainCmds.lean leave in place.
-/

namespace Sys2Proof.Machine

open Sys2Proof

theorem Eng.reserve_keeps {s0 : Base} {e : Eng} (r : Line) (rounds : Nat) (h : Keeps s0 e.s) :
    Keeps s0 (Eng.reserve e r rounds).2.s := by
  unfold Eng.reserve
  repeat' first
    | (with_reducible assumption)
    | (with_reducible (first | apply State.reserve_keeps))
    | (dsimp only)
    | rfl
    | (with_reducible refine Keeps.upd ?_ ?_ ?_ ?_)

theorem Eng.writeAll_keeps {s0 : Base} {e : Eng} (dst : Nat) (bs : List Byte) (h : Keeps s0 e.s) :
    Keeps s0 (Eng.writeAll e dst bs).s := by
  unfold Eng.writeAll
  repeat' first
    | (with_reducible assumption)
    | (with_reducible (first | apply Keeps.foldl | apply Eng.write_keeps | apply Keeps.foldl_snd | apply Keeps.foldl_fst | apply Eng.foldl_keeps | apply Eng.foldl_snd_keeps))
    | (dsimp only)
    | (intro _ _ _ _)
    | (intro _ _ _)
    | (intro _ _)

theorem runSeed_keeps {s0 : Base} {e : Eng} (id : Nat) (r : Line) (h : Keeps s0 e.s) :
    Keeps s0 (runSeed id r e) := by
  unfold runSeed
  repeat' first
    | (with_reducible assumption)
    | (with_reducible (first | apply State.finish_keeps | apply Eng.finish_keeps | apply State.setGrain_keeps))
    | (dsimp only)
    | rfl
    | (with_reducible refine Keeps.upd ?_ ?_ ?_ ?_)

theorem runSeedSave_keeps {s0 : Base} {e : Eng} (id : Nat) (r : Line) (h : Keeps s0 e.s) :
    Keeps s0 (runSeedSave id r e) := by
  unfold runSeedSave
  repeat' first
    | (with_reducible assumption)
    | (with_reducible (first | apply State.finish_keeps | apply Eng.finish_keeps | apply State.image_keeps | apply State.writeAll_keeps | apply Eng.writeAll_keeps))
    | (dsimp only)

theorem runSeedLoad_keeps {s0 : Base} {e : Eng} (id : Nat) (r : Line) (h : Keeps s0 e.s) :
    Keeps s0 (runSeedLoad id r e) := by
  unfold runSeedLoad
  repeat' first
    | (with_reducible assumption)
    | (with_reducible (first | apply State.finish_keeps | apply Eng.finish_keeps | apply Eng.read_keeps | apply State.setGrain_keeps))
    | (dsimp only)
    | split
    | rfl
    | (with_reducible refine Keeps.upd ?_ ?_ ?_ ?_)

theorem runBits_keeps {s0 : Base} {e : Eng} (id : Nat) (r : Line) (h : Keeps s0 e.s) :
    Keeps s0 (runBits id r e) := by
  unfold runBits
  repeat' first
    | (with_reducible assumption)
    | (with_reducible (first | apply State.finish_keeps | apply Eng.finish_keeps | apply State.reserve_keeps | apply Eng.reserve_keeps | apply State.writeAll_keeps | apply Eng.writeAll_keeps))
    | (dsimp only)
    | (intro _ _ _ _)
    | (intro _ _ _)
    | (intro _ _)

theorem runMask_keeps {s0 : Base} {e : Eng} (id : Nat) (r : Line) (h : Keeps s0 e.s) :
    Keeps s0 (runMask id r e) := by
  unfold runMask
  try generalize List.range 8 = l8
  repeat' first
    | (with_reducible assumption)
    | (with_reducible (first | apply Keeps.foldl | apply State.finish_keeps | apply Eng.finish_keeps | apply State.reserve_keeps | apply Eng.reserve_keeps | apply State.writeAll_keeps | apply Eng.writeAll_keeps | apply Keeps.foldl_snd | apply Keeps.foldl_fst | apply Eng.foldl_keeps | apply Eng.foldl_snd_keeps))
    | (dsimp only)
    | split
    | (intro _ _ _ _)
    | (intro _ _ _)
    | (intro _ _)

theorem runUniform_keeps {s0 : Base} {e : Eng} (id : Nat) (r : Line) (h : Keeps s0 e.s) :
    Keeps s0 (runUniform id r e) := by
  unfold runUniform
  repeat' first
    | (with_reducible assumption)
    | (with_reducible (first | apply State.finish_keeps | apply Eng.finish_keeps | apply State.reserve_keeps | apply Eng.reserve_keeps | apply State.writeAll_keeps | apply Eng.writeAll_keeps))
    | (dsimp only)
    | (intro _ _ _ _)
    | (intro _ _ _)
    | (intro _ _)

theorem runNormal_keeps {s0 : Base} {e : Eng} (id : Nat) (r : Line) (h : Keeps s0 e.s) :
    Keeps s0 (runNormal id r e) := by
  unfold runNormal
  repeat' first
    | (with_reducible assumption)
    | (with_reducible (first | apply State.finish_keeps | apply Eng.finish_keeps | apply State.reserve_keeps | apply Eng.reserve_keeps | apply State.writeAll_keeps | apply Eng.writeAll_keeps))
    | (dsimp only)
    | (intro _ _ _ _)
    | (intro _ _ _)
    | (intro _ _)

theorem Eng.row_keeps {s0 : Base} {e : Eng} (src : Nat) (n : Nat) (h : Keeps s0 e.s) :
    Keeps s0 (Eng.row e src n).2.s := by
  unfold Eng.row
  repeat' first
    | (with_reducible assumption)
    | (with_reducible (first | apply Eng.read_keeps))
    | (dsimp only)
    | (intro _ _ _ _)
    | (intro _ _ _)
    | (intro _ _)

theorem runDiscrete_keeps {s0 : Base} {e : Eng} (id : Nat) (r : Line) (h : Keeps s0 e.s) :
    Keeps s0 (runDiscrete id r e) := by
  unfold runDiscrete
  repeat' first
    | (with_reducible assumption)
    | (with_reducible (first | apply State.finish_keeps | apply Eng.finish_keeps | apply State.reserve_keeps | apply Eng.reserve_keeps | apply Eng.row_keeps | apply State.writeAll_keeps | apply Eng.writeAll_keeps))
    | (dsimp only)
    | split
    | (intro _ _ _ _)
    | (intro _ _ _)
    | (intro _ _)

theorem runSample_keeps {s0 : Base} {e : Eng} (id : Nat) (r : Line) (h : Keeps s0 e.s) :
    Keeps s0 (runSample id r e) := by
  unfold runSample
  repeat' first
    | (with_reducible assumption)
    | (with_reducible (first | apply State.finish_keeps | apply Eng.finish_keeps | apply State.reserve_keeps | apply Eng.reserve_keeps | apply Eng.row_keeps | apply State.writeAll_keeps | apply Eng.writeAll_keeps))
    | (dsimp only)
    | split

theorem runTopkExport_keeps {s0 : Base} {e : Eng} (id : Nat) (r : Line) (h : Keeps s0 e.s) :
    Keeps s0 (runTopkExport id r e) := by
  unfold runTopkExport
  repeat' first
    | (with_reducible assumption)
    | (with_reducible (first | apply State.finish_keeps | apply Eng.finish_keeps | apply Eng.row_keeps | apply State.writeAll_keeps | apply Eng.writeAll_keeps))
    | (dsimp only)
    | split
    | (intro _ _ _ _)
    | (intro _ _ _)
    | (intro _ _)

theorem State.runSeedMode_keeps {s0 : Base} {s : State} (p : Nat) (id : Nat) (m : Nat) (f : Line → Eng → State) (h : Keeps s0 s) (h_f : ∀ (b0 : Line) (t : Eng), Keeps s0 t.s → Keeps s0 (f b0 t)) :
    Keeps s0 (State.runSeedMode s p id m f) := by
  unfold State.runSeedMode
  repeat' first
    | (with_reducible assumption)
    | (with_reducible (first | apply State.runEngine_keeps | apply h_f))
    | (dsimp only)
    | split
    | (intro _ _ _ _)
    | (intro _ _ _)
    | (intro _ _)

theorem execGrnSeed_keeps {s0 : Base} {s : State} (p : Nat) (id : Nat) (h : Keeps s0 s) :
    KeepsOut s0 (execGrnSeed p id s) := by
  unfold execGrnSeed
  repeat' first
    | (with_reducible assumption)
    | (with_reducible (first | apply runSeed_keeps | apply State.runSeedMode_keeps | apply keepsOut_ok))
    | (dsimp only)
    | (intro _ _ _ _)
    | (intro _ _ _)
    | (intro _ _)

theorem execGrnSeedLoad_keeps {s0 : Base} {s : State} (p : Nat) (id : Nat) (h : Keeps s0 s) :
    KeepsOut s0 (execGrnSeedLoad p id s) := by
  unfold execGrnSeedLoad
  repeat' first
    | (with_reducible assumption)
    | (with_reducible (first | apply runSeedLoad_keeps | apply State.runSeedMode_keeps | apply keepsOut_ok))
    | (dsimp only)
    | (intro _ _ _ _)
    | (intro _ _ _)
    | (intro _ _)

theorem execGrnSeedSave_keeps {s0 : Base} {s : State} (p : Nat) (id : Nat) (h : Keeps s0 s) :
    KeepsOut s0 (execGrnSeedSave p id s) := by
  unfold execGrnSeedSave
  repeat' first
    | (with_reducible assumption)
    | (with_reducible (first | apply State.runSeedMode_keeps | apply runSeedSave_keeps | apply keepsOut_ok))
    | (dsimp only)
    | (intro _ _ _ _)
    | (intro _ _ _)
    | (intro _ _)

theorem execGrnBits_keeps {s0 : Base} {s : State} (p : Nat) (id : Nat) (h : Keeps s0 s) :
    KeepsOut s0 (execGrnBits p id s) := by
  unfold execGrnBits
  repeat' first
    | (with_reducible assumption)
    | (with_reducible (first | apply runBits_keeps | apply State.runEngine_keeps | apply keepsOut_ok))
    | (dsimp only)
    | (intro _ _ _ _)
    | (intro _ _ _)
    | (intro _ _)

theorem execGrnMask_keeps {s0 : Base} {s : State} (p : Nat) (id : Nat) (h : Keeps s0 s) :
    KeepsOut s0 (execGrnMask p id s) := by
  unfold execGrnMask
  repeat' first
    | (with_reducible assumption)
    | (with_reducible (first | apply State.runEngine_keeps | apply runMask_keeps | apply keepsOut_ok))
    | (dsimp only)
    | (intro _ _ _ _)
    | (intro _ _ _)
    | (intro _ _)

theorem execGrnUniform_keeps {s0 : Base} {s : State} (p : Nat) (id : Nat) (h : Keeps s0 s) :
    KeepsOut s0 (execGrnUniform p id s) := by
  unfold execGrnUniform
  repeat' first
    | (with_reducible assumption)
    | (with_reducible (first | apply State.runEngine_keeps | apply runUniform_keeps | apply keepsOut_ok))
    | (dsimp only)
    | (intro _ _ _ _)
    | (intro _ _ _)
    | (intro _ _)

theorem execGrnNormal_keeps {s0 : Base} {s : State} (p : Nat) (id : Nat) (h : Keeps s0 s) :
    KeepsOut s0 (execGrnNormal p id s) := by
  unfold execGrnNormal
  repeat' first
    | (with_reducible assumption)
    | (with_reducible (first | apply State.runEngine_keeps | apply runNormal_keeps | apply keepsOut_ok))
    | (dsimp only)
    | (intro _ _ _ _)
    | (intro _ _ _)
    | (intro _ _)

theorem execGrnDiscrete_keeps {s0 : Base} {s : State} (p : Nat) (id : Nat) (h : Keeps s0 s) :
    KeepsOut s0 (execGrnDiscrete p id s) := by
  unfold execGrnDiscrete
  repeat' first
    | (with_reducible assumption)
    | (with_reducible (first | apply runDiscrete_keeps | apply State.runEngine_keeps | apply keepsOut_ok))
    | (dsimp only)
    | (intro _ _ _ _)
    | (intro _ _ _)
    | (intro _ _)

theorem execGrnSample_keeps {s0 : Base} {s : State} (p : Nat) (id : Nat) (h : Keeps s0 s) :
    KeepsOut s0 (execGrnSample p id s) := by
  unfold execGrnSample
  repeat' first
    | (with_reducible assumption)
    | (with_reducible (first | apply State.runEngine_keeps | apply runSample_keeps | apply keepsOut_ok))
    | (dsimp only)
    | (intro _ _ _ _)
    | (intro _ _ _)
    | (intro _ _)

theorem execGrnTopkExport_keeps {s0 : Base} {s : State} (p : Nat) (id : Nat) (h : Keeps s0 s) :
    KeepsOut s0 (execGrnTopkExport p id s) := by
  unfold execGrnTopkExport
  repeat' first
    | (with_reducible assumption)
    | (with_reducible (first | apply State.runEngine_keeps | apply runTopkExport_keeps | apply keepsOut_ok))
    | (dsimp only)
    | (intro _ _ _ _)
    | (intro _ _ _)
    | (intro _ _)

end Sys2Proof.Machine
end

