-- ==== Sys2Proof/Laws/KeepsSignals.lean ====
section
/-!
SUPPORT. What the operations of Machine/Signals.lean leave in place.
-/

namespace Sys2Proof.Machine

open Sys2Proof

end Sys2Proof.Machine
end

