-- ==== Sys2Proof/Laws/KeepsManage.lean ====
section
/-!
SUPPORT. What the operations of Machine/Manage.lean leave in place.
-/

namespace Sys2Proof.Machine

open Sys2Proof

theorem State.manage_keeps {s0 : Base} {s : State} (q : Ask) (roles : List Nat) (sound : Bool) (f : MSess → State → State) (h : Keeps s0 s) (h_f : ∀ (b0 : MSess) (t : State), Keeps s0 t → Keeps s0 (f b0 t)) :
    Keeps s0 (State.manage s q roles sound f) := by
  unfold State.manage
  repeat' first
    | (with_reducible assumption)
    | (with_reducible (first | apply State.emit_keeps | apply State.endMgmt_keeps | apply State.hear_keeps | apply State.spdmError_keeps | apply State.touch_keeps | apply State.violates_keeps | apply Keeps.ident | apply h_f))
    | (dsimp only)
    | split
    | (refine Keeps.snd (by assumption) ?_)
    | (refine Keeps.fst (by assumption) ?_)
    | (intro _ _ _ _)
    | (intro _ _ _)
    | (intro _ _)

theorem State.result_keeps {s0 : Base} {s : State} (x : MSess) (code : Nat) (bytes : List Byte) (h : Keeps s0 s) :
    Keeps s0 (State.result s x code bytes) := by
  unfold State.result
  repeat' first
    | (with_reducible assumption)
    | (with_reducible (first | apply State.emit_keeps | apply Keeps.ident))
    | (dsimp only)

theorem execSessionInfo_keeps {s0 : Base} {s : State} (q : Ask) (body : List Byte) (h : Keeps s0 s) :
    KeepsOut s0 (execSessionInfo q body s) := by
  unfold execSessionInfo
  repeat' first
    | (with_reducible assumption)
    | (with_reducible (first | apply State.manage_keeps | apply State.result_keeps | apply keepsOut_ok))
    | (dsimp only)
    | (intro _ _ _ _)
    | (intro _ _ _)
    | (intro _ _)

theorem execAssentStatus_keeps {s0 : Base} {s : State} (q : Ask) (body : List Byte) (h : Keeps s0 s) :
    KeepsOut s0 (execAssentStatus q body s) := by
  unfold execAssentStatus
  try generalize List.range 8 = l8
  repeat' first
    | (with_reducible assumption)
    | (with_reducible (first | apply State.expireAssents_keeps | apply State.manage_keeps | apply State.result_keeps | apply keepsOut_ok))
    | (dsimp only)
    | (intro _ _ _ _)
    | (intro _ _ _)
    | (intro _ _)

theorem execGetLog_keeps {s0 : Base} {s : State} (q : Ask) (body : List Byte) (h : Keeps s0 s) :
    KeepsOut s0 (execGetLog q body s) := by
  unfold execGetLog
  repeat' first
    | (with_reducible assumption)
    | (with_reducible (first | apply State.manage_keeps | apply State.result_keeps | apply keepsOut_ok))
    | (dsimp only)
    | (intro _ _ _ _)
    | (intro _ _ _)
    | (intro _ _)

theorem execPrepareDigest_keeps {s0 : Base} {s : State} (q : Ask) (body : List Byte) (h : Keeps s0 s) :
    KeepsOut s0 (execPrepareDigest q body s) := by
  unfold execPrepareDigest
  repeat' first
    | (with_reducible assumption)
    | (with_reducible (first | apply State.manage_keeps | apply State.result_keeps | apply keepsOut_ok))
    | (dsimp only)
    | split
    | (refine Keeps.snd (by assumption) ?_)
    | (refine Keeps.fst (by assumption) ?_)
    | (intro _ _ _ _)
    | (intro _ _ _)
    | (intro _ _)

theorem execAssent_keeps {s0 : Base} {s : State} (q : Ask) (body : List Byte) (h : Keeps s0 s) :
    KeepsOut s0 (execAssent q body s) := by
  unfold execAssent
  repeat' first
    | (with_reducible assumption)
    | (with_reducible (first | apply State.giveAssent_keeps | apply State.manage_keeps | apply State.result_keeps | apply keepsOut_ok))
    | (dsimp only)
    | split
    | (intro _ _ _ _)
    | (intro _ _ _)
    | (intro _ _)

theorem execWithdraw_keeps {s0 : Base} {s : State} (q : Ask) (body : List Byte) (h : Keeps s0 s) :
    KeepsOut s0 (execWithdraw q body s) := by
  unfold execWithdraw
  repeat' first
    | (with_reducible assumption)
    | (with_reducible (first | apply State.expireAssents_keeps | apply State.manage_keeps | apply State.result_keeps | apply State.setAssent_keeps | apply keepsOut_ok))
    | (dsimp only)
    | split
    | (refine Keeps.snd (by assumption) ?_)
    | (refine Keeps.fst (by assumption) ?_)
    | (intro _ _ _ _)
    | (intro _ _ _)
    | (intro _ _)

theorem State.endRole_keeps {s0 : Base} {s : State} (role : Nat) (part : Nat) (h : Keeps s0 s) :
    Keeps s0 (State.endRole s role part) := by
  unfold State.endRole
  repeat' first
    | (with_reducible assumption)
    | (with_reducible (first | apply Keeps.foldl | apply State.endMgmt_keeps | apply Keeps.ident))
    | (dsimp only)
    | (intro _ _ _ _)
    | (intro _ _ _)
    | (intro _ _)

theorem State.setPsk_keeps {s0 : Base} {s : State} (x : MSess) (body : List Byte) (stores : Bool) (h : Keeps s0 s) :
    Keeps s0 (State.setPsk s x body stores) := by
  unfold State.setPsk
  repeat' first
    | (with_reducible assumption)
    | (with_reducible (first | apply State.endRole_keeps | apply State.result_keeps | apply State.useAssent_keeps))
    | (refine State.writeArchive_keeps ?_ (by assumption))
    | (dsimp only)
    | split
    | rfl
    | (refine Keeps.snd (by assumption) ?_)
    | (refine Keeps.fst (by assumption) ?_)
    | (intro _ _ _ _)
    | (intro _ _ _)
    | (intro _ _)
    | (with_reducible refine Keeps.upd ?_ ?_ ?_ ?_)

theorem execSetPsk_keeps {s0 : Base} {s : State} (q : Ask) (body : List Byte) (stores : Bool) (h : Keeps s0 s) :
    KeepsOut s0 (execSetPsk q body stores s) := by
  unfold execSetPsk
  repeat' first
    | (with_reducible assumption)
    | (with_reducible (first | apply State.expireAssents_keeps | apply State.manage_keeps | apply State.setPsk_keeps | apply keepsOut_ok))
    | (dsimp only)
    | (intro _ _ _ _)
    | (intro _ _ _)
    | (intro _ _)

theorem execSetPartKey_keeps {s0 : Base} {s : State} (q : Ask) (body : List Byte) (stores : Bool) (h : Keeps s0 s) :
    KeepsOut s0 (execSetPartKey q body stores s) := by
  unfold execSetPartKey
  repeat' first
    | (with_reducible assumption)
    | (with_reducible (first | apply State.closeSess_keeps | apply State.manage_keeps | apply State.result_keeps | apply keepsOut_ok))
    | (refine State.writeArchive_keeps ?_ (by assumption))
    | (dsimp only)
    | split
    | (refine Keeps.snd (by assumption) ?_)
    | (refine Keeps.fst (by assumption) ?_)
    | (intro _ _ _ _)
    | (intro _ _ _)
    | (intro _ _)

theorem State.lockRelease_keeps {s0 : Base} {s : State} (x : MSess) (stores : Bool) (h : Keeps s0 s) :
    Keeps s0 (State.lockRelease s x stores) := by
  unfold State.lockRelease
  repeat' first
    | (with_reducible assumption)
    | (with_reducible (first | apply State.result_keeps | apply State.sesEvent_keeps | apply State.useAssent_keeps))
    | (refine State.writeArchive_keeps ?_ (by assumption))
    | (dsimp only)
    | split
    | rfl
    | (refine Keeps.snd (by assumption) ?_)
    | (refine Keeps.fst (by assumption) ?_)
    | (intro _ _ _ _)
    | (intro _ _ _)
    | (intro _ _)
    | (with_reducible refine Keeps.upd ?_ ?_ ?_ ?_)

theorem execLockRelease_keeps {s0 : Base} {s : State} (q : Ask) (body : List Byte) (stores : Bool) (h : Keeps s0 s) :
    KeepsOut s0 (execLockRelease q body stores s) := by
  unfold execLockRelease
  repeat' first
    | (with_reducible assumption)
    | (with_reducible (first | apply State.expireAssents_keeps | apply State.lockRelease_keeps | apply State.manage_keeps | apply keepsOut_ok))
    | (dsimp only)
    | (intro _ _ _ _)
    | (intro _ _ _)
    | (intro _ _)

theorem State.debugUnlock_keeps {s0 : Base} {s : State} (x : MSess) (stores : Bool) (erases : Bool) (h : Keeps s0 s) :
    Keeps s0 (State.debugUnlock s x stores erases) := by
  unfold State.debugUnlock
  repeat' first
    | (with_reducible assumption)
    | (with_reducible (first | apply State.result_keeps | apply State.useAssent_keeps | apply Keeps.ident))
    | (refine State.writeArchive_keeps ?_ (by assumption))
    | (dsimp only)
    | split
    | rfl
    | (refine Keeps.snd (by assumption) ?_)
    | (refine Keeps.fst (by assumption) ?_)
    | (with_reducible refine Keeps.upd ?_ ?_ ?_ ?_)

theorem execDebugUnlock_keeps {s0 : Base} {s : State} (q : Ask) (body : List Byte) (stores : Bool) (erases : Bool) (h : Keeps s0 s) :
    KeepsOut s0 (execDebugUnlock q body stores erases s) := by
  unfold execDebugUnlock
  repeat' first
    | (with_reducible assumption)
    | (with_reducible (first | apply State.debugUnlock_keeps | apply State.expireAssents_keeps | apply State.manage_keeps | apply keepsOut_ok))
    | (dsimp only)
    | (intro _ _ _ _)
    | (intro _ _ _)
    | (intro _ _)

theorem execDebugLock_keeps {s0 : Base} {s : State} (q : Ask) (body : List Byte) (h : Keeps s0 s) :
    KeepsOut s0 (execDebugLock q body s) := by
  unfold execDebugLock
  repeat' first
    | (with_reducible assumption)
    | (with_reducible (first | apply State.manage_keeps | apply State.result_keeps | apply State.sesEvent_keeps | apply keepsOut_ok))
    | (dsimp only)
    | split
    | rfl
    | (intro _ _ _ _)
    | (intro _ _ _)
    | (intro _ _)
    | (with_reducible refine Keeps.upd ?_ ?_ ?_ ?_)

theorem execMgmtRepair_keeps {s0 : Base} {s : State} (q : Ask) (body : List Byte) (stores : Bool) (h : Keeps s0 s) :
    KeepsOut s0 (execMgmtRepair q body stores s) := by
  unfold execMgmtRepair
  repeat' first
    | (with_reducible assumption)
    | (with_reducible (first | apply State.manage_keeps | apply State.repairApply_keeps | apply State.repairRemove_keeps | apply State.request_keeps | apply State.result_keeps | apply Keeps.ident | apply keepsOut_ok))
    | (dsimp only)
    | split
    | rfl
    | (intro _ _ _ _)
    | (intro _ _ _)
    | (intro _ _)
    | (with_reducible refine Keeps.upd ?_ ?_ ?_ ?_)

theorem State.claim_keeps {s0 : Base} {s : State} (id : Nat) (body : List Byte) (stores : Bool) (h : Keeps s0 s) :
    Keeps s0 (State.claim s id body stores) := by
  unfold State.claim
  repeat' first
    | (with_reducible assumption)
    | (with_reducible (first | apply State.emit_keeps | apply State.logErr_keeps | apply Eng.source_keeps))
    | (refine State.writeArchive_keeps ?_ (by assumption))
    | (dsimp only)
    | split
    | rfl
    | (refine Keeps.snd (by assumption) ?_)
    | (refine Keeps.fst (by assumption) ?_)
    | (intro _ _ _ _)
    | (intro _ _ _)
    | (intro _ _)
    | (with_reducible refine Keeps.upd ?_ ?_ ?_ ?_)

theorem execClaim_keeps {s0 : Base} {s : State} (q : Ask) (body : List Byte) (stores : Bool) (h : Keeps s0 s) :
    KeepsOut s0 (execClaim q body stores s) := by
  unfold execClaim
  repeat' first
    | (with_reducible assumption)
    | (with_reducible (first | apply State.claim_keeps | apply State.emit_keeps | apply State.hear_keeps | apply State.spdmError_keeps | apply State.touch_keeps | apply Keeps.ident | apply keepsOut_ok))
    | (dsimp only)
    | split
    | (refine Keeps.snd (by assumption) ?_)
    | (refine Keeps.fst (by assumption) ?_)
    | (intro _ _ _ _)
    | (intro _ _ _)
    | (intro _ _)

end Sys2Proof.Machine
end

