-- ==== Sys2Proof/Laws/KeepsMover.lean ====
section
/-!
SUPPORT. What the operations of Machine/Mover.lean leave in place.
-/

namespace Sys2Proof.Machine

open Sys2Proof

theorem runCopy_keeps {s0 : Base} {e : Eng} (id : Nat) (r : Line) (h : Keeps s0 e.s) :
    Keeps s0 (runCopy id r e) := by
  unfold runCopy
  repeat' first
    | (with_reducible assumption)
    | (with_reducible (first | apply Eng.copy_keeps | apply State.finish_keeps | apply Eng.finish_keeps))
    | (dsimp only)

theorem runCopy2d_keeps {s0 : Base} {e : Eng} (id : Nat) (r : Line) (h : Keeps s0 e.s) :
    Keeps s0 (runCopy2d id r e) := by
  unfold runCopy2d
  repeat' first
    | (with_reducible assumption)
    | (with_reducible (first | apply Keeps.foldl | apply Eng.copy_keeps | apply State.finish_keeps | apply Eng.finish_keeps | apply Eng.foldl_keeps | apply Eng.foldl_snd_keeps))
    | (dsimp only)
    | (intro _ _ _ _)
    | (intro _ _ _)
    | (intro _ _)

theorem Eng.index_keeps {s0 : Base} {e : Eng} (list : Nat) (i : Nat) (h : Keeps s0 e.s) :
    Keeps s0 (Eng.index e list i).2.s := by
  unfold Eng.index
  repeat' first
    | (with_reducible assumption)
    | (with_reducible (first | apply Eng.readOpen_keeps))
    | (dsimp only)

theorem runGather_keeps {s0 : Base} {e : Eng} (id : Nat) (r : Line) (h : Keeps s0 e.s) :
    Keeps s0 (runGather id r e) := by
  unfold runGather
  repeat' first
    | (with_reducible assumption)
    | (with_reducible (first | apply Keeps.foldl | apply Eng.copy_keeps | apply State.finish_keeps | apply Eng.finish_keeps | apply Eng.index_keeps | apply Keeps.foldl_snd | apply Keeps.foldl_fst | apply Eng.foldl_keeps | apply Eng.foldl_snd_keeps))
    | (dsimp only)
    | (intro _ _ _ _)
    | (intro _ _ _)
    | (intro _ _)

theorem runScatter_keeps {s0 : Base} {e : Eng} (id : Nat) (r : Line) (h : Keeps s0 e.s) :
    Keeps s0 (runScatter id r e) := by
  unfold runScatter
  repeat' first
    | (with_reducible assumption)
    | (with_reducible (first | apply Keeps.foldl | apply Eng.copy_keeps | apply State.finish_keeps | apply Eng.finish_keeps | apply Eng.index_keeps | apply Keeps.foldl_snd | apply Keeps.foldl_fst | apply Eng.foldl_keeps | apply Eng.foldl_snd_keeps))
    | (dsimp only)
    | (intro _ _ _ _)
    | (intro _ _ _)
    | (intro _ _)

theorem runFill_keeps {s0 : Base} {e : Eng} (id : Nat) (r : Line) (h : Keeps s0 e.s) :
    Keeps s0 (runFill id r e) := by
  unfold runFill
  repeat' first
    | (with_reducible assumption)
    | (with_reducible (first | apply Keeps.foldl | apply State.finish_keeps | apply Eng.finish_keeps | apply Eng.write_keeps | apply Keeps.foldl_snd | apply Keeps.foldl_fst | apply Eng.foldl_keeps | apply Eng.foldl_snd_keeps))
    | (dsimp only)
    | (intro _ _ _ _)
    | (intro _ _ _)
    | (intro _ _)

theorem runKsload_keeps {s0 : Base} {e : Eng} (id : Nat) (r : Line) (h : Keeps s0 e.s) :
    Keeps s0 (runKsload id r e) := by
  unfold runKsload
  repeat' first
    | (with_reducible assumption)
    | (with_reducible (first | apply Keeps.foldl | apply State.finish_keeps | apply Eng.finish_keeps | apply Eng.read_keeps | apply Eng.writeLocal_keeps | apply Keeps.foldl_snd | apply Keeps.foldl_fst | apply Eng.foldl_keeps | apply Eng.foldl_snd_keeps))
    | (dsimp only)
    | (intro _ _ _ _)
    | (intro _ _ _)
    | (intro _ _)

theorem execMovCopy_keeps {s0 : Base} {s : State} (p : Nat) (id : Nat) (h : Keeps s0 s) :
    KeepsOut s0 (execMovCopy p id s) := by
  unfold execMovCopy
  repeat' first
    | (with_reducible assumption)
    | (with_reducible (first | apply runCopy_keeps | apply State.runEngine_keeps | apply keepsOut_ok))
    | (dsimp only)
    | (intro _ _ _ _)
    | (intro _ _ _)
    | (intro _ _)

theorem execMovCopy2d_keeps {s0 : Base} {s : State} (p : Nat) (id : Nat) (h : Keeps s0 s) :
    KeepsOut s0 (execMovCopy2d p id s) := by
  unfold execMovCopy2d
  repeat' first
    | (with_reducible assumption)
    | (with_reducible (first | apply runCopy2d_keeps | apply State.runEngine_keeps | apply keepsOut_ok))
    | (dsimp only)
    | (intro _ _ _ _)
    | (intro _ _ _)
    | (intro _ _)

theorem execMovGather_keeps {s0 : Base} {s : State} (p : Nat) (id : Nat) (h : Keeps s0 s) :
    KeepsOut s0 (execMovGather p id s) := by
  unfold execMovGather
  repeat' first
    | (with_reducible assumption)
    | (with_reducible (first | apply State.runEngine_keeps | apply runGather_keeps | apply keepsOut_ok))
    | (dsimp only)
    | (intro _ _ _ _)
    | (intro _ _ _)
    | (intro _ _)

theorem execMovScatter_keeps {s0 : Base} {s : State} (p : Nat) (id : Nat) (h : Keeps s0 s) :
    KeepsOut s0 (execMovScatter p id s) := by
  unfold execMovScatter
  repeat' first
    | (with_reducible assumption)
    | (with_reducible (first | apply State.runEngine_keeps | apply runScatter_keeps | apply keepsOut_ok))
    | (dsimp only)
    | (intro _ _ _ _)
    | (intro _ _ _)
    | (intro _ _)

theorem execMovFill_keeps {s0 : Base} {s : State} (p : Nat) (id : Nat) (h : Keeps s0 s) :
    KeepsOut s0 (execMovFill p id s) := by
  unfold execMovFill
  repeat' first
    | (with_reducible assumption)
    | (with_reducible (first | apply State.runEngine_keeps | apply runFill_keeps | apply keepsOut_ok))
    | (dsimp only)
    | (intro _ _ _ _)
    | (intro _ _ _)
    | (intro _ _)

theorem execMovCompress_keeps {s0 : Base} {s : State} (p : Nat) (id : Nat) (h : Keeps s0 s) :
    KeepsOut s0 (execMovCompress p id s) := by
  unfold execMovCompress
  repeat' first
    | (with_reducible assumption)
    | (with_reducible (first | apply runCompress_keeps | apply State.runEngine_keeps | apply keepsOut_ok))
    | (dsimp only)
    | (intro _ _ _ _)
    | (intro _ _ _)
    | (intro _ _)

theorem execMovDecompress_keeps {s0 : Base} {s : State} (p : Nat) (id : Nat) (h : Keeps s0 s) :
    KeepsOut s0 (execMovDecompress p id s) := by
  unfold execMovDecompress
  repeat' first
    | (with_reducible assumption)
    | (with_reducible (first | apply runDecompress_keeps | apply State.runEngine_keeps | apply keepsOut_ok))
    | (dsimp only)
    | (intro _ _ _ _)
    | (intro _ _ _)
    | (intro _ _)

theorem execMovKsload_keeps {s0 : Base} {s : State} (p : Nat) (id : Nat) (h : Keeps s0 s) :
    KeepsOut s0 (execMovKsload p id s) := by
  unfold execMovKsload
  repeat' first
    | (with_reducible assumption)
    | (with_reducible (first | apply State.runEngine_keeps | apply runKsload_keeps | apply keepsOut_ok))
    | (dsimp only)
    | (intro _ _ _ _)
    | (intro _ _ _)
    | (intro _ _)

end Sys2Proof.Machine
end

