-- ==== Sys2Proof/Laws/KeepsShutter.lean ====
section
/-!
SUPPORT. What the operations of Machine/Shutter.lean leave in place.
-/

namespace Sys2Proof.Machine

open Sys2Proof

theorem State.assess_keeps {s0 : Base} {s : State} (p : Nat) (h : Keeps s0 s) :
    Keeps s0 (State.assess s p) := by
  unfold State.assess
  repeat' first
    | (with_reducible assumption)
    | (with_reducible (first | apply State.modPart_keeps | apply State.modSch_keeps | apply State.settleAll_keeps | apply Keeps.ident))
    | (dsimp only)
    | split
    | rfl
    | (refine Keeps.snd (by assumption) ?_)
    | (refine Keeps.fst (by assumption) ?_)
    | (intro _ _ _ _)
    | (intro _ _ _)
    | (intro _ _)
    | (with_reducible refine Keeps.upd ?_ ?_ ?_ ?_)

theorem State.step2_keeps {s0 : Base} {s : State}  (h : Keeps s0 s) :
    Keeps s0 (State.step2 s) := by
  unfold State.step2
  try generalize List.range 16 = l16
  repeat' first
    | (with_reducible assumption)
    | (with_reducible (first | apply Keeps.foldl | apply State.assess_keeps | apply State.shtEvent_keeps))
    | (dsimp only)
    | split
    | (intro _ _ _ _)
    | (intro _ _ _)
    | (intro _ _)

theorem State.heldOvx_keeps {s0 : Base} {s : State} (p : Nat) (h : Keeps s0 s) :
    Keeps s0 (State.heldOvx s p) := by
  unfold State.heldOvx
  repeat' first
    | (with_reducible assumption)
    | (with_reducible (first | apply State.enterHeld_keeps | apply State.logErr_keeps | apply State.shtEvent_keeps | apply Eng.source_keeps))
    | (dsimp only)
    | split
    | rfl
    | (with_reducible refine Keeps.upd ?_ ?_ ?_ ?_)

theorem State.heldSpan_keeps {s0 : Base} {s : State} (d : Nat) (p : Nat) (h : Keeps s0 s) :
    Keeps s0 (State.heldSpan s d p) := by
  unfold State.heldSpan
  repeat' first
    | (with_reducible assumption)
    | (with_reducible (first | apply State.enterHeld_keeps | apply State.leaveLoading_keeps | apply State.logErr_keeps | apply State.shtEvent_keeps | apply Eng.source_keeps))
    | (dsimp only)
    | split
    | rfl
    | (with_reducible refine Keeps.upd ?_ ?_ ?_ ?_)

theorem State.step3_keeps {s0 : Base} {s : State}  (h : Keeps s0 s) :
    Keeps s0 (State.step3 s) := by
  unfold State.step3
  try generalize List.range 16 = l16
  repeat' first
    | (with_reducible assumption)
    | (with_reducible (first | apply Keeps.foldl | apply State.heldOvx_keeps | apply State.heldSpan_keeps))
    | (dsimp only)
    | split
    | rfl
    | (refine Keeps.snd (by assumption) ?_)
    | (refine Keeps.fst (by assumption) ?_)
    | (intro _ _ _ _)
    | (intro _ _ _)
    | (intro _ _)
    | (with_reducible refine Keeps.upd ?_ ?_ ?_ ?_)

theorem State.refill_keeps {s0 : Base} {s : State} (held : List Nat) (p : Nat) (h : Keeps s0 s) :
    Keeps s0 (State.refill held s p) := by
  unfold State.refill
  try generalize List.range 6 = l6
  repeat' first
    | (with_reducible assumption)
    | (with_reducible (first | apply Keeps.foldl | apply State.modPart_keeps))
    | (dsimp only)
    | split
    | rfl
    | (intro _ _ _ _)
    | (intro _ _ _)
    | (intro _ _)
    | (with_reducible refine Keeps.upd ?_ ?_ ?_ ?_)

theorem State.step9_keeps {s0 : Base} {s : State}  (h : Keeps s0 s) :
    Keeps s0 (State.step9 s) := by
  unfold State.step9
  repeat' first
    | (with_reducible assumption)
    | (dsimp only)
    | rfl
    | (intro _ _ _ _)
    | (intro _ _ _)
    | (intro _ _)
    | (with_reducible refine Keeps.upd ?_ ?_ ?_ ?_)

theorem State.alignDone_keeps {s0 : Base} {s : State} (p : Nat) (h : Keeps s0 s) :
    Keeps s0 (State.alignDone s p) := by
  unfold State.alignDone
  repeat' first
    | (with_reducible assumption)
    | (with_reducible (first | apply Keeps.foldl | apply State.completeCmd_keeps | apply State.image_keeps | apply State.modCmd_keeps | apply State.result_keeps | apply Keeps.ident))
    | (dsimp only)
    | split
    | rfl
    | (intro _ _ _ _)
    | (intro _ _ _)
    | (intro _ _)
    | (with_reducible refine Keeps.upd ?_ ?_ ?_ ?_)

theorem State.frameWork_keeps {s0 : Base} {s : State} (flywheel : Bool) (installs : Bool) (h : Keeps s0 s) :
    Keeps s0 (State.frameWork s flywheel installs) := by
  unfold State.frameWork
  try generalize List.range 16 = l16
  repeat' first
    | (with_reducible assumption)
    | (with_reducible (first | apply Keeps.foldl | apply State.alignDone_keeps | apply State.applyThrottle_keeps | apply State.applyUnlock_keeps | apply State.bootInstall_keeps | apply State.flushPart_keeps | apply State.migPump_keeps | apply State.refill_keeps | apply State.step2_keeps | apply State.step3_keeps | apply State.step4_keeps | apply State.step5_keeps | apply State.step9_keeps))
    | (dsimp only)
    | split
    | rfl
    | (intro _ _ _ _)
    | (intro _ _ _)
    | (intro _ _)
    | (with_reducible refine Keeps.upd ?_ ?_ ?_ ?_)

theorem State.tickSteps_keeps {s1 : State} {s : State} (f : Dword) (flywheel : Bool) (installs : Bool) (h : Keeps ⟨s1, true⟩ s) :
    Keeps ⟨s1, true⟩ (State.tickSteps s f flywheel installs) := by
  unfold State.tickSteps
  exact State.frameWork_keeps flywheel installs (Keeps.updT h rfl)

theorem State.noteSkew_keeps {s0 : Base} {s : State} (time : Thirds) (h : Keeps s0 s) :
    Keeps s0 (State.noteSkew s time) := by
  unfold State.noteSkew
  repeat' first
    | (with_reducible assumption)
    | (with_reducible (first | apply State.logErr_keeps | apply State.shtEvent_keeps | apply Eng.source_keeps))
    | (dsimp only)
    | split
    | rfl
    | (with_reducible refine Keeps.upd ?_ ?_ ?_ ?_)

theorem State.tickStart_keeps {s0 : Base} {s : State} (time : Thirds) (flywheel : Bool) (installs : Bool) (h : Keeps s0 s) :
    Keeps s0 (State.tickStart s time flywheel installs) := by
  unfold State.tickStart
  try generalize List.range 16 = l16
  repeat' first
    | (with_reducible assumption)
    | (with_reducible (first | apply Keeps.foldl | apply State.advance_keeps | apply State.fireDue_keeps | apply State.noteSkew_keeps))
    | (dsimp only)
    | split
    | rfl
    | (intro _ _ _ _)
    | (intro _ _ _)
    | (intro _ _)
    | (with_reducible refine Keeps.upd ?_ ?_ ?_ ?_)

theorem State.tick_keeps {s1 : State} {s : State} (time : Thirds) (f : Dword) (flywheel : Bool) (msgInstalls : Bool) (h : Keeps ⟨s1, true⟩ s) :
    Keeps ⟨s1, true⟩ (State.tick s time f flywheel msgInstalls) := by
  unfold State.tick
  have h1 := State.tickStart_keeps time flywheel (State.installsAt s f flywheel msgInstalls) h
  dsimp only
  generalize State.tickStart s time flywheel _ = u at h1 ⊢
  generalize State.installsAt s f flywheel msgInstalls = installs
  generalize nsThirds 1000 = d
  have h2 : Keeps ⟨s1, true⟩ (State.tickSteps { u with sht := { u.sht with lastTick := time, outUntil := time + d } } f flywheel
      installs) := State.tickSteps_keeps f flywheel installs (Keeps.updT h1 rfl)
  dsimp only at h2
  generalize State.tickSteps _ f flywheel installs = v at h2 ⊢
  split
  · exact h2
  · exact Keeps.updT h2 rfl

theorem State.plannedTick_keeps {s1 : State} {s : State} (p : TickPlan) (h : Keeps ⟨s1, true⟩ s) :
    Keeps ⟨s1, true⟩ (State.plannedTick s p) := by
  unfold State.plannedTick
  repeat' first
    | (with_reducible assumption)
    | (with_reducible (first | apply State.shtEvent_keeps | apply State.tick_keeps))
    | (dsimp only)
    | split
    | rfl
    | (refine Keeps.snd (by assumption) ?_)
    | (refine Keeps.fst (by assumption) ?_)
    | (with_reducible refine Keeps.updT ?_ ?_)

theorem State.tickNow_keeps {s1 : State} {s : State}  (h : Keeps ⟨s1, true⟩ s) :
    Keeps ⟨s1, true⟩ (State.tickNow s) := by
  unfold State.tickNow
  repeat' first
    | (with_reducible assumption)
    | (with_reducible (first | apply State.plannedTick_keeps | apply State.tick_keeps))
    | (dsimp only)
    | split
    | (refine Keeps.snd (by assumption) ?_)
    | (refine Keeps.fst (by assumption) ?_)

theorem execTick_keeps {s1 : State} {s : State}  (h : Keeps ⟨s1, true⟩ s) :
    KeepsOut ⟨s1, true⟩ (execTick s) := by
  unfold execTick
  repeat' first
    | (with_reducible assumption)
    | (with_reducible (first | apply State.tickNow_keeps | apply keepsOut_ok))
    | (dsimp only)

theorem State.flywheelTick_keeps {s1 : State} {s : State}  (h : Keeps ⟨s1, true⟩ s) :
    Keeps ⟨s1, true⟩ (State.flywheelTick s) := by
  unfold State.flywheelTick
  repeat' first
    | (with_reducible assumption)
    | (with_reducible (first | apply State.incReg_keeps | apply State.shtEvent_keeps | apply State.tick_keeps))
    | (dsimp only)
    | split
    | rfl
    | (with_reducible refine Keeps.updT ?_ ?_)

theorem execFlywheelTick_keeps {s1 : State} {s : State}  (h : Keeps ⟨s1, true⟩ s) :
    KeepsOut ⟨s1, true⟩ (execFlywheelTick s) := by
  unfold execFlywheelTick
  repeat' first
    | (with_reducible assumption)
    | (with_reducible (first | apply State.flywheelTick_keeps | apply keepsOut_ok))
    | (dsimp only)

theorem execGuardBandStart_keeps {s0 : Base} {s : State}  (h : Keeps s0 s) :
    KeepsOut s0 (execGuardBandStart s) := by
  unfold execGuardBandStart
  repeat' first
    | (with_reducible assumption)
    | (with_reducible (first | apply State.advance_keeps | apply keepsOut_ok))
    | (dsimp only)
    | split
    | rfl
    | (with_reducible refine Keeps.upd ?_ ?_ ?_ ?_)

theorem State.sendTicks_keeps {s0 : Base} {s : State} (dirs : List Nat) (payload : List Byte) (h : Keeps s0 s) :
    Keeps s0 (State.sendTicks s dirs payload) := by
  unfold State.sendTicks
  repeat' first
    | (with_reducible assumption)
    | (with_reducible (first | apply Keeps.foldl | apply State.sendFlit_keeps))
    | (dsimp only)
    | split
    | (refine Keeps.snd (by assumption) ?_)
    | (refine Keeps.fst (by assumption) ?_)
    | (intro _ _ _ _)
    | (intro _ _ _)
    | (intro _ _)

theorem State.tickSend_keeps {s0 : Base} {s : State}  (h : Keeps s0 s) :
    Keeps s0 (State.tickSend s) := by
  unfold State.tickSend
  repeat' first
    | (with_reducible assumption)
    | (with_reducible (first | apply State.advance_keeps | apply State.sendTicks_keeps))
    | (dsimp only)
    | split
    | rfl
    | (refine Keeps.snd (by assumption) ?_)
    | (refine Keeps.fst (by assumption) ?_)
    | (with_reducible refine Keeps.upd ?_ ?_ ?_ ?_)

theorem execTickMessageSend_keeps {s0 : Base} {s : State}  (h : Keeps s0 s) :
    KeepsOut s0 (execTickMessageSend s) := by
  unfold execTickMessageSend
  repeat' first
    | (with_reducible assumption)
    | (with_reducible (first | apply State.tickSend_keeps | apply keepsOut_ok))
    | (dsimp only)

theorem State.judgeLock_keeps {s0 : Base} {s : State} (predicted : Option Thirds) (time : Thirds) (needed : Nat) (h : Keeps s0 s) :
    Keeps s0 (State.judgeLock s predicted time needed) := by
  unfold State.judgeLock
  repeat' first
    | (with_reducible assumption)
    | (dsimp only)
    | split
    | rfl
    | (refine Keeps.snd (by assumption) ?_)
    | (refine Keeps.fst (by assumption) ?_)
    | (with_reducible refine Keeps.upd ?_ ?_ ?_ ?_)

theorem State.takeTick_keeps {s0 : Base} {s : State} (p : TickPlan) (h : Keeps s0 s) :
    Keeps s0 (State.takeTick s p) := by
  unfold State.takeTick
  repeat' first
    | (with_reducible assumption)
    | (with_reducible (first | apply State.judgeLock_keeps | apply Eng.source_keeps))
    | (dsimp only)
    | split
    | rfl
    | (refine Keeps.snd (by assumption) ?_)
    | (refine Keeps.fst (by assumption) ?_)
    | (with_reducible refine Keeps.upd ?_ ?_ ?_ ?_)

theorem State.tickFlit_keeps {s0 : Base} {s : State} (q : Nat) (f : List Byte) (res : Nat) (h : Keeps s0 s) :
    Keeps s0 (State.tickFlit s q f res) := by
  unfold State.tickFlit
  repeat' first
    | (with_reducible assumption)
    | (with_reducible (first | apply State.sendTicks_keeps | apply State.takeTick_keeps))
    | (dsimp only)
    | split
    | rfl
    | (with_reducible refine Keeps.upd ?_ ?_ ?_ ?_)

theorem execTickMessageReceive_keeps {s0 : Base} {s : State} (q : Nat) (block : List Byte) (t : Nat) (res : Nat) (h : Keeps s0 s) :
    KeepsOut s0 (execTickMessageReceive q block t res s) := by
  unfold execTickMessageReceive
  repeat' first
    | (with_reducible assumption)
    | (with_reducible (first | apply State.advance_keeps | apply State.receive_keeps | apply State.tickFlit_keeps | apply keepsOut_ok))
    | (dsimp only)
    | (intro _ _ _ _)
    | (intro _ _ _)
    | (intro _ _)

theorem State.countEdge_keeps {s0 : Base} {s : State} (time : Thirds) (h : Keeps s0 s) :
    Keeps s0 (State.countEdge s time) := by
  unfold State.countEdge
  repeat' first
    | (with_reducible assumption)
    | (with_reducible (first | apply State.judgeLock_keeps))
    | (dsimp only)
    | split
    | rfl
    | (refine Keeps.snd (by assumption) ?_)
    | (refine Keeps.fst (by assumption) ?_)
    | (with_reducible refine Keeps.upd ?_ ?_ ?_ ?_)

theorem State.pinEdge_keeps {s0 : Base} {s : State}  (h : Keeps s0 s) :
    Keeps s0 (State.pinEdge s) := by
  unfold State.pinEdge
  repeat' first
    | (with_reducible assumption)
    | (with_reducible (first | apply State.countEdge_keeps | apply Eng.source_keeps))
    | (dsimp only)
    | split

theorem execShutterInEdge_keeps {s0 : Base} {s : State} (t : Nat) (h : Keeps s0 s) :
    KeepsOut s0 (execShutterInEdge t s) := by
  unfold execShutterInEdge
  repeat' first
    | (with_reducible assumption)
    | (with_reducible (first | apply State.advance_keeps | apply State.latchEdge_keeps | apply State.pinEdge_keeps | apply keepsOut_ok))
    | (dsimp only)

end Sys2Proof.Machine
end

