-- ==== Sys2Proof/Laws/KeepsExec.lean ====
section
/-!
SUPPORT. What every command leaves in place, for `exec` as a whole.
-/

namespace Sys2Proof.Machine

open Sys2Proof

/-- Every command keeps what `Keeps` says; only those of `Instr.mayTick` may begin a frame. -/
theorem exec_keeps (i : Instr) (s : State) : KeepsOut ⟨s, i.mayTick⟩ (exec i s) := by
  cases i with
  | tick => exact execTick_keeps (Keeps.refl s _)
  | flywheelTick => exact execFlywheelTick_keeps (Keeps.refl s _)
  | guardBandStart => exact execGuardBandStart_keeps (Keeps.refl s _)
  | tickMessageSend => exact execTickMessageSend_keeps (Keeps.refl s _)
  | tickMessageReceive q block t res => exact execTickMessageReceive_keeps _ _ _ _ (Keeps.refl s _)
  | shutterInEdge t => exact execShutterInEdge_keeps _ (Keeps.refl s _)
  | heldCoreStop p => exact execHeldCoreStop_keeps _ (Keeps.refl s _)
  | periodicTimerExpiry p i0 => exact execPeriodicTimerExpiry_keeps _ _ (Keeps.refl s _)
  | oneshotTimerExpiry p i0 => exact execOneshotTimerExpiry_keeps _ _ (Keeps.refl s _)
  | watchdogExpiry p i0 => exact execWatchdogExpiry_keeps _ _ (Keeps.refl s _)
  | inputEdge input rising => exact execInputEdge_keeps _ _ (Keeps.refl s _)
  | edgeDeliver input => exact execEdgeDeliver_keeps _ (Keeps.refl s _)
  | qTailWrite p q x => exact execQTailWrite_keeps _ _ _ (Keeps.refl s _)
  | qCtrlWrite p q x => exact execQCtrlWrite_keeps _ _ _ (Keeps.refl s _)
  | cqCtrlWrite p c x => exact execCqCtrlWrite_keeps _ _ _ (Keeps.refl s _)
  | cqHeadWrite p c x => exact execCqHeadWrite_keeps _ _ _ (Keeps.refl s _)
  | mkAdd p x => exact execMkAdd_keeps _ _ (Keeps.refl s _)
  | recordCopy p q host => exact execRecordCopy_keeps _ _ _ (Keeps.refl s _)
  | commandAdmit p q core t => exact execCommandAdmit_keeps _ _ _ _ (Keeps.refl s _)
  | commandComplete p id t => exact execCommandComplete_keeps _ _ _ (Keeps.refl s _)
  | krnLaunch p id => exact execKrnLaunch_keeps _ _ (Keeps.refl s _)
  | kernelStart p id core => exact execKernelStart_keeps _ _ _ (Keeps.refl s _)
  | movCopy p id => exact execMovCopy_keeps _ _ (Keeps.refl s _)
  | movCopy2d p id => exact execMovCopy2d_keeps _ _ (Keeps.refl s _)
  | movGather p id => exact execMovGather_keeps _ _ (Keeps.refl s _)
  | movScatter p id => exact execMovScatter_keeps _ _ (Keeps.refl s _)
  | movFill p id => exact execMovFill_keeps _ _ (Keeps.refl s _)
  | movCompress p id => exact execMovCompress_keeps _ _ (Keeps.refl s _)
  | movDecompress p id => exact execMovDecompress_keeps _ _ (Keeps.refl s _)
  | movKsload p id => exact execMovKsload_keeps _ _ (Keeps.refl s _)
  | fixTensor p id => exact execFixTensor_keeps _ _ (Keeps.refl s _)
  | rduOpen p id => exact execRduOpen_keeps _ _ (Keeps.refl s _)
  | rduContribute p id => exact execRduContribute_keeps _ _ (Keeps.refl s _)
  | grnSeed p id => exact execGrnSeed_keeps _ _ (Keeps.refl s _)
  | grnSeedLoad p id => exact execGrnSeedLoad_keeps _ _ (Keeps.refl s _)
  | grnSeedSave p id => exact execGrnSeedSave_keeps _ _ (Keeps.refl s _)
  | grnBits p id => exact execGrnBits_keeps _ _ (Keeps.refl s _)
  | grnMask p id => exact execGrnMask_keeps _ _ (Keeps.refl s _)
  | grnUniform p id => exact execGrnUniform_keeps _ _ (Keeps.refl s _)
  | grnNormal p id => exact execGrnNormal_keeps _ _ (Keeps.refl s _)
  | grnDiscrete p id => exact execGrnDiscrete_keeps _ _ (Keeps.refl s _)
  | grnSample p id => exact execGrnSample_keeps _ _ (Keeps.refl s _)
  | grnTopkExport p id => exact execGrnTopkExport_keeps _ _ (Keeps.refl s _)
  | lnkPut p id => exact execLnkPut_keeps _ _ (Keeps.refl s _)
  | lnkGet p id => exact execLnkGet_keeps _ _ (Keeps.refl s _)
  | synNop p id => exact execSynNop_keeps _ _ (Keeps.refl s _)
  | synMarkAdd p id => exact execSynMarkAdd_keeps _ _ (Keeps.refl s _)
  | synMarkSet p id => exact execSynMarkSet_keeps _ _ (Keeps.refl s _)
  | synTimestamp p id => exact execSynTimestamp_keeps _ _ (Keeps.refl s _)
  | synFrameAlign p id => exact execSynFrameAlign_keeps _ _ (Keeps.refl s _)
  | synWatchdog p id => exact execSynWatchdog_keeps _ _ (Keeps.refl s _)
  | synEvent p id => exact execSynEvent_keeps _ _ (Keeps.refl s _)
  | loadingComplete p => exact execLoadingComplete_keeps _ (Keeps.refl s _)
  | drainComplete p => exact execDrainComplete_keeps _ (Keeps.refl s _)
  | migrationLastAck p => exact execMigrationLastAck_keeps _ (Keeps.refl s _)
  | pltStage host => exact execPltStage_keeps _ (Keeps.refl s _)
  | pltAbort => exact execPltAbort_keeps (Keeps.refl s _)
  | plateValidationDone t => exact execPlateValidationDone_keeps _ (Keeps.refl s _)
  | pltStart p => exact execPltStart_keeps _ (Keeps.refl s _)
  | pltStop p => exact execPltStop_keeps _ (Keeps.refl s _)
  | pltRelease p => exact execPltRelease_keeps _ (Keeps.refl s _)
  | migrateOut p dev part => exact execMigrateOut_keeps _ _ _ (Keeps.refl s _)
  | pgRelease p => exact execPgRelease_keeps _ (Keeps.refl s _)
  | alu c w => exact execAlu_keeps _ _ (Keeps.refl s _)
  | muldiv c w => exact execMuldiv_keeps _ _ (Keeps.refl s _)
  | immediateOp c w => exact execImmediateOp_keeps _ _ (Keeps.refl s _)
  | load c w => exact execLoad_keeps _ _ (Keeps.refl s _)
  | store c w => exact execStore_keeps _ _ (Keeps.refl s _)
  | branch c w => exact execBranch_keeps _ _ (Keeps.refl s _)
  | j c w => exact execJ_keeps _ _ (Keeps.refl s _)
  | jal c w => exact execJal_keeps _ _ (Keeps.refl s _)
  | jalr c w => exact execJalr_keeps _ _ (Keeps.refl s _)
  | gate c w => exact execGate_keeps _ _ (Keeps.refl s _)
  | retg c w => exact execRetg_keeps _ _ (Keeps.refl s _)
  | rete c w => exact execRete_keeps _ _ (Keeps.refl s _)
  | yield c w => exact execYield_keeps _ _ (Keeps.refl s _)
  | endk c w => exact execEndk_keeps _ _ (Keeps.refl s _)
  | breakpoint c w => exact execBreakpoint_keeps _ _ (Keeps.refl s _)
  | waitev c w => exact execWaitev_keeps _ _ (Keeps.refl s _)
  | mfc c w => exact execMfc_keeps _ _ (Keeps.refl s _)
  | mtc c w => exact execMtc_keeps _ _ (Keeps.refl s _)
  | swc c w => exact execSwc_keeps _ _ (Keeps.refl s _)
  | setc c w => exact execSetc_keeps _ _ (Keeps.refl s _)
  | clrc c w => exact execClrc_keeps _ _ (Keeps.refl s _)
  | fenceS c w => exact execFenceS_keeps _ _ (Keeps.refl s _)
  | fenceL c w => exact execFenceL_keeps _ _ (Keeps.refl s _)
  | fenceA c w => exact execFenceA_keeps _ _ (Keeps.refl s _)
  | fenceE c w => exact execFenceE_keeps _ _ (Keeps.refl s _)
  | sync c w => exact execSync_keeps _ _ (Keeps.refl s _)
  | cleanA c w => exact execCleanA_keeps _ _ (Keeps.refl s _)
  | invA c w => exact execInvA_keeps _ _ (Keeps.refl s _)
  | clinvA c w => exact execClinvA_keeps _ _ (Keeps.refl s _)
  | cleanSw c w => exact execCleanSw_keeps _ _ (Keeps.refl s _)
  | invSw c w => exact execInvSw_keeps _ _ (Keeps.refl s _)
  | clinvSw c w => exact execClinvSw_keeps _ _ (Keeps.refl s _)
  | iinvAll c w => exact execIinvAll_keeps _ _ (Keeps.refl s _)
  | fpOp c w => exact execFpOp_keeps _ _ (Keeps.refl s _)
  | fmaOp c w => exact execFmaOp_keeps _ _ (Keeps.refl s _)
  | fpCompare c w => exact execFpCompare_keeps _ _ (Keeps.refl s _)
  | fkind c w => exact execFkind_keeps _ _ (Keeps.refl s _)
  | fnarrow c w => exact execFnarrow_keeps _ _ (Keeps.refl s _)
  | fwiden c w => exact execFwiden_keeps _ _ (Keeps.refl s _)
  | ftoi c w => exact execFtoi_keeps _ _ (Keeps.refl s _)
  | itof c w => exact execItof_keeps _ _ (Keeps.refl s _)
  | fmovg c w => exact execFmovg_keeps _ _ (Keeps.refl s _)
  | fmovf c w => exact execFmovf_keeps _ _ (Keeps.refl s _)
  | svArith c w => exact execSvArith_keeps _ _ (Keeps.refl s _)
  | svcvt c w => exact execSvcvt_keeps _ _ (Keeps.refl s _)
  | svshuf c w => exact execSvshuf_keeps _ _ (Keeps.refl s _)
  | vint c w => exact execVint_keeps _ _ (Keeps.refl s _)
  | vfp c w => exact execVfp_keeps _ _ (Keeps.refl s _)
  | vmaskCompare c w => exact execVmaskCompare_keeps _ _ (Keeps.refl s _)
  | maskLogic c w => exact execMaskLogic_keeps _ _ (Keeps.refl s _)
  | vmpopc c w => exact execVmpopc_keeps _ _ (Keeps.refl s _)
  | vmfirst c w => exact execVmfirst_keeps _ _ (Keeps.refl s _)
  | vmset c w => exact execVmset_keeps _ _ (Keeps.refl s _)
  | vsetl c w => exact execVsetl_keeps _ _ (Keeps.refl s _)
  | vmv c w => exact execVmv_keeps _ _ (Keeps.refl s _)
  | vmvScalar c w => exact execVmvScalar_keeps _ _ (Keeps.refl s _)
  | vext c w => exact execVext_keeps _ _ (Keeps.refl s _)
  | vslideup c w => exact execVslideup_keeps _ _ (Keeps.refl s _)
  | vslidedn c w => exact execVslidedn_keeps _ _ (Keeps.refl s _)
  | vgather c w => exact execVgather_keeps _ _ (Keeps.refl s _)
  | vmerge c w => exact execVmerge_keeps _ _ (Keeps.refl s _)
  | vid c w => exact execVid_keeps _ _ (Keeps.refl s _)
  | vredsum c w => exact execVredsum_keeps _ _ (Keeps.refl s _)
  | vfredsum c w => exact execVfredsum_keeps _ _ (Keeps.refl s _)
  | vfredmaxmin c w => exact execVfredmaxmin_keeps _ _ (Keeps.refl s _)
  | vld c w => exact execVld_keeps _ _ (Keeps.refl s _)
  | vldFirstFault c w => exact execVldFirstFault_keeps _ _ (Keeps.refl s _)
  | vst c w => exact execVst_keeps _ _ (Keeps.refl s _)
  | cvt c w => exact execCvt_keeps _ _ (Keeps.refl s _)
  | cvtT c w => exact execCvtT_keeps _ _ (Keeps.refl s _)
  | mxq c w => exact execMxq_keeps _ _ (Keeps.refl s _)
  | mxd c w => exact execMxd_keeps _ _ (Keeps.refl s _)
  | mopAcc c w => exact execMopAcc_keeps _ _ (Keeps.refl s _)
  | mopNacc c w => exact execMopNacc_keeps _ _ (Keeps.refl s _)
  | mopSet c w => exact execMopSet_keeps _ _ (Keeps.refl s _)
  | mopNset c w => exact execMopNset_keeps _ _ (Keeps.refl s _)
  | tld c w => exact execTld_keeps _ _ (Keeps.refl s _)
  | tldW c w => exact execTldW_keeps _ _ (Keeps.refl s _)
  | tst c w => exact execTst_keeps _ _ (Keeps.refl s _)
  | tstW c w => exact execTstW_keeps _ _ (Keeps.refl s _)
  | tsld c w => exact execTsld_keeps _ _ (Keeps.refl s _)
  | tsst c w => exact execTsst_keeps _ _ (Keeps.refl s _)
  | vfromt c w => exact execVfromt_keeps _ _ (Keeps.refl s _)
  | tfromv c w => exact execTfromv_keeps _ _ (Keeps.refl s _)
  | vfroma c w => exact execVfroma_keeps _ _ (Keeps.refl s _)
  | afromv c w => exact execAfromv_keeps _ _ (Keeps.refl s _)
  | vfromts c w => exact execVfromts_keeps _ _ (Keeps.refl s _)
  | tsfromv c w => exact execTsfromv_keeps _ _ (Keeps.refl s _)
  | azero c w => exact execAzero_keeps _ _ (Keeps.refl s _)
  | ared c w => exact execAred_keeps _ _ (Keeps.refl s _)
  | fixq c w => exact execFixq_keeps _ _ (Keeps.refl s _)
  | customInstruction c w => exact execCustomInstruction_keeps _ _ (Keeps.refl s _)
  | asyncException c => exact execAsyncException_keeps _ (Keeps.refl s _)
  | storeAccept c i0 => exact execStoreAccept_keeps _ _ (Keeps.refl s _)
  | l1dFill c a ce ue => exact execL1dFill_keeps _ _ _ _ (Keeps.refl s _)
  | instructionLineFill c a wrongPath late => exact execInstructionLineFill_keeps _ _ _ _ (Keeps.refl s _)
  | channelRead ch l flip die req => exact execChannelRead_keeps _ _ _ _ _ (Keeps.refl s _)
  | channelWrite ch l data => exact execChannelWrite_keeps _ _ _ (Keeps.refl s _)
  | partialWrite ch l data valid core => exact execPartialWrite_keeps _ _ _ _ _ (Keeps.refl s _)
  | wcAgeFlush ch t => exact execWcAgeFlush_keeps _ _ (Keeps.refl s _)
  | wcMarker c ch => exact execWcMarker_keeps _ _ (Keeps.refl s _)
  | sramAccess g kind i0 flip off data => exact execSramAccess_keeps _ _ _ _ _ _ (Keeps.refl s _)
  | refresh t => exact execRefresh_keeps _ (Keeps.refl s _)
  | thermalReading tile temp t => exact execThermalReading_keeps _ _ _ (Keeps.refl s _)
  | warningClear t => exact execWarningClear_keeps _ (Keeps.refl s _)
  | sensorSilence tile t => exact execSensorSilence_keeps _ _ (Keeps.refl s _)
  | iodieJunctionReading die temp t => exact execIodieJunctionReading_keeps _ _ _ (Keeps.refl s _)
  | agStart ch => exact execAgStart_keeps _ (Keeps.refl s _)
  | agStop ch => exact execAgStop_keeps _ (Keeps.refl s _)
  | agClear ch => exact execAgClear_keeps _ (Keeps.refl s _)
  | atpCtrlWrite ch x => exact execAtpCtrlWrite_keeps _ _ (Keeps.refl s _)
  | agitatorIssue ch t => exact execAgitatorIssue_keeps _ _ (Keeps.refl s _)
  | proofCheck ch => exact execProofCheck_keeps _ (Keeps.refl s _)
  | agitatorRunEnd ch t => exact execAgitatorRunEnd_keeps _ _ (Keeps.refl s _)
  | rprApply stores => exact execRprApply_keeps _ (Keeps.refl s _)
  | rprRemove stores => exact execRprRemove_keeps _ (Keeps.refl s _)
  | rprDigest => exact execRprDigest_keeps (Keeps.refl s _)
  | dataFlit q block t => exact execDataFlit_keeps _ _ _ (Keeps.refl s _)
  | nullFlit q block t => exact execNullFlit_keeps _ _ _ (Keeps.refl s _)
  | nakFlit q block t => exact execNakFlit_keeps _ _ _ (Keeps.refl s _)
  | badBlock q tick t => exact execBadBlock_keeps _ _ _ (Keeps.refl s _)
  | trainFlit q m t => exact execTrainFlit_keeps _ _ _ (Keeps.refl s _)
  | flitTransmit q t => exact execFlitTransmit_keeps _ _ (Keeps.refl s _)
  | retryTimeout q t => exact execRetryTimeout_keeps _ _ (Keeps.refl s _)
  | trainingComplete q t => exact execTrainingComplete_keeps _ _ (Keeps.refl s _)
  | trainingFail q t => exact execTrainingFail_keeps _ _ (Keeps.refl s _)
  | retrainDeadline q t => exact execRetrainDeadline_keeps _ _ (Keeps.refl s _)
  | mbxRetrain q => exact execMbxRetrain_keeps _ (Keeps.refl s _)
  | mbxDark q => exact execMbxDark_keeps _ (Keeps.refl s _)
  | msgWrite i0 => exact execMsgWrite_keeps _ (Keeps.refl s _)
  | msgRead i0 => exact execMsgRead_keeps _ (Keeps.refl s _)
  | msgWriteSys i0 => exact execMsgWriteSys_keeps _ (Keeps.refl s _)
  | msgReadSys i0 => exact execMsgReadSys_keeps _ (Keeps.refl s _)
  | msgMarkAdd i0 => exact execMsgMarkAdd_keeps _ (Keeps.refl s _)
  | msgMigWrite i0 => exact execMsgMigWrite_keeps _ (Keeps.refl s _)
  | msgMigCtl i0 => exact execMsgMigCtl_keeps _ (Keeps.refl s _)
  | msgRedDelta i0 => exact execMsgRedDelta_keeps _ (Keeps.refl s _)
  | msgRedResult i0 => exact execMsgRedResult_keeps _ (Keeps.refl s _)
  | msgViolation i0 => exact execMsgViolation_keeps _ (Keeps.refl s _)
  | msgMgmt i0 => exact execMsgMgmt_keeps _ (Keeps.refl s _)
  | msgWriteAck i0 => exact execMsgWriteAck_keeps _ (Keeps.refl s _)
  | msgReadData i0 => exact execMsgReadData_keeps _ (Keeps.refl s _)
  | msgMarkAck i0 => exact execMsgMarkAck_keeps _ (Keeps.refl s _)
  | msgRefuse i0 => exact execMsgRefuse_keeps _ (Keeps.refl s _)
  | msgRedAck i0 => exact execMsgRedAck_keeps _ (Keeps.refl s _)
  | deltaSend p rid u => exact execDeltaSend_keeps _ _ _ (Keeps.refl s _)
  | deltaRetry p rid => exact execDeltaRetry_keeps _ _ (Keeps.refl s _)
  | transactionTimeout dst tag t => exact execTransactionTimeout_keeps _ _ _ (Keeps.refl s _)
  | tagQuarantineEnd dst tag t => exact execTagQuarantineEnd_keeps _ _ _ (Keeps.refl s _)
  | pfW2Read rid off n => exact execPfW2Read_keeps _ _ _ (Keeps.refl s _)
  | pfW2Write rid off data poisoned => exact execPfW2Write_keeps _ _ _ _ (Keeps.refl s _)
  | vfW2Read p rid off n => exact execVfW2Read_keeps _ _ _ _ (Keeps.refl s _)
  | vfW2Write p rid off data poisoned => exact execVfW2Write_keeps _ _ _ _ _ (Keeps.refl s _)
  | atomicop path rid => exact execAtomicop_keeps _ _ (Keeps.refl s _)
  | vendorDefinedMessage rid kind mctp => exact execVendorDefinedMessage_keeps _ _ _ (Keeps.refl s _)
  | vfFlr p => exact execVfFlr_keeps _ (Keeps.refl s _)
  | pfFlr => exact execPfFlr_keeps (Keeps.refl s _)
  | hotReset linkDown => exact execHotReset_keeps _ (Keeps.refl s _)
  | d3hotEntry fn => exact execD3hotEntry_keeps _ (Keeps.refl s _)
  | d0Return fn => exact execD0Return_keeps _ (Keeps.refl s _)
  | hostLinkRetrain speed width flitMode => exact execHostLinkRetrain_keeps _ _ _ (Keeps.refl s _)
  | cxlMemRead addr rid => exact execCxlMemRead_keeps _ _ (Keeps.refl s _)
  | cxlMemWrite addr rid data => exact execCxlMemWrite_keeps _ _ _ (Keeps.refl s _)
  | identifyMemoryDevice => exact execIdentifyMemoryDevice_keeps (Keeps.refl s _)
  | getEventRecords => exact execGetEventRecords_keeps (Keeps.refl s _)
  | clearEventRecords n => exact execClearEventRecords_keeps _ (Keeps.refl s _)
  | getPoisonList addr n => exact execGetPoisonList_keeps _ _ (Keeps.refl s _)
  | msixUnmask fn v => exact execMsixUnmask_keeps _ _ (Keeps.refl s _)
  | registerWrite path rid off en data poisoned => exact execRegisterWrite_keeps _ _ _ _ _ _ (Keeps.refl s _)
  | rcRegisterRead path rid off n en => exact execRcRegisterRead_keeps _ _ _ _ _ (Keeps.refl s _)
  | loRegisterRead path rid off n en => exact execLoRegisterRead_keeps _ _ _ _ _ (Keeps.refl s _)
  | errHeadWrite x => exact execErrHeadWrite_keeps _ (Keeps.refl s _)
  | getVersion q => exact execGetVersion_keeps _ (Keeps.refl s _)
  | getCapabilities q version largest => exact execGetCapabilities_keeps _ _ _ (Keeps.refl s _)
  | negotiateAlgorithms q offered => exact execNegotiateAlgorithms_keeps _ _ (Keeps.refl s _)
  | getDigests q => exact execGetDigests_keeps _ (Keeps.refl s _)
  | getCertificate q slot off n => exact execGetCertificate_keeps _ _ _ _ (Keeps.refl s _)
  | spdmChallenge q slot nonce => exact execSpdmChallenge_keeps _ _ _ (Keeps.refl s _)
  | getMeasurements q index sign nonce => exact execGetMeasurements_keeps _ _ _ _ (Keeps.refl s _)
  | pskExchange q role part => exact execPskExchange_keeps _ _ _ (Keeps.refl s _)
  | pskFinish q key => exact execPskFinish_keeps _ _ (Keeps.refl s _)
  | heartbeat q => exact execHeartbeat_keeps _ (Keeps.refl s _)
  | keyUpdate q tag => exact execKeyUpdate_keeps _ _ (Keeps.refl s _)
  | endSession q => exact execEndSession_keeps _ (Keeps.refl s _)
  | chunkSend q handle seq last chunk => exact execChunkSend_keeps _ _ _ _ _ (Keeps.refl s _)
  | chunkGet q handle seq => exact execChunkGet_keeps _ _ _ (Keeps.refl s _)
  | heartbeatTimeout session t => exact execHeartbeatTimeout_keeps _ _ (Keeps.refl s _)
  | mctpControlMessage q cmd body => exact execMctpControlMessage_keeps _ _ _ (Keeps.refl s _)
  | sessionInfo q body => exact execSessionInfo_keeps _ _ (Keeps.refl s _)
  | prepareDigest q body => exact execPrepareDigest_keeps _ _ (Keeps.refl s _)
  | assent q body => exact execAssent_keeps _ _ (Keeps.refl s _)
  | assentStatus q body => exact execAssentStatus_keeps _ _ (Keeps.refl s _)
  | withdraw q body => exact execWithdraw_keeps _ _ (Keeps.refl s _)
  | setPsk q body stores => exact execSetPsk_keeps _ _ _ (Keeps.refl s _)
  | setPartKey q body stores => exact execSetPartKey_keeps _ _ _ (Keeps.refl s _)
  | lockRelease q body stores => exact execLockRelease_keeps _ _ _ (Keeps.refl s _)
  | debugUnlock q body stores erases => exact execDebugUnlock_keeps _ _ _ _ (Keeps.refl s _)
  | debugLock q body => exact execDebugLock_keeps _ _ (Keeps.refl s _)
  | mgmtRepair q body stores => exact execMgmtRepair_keeps _ _ _ (Keeps.refl s _)
  | getLog q body => exact execGetLog_keeps _ _ (Keeps.refl s _)
  | claim q body stores => exact execClaim_keeps _ _ _ (Keeps.refl s _)
  | assentExpiry t => exact execAssentExpiry_keeps _ (Keeps.refl s _)
  | psChallenge p t => exact execPsChallenge_keeps _ _ (Keeps.refl s _)
  | psOpen p t => exact execPsOpen_keeps _ _ (Keeps.refl s _)
  | psClose p => exact execPsClose_keeps _ (Keeps.refl s _)
  | nonceExpiry p t => exact execNonceExpiry_keeps _ _ (Keeps.refl s _)
  | lockoutEnd p t => exact execLockoutEnd_keeps _ _ (Keeps.refl s _)
  | smbusClockTimeout partner t => exact execSmbusClockTimeout_keeps _ _ (Keeps.refl s _)
  | partnerIgnoreEnd partner t => exact execPartnerIgnoreEnd_keeps _ _ (Keeps.refl s _)
  | powerOn => exact execPowerOn_keeps (Keeps.refl s _)
  | pwrgdDeassert => exact execPwrgdDeassert_keeps (Keeps.refl s _)
  | pwrgdAssert t hottest => exact execPwrgdAssert_keeps _ _ (Keeps.refl s _)
  | perstAssert => exact execPerstAssert_keeps (Keeps.refl s _)
  | perstRelease t strap => exact execPerstRelease_keeps _ _ (Keeps.refl s _)
  | holdupChange asserted => exact execHoldupChange_keeps _ (Keeps.refl s _)
  | stepRom t sound => exact execStepRom_keeps _ _ (Keeps.refl s _)
  | stepFlash t fails stores => exact execStepFlash_keeps _ _ _ (Keeps.refl s _)
  | stepImage t stores => exact execStepImage_keeps _ _ (Keeps.refl s _)
  | stepClocks t locked stores => exact execStepClocks_keeps _ _ _ (Keeps.refl s _)
  | stepHost t stores => exact execStepHost_keeps _ _ (Keeps.refl s _)
  | stepSettings t stores => exact execStepSettings_keeps _ _ (Keeps.refl s _)
  | stepTiles t sound stores => exact execStepTiles_keeps _ _ _ (Keeps.refl s _)
  | stepStacks t fail80 fail64 chans refused remaps stores => exact execStepStacks_keeps _ _ _ _ _ _ _ (Keeps.refl s _)
  | stepCores t failed stores => exact execStepCores_keeps _ _ _ (Keeps.refl s _)
  | stepMesh t half dead stores => exact execStepMesh_keeps _ _ _ _ (Keeps.refl s _)
  | stepLinks t stores => exact execStepLinks_keeps _ _ (Keeps.refl s _)
  | stepShutter t stores => exact execStepShutter_keeps _ _ (Keeps.refl s _)
  | stepPlate t stores => exact execStepPlate_keeps _ _ (Keeps.refl s _)
  | stepReady t stores bad => exact execStepReady_keeps _ _ _ (Keeps.refl s _)
  | stepWatchdogExpiry units => exact execStepWatchdogExpiry_keeps _ (Keeps.refl s _)
  | safelightWatchdogExpiry t stores => exact execSafelightWatchdogExpiry_keeps _ _ (Keeps.refl s _)
  | bootReset => exact execBootReset_keeps (Keeps.refl s _)
  | clearFailrun stores => exact execClearFailrun_keeps _ (Keeps.refl s _)
  | fwuBegin t => exact execFwuBegin_keeps _ (Keeps.refl s _)
  | eraseComplete t => exact execEraseComplete_keeps _ (Keeps.refl s _)
  | fwuWriteBlock t stores => exact execFwuWriteBlock_keeps _ _ (Keeps.refl s _)
  | fwuVerify t => exact execFwuVerify_keeps _ (Keeps.refl s _)
  | fwuActivate t stores => exact execFwuActivate_keeps _ _ (Keeps.refl s _)
  | fwuAbort t => exact execFwuAbort_keeps _ (Keeps.refl s _)
  | fwuConfirm stores bad => exact execFwuConfirm_keeps _ _ (Keeps.refl s _)
  | fwuRevert stores => exact execFwuRevert_keeps _ (Keeps.refl s _)
  | updateTimeout t => exact execUpdateTimeout_keeps _ (Keeps.refl s _)
  | activateReset => exact execActivateReset_keeps (Keeps.refl s _)
  | requestUpdate q maxXfer => exact execRequestUpdate_keeps _ _ (Keeps.refl s _)
  | passComponentTable q ident => exact execPassComponentTable_keeps _ _ (Keeps.refl s _)
  | updateComponent q ident size => exact execUpdateComponent_keeps _ _ _ (Keeps.refl s _)
  | firmwareDataReceive q data stores => exact execFirmwareDataReceive_keeps _ _ _ (Keeps.refl s _)
  | activateFirmware q selfContained stores => exact execActivateFirmware_keeps _ _ _ (Keeps.refl s _)
  | cancelUpdateComponent q => exact execCancelUpdateComponent_keeps _ (Keeps.refl s _)
  | cancelUpdate q => exact execCancelUpdate_keeps _ (Keeps.refl s _)
  | getStatus q => exact execGetStatus_keeps _ (Keeps.refl s _)
  | getFirmwareParameters q => exact execGetFirmwareParameters_keeps _ (Keeps.refl s _)
  | parityError kind unit t => exact execParityError_keeps _ _ _ (Keeps.refl s _)
  | meshEdgeFailure e ports t => exact execMeshEdgeFailure_keeps _ _ _ (Keeps.refl s _)
  | flashLogWrite stores => exact execFlashLogWrite_keeps _ (Keeps.refl s _)
  | blockLockLoss q t => exact execBlockLockLoss_keeps _ _ (Keeps.refl s _)
  | signalOnDarkPort q => exact execSignalOnDarkPort_keeps _ (Keeps.refl s _)
  | meshFlitRetry e t => exact execMeshFlitRetry_keeps _ _ (Keeps.refl s _)
  | configurationRequest r => exact execConfigurationRequest_keeps _ (Keeps.refl s _)
  | ideKmRequest q r => exact execIdeKmRequest_keeps _ _ (Keeps.refl s _)
  | loupeRequest r => exact execLoupeRequest_keeps _ (Keeps.refl s _)
  | repairOperationComplete code lines stores => exact execRepairOperationComplete_keeps _ _ _ (Keeps.refl s _)
  | verifyComplete t => exact execVerifyComplete_keeps _ (Keeps.refl s _)
  | safelightRestartComplete t => exact execSafelightRestartComplete_keeps _ (Keeps.refl s _)

end Sys2Proof.Machine
end

