-- ==== Sys2Proof/Laws/Records.lean ====
section
/-!
SUPPORT. What raising an event and writing an error record may change: registers, the error block, MSI-X pending bits, what is
sent, and the admission of partitions.
-/

namespace Sys2Proof.Machine

open Sys2Proof

/-- `t` differs from `s` in reports alone: registers, the error block, the host interface's pending bits, what has been sent,
and the commands and partitions that an error stops. -/
def Reports (s t : State) : Prop :=
  t = { s with regs := t.regs, err := t.err, host := t.host, out := t.out, sched := t.sched, parts := t.parts }

/-- The equation itself. -/
theorem Reports.eq {s t : State} (h : Reports s t) :
    t = { s with regs := t.regs, err := t.err, host := t.host, out := t.out, sched := t.sched, parts := t.parts } := h

theorem Reports.refl (s : State) : Reports s s := rfl

theorem Reports.trans {s t u : State} (h : Reports s t) (k : Reports t u) : Reports s u := by
  unfold Reports at *
  rw [k, h]

theorem Reports.foldl {α : Type} {f : State → α → State} {l : List α} {s : State} (h : ∀ t a, Reports t (f t a)) :
    Reports s (l.foldl f s) := by
  induction l generalizing s with
  | nil => exact Reports.refl s
  | cons a l ih => exact (h s a).trans ih

/-- A change of the error block alone. -/
theorem Reports.setErr {s t : State} (h : Reports s t) (e : ErrSt) : Reports s { t with err := e } := h.trans rfl

/-- Either branch of a choice. -/
theorem Reports.ite {c : Prop} [Decidable c] {s t u : State} (h : Reports s t) (k : Reports s u) :
    Reports s (if c then t else u) := by
  split
  · exact h
  · exact k

theorem State.setReg_reports (s : State) (k : Nat) (w : Word) : Reports s (s.setReg k w) := rfl

theorem State.requestMsix_reports (s : State) (f v : Nat) : Reports s (s.requestMsix f v) := by
  unfold State.requestMsix State.sendMsix
  split
  · rfl
  · split <;> rfl

theorem State.toStream_reports (s : State) (e : StreamEntry) : Reports s (s.toStream e) := by
  unfold State.toStream
  dsimp only
  repeat' split
  all_goals rfl

theorem State.raise_reports (s : State) (fn ev irq bit vec : Nat) : Reports s (s.raise fn ev irq bit vec) := by
  unfold State.raise
  dsimp only
  have h : Reports s ((s.orReg ev bit).toStream (.event ev bit)) :=
    Reports.trans (show Reports s (s.orReg ev bit) from rfl) (State.toStream_reports _ _)
  split
  · exact h.trans (State.requestMsix_reports _ _ _)
  · exact h

theorem State.ringPut_reports (s : State) (r : ErrRec) : Reports s (s.ringPut r) := by
  unfold State.ringPut State.errEvent
  split
  · split
    · exact ((Reports.refl s).setErr _).trans ((State.raise_reports _ _ _ _ _ _).trans (State.raise_reports _ _ _ _ _ _))
    · exact (show Reports s (s.incReg _) from rfl).trans (State.raise_reports _ _ _ _ _ _)
  · split
    · exact ((Reports.refl s).setErr _).trans (State.raise_reports _ _ _ _ _ _)
    · exact (show Reports s (s.incReg _) from rfl).trans (State.raise_reports _ _ _ _ _ _)

theorem State.contain_reports (s : State) (p source code : Nat) : Reports s (s.contain p source code) := by
  unfold State.contain
  dsimp only
  split <;> rfl

theorem State.fatalStop_reports (s : State) (source code : Nat) : Reports s (s.fatalStop source code) := by
  unfold State.fatalStop State.stopAllCmds
  generalize List.range 16 = l
  dsimp only
  refine Reports.trans (t := List.foldl _ _ _) ?_ rfl
  exact ((Reports.refl s).setErr _).trans (Reports.foldl fun _ _ => rfl)

theorem State.logErrWrite_reports (s : State) (a : ErrArg) (cls fr count : Nat) (rest : List SuppEntry) (limited : Bool) :
    Reports s (s.logErrWrite a cls fr count rest limited) := by
  unfold State.logErrWrite
  dsimp only
  refine Reports.ite (Reports.trans (t := ite _ _ _) ?_ (State.contain_reports _ _ _ _))
    (Reports.ite (Reports.trans (t := ite _ _ _) ?_ (State.fatalStop_reports _ _ _)) ?_)
  all_goals
    refine Reports.ite (Reports.setErr (t := ite _ _ _) ?_ _) ?_
  all_goals
    exact Reports.ite (((Reports.refl s).setErr _).trans ((State.toStream_reports _ _).trans (State.ringPut_reports _ _)))
      ((((Reports.refl s).setErr _).trans (State.toStream_reports _ _)).setErr _)

theorem State.logErr_reports (s : State) (a : ErrArg) : Reports s (s.logErr a) := by
  unfold State.logErr
  dsimp only
  split
  · split
    · rfl
    · exact State.logErrWrite_reports _ _ _ _ _ _ _
  · exact State.logErrWrite_reports _ _ _ _ _ _ _
  · exact State.logErrWrite_reports _ _ _ _ _ _ _

/-! ## What a report leaves -/

@[simp] theorem State.logErr_pending (s : State) (a : ErrArg) : (s.logErr a).pending = s.pending := by rw [(s.logErr_reports a).eq]
@[simp] theorem State.logErr_drawn (s : State) (a : ErrArg) : (s.logErr a).drawn = s.drawn := by rw [(s.logErr_reports a).eq]
@[simp] theorem State.logErr_now (s : State) (a : ErrArg) : (s.logErr a).now = s.now := by rw [(s.logErr_reports a).eq]
@[simp] theorem State.logErr_latches (s : State) (a : ErrArg) : (s.logErr a).latches = s.latches := by rw [(s.logErr_reports a).eq]
@[simp] theorem State.logErr_sht (s : State) (a : ErrArg) : (s.logErr a).sht = s.sht := by rw [(s.logErr_reports a).eq]
@[simp] theorem State.logErr_plate (s : State) (a : ErrArg) : (s.logErr a).plate = s.plate := by rw [(s.logErr_reports a).eq]
@[simp] theorem State.logErr_edges (s : State) (a : ErrArg) : (s.logErr a).edges = s.edges := by rw [(s.logErr_reports a).eq]
@[simp] theorem State.logErr_mem (s : State) (a : ErrArg) : (s.logErr a).mem = s.mem := by rw [(s.logErr_reports a).eq]
@[simp] theorem State.logErr_late (s : State) (a : ErrArg) : (s.logErr a).late = s.late := by rw [(s.logErr_reports a).eq]
@[simp] theorem State.logErr_cores (s : State) (a : ErrArg) : (s.logErr a).cores = s.cores := by rw [(s.logErr_reports a).eq]
@[simp] theorem State.logErr_clusters (s : State) (a : ErrArg) : (s.logErr a).clusters = s.clusters := by rw [(s.logErr_reports a).eq]
@[simp] theorem State.logErr_grains (s : State) (a : ErrArg) : (s.logErr a).grains = s.grains := by rw [(s.logErr_reports a).eq]
@[simp] theorem State.logErr_stackTab (s : State) (a : ErrArg) : (s.logErr a).stackTab = s.stackTab := by rw [(s.logErr_reports a).eq]
@[simp] theorem State.logErr_units (s : State) (a : ErrArg) : (s.logErr a).units = s.units := by rw [(s.logErr_reports a).eq]
@[simp] theorem State.logErr_agits (s : State) (a : ErrArg) : (s.logErr a).agits = s.agits := by rw [(s.logErr_reports a).eq]
@[simp] theorem State.logErr_repair (s : State) (a : ErrArg) : (s.logErr a).repair = s.repair := by rw [(s.logErr_reports a).eq]
@[simp] theorem State.logErr_env (s : State) (a : ErrArg) : (s.logErr a).env = s.env := by rw [(s.logErr_reports a).eq]
@[simp] theorem State.logErr_boot (s : State) (a : ErrArg) : (s.logErr a).boot = s.boot := by rw [(s.logErr_reports a).eq]
@[simp] theorem State.logErr_nv (s : State) (a : ErrArg) : (s.logErr a).nv = s.nv := by rw [(s.logErr_reports a).eq]
@[simp] theorem State.logErr_aon (s : State) (a : ErrArg) : (s.logErr a).aon = s.aon := by rw [(s.logErr_reports a).eq]
@[simp] theorem State.logErr_mgmt (s : State) (a : ErrArg) : (s.logErr a).mgmt = s.mgmt := by rw [(s.logErr_reports a).eq]
@[simp] theorem State.logErr_fwu (s : State) (a : ErrArg) : (s.logErr a).fwu = s.fwu := by rw [(s.logErr_reports a).eq]
@[simp] theorem State.logErr_links (s : State) (a : ErrArg) : (s.logErr a).links = s.links := by rw [(s.logErr_reports a).eq]
@[simp] theorem State.logErr_rdu (s : State) (a : ErrArg) : (s.logErr a).rdu = s.rdu := by rw [(s.logErr_reports a).eq]
@[simp] theorem State.logErr_psess (s : State) (a : ErrArg) : (s.logErr a).psess = s.psess := by rw [(s.logErr_reports a).eq]
@[simp] theorem State.raise_pending (s : State) (fn ev irq bit vec : Nat) : (s.raise fn ev irq bit vec).pending = s.pending :=
  by rw [(s.raise_reports fn ev irq bit vec).eq]
@[simp] theorem State.raise_drawn (s : State) (fn ev irq bit vec : Nat) : (s.raise fn ev irq bit vec).drawn = s.drawn :=
  by rw [(s.raise_reports fn ev irq bit vec).eq]
@[simp] theorem State.raise_now (s : State) (fn ev irq bit vec : Nat) : (s.raise fn ev irq bit vec).now = s.now :=
  by rw [(s.raise_reports fn ev irq bit vec).eq]
@[simp] theorem State.raise_latches (s : State) (fn ev irq bit vec : Nat) : (s.raise fn ev irq bit vec).latches = s.latches :=
  by rw [(s.raise_reports fn ev irq bit vec).eq]
@[simp] theorem State.raise_sht (s : State) (fn ev irq bit vec : Nat) : (s.raise fn ev irq bit vec).sht = s.sht :=
  by rw [(s.raise_reports fn ev irq bit vec).eq]
@[simp] theorem State.raise_plate (s : State) (fn ev irq bit vec : Nat) : (s.raise fn ev irq bit vec).plate = s.plate :=
  by rw [(s.raise_reports fn ev irq bit vec).eq]
@[simp] theorem State.raise_edges (s : State) (fn ev irq bit vec : Nat) : (s.raise fn ev irq bit vec).edges = s.edges :=
  by rw [(s.raise_reports fn ev irq bit vec).eq]
@[simp] theorem State.raise_mem (s : State) (fn ev irq bit vec : Nat) : (s.raise fn ev irq bit vec).mem = s.mem :=
  by rw [(s.raise_reports fn ev irq bit vec).eq]
@[simp] theorem State.raise_late (s : State) (fn ev irq bit vec : Nat) : (s.raise fn ev irq bit vec).late = s.late :=
  by rw [(s.raise_reports fn ev irq bit vec).eq]
@[simp] theorem State.raise_cores (s : State) (fn ev irq bit vec : Nat) : (s.raise fn ev irq bit vec).cores = s.cores :=
  by rw [(s.raise_reports fn ev irq bit vec).eq]
@[simp] theorem State.raise_clusters (s : State) (fn ev irq bit vec : Nat) : (s.raise fn ev irq bit vec).clusters = s.clusters :=
  by rw [(s.raise_reports fn ev irq bit vec).eq]
@[simp] theorem State.raise_grains (s : State) (fn ev irq bit vec : Nat) : (s.raise fn ev irq bit vec).grains = s.grains :=
  by rw [(s.raise_reports fn ev irq bit vec).eq]
@[simp] theorem State.raise_stackTab (s : State) (fn ev irq bit vec : Nat) : (s.raise fn ev irq bit vec).stackTab = s.stackTab :=
  by rw [(s.raise_reports fn ev irq bit vec).eq]
@[simp] theorem State.raise_units (s : State) (fn ev irq bit vec : Nat) : (s.raise fn ev irq bit vec).units = s.units :=
  by rw [(s.raise_reports fn ev irq bit vec).eq]
@[simp] theorem State.raise_agits (s : State) (fn ev irq bit vec : Nat) : (s.raise fn ev irq bit vec).agits = s.agits :=
  by rw [(s.raise_reports fn ev irq bit vec).eq]
@[simp] theorem State.raise_repair (s : State) (fn ev irq bit vec : Nat) : (s.raise fn ev irq bit vec).repair = s.repair :=
  by rw [(s.raise_reports fn ev irq bit vec).eq]
@[simp] theorem State.raise_env (s : State) (fn ev irq bit vec : Nat) : (s.raise fn ev irq bit vec).env = s.env :=
  by rw [(s.raise_reports fn ev irq bit vec).eq]
@[simp] theorem State.raise_boot (s : State) (fn ev irq bit vec : Nat) : (s.raise fn ev irq bit vec).boot = s.boot :=
  by rw [(s.raise_reports fn ev irq bit vec).eq]
@[simp] theorem State.raise_nv (s : State) (fn ev irq bit vec : Nat) : (s.raise fn ev irq bit vec).nv = s.nv :=
  by rw [(s.raise_reports fn ev irq bit vec).eq]
@[simp] theorem State.raise_aon (s : State) (fn ev irq bit vec : Nat) : (s.raise fn ev irq bit vec).aon = s.aon :=
  by rw [(s.raise_reports fn ev irq bit vec).eq]
@[simp] theorem State.raise_mgmt (s : State) (fn ev irq bit vec : Nat) : (s.raise fn ev irq bit vec).mgmt = s.mgmt :=
  by rw [(s.raise_reports fn ev irq bit vec).eq]
@[simp] theorem State.raise_fwu (s : State) (fn ev irq bit vec : Nat) : (s.raise fn ev irq bit vec).fwu = s.fwu :=
  by rw [(s.raise_reports fn ev irq bit vec).eq]
@[simp] theorem State.raise_links (s : State) (fn ev irq bit vec : Nat) : (s.raise fn ev irq bit vec).links = s.links :=
  by rw [(s.raise_reports fn ev irq bit vec).eq]
@[simp] theorem State.raise_rdu (s : State) (fn ev irq bit vec : Nat) : (s.raise fn ev irq bit vec).rdu = s.rdu :=
  by rw [(s.raise_reports fn ev irq bit vec).eq]
@[simp] theorem State.raise_psess (s : State) (fn ev irq bit vec : Nat) : (s.raise fn ev irq bit vec).psess = s.psess :=
  by rw [(s.raise_reports fn ev irq bit vec).eq]

end Sys2Proof.Machine
end

