-- ==== Sys2Proof/Laws/Shutter.lean ====
section
/-!
SUPPORT. What a tick leaves in the Shutter.
-/

namespace Sys2Proof.Machine

open Sys2Proof

/-- The steps of a tick leave the frame number and the time of the tick, and open the frame. -/
theorem State.frameWork_shutter (s : State) (fl ins : Bool) :
    (s.frameWork fl ins).sht.frame = s.sht.frame ∧ (s.frameWork fl ins).sht.lastTick = s.sht.lastTick ∧
    (s.frameWork fl ins).sht.open_ = true ∧ (s.frameWork fl ins).sht.guardBand = false ∧
    (s.frameWork fl ins).sht.flywheel = fl ∧ (s.frameWork fl ins).sht.started = true := by
  have k := State.frameWork_keeps fl ins (Keeps.refl s false)
  refine ⟨k.frame rfl, k.last rfl, ?_⟩
  unfold State.frameWork
  generalize List.range 16 = l
  dsimp only
  generalize List.foldl State.migPump _ l = v
  exact ⟨rfl, rfl, rfl, rfl⟩

/-- A tick leaves its frame number and its time, and the frame open. -/
theorem State.tick_shutter (s : State) (time : Thirds) (f : Dword) (fl m : Bool) :
    (s.tick time f fl m).sht.frame = f ∧ (s.tick time f fl m).sht.lastTick = time ∧ (s.tick time f fl m).sht.open_ = true ∧
    (s.tick time f fl m).sht.guardBand = false ∧ (s.tick time f fl m).sht.flywheel = fl ∧
    (s.tick time f fl m).sht.started = true := by
  unfold State.tick State.tickSteps
  dsimp only
  generalize State.tickStart _ _ _ _ = u
  generalize State.installsAt _ _ _ _ = ins
  have h := State.frameWork_shutter { u with sht := { u.sht with lastTick := time, outUntil := time + nsThirds 1000, frame := f } } fl ins
  dsimp only at h
  generalize State.frameWork _ fl ins = v at h ⊢
  split <;> exact h

end Sys2Proof.Machine
end

