-- ==== Sys2Proof/Laws/Vector.lean ====
section
/-!
SUPPORT. The writes of the floating-point, vector and matrix instructions leave a core's control part alone, but for what
they name.
-/

namespace Sys2Proof.Machine

theorem State.modCore_ctl (s : State) (c d : Nat) (f : Core → Core) (h : (f (s.core c)).ctl = (s.core c).ctl) :
    ((s.modCore c f).core d).ctl = (s.core d).ctl := by
  by_cases e : d = c
  · subst e; rw [State.core_modCore_same, h]
  · rw [State.core_modCore_ne _ _ _ _ e]

@[simp] theorem State.setF_ctl (s : State) (c d r : Nat) (v : Dword) : ((s.setF c r v).core d).ctl = (s.core d).ctl :=
  State.modRegs_ctl _ _ _ _

@[simp] theorem State.setM_ctl (s : State) (c d n x : Nat) : ((s.setM c n x).core d).ctl = (s.core d).ctl :=
  State.modRegs_ctl _ _ _ _

@[simp] theorem State.setT_ctl (s : State) (c d n : Nat) (x : VReg) : ((s.setT c n x).core d).ctl = (s.core d).ctl :=
  State.modRegs_ctl _ _ _ _

@[simp] theorem State.setTs_ctl (s : State) (c d n : Nat) (x : Line) : ((s.setTs c n x).core d).ctl = (s.core d).ctl :=
  State.modRegs_ctl _ _ _ _

@[simp] theorem State.setA_ctl (s : State) (c d n : Nat) (x : VReg) : ((s.setA c n x).core d).ctl = (s.core d).ctl :=
  State.modRegs_ctl _ _ _ _

@[simp] theorem State.setV_ctl (s : State) (c d n : Nat) (x : VReg) : ((s.setV c n x).core d).ctl = (s.core d).ctl :=
  State.modRegs_ctl _ _ _ _

@[simp] theorem State.setQ_ctl (s : State) (c d n x : Nat) : ((s.setQ c n x).core d).ctl = (s.core d).ctl := by
  unfold State.setQ; simp

theorem State.foldl_ctl {α : Type} (d : Nat) (f : State → α → State)
    (h : ∀ s a, ((f s a).core d).ctl = (s.core d).ctl) (l : List α) (s : State) :
    ((l.foldl f s).core d).ctl = (s.core d).ctl := by
  induction l generalizing s with
  | nil => rfl
  | cons a l ih => rw [List.foldl_cons, ih, h]

@[simp] theorem State.setGroup_ctl (s : State) (c d base n x : Nat) :
    ((s.setGroup c base n x).core d).ctl = (s.core d).ctl :=
  State.foldl_ctl d _ (fun _ _ => State.modRegs_ctl _ _ _ _) _ _

@[simp] theorem State.bump_ctl (s : State) (c d num n : Nat) : ((s.bump c num n).core d).ctl = (s.core d).ctl :=
  State.modCore_ctl _ _ _ _ rfl

@[simp] theorem State.fpEnd_delay (s : State) (c fl : Nat) : ((s.fpEnd c fl).core c).ctl.delay = (s.core c).ctl.delay := by
  unfold State.fpEnd State.modCtl; rw [State.core_modCore_same]

@[simp] theorem State.vecEnd_delay (s : State) (c fl n : Nat) : ((s.vecEnd c fl n).core c).ctl.delay = (s.core c).ctl.delay := by
  unfold State.vecEnd
  rw [State.bump_ctl]
  unfold State.modCtl
  rw [State.core_modCore_same]

@[simp] theorem State.draw_core (s : State) (d : Nat) : (s.draw.2.core d) = s.core d := rfl

end Sys2Proof.Machine
end

