-- ==== Sys2Proof/Tests/Slice0.lean ====
section
/-!
SUPPORT. Tests of the model: ill-formed commands are refused by the well-formedness check, single commands have the effect the
spec works out, and for every statement with hypotheses a concrete state that meets them.
-/

set_option Elab.async false

namespace Sys2Proof.Tests

open Sys2Proof Sys2Proof.Machine

/-- The state a command leaves, if it answers one. -/
def after (o : Host.Outcome State Fault Refusal) : State := match o with
  | .next s => s
  | _ => State.reset

/-- An instruction word in R format. -/
def rWord (major rd ra rb c func : Nat) : Word :=
  BitVec.ofNat 32 (major * 2 ^ 26 + rd * 2 ^ 21 + ra * 2 ^ 16 + rb * 2 ^ 11 + c * 2 ^ 6 + func)

/-- An instruction word with a 16-bit immediate. -/
def iWord (major rd ra imm : Nat) : Word := BitVec.ofNat 32 (major * 2 ^ 26 + rd * 2 ^ 21 + ra * 2 ^ 16 + imm)

/-- A plate with partition 0 on granule 0: its tray at 0, its DRAM at 2^32, timers of the three kinds and input 0. -/
def plate0 : Plate := { parts := [{
  clusters := 1, spanning := true
  inputs := [{ edge := 1, mark := 7 }]
  timers := [{ id := 9, kind := 1, mark := 1, period := 10 }, { kind := 2, mark := 2, period := 10 }, { kind := 3, mark := 3, period := 10 }]
  segs := [{ base := 0, size := 2 ^ 21, target := 0x800 * 2 ^ 32, mode := 1, perm := 3 },
           { base := 2 ^ 32, size := 2 ^ 30, target := 0, mode := 1, perm := 7 }] }] }

/-- A device in mission with partition 0 running, its session open and core 0 executing. -/
def dev : State := { State.reset with
  cores := [(0, { run := .running, ctl := { pc := 0x100 } })]
  boot := { ready := true, held := false, step := 14 }
  host := { en := true, vfEnable := true, numVfs := 16 }
  plate := { en := true, installed := some plate0 }
  parts := [(0, { state := .running })]
  psess := [(0, { state := .opened })]
  env := { pwrgd := true, perst := false }
  sht := { en := true, started := true, open_ := true }
  stackTab := [(0, { enabled := true })]
  mgmt := { up := true } }

/-- The same device with another core 0. -/
def withCore (k : Core) : State := { dev with cores := [(0, k)] }

/-! ## Well-formedness -/

/-- The greatest number allowed of each kind. -/
theorem test_wf_accepts_bounds : ([.pltStart 15, .qTailWrite 15 31 0, .commandAdmit 15 255 4095 0, .alu 4095 0, .migrateOut 15 255 15,
    .periodicTimerExpiry 15 7, .inputEdge 4 true, .channelRead 511 (2 ^ 25 - 1) 0 (some 15) 0, .sramAccess 255 0 (2 ^ 18 - 1) 0 0 [],
    .dataFlit 15 [] 0, .deltaSend 15 65535 16, .registerWrite 18 65535 0 0 [] false, .msixUnmask 16 2047,
    .getVersion { packet := 4 }] : List Instr).all Instr.wf = true := by decide

theorem test_wf_refuses_0 : ([
    .tickMessageReceive 16 [] 0 0, .heldCoreStop 16, .periodicTimerExpiry 16 0, .periodicTimerExpiry 0 8,
    .oneshotTimerExpiry 16 0, .oneshotTimerExpiry 0 8, .watchdogExpiry 16 0, .watchdogExpiry 0 8, .inputEdge 5 true,
    .edgeDeliver 5, .qTailWrite 16 0 0, .qTailWrite 0 32 0, .qCtrlWrite 16 0 0, .qCtrlWrite 0 32 0, .cqCtrlWrite 16 0 0,
    .cqCtrlWrite 0 32 0, .cqHeadWrite 16 0 0, .cqHeadWrite 0 32 0, .mkAdd 16 0, .recordCopy 16 0 none, .recordCopy 0 32 none,
    .commandAdmit 16 0 0 0, .commandAdmit 0 32 0 0, .commandAdmit 0 0 4096 0, .commandComplete 16 0 0, .krnLaunch 16 0,
    .kernelStart 16 0 0, .kernelStart 0 0 4096, .movCopy 16 0, .movCopy2d 16 0, .movGather 16 0, .movScatter 16 0, .movFill 16 0,
    .movCompress 16 0, .movDecompress 16 0, .movKsload 16 0, .fixTensor 16 0, .rduOpen 16 0, .rduContribute 16 0, .grnSeed 16 0,
    .grnSeedLoad 16 0, .grnSeedSave 16 0, .grnBits 16 0, .grnMask 16 0, .grnUniform 16 0] : List Instr).all (fun i => !i.wf) = true := by decide

theorem test_wf_refuses_1 : ([
    .grnNormal 16 0, .grnDiscrete 16 0, .grnSample 16 0, .grnTopkExport 16 0, .lnkPut 16 0, .lnkGet 16 0, .synNop 16 0,
    .synMarkAdd 16 0, .synMarkSet 16 0, .synTimestamp 16 0, .synFrameAlign 16 0, .synWatchdog 16 0, .synEvent 16 0,
    .loadingComplete 16, .drainComplete 16, .migrationLastAck 16, .pltStart 16, .pltStop 16, .pltRelease 16, .migrateOut 16 0 0,
    .migrateOut 0 256 0, .migrateOut 0 0 16, .pgRelease 16, .alu 4096 0, .muldiv 4096 0, .immediateOp 4096 0, .load 4096 0,
    .store 4096 0, .branch 4096 0, .j 4096 0, .jal 4096 0, .jalr 4096 0, .gate 4096 0, .retg 4096 0, .rete 4096 0, .yield 4096 0,
    .endk 4096 0, .breakpoint 4096 0, .waitev 4096 0, .mfc 4096 0, .mtc 4096 0, .swc 4096 0, .setc 4096 0, .clrc 4096 0,
    .fenceS 4096 0] : List Instr).all (fun i => !i.wf) = true := by decide

theorem test_wf_refuses_2 : ([
    .fenceL 4096 0, .fenceA 4096 0, .fenceE 4096 0, .sync 4096 0, .cleanA 4096 0, .invA 4096 0, .clinvA 4096 0, .cleanSw 4096 0,
    .invSw 4096 0, .clinvSw 4096 0, .iinvAll 4096 0, .fpOp 4096 0, .fmaOp 4096 0, .fpCompare 4096 0, .fkind 4096 0,
    .fnarrow 4096 0, .fwiden 4096 0, .ftoi 4096 0, .itof 4096 0, .fmovg 4096 0, .fmovf 4096 0, .svArith 4096 0, .svcvt 4096 0,
    .svshuf 4096 0, .vint 4096 0, .vfp 4096 0, .vmaskCompare 4096 0, .maskLogic 4096 0, .vmpopc 4096 0, .vmfirst 4096 0,
    .vmset 4096 0, .vsetl 4096 0, .vmv 4096 0, .vmvScalar 4096 0, .vext 4096 0, .vslideup 4096 0, .vslidedn 4096 0,
    .vgather 4096 0, .vmerge 4096 0, .vid 4096 0, .vredsum 4096 0, .vfredsum 4096 0, .vfredmaxmin 4096 0, .vld 4096 0,
    .vldFirstFault 4096 0] : List Instr).all (fun i => !i.wf) = true := by decide

theorem test_wf_refuses_3 : ([
    .vst 4096 0, .cvt 4096 0, .cvtT 4096 0, .mxq 4096 0, .mxd 4096 0, .mopAcc 4096 0, .mopNacc 4096 0, .mopSet 4096 0,
    .mopNset 4096 0, .tld 4096 0, .tldW 4096 0, .tst 4096 0, .tstW 4096 0, .tsld 4096 0, .tsst 4096 0, .vfromt 4096 0,
    .tfromv 4096 0, .vfroma 4096 0, .afromv 4096 0, .vfromts 4096 0, .tsfromv 4096 0, .azero 4096 0, .ared 4096 0, .fixq 4096 0,
    .customInstruction 4096 0, .asyncException 4096, .storeAccept 4096 0, .l1dFill 4096 0 0 0,
    .instructionLineFill 4096 0 true true, .channelRead 512 0 0 none 0, .channelRead 0 (2 ^ 25) 0 none 0,
    .channelRead 0 0 0 (some 16) 0, .channelWrite 512 0 0, .channelWrite 0 (2 ^ 25) 0, .partialWrite 512 0 0 0 none,
    .partialWrite 0 (2 ^ 25) 0 0 none, .partialWrite 0 0 0 0 (some 4096), .wcAgeFlush 512 0, .wcMarker 4096 0, .wcMarker 0 512,
    .sramAccess 256 0 0 0 0 [], .sramAccess 0 2 0 0 0 [], .sramAccess 0 0 (2 ^ 18) 0 0 [], .thermalReading 16 0 0,
    .sensorSilence 16 0] : List Instr).all (fun i => !i.wf) = true := by decide

theorem test_wf_refuses_4 : ([
    .iodieJunctionReading 2 0 0, .agStart 512, .agStop 512, .agClear 512, .atpCtrlWrite 512 0, .agitatorIssue 512 0,
    .proofCheck 512, .agitatorRunEnd 512 0, .dataFlit 16 [] 0, .nullFlit 16 [] 0, .nakFlit 16 [] 0, .badBlock 16 true 0,
    .trainFlit 16 (.echo 0 0) 0, .flitTransmit 16 0, .retryTimeout 16 0, .trainingComplete 16 0, .trainingFail 16 0,
    .retrainDeadline 16 0, .mbxRetrain 16, .mbxDark 16, .deltaSend 16 0 0, .deltaSend 0 65536 0, .deltaSend 0 0 17,
    .deltaRetry 16 0, .deltaRetry 0 65536, .transactionTimeout 256 0 0, .transactionTimeout 0 65536 0, .tagQuarantineEnd 256 0 0,
    .tagQuarantineEnd 0 65536 0, .pfW2Read 65536 0 0, .pfW2Write 65536 0 [] true, .vfW2Read 16 0 0 0, .vfW2Read 0 65536 0 0,
    .vfW2Write 16 0 0 [] true, .vfW2Write 0 65536 0 [] true, .atomicop 19 0, .atomicop 0 65536,
    .vendorDefinedMessage 65536 0 true, .vfFlr 16, .d3hotEntry 17, .d0Return 17, .cxlMemRead 0 65536, .cxlMemWrite 0 65536 0,
    .msixUnmask 17 0, .msixUnmask 0 2048] : List Instr).all (fun i => !i.wf) = true := by decide

theorem test_wf_refuses_5 : ([
    .registerWrite 19 0 0 0 [] true, .registerWrite 0 65536 0 0 [] true, .rcRegisterRead 19 0 0 0 0,
    .rcRegisterRead 0 65536 0 0 0, .loRegisterRead 19 0 0 0 0, .loRegisterRead 0 65536 0 0 0, .getVersion { packet := 1 },
    .getCapabilities { packet := 1 } 0 0, .negotiateAlgorithms { packet := 1 } true, .getDigests { packet := 1 },
    .getCertificate { packet := 1 } 0 0 0, .spdmChallenge { packet := 1 } 0 [], .getMeasurements { packet := 1 } 0 true [],
    .pskExchange { packet := 1 } 0 0, .pskExchange {} 0 16, .pskFinish { packet := 1 } 0, .heartbeat { packet := 1 },
    .keyUpdate { packet := 1 } 0, .keyUpdate {} 65536, .endSession { packet := 1 }, .chunkSend { packet := 1 } 0 0 true [],
    .chunkGet { packet := 1 } 0 0, .mctpControlMessage { packet := 1 } 0 [], .sessionInfo { packet := 1 } [],
    .prepareDigest { packet := 1 } [], .assent { packet := 1 } [], .assentStatus { packet := 1 } [], .withdraw { packet := 1 } [],
    .setPsk { packet := 1 } [] true, .setPartKey { packet := 1 } [] true, .lockRelease { packet := 1 } [] true,
    .debugUnlock { packet := 1 } [] true true, .debugLock { packet := 1 } [], .mgmtRepair { packet := 1 } [] true,
    .getLog { packet := 1 } [], .claim { packet := 1 } [] true, .psChallenge 16 0, .psOpen 16 0, .psClose 16, .nonceExpiry 16 0,
    .lockoutEnd 16 0, .stepStacks 0 [16] [] [] [] [] true, .stepStacks 0 [] [16] [] [] [] true,
    .stepStacks 0 [] [] [512] [] [] true, .stepStacks 0 [] [] [] [] [[0#8]] true] : List Instr).all (fun i => !i.wf) = true := by decide

theorem test_wf_refuses_6 : ([
    .stepCores 0 [18] true, .stepCores 0 [8192] true, .stepMesh 0 [32] [] true, .stepMesh 0 [] [32] true,
    .requestUpdate { packet := 1 } 0, .passComponentTable { packet := 1 } 0, .updateComponent { packet := 1 } 0 0,
    .firmwareDataReceive { packet := 1 } [] true, .activateFirmware { packet := 1 } true true,
    .cancelUpdateComponent { packet := 1 }, .cancelUpdate { packet := 1 }, .getStatus { packet := 1 },
    .getFirmwareParameters { packet := 1 }, .parityError 4 0 0, .parityError 0 256 0, .meshEdgeFailure 32 [] 0,
    .meshEdgeFailure 0 [16] 0, .blockLockLoss 16 0, .signalOnDarkPort 16, .meshFlitRetry 32 0,
    .ideKmRequest { packet := 1 } (.program 0), .repairOperationComplete 0 [2 ^ 25] true] : List Instr).all (fun i => !i.wf) = true := by decide

/-! ## Single commands -/

/-- Core 0 with some g registers. -/
def gs (l : List (Nat × Dword)) : Core := { run := .running, regs := { g := l }, ctl := { pc := 0x100 } }

/-- Register `r` of core 0 after a command. -/
def g0 (o : Host.Outcome State Fault Refusal) (r : Nat) : Dword := ((after o).core 0).gr r
def f0 (o : Host.Outcome State Fault Refusal) (r : Nat) : Dword := ((after o).core 0).fr r

/-- R115: sums wrap modulo 2^64. -/
theorem test_add_wraps : g0 (exec (.alu 0 (rWord 1 3 1 2 0 0)) (withCore (gs [(1, BitVec.allOnes 64), (2, 1)]))) 3 = 0 := by decide +kernel

/-- R115: BIC clears the bits of rb in ra. -/
theorem test_bic : g0 (exec (.alu 0 (rWord 1 3 1 2 0 5)) (withCore (gs [(1, 0xFF), (2, 0x0F)]))) 3 = 0xF0 := by decide +kernel

/-- R104: a write to g0 is discarded. -/
theorem test_g0_discards : g0 (exec (.alu 0 (rWord 1 0 1 2 0 0)) (withCore (gs [(1, 5), (2, 6)]))) 0 = 0 := by decide +kernel

/-- R116: a division by zero gives all ones. -/
theorem test_div_zero : g0 (exec (.muldiv 0 (rWord 2 3 1 2 0 8)) (withCore (gs [(1, 5)]))) 3 = BitVec.allOnes 64 := by decide +kernel

/-- R116: the remainder takes the dividend's sign: -7 rem 2 = -1. -/
theorem test_rem_sign :
    g0 (exec (.muldiv 0 (rWord 2 3 1 2 0 0x0A)) (withCore (gs [(1, -7), (2, 2)]))) 3 = BitVec.allOnes 64 := by decide +kernel

/-- R114: ADDI sign-extends its immediate, ANDI does not. -/
theorem test_immediates : g0 (exec (.immediateOp 0 (iWord 3 3 1 0xFFFF)) (withCore (gs [(1, 5)]))) 3 = 4 ∧
    g0 (exec (.immediateOp 0 (iWord 4 3 1 0xFFFF)) (withCore (gs [(1, -1)]))) 3 = 0xFFFF := by decide +kernel

/-- R117: LB sign-extends the byte at the tray's start; LBU does not. -/
theorem test_load_byte :
    let s : State := { withCore (gs []) with mem := { bytes := [(trayBase 0, 0x80)] } }
    g0 (exec (.load 0 (iWord 0x10 3 0 0)) s) 3 = 0xFFFFFFFFFFFFFF80 ∧ g0 (exec (.load 0 (iWord 0x11 3 0 0)) s) 3 = 0x80 := by decide +kernel

/-- R119: a store waits in the store buffer. -/
theorem test_store_buffer :
    (((after (exec (.store 0 (iWord 0x18 1 0 8)) (withCore (gs [(1, 0x1234)])))).core 0).sb.map (fun e => e.pieces.map (·.bytes)))
      = [[[0x34#8]]] := by decide +kernel

/-- R121: a taken branch runs its delay slot first; its target is 4 words on. -/
theorem test_branch_delay :
    let k := ((after (exec (.branch 0 (iWord 0x20 0 0 4)) (withCore (gs [])))).core 0).ctl
    k.pc = 0x104 ∧ k.delay.map (·.target) = some 0x110 := by decide +kernel

/-- R126: MFC of VSHAPE reads FMT 1, SEW 64 (code 3) as after reset. -/
theorem test_mfc_vshape : g0 (exec (.mfc 0 (iWord 0x2A 3 0 0x0020)) (withCore (gs []))) 3 = 0x31 := by decide +kernel

/-- R134: in FP64 0.1 + 0.2 rounds to 0.30000000000000004 (IEEE 754). -/
theorem test_fadd_rounds :
    f0 (exec (.fpOp 0 (rWord 0x2D 3 1 2 0 0))
      (withCore { gs [] with regs := { f := [(1, 0x3FB999999999999A), (2, 0x3FC999999999999A)] } })) 3 = 0x3FD3333333333334 := by decide +kernel

/-- R157: an element sum of 64-bit elements below VLN. -/
theorem test_vint_add :
    ((after (exec (.vint 0 (rWord 0x30 3 1 2 0 0))
      (withCore { gs [] with ctl := { vln := 1 }, regs := { v := [(1, 5), (2, 7), (3, 1)] } }))).core 0).vr 3 = 12 := by decide +kernel

/-- R36, R58: a tick begins the next frame. -/
theorem test_tick : (after (exec .tick dev)).sht.frame = 1 := by decide +kernel

/-- R377: a stack halts at 105 degrees C and not at 104. -/
theorem test_halt : ((after (exec (.thermalReading 0 105 0) dev)).stack 0).halted = true ∧
    ((after (exec (.thermalReading 0 104 0) dev)).stack 0).halted = false := by decide +kernel

/-- R282: MK_ADD adds its upper half to the mark of its lower. -/
theorem test_mk_add : (after (exec (.mkAdd 0 0x00050007) dev)).mark 0 7 = 5 := by decide +kernel

/-- R471: PS_CLOSE closes an open session. -/
theorem test_ps_close : (after (exec (.psClose 0) dev)).sessionOpen 0 = false := by decide +kernel

/-- R477: BOOT_RESET latches cause 4 and boots again from step ROM. -/
theorem test_boot_reset : (after (exec .bootReset dev)).boot.cause = 4 ∧ (after (exec .bootReset dev)).boot.step = 1 := by decide +kernel

/-- R411, R428: a port held dark shows reason 8 after DARK. -/
theorem test_mbx_dark : ((after (exec (.mbxDark 3) dev)).port 3).reason = 8 := by decide +kernel

/-- R469: the identification code of the debug path. -/
theorem test_idcode : (after (exec (.loupeRequest .idcode) dev)).out = [.loupe 0 [0xE7, 0x6B, 0x61, 0x14]] := by decide +kernel

/-- R368: a partial write allocates an entry. -/
theorem test_partial_write : ((after (exec (.partialWrite 0 5 0xAB 1 none) dev)).wcOf 0).map (·.valid) = [1] := by decide +kernel

/-- R372: a read of a line with one flipped data bit writes the corrected line back. -/
theorem test_scrub : (after (exec (.channelRead 0 5 1 none 0) dev)).mem.flips = [] := by decide +kernel

/-! ## Witnesses: for each statement with hypotheses, states and operands that meet them -/

/-- The bytes of a read that succeeds. -/
def gotBytes (g : Got) : Option (List Byte) := match g with
  | .ok b _ => some b
  | _ => none

/-- The error of a check that fails, none where it passes. -/
def failOf {α : Type} (x : Except MemErr α) : Option MemErr := match x with
  | .ok _ => none
  | .error e => some e

/-- Has a core's operation come to its end without a fault? -/
def isDone (r : Res) : Bool := match r with
  | .ok _ => true
  | _ => false

/-- The value of an operation that answers one. -/
def valOf {ε α : Type} (x : Except ε α × State) (d : α) : α := match x.1 with
  | .ok a => a
  | _ => d

/-- Core 0 at user level. -/
def user (l : List (Nat × Dword)) : Core := { gs l with ctl := { pc := 0x100, priv := false } }

/-- Core 0 whose next instruction stands in the delay slot of a transfer with this act. -/
def slot (a : AtTarget) : Core := { gs [(2, 0x1000)] with ctl := { pc := 0x104, delay := some { addr := 0x100, target := 0x200, act := a } } }

theorem dev_ready : dev.ready 0 := ⟨by decide +kernel, by decide +kernel, by decide +kernel⟩
theorem dev_plain : (dev.core 0).ctl.plain := fun d h => nomatch (show none = some d from h)
theorem dev_executes : dev.executes 0 := ⟨dev_ready, dev_plain⟩
theorem dev_transfers : dev.transfers 0 := ⟨dev_ready, rfl⟩

theorem witness_StepRunsFrontCommand : State.reset.pending = [] := rfl

theorem witness_NothingIsTakenBack : ∃ t, exec (.refresh 5) dev = .next t := ⟨_, rfl⟩

theorem witness_RetirementFrame : (dev.core 0).ctl.plain ∧ ((withCore (slot .plain)).core 0).ctl.plain :=
  ⟨dev_plain, fun d h => by cases (show some _ = some d from h); exact ⟨rfl, rfl⟩⟩

theorem witness_RegisterFile : (1 : Nat) ≠ 0 := by decide

/-- A word for each function of ALU and each way to be reserved. -/
theorem witness_AluResults : dev.executes 0 ∧
    (∀ f < 64, major (rWord 1 3 1 0 0 f) = 1 ∧ fFunc (rWord 1 3 1 0 0 f) = f ∧ fRc (rWord 1 3 1 0 0 f) = 0 ∧ fRb (rWord 1 3 1 0 0 f) = 0) ∧
    fRc (rWord 1 3 1 0 1 0) ≠ 0 ∧ fRb (rWord 1 3 1 1 0 0x18) ≠ 0 := ⟨dev_executes, by decide +kernel, by decide, by decide⟩

theorem witness_MulDivResults : dev.executes 0 ∧
    (∀ f < 64, major (rWord 2 3 1 0 0 f) = 2 ∧ fFunc (rWord 2 3 1 0 0 f) = f ∧ fRc (rWord 2 3 1 0 0 f) = 0) ∧
    fRc (rWord 2 3 1 0 1 0) ≠ 0 := ⟨dev_executes, by decide +kernel, by decide⟩

/-- Every major; SHIFTI at the bounds of each of its shifts; LUI and ADDPC with ra 0 and not 0. -/
theorem witness_ImmediateResults : dev.executes 0 ∧ (∀ m < 64, major (iWord m 3 0 0) = m) ∧
    (∀ n ∈ [0, 0x3F, 0x40, 0x7F, 0x80, 0xBF, 0xC0, 0xFF, 0x100], (iWord 9 3 0 n).toNat % 2 ^ 16 = n) ∧
    fRa (iWord 0x0A 3 0 1) = 0 ∧ fRa (iWord 0x0A 3 1 1) ≠ 0 := ⟨dev_executes, by decide +kernel, by decide +kernel, by decide, by decide⟩

/-- Loads that answer, misaligned ones, and ones outside every segment; stores with room. -/
theorem witness_LoadsAndStores : dev.executes 0 ∧
    (∀ n ∈ [1, 2, 4, 8], gotBytes (dev.load 0 0 n) = some (List.replicate n 0) ∧ failOf (dev.coreCheck 0 true .write 8 n) = none ∧
      failOf (dev.coreCheck 0 true .read (2 ^ 40) n) = some .segment) ∧
    (∀ n ∈ [2, 4, 8], (0x101 : Nat) % n ≠ 0) ∧ ((dev.core 0).gr 0 + ((iWord 0x16 3 0 0x101).setWidth 16).signExtend 64).toNat = 0x101 ∧
    (dev.core 0).sb.length < 8 := ⟨dev_executes, by decide +kernel, by decide, by decide +kernel, by decide +kernel⟩

theorem witness_LoadSeesOwnStore : (dev.corePlace 0 .read 8).dev = none ∧ dev.corePlace 0 .write 8 = dev.corePlace 0 .read 8 ∧
    gotBytes ((dev.pushSb 0 (dev.scalarEntry 0 8 [1, 2, 3, 4])).load 0 8 4) = some [1, 2, 3, 4] := by decide +kernel

/-- A SYSTEM word with function `fn` and number `n`. -/
def sysWord (fn n : Nat) : Word := BitVec.ofNat 32 (0x29 * 2 ^ 26 + n * 2 ^ 8 + fn)

/-- Every transfer; JALR to an aligned and a misaligned target and with rd = ra; a core in a delay slot. -/
theorem witness_TransfersOfControl : dev.transfers 0 ∧ (∀ m < 64, major (iWord m 3 0 0) = m) ∧
    (fRd (iWord 0x28 3 3 0) = fRa (iWord 0x28 3 3 0) ∧ fRd (iWord 0x28 3 3 0) ≠ 0) ∧ fRd (iWord 0x28 0 0 0) = 0 ∧
    (((dev.core 0).gr 0 + ((iWord 0x28 3 0 2).setWidth 16).signExtend 64).toNat % 4 ≠ 0) ∧
    (withCore (slot .plain)).ready 0 ∧ ((withCore (slot .plain)).core 0).ctl.delay ≠ none ∧
    ∀ n < 3, sysIs (sysWord n 0) n = true :=
  ⟨dev_transfers, by decide +kernel, by decide, by decide, by decide +kernel,
    ⟨by decide +kernel, by decide +kernel, by decide +kernel⟩, by decide +kernel, by decide +kernel⟩

/-- Gate 0's entry: handler 0x200, a new stack at 0x1000, CTRL VALID and USER, no arguments. -/
def gateDev (k : Core) : State := { withCore k with mem := { bytes :=
  [(ksBase 0 + 1, 2), (ksBase 0 + 9, 0x10), (ksBase 0 + 16, 3)] } }

/-- A frame whose KIND is 1, at address 0 of the partition. -/
def retgDev : State := { dev with mem := { bytes := [(trayBase 0 + 35, 1)] } }

theorem witness_GatesAndReturns :
    (gateDev (gs [])).transfers 0 ∧ (∀ fn < 8, sysIs (sysWord fn 0) fn = true) ∧
    (∀ k ∈ [gs [], user []],
      let r := (gateDev k).tableRead 0 0 32
      let e := gateEntry (valOf r [])
      failOf r.1 = none ∧ bitOf e.ctrl 0 = true ∧ e.malformed = false ∧ bitOf e.ctrl 1 = true ∧ e.nargs = 0 ∧ e.newStack = 0x1000 ∧
        (r.2.core 0).sre.slimit.toNat ≤ 0xFC0 ∧ failOf (r.2.coreCheck 0 true .write 0xFC0 64) = none) ∧
    ((withCore (slot (.gate 0xFC0 0 0x108 0 0 0))).core 0).ctl.delay.map (·.act) = some (.gate 0xFC0 0 0x108 0 0 0) ∧
    ((withCore (slot (.ret 1 8 none))).core 0).ctl.delay.map (·.act) = some (.ret 1 8 none) ∧
    (gotBytes (dev.load 0 0 64)).map (fun b => bitOf (fieldLE b 32 8) 24) = some false ∧
    (gotBytes (retgDev.load 0 0 64)).map (fun b => bitOf (fieldLE b 32 8) 24) = some true ∧
    ((withCore (user [])).core 0).ctl.priv = false ∧ ((withCore (user [])).core 0).ctl.delay = none :=
  ⟨⟨⟨by decide +kernel, by decide +kernel, by decide +kernel⟩, rfl⟩, by decide +kernel, by decide +kernel, by decide +kernel,
    by decide +kernel, by decide +kernel, by decide +kernel, by decide +kernel, by decide +kernel⟩

/-- A stack pointer below 64; one that the limit forbids; one outside every segment; a vector outside the kernel store; and
a frame that fits. -/
theorem witness_ExceptionEntry :
    ((gs [(2, 63)]).gr 2).toNat < 64 ∧
    ((gs [(2, 64)]).gr 2).toNat / 64 * 64 - 64 < ({ evbase := 0, slimit := 64 } : SyncRegs).slimit.toNat ∧
    failOf ((withCore (gs [(2, 2 ^ 40)])).coreCheck 0 true .write (2 ^ 40 - 64) 64) = some .segment ∧
    failOf ((withCore { gs [(2, 0x1000)] with sre := { evbase := 2 ^ 40 } }).tableRead 0 (2 ^ 40) 8).1 ≠ none ∧
    failOf ((withCore (gs [(2, 0x1000)])).tableRead 0 0 8).1 = none ∧
    (((withCore (gs [(2, 0x1000)])).tableRead 0 0 8).2.core 0).sb.length < 8 ∧
    failOf ((withCore (gs [(2, 0x1000)])).coreCheck 0 true .write 0xFC0 64) = none ∧
    ((withCore (slot .plain)).core 0).ctl.delay ≠ none ∧ (dev.core 0).ctl.delay = none := by decide +kernel

/-- Core 0 with an event state. -/
def evCore (kr : KernelRun) (ie : Bool) (even pend : Nat) : Core :=
  { gs [] with kernel := kr, even := even, ctl := { pc := 0x100, ie := ie, evpend := pend } }

theorem witness_KernelEndsBreaksAndWaits : dev.executes 0 ∧ (dev.core 0).ctl.delay = none ∧ (dev.core 0).dirtyLines = [] ∧
    (dev.core 0).sb = [] ∧ (∀ fn < 8, sysIs (sysWord fn 0) fn = true) ∧ (dev.core 0).ctl.plain ∧
    (withCore (evCore {} false 1 1)).evReady 0 = true ∧ dev.evReady 0 = false ∧ (dev.core 0).atBoundary = true ∧
    ({ dev with late := [(0, [(1, 8)])] } : State).oldestLate 0 = some (1, 8) ∧ dev.oldestLate 0 = none ∧
    ({ held := true } : KernelRun).heldPending = true ∧ ({ overrun := true } : KernelRun).overrunPending = true ∧
    ({ overrun := true } : KernelRun).heldPending = false ∧
    (∀ i ∈ [0, 8], bitOf (evCore {} true (2 ^ i) (2 ^ i)).even i = true ∧ (evCore {} true (2 ^ i) (2 ^ i)).ctl.ie = true ∧
      ∀ j < i, bitOf (evCore {} true (2 ^ i) (2 ^ i)).even j = false) :=
  ⟨dev_executes, rfl, by decide +kernel, rfl, by decide +kernel, dev_plain, by decide +kernel, by decide +kernel, by decide +kernel,
    by decide +kernel, by decide +kernel, by decide, by decide, by decide, by decide +kernel⟩

/-- A CREG word: register `n`, operation `op`. -/
def cregWord (rd ra n op : Nat) : Word := iWord 0x2A rd ra (n * 16 + op)

theorem witness_ControlRegisterInstructions : dev.executes 0 ∧
    (∀ op < 5, major (cregWord 0 1 0x100 op) = 0x2A ∧ cregOp (cregWord 0 1 0x100 op) = op ∧ cregNum (cregWord 0 1 0x100 op) = 0x100 ∧
      fRd (cregWord 0 1 0x100 op) = 0) ∧
    dev.creg 0 0xFFF = none ∧ (dev.creg 0 0x100).isSome = true ∧ cregSystemOnly 0x100 = true ∧ cregSystemOnly 0x000 = false ∧
    ((withCore (user [])).core 0).ctl.priv = false ∧ (dev.core 0).ctl.priv = true ∧
    ((dev.creg 0 0x010).isSome = true ∧ cregReadOnly true 0x010 = true) ∧ cregReadOnly true 0x000 = false :=
  ⟨dev_executes, by decide +kernel, by decide +kernel, by decide +kernel, by decide, by decide, by decide +kernel, by decide +kernel,
    by decide +kernel, by decide⟩

theorem witness_ControlRegisterWrites : (1 : Nat) ≠ 0 ∧ (0x300 : Nat) ≤ 0x300 ∧ (0x30F : Nat) ≤ 0x30F := by decide

theorem witness_ModeShadow : ({ modePend := [(5, 4)] } : CoreCtl).modePend = [(5, 4)] ∧ ({ modePend := [(5, 4)] } : CoreCtl).vshapePend = [] := by
  decide

theorem witness_FencesAndSync : dev.executes 0 ∧ (∀ fn ∈ [0, 1, 2, 3, 0x10], fenceIs (rWord 0x2B 0 0 0 0 fn) fn = true) ∧
    ((dev.drainFrom 0 1).core 0).sb = [] ∧ ((dev.acceptAll 0).core 0).sb = [] ∧
    isDone (flushForFence 0 (dev.fenceEntries 0) dev) = true ∧
    (dev.core 0).sr.l1dCfg % 4 = (dev.core 0).sre.l1dCfg % 4 ∧ (dev.core 0).sr.dtabCmd = 0 :=
  ⟨dev_executes, by decide +kernel, by decide +kernel, by decide +kernel, by decide +kernel, by decide +kernel, by decide +kernel⟩

/-- Core 0 with a dirty line of granule 0's DRAM, which partition address 2^32 names, in set 0, way 0. -/
def dirtyDev : State := withCore { gs [(1, 2 ^ 32)] with l1d := [(0, { valid := true, dirty := true, line := dramBase 0, data := 5 })] }

theorem witness_CacheMaintenance : dev.executes 0 ∧
    (∀ op < 9, cacheIs (iWord 0x2C op 1 0) op = true) ∧ (iWord 0x2C 8 0 0).extractLsb' 0 21 = 0#21 ∧
    failOf (dev.coreCheck 0 true .read (2 ^ 40) 1) = some .segment ∧ failOf (dev.coreCheck 0 true .read 0 1) = none ∧
    (dev.core 0).l1Way (dev.corePlace 0 .read 0).addr = none ∧ failOf (dirtyDev.coreCheck 0 true .read (2 ^ 32) 1) = none ∧
    (dirtyDev.core 0).cacheable (dirtyDev.corePlace 0 .read (2 ^ 32)) = true ∧
    (dirtyDev.core 0).l1Way (dirtyDev.corePlace 0 .read (2 ^ 32)).addr = some 0 ∧
    ((dirtyDev.core 0).l1At 0 0).valid = true ∧ ((dirtyDev.core 0).l1At 0 0).dirty = true ∧ ((dirtyDev.core 0).l1At 0 0).ue = 0 :=
  ⟨dev_executes, by decide +kernel, by decide, by decide +kernel, by decide +kernel, by decide +kernel, by decide +kernel,
    by decide +kernel, by decide +kernel, by decide +kernel, by decide +kernel, by decide +kernel⟩

/-- Core 0 with a vector state: the MODE in force, VSHAPE, VLN and whether VRESUME is armed. -/
def vs (mode shape vln : Nat) (armed : Bool) : Core :=
  { gs [] with ctl := { pc := 0x100, mode := mode, modeEff := mode, vshape := shape, vshapeEff := shape, vln := vln, vresArmed := armed } }

/-- A word of each form, not reserved; an FP64 division by zero with its trap enabled. -/
theorem witness_ScalarFloatInstructions : dev.executes 0 ∧
    (∀ f ∈ [0, 8, 9, 12, 32, 44], encOk {} (rWord 0x2D 3 1 0 0 f) = true ∧ major (rWord 0x2D 3 1 0 0 f) = 0x2D) ∧
    (∀ f ∈ [0, 3, 32, 35], encOk {} (rWord 0x2E 3 1 2 4 f) = true ∧ major (rWord 0x2E 3 1 2 4 f) = 0x2E) ∧
    (∀ f ∈ [0, 3, 6, 7, 8, 9, 0x10, 0x1F, 0x20, 0x27, 0x30, 0x31], encOk {} (rWord 0x2F 3 1 0 0 f) = true ∧
      fFunc (rWord 0x2F 3 1 0 0 f) = f ∧ major (rWord 0x2F 3 1 0 0 f) = 0x2F) ∧
    (let x := fpArith fp64 .near false 3 (fp64.read false 0x3FF0000000000000) (fp64.read false 0)
     x.flags % 32 &&& (vs 0x1F0 0x31 0 false).ctl.traps ≠ 0 ∧ x.flags % 32 &&& (vs 0 0x31 0 false).ctl.traps = 0) :=
  ⟨dev_executes, by decide +kernel, by decide +kernel, by decide +kernel, by decide +kernel⟩

/-- A tie: 1 rounded to a multiple of 2 lies half way. -/
theorem witness_RoundingIsCorrect :
    let y := roundTo .near false 1 (-((1 : Nat) : Int)) 0 false
    2 * (y.1 * 2 ^ 1) = 2 * 1 + 2 ^ 1 ∨ 2 * 1 = 2 * (y.1 * 2 ^ 1) + 2 ^ 1 := by decide +kernel

theorem witness_ShortVectorInstructions : dev.executes 0 ∧
    (∀ f ∈ [0, 2, 3, 5, 6, 7], encOk {} (rWord 0x37 3 1 (if f = 6 then 0 else 2) 0 f) = true ∧
      major (rWord 0x37 3 1 (if f = 6 then 0 else 2) 0 f) = 0x37 ∧ fFunc (rWord 0x37 3 1 (if f = 6 then 0 else 2) 0 f) % 8 = f) ∧
    (dev.core 0).ctl.sr = false ∧ (dev.core 0).ctl.traps = 0 ∧ (vs 0x1F0 0x31 0 false).ctl.traps ≠ 0 ∧ (5 : Nat) ≠ 2 * 2 ∧ (5 : Nat) ≠ 2 * 1 + 1 :=
  ⟨dev_executes, by decide +kernel, by decide +kernel, by decide +kernel, by decide +kernel, by decide, by decide⟩

theorem witness_VectorIntegerElements : dev.executes 0 ∧
    (∀ f ∈ [0, 16, 32, 48], encOk {} (rWord 0x30 3 1 2 0 f) = true ∧ major (rWord 0x30 3 1 2 0 f) = 0x30) ∧
    shapeIll (dev.core 0).ctl.vshapeEff = false ∧ (dev.core 0).ctl.vresArmed = false ∧ (dev.core 0).vctx.gang = 1 ∧
    gangOk 3 1 = true ∧ gangOk 31 1 = true :=
  ⟨dev_executes, by decide +kernel, by decide +kernel, by decide +kernel, by decide +kernel, by decide, by decide⟩

/-- A legal and an illegal shape, an armed VRESUME, the integer and the float formats, a misplaced gang, a word of each group. -/
theorem witness_VectorArithmeticAndMasks : dev.executes 0 ∧
    (∀ x ∈ [(0x30, 0), (0x31, 0), (0x31, 12), (0x35, 5), (0x35, 6), (0x35, 9), (0x35, 16), (0x35, 20), (0x35, 21), (0x35, 22), (0x35, 23)],
      encOk {} (rWord x.1 3 1 0 0 x.2) = true ∧ major (rWord x.1 3 1 0 0 x.2) = x.1 ∧ fFunc (rWord x.1 3 1 0 0 x.2) = x.2) ∧
    shapeIll 0x31 = false ∧ shapeIll 0x3F = true ∧ (vs 0 0x31 0 true).ctl.vresArmed = true ∧ (vs 0 0x31 1 false).vctx.float = true ∧
    (vs 0 0x30 1 false).vctx.float = false ∧ gangOk 3 2 = false ∧ gangOk 2 2 = true ∧
    ({ gs [] with regs := { m := [(1, 1)] }, ctl := { vln := 1 } } : Core).active (rWord 0x35 3 1 0 0 22) 0 = true ∧
    bitOf (({ gs [] with regs := { m := [(1, 1)] } } : Core).mr 1) 0 = true :=
  ⟨dev_executes, by decide +kernel, by decide +kernel, by decide +kernel, by decide +kernel, by decide +kernel, by decide +kernel,
    by decide, by decide, by decide +kernel, by decide +kernel⟩

theorem witness_VectorMovesAndReductions : dev.executes 0 ∧
    (∀ f ∈ [0, 1, 2, 3, 4, 5, 6, 7, 8, 10, 11, 12, 13, 14], encOk {} (rWord 0x36 3 0 0 0 f) = true ∧ fFunc (rWord 0x36 3 0 0 0 f) = f ∧
      major (rWord 0x36 3 0 0 0 f) = 0x36) ∧
    (encOk {} (rWord 0x36 3 1 2 0x10 9) = true ∧ fFunc (rWord 0x36 3 1 2 0x10 9) = 9) ∧
    shareReg 3 1 0 1 = false ∧ shareReg 3 1 2 1 = false ∧ (dev.core 0).vctx.float = true ∧
    ((List.range (vs 0 0x31 0 false).vctx.vln).filter ((vs 0 0x31 0 false).active (rWord 0x36 3 0 0 0 13))) = [] ∧
    ((List.range (vs 0 0x31 2 false).vctx.vln).filter ((vs 0 0x31 2 false).active (rWord 0x36 3 0 0 0 13))) = [0, 1] :=
  ⟨dev_executes, by decide +kernel, by decide +kernel, by decide +kernel, by decide +kernel, by decide +kernel, by decide +kernel,
    by decide +kernel⟩

/-- A conversion word: destination format and kind. -/
def cvtWord (rd ra rb df kind : Nat) : Word := BitVec.ofNat 32 (0x34 * 2 ^ 26 + rd * 2 ^ 21 + ra * 2 ^ 16 + rb * 2 ^ 11 + df * 4 + kind)

/-- A pairing for each kind, FP64 to FP32, FP32 to MXFP8 and back, and one outside R169. -/
theorem witness_FormatConversions : dev.executes 0 ∧
    (∀ x ∈ [(0x31, 2, 0), (0x31, 2, 1), (0x22, 7, 2), (7, 2, 3)],
      encOk {} (cvtWord 8 16 0 x.2.1 x.2.2) = true ∧ fKind (cvtWord 8 16 0 x.2.1 x.2.2) = x.2.2 ∧
      (let v := (vs 0 x.1 32 false).vctx
       pairingOk v (cvtWord 8 16 0 x.2.1 x.2.2) = true ∧ dstCount v (cvtWord 8 16 0 x.2.1 x.2.2) ≤ 8 ∧
        gangOk 8 (dstCount v (cvtWord 8 16 0 x.2.1 x.2.2)) = true ∧ gangOk 16 v.gang = true ∧
        shareReg 8 (dstCount v (cvtWord 8 16 0 x.2.1 x.2.2)) 16 v.gang = false ∧
        shareReg 8 (dstCount v (cvtWord 8 16 0 x.2.1 x.2.2)) 0 1 = false ∧ shareReg 0 1 16 v.gang = false)) ∧
    pairingOk (vs 0 0x31 1 false).vctx (cvtWord 8 16 0 7 0) = false ∧ (vs 0 0x31 1 false).ctl.sr = false :=
  ⟨dev_executes, by decide +kernel, by decide +kernel, by decide +kernel⟩

/-- Where a vector load stops: none where it runs to its end. -/
def stopOf (r : Run) : Option (Option Nat) := match r with
  | .done _ _ => some none
  | .fail j _ _ _ => some (some j)
  | .wait _ => none

/-- A vector memory word: mode `m`, registers. -/
def vmemWord (store : Bool) (rd ra m : Nat) : Word := rWord (if store then 0x33 else 0x32) rd ra 0 0 (8 * m)

/-- Loads that end, that fail at element 0 and later (the tray ends at 2^21); stores of elements, of none, and of masks. -/
theorem witness_LongVectorMemory : dev.executes 0 ∧
    (∀ x ∈ [(false, 0), (false, 4), (false, 5), (true, 0), (true, 5)], encOk {} (vmemWord x.1 3 1 x.2) = true ∧
      major (vmemWord x.1 3 1 x.2) = (if x.1 then 0x33 else 0x32) ∧ fAmode (vmemWord x.1 3 1 x.2) = x.2) ∧
    (let at_ := fun (a n : Nat) (m : Nat) =>
      let k : Core := { vs 0 0x31 n false with regs := { g := [(1, BitVec.ofNat 64 a)] } }
      stopOf (runLoad 0 (vmemWord false 3 1 m) k k.vctx (withCore k))
     at_ 0 2 0 = some none ∧ at_ (2 ^ 21 - 8) 2 0 = some (some 1) ∧ at_ (2 ^ 21 - 8) 2 4 = some (some 1) ∧ at_ (2 ^ 21) 2 4 = some (some 0)) ∧
    (let k := vs 0 0x31 2 false
     (storeElems 0 k k.vctx (vmemWord true 3 1 0) (withCore k) (resumeRange k k.vctx) []).1 ≠ [] ∧
     (storeElems 0 k k.vctx (vmemWord true 3 1 0) (withCore k) (resumeRange k k.vctx) []).2 = none) ∧
    (let k := vs 0 0x31 0 false
     (storeElems 0 k k.vctx (vmemWord true 3 1 0) (withCore k) (resumeRange k k.vctx) []).1 = []) ∧
    (∀ n ∈ [8, 9], let k := vs 0 0x31 n false
     (storeMask 0 k k.vctx (vmemWord true 3 1 5) 0 (withCore k) (resumeRange k k.vctx) []).1 ≠ [] ∧
     (storeMask 0 k k.vctx (vmemWord true 3 1 5) 0 (withCore k) (resumeRange k k.vctx) []).2 = none) :=
  ⟨dev_executes, by decide +kernel, by decide +kernel, by decide +kernel, by decide +kernel, by decide +kernel⟩

/-- Rows that can be read and stored, and rows outside every segment. -/
theorem witness_TileMemory : dev.executes 0 ∧
    (∀ f ∈ [0, 1, 2, 3, 4, 5], encOk {} (rWord 0x39 3 1 0 0 f) = true ∧ fFunc (rWord 0x39 3 1 0 0 f) = f ∧ major (rWord 0x39 3 1 0 0 f) = 0x39) ∧
    (let k := gs [(2, 64)]
     ((gotBytes (readRows 0 k (rWord 0x39 3 1 2 0 0) 64 (List.range 16) 0 [] (withCore k))).map List.length) = some 1024 ∧
     ((gotBytes (readRows 0 k (rWord 0x39 3 1 2 0 1) 128 (List.range 8) 0 [] (withCore k))).map List.length) = some 1024 ∧
     ((gotBytes (readRows 0 k (rWord 0x39 3 1 0 0 4) 64 [0] 0 [] (withCore k))).map List.length) = some 64 ∧
     checkRows (withCore k) 0 k (rWord 0x39 3 1 2 0 2) 64 (List.range 16) = none) ∧
    (let k := gs [(1, 2 ^ 40), (2, 64)]
     (checkRows (withCore k) 0 k (rWord 0x39 3 1 2 0 2) 64 (List.range 16)).isSome = true) :=
  ⟨dev_executes, by decide +kernel, by decide +kernel, by decide +kernel⟩

/-- A MOP word. -/
def mopWord (d a b mfmt op : Nat) : Word := BitVec.ofNat 32 (0x38 * 2 ^ 26 + d * 2 ^ 21 + a * 2 ^ 16 + b * 2 ^ 11 + mfmt * 2 ^ 7 + op * 2 ^ 5)

theorem witness_MatrixInstructions : dev.executes 0 ∧
    (∀ m < 13, ∀ op < 4, encOk {} (mopWord 2 1 4 m op) = true ∧ fMfmt (mopWord 2 1 4 m op) = m ∧ fMop (mopWord 2 1 4 m op) = op ∧
      major (mopWord 2 1 4 m op) = 0x38) ∧
    (∀ f ∈ [8, 9, 0x0A, 0x0B, 0x0C, 0x0D, 0x10, 0x11], encOk {} (rWord 0x39 3 0 0 0 f) = true ∧ fFunc (rWord 0x39 3 0 0 0 f) = f ∧
      major (rWord 0x39 3 0 0 0 f) = 0x39) ∧ (dev.core 0).ctl.sr = false ∧ (dev.core 0).sb.length < 8 :=
  ⟨dev_executes, by decide +kernel, by decide +kernel, by decide +kernel, by decide +kernel⟩

/-- Cluster 0 with decode entry 0 valid: an ADD of g1 and g2 into g3 and the end of the entry. -/
def customDev (k : Core) : State :=
  { withCore k with clusters := [(0, { bank0 := { valid := 1, uops := [BitVec.ofNat 64 (2 ^ 32 + (rWord 1 3 1 2 0 0).toNat)] } })] }

theorem witness_CustomAndFixq : dev.executes 0 ∧ major (rWord 0x3C 3 1 0 0 0) = 0x3C ∧ (dev.core 0).ctl.resumeUop = none ∧
    (dev.customEntry 0 (rWord 0x3C 3 1 0 0 0)).1 = false ∧ ((customDev (gs [])).customEntry 0 (rWord 0x3C 3 1 0 0 0)).1 = true ∧
    isDone (runUops 0 (rWord 0x3C 3 1 0 0 0) ((customDev (gs [])).customEntry 0 (rWord 0x3C 3 1 0 0 0)).2 32 0 (customDev (gs []))) = true ∧
    ({ user [] with sre := { dtabUen := false } } : Core).ctl.priv = false ∧ ({ user [] with sre := { dtabUen := false } } : Core).sre.dtabUen = false ∧
    fixqOk (rWord 0x3A 0 1 0 0 0) = true ∧ ((gs [(1, 64)]).gr 1).toNat % 64 = 0 ∧ ((gs [(1, 8)]).gr 1).toNat % 64 ≠ 0 ∧
    failOf (dev.coreCheck 0 true .read 64 64) = none ∧ (dev.sch 0).laneCount 0 < 4 :=
  ⟨dev_executes, by decide, by decide +kernel, by decide +kernel, by decide +kernel, by decide +kernel, by decide +kernel, by decide +kernel,
    by decide, by decide +kernel, by decide +kernel, by decide +kernel, by decide +kernel⟩

/-- A store that waits; a fill of the DRAM line at 2^32; a kernel-store line that no way holds. -/
theorem witness_CoreSideEvents :
    (let s := withCore { gs [] with sb := [{ addr := 8, pieces := [{ place := { addr := trayBase 0 + 8 }, bytes := [1] }] }] }
     let e := (s.core 0).sb.headD {}
     (s.core 0).sb[0]?.isSome = true ∧ (s.core 0).sbReady 0 = true ∧ e.late = none ∧ e.sent = none ∧ e.remote = false ∧
       failOf (s.performSb 0 e).1 = none) ∧
    (let pl := dev.corePlace 0 .read (2 ^ 32)
     failOf (dev.coreCheck 0 true .read (2 ^ 32) 1) = none ∧ (dev.core 0).cacheable pl = true ∧ (dev.core 0).l1Way pl.addr = none ∧
       failOf (dev.l1Fill 0 pl.addr).1 = none) ∧
    ((dev.core 0).canExecute = true ∧ (dev.core 0).icWay 0x100 = none ∧ failOf ((dev.bump 0 0x306 1).fillLine 0 0x100).1 = none) := by
  decide +kernel

/-- An enabled Shutter that runs. -/
def sht0 : Shutter := { en := true, started := true, open_ := true }

theorem witness_TicksAndFrames :
    (dev.sht.plan = none ∧ dev.sht.en = true ∧ dev.ownTicks = true) ∧
    (({ dev with sht := { sht0 with plan := some {} } } : State).sht.plan = some {} ∧ 12 ≤ dev.boot.step) ∧
    (({ dev with sht := { sht0 with source := 1 } } : State).ownTicks = false ∧ dev.sht.started = true ∧ dev.sht.open_ = true) := by
  decide +kernel

theorem witness_FramesBeginAtTicksAlone : (Instr.refresh 0).mayTick = false ∧ ∃ t, exec (.refresh 0) dev = .next t := ⟨rfl, _, rfl⟩

/-- A TICK flit whose AGE is `a`. -/
def tickFlitOf (a : Nat) : List Byte := List.replicate 20 0 ++ natLE 4 a ++ List.replicate 232 0

theorem witness_TickMessagesAndEdges :
    (let s : State := { dev with sht := { sht0 with master := true } };
      s.sht.en = true ∧ s.sht.master = true ∧ s.sht.started = true ∧ s.now ≤ cycleOf (s.nextTick - usThirds 10) ∧
      s.sht.announced ≠ some s.nextFrame) ∧
    (let s : State := { dev with sht := { sht0 with master := true, started := false } };
      s.now ≤ cycleOf s.nowThirds ∧ s.sht.announced ≠ some s.nextFrame) ∧
    (({ dimX := 2 } : SysSec).dims.headD 0 ≠ 1) ∧
    9000 ≤ fieldLE (tickFlitOf 9000) 20 4 + (dev.port 0).delay ∧ fieldLE (tickFlitOf 8999) 20 4 + (dev.port 0).delay < 9000 ∧
    12 ≤ dev.boot.step ∧ ({ dev with sht := { sht0 with source := 1 } } : State).sht.source = 1 ∧
    ({ dev with sht := { sht0 with source := 2, locked := true } } : State).sht.locked = true := by decide +kernel

/-- Partition 0 in this state. -/
def partDev (x : Part) : State := { dev with parts := [(0, x)] }

theorem witness_TimersEdgesAndPartitionWork :
    (∀ k ∈ [1, 2, 3], let s := partDev { state := .running, timers := [{ active := true, cfg := { kind := k } }] }
      (s.part 0).timers[0]? = some { active := true, cfg := { kind := k } } ∧ (s.part 0).state = .running) ∧
    ((plate0.parts.find? (fun q => ((q.inputs.drop 0).headD {}).accepts true)).isSome = true ∧
      plate0.parts.find? (fun q => ((q.inputs.drop 0).headD {}).accepts false) = none ∧ dev.plate.installed = some plate0) ∧
    (NatMap.get [] ({ dev with edges := [(0, [{}])] } : State).edges 0 = [{}] ∧ ({ dev with edges := [(0, [{}])] } : State).edgeKept 0 {} = true) ∧
    ((partDev { state := .held }).part 0).state = .held ∧
    (((partDev { state := .loading }).part 0).migPeer = none ∧ ((partDev { state := .loading }).part 0).loadDone = false) ∧
    (((partDev { state := .draining }).part 0).state = .draining ∧ (dev.sch 0).cmds = []) ∧
    (({ partDev { state := .migrating } with links := { mig := [(0, { finished := true })] } } : State).migProg 0).finished = true := by
  decide +kernel

theorem witness_PartitionStates :
    (let s := partDev { request := some .start }
     (s.part 0).state = .off ∧ (s.part 0).migFailed = false ∧ (s.part 0).request = some .start ∧ s.mayStart 0 = true) ∧
    (∀ r ∈ [none, some PartReq.stop], let s := { partDev { state := .loading, loadDone := true, request := r } with sht := { sht0 with locked := true } }
     s.mustHold 0 = false ∧ (s.part 0).request = r ∧ s.sht.locked = true) ∧
    (∀ r ∈ [PartReq.stop, .migrateOut 255 15], (partDev { state := .running, request := some r }).mustHold 0 = false) ∧
    ((partDev { state := .running, holdReason := some 2 }).mustHold 0 = true ∧ ((partDev { state := .running, holdReason := some 2 }).part 0).request = none) ∧
    ((partDev { state := .held, request := some .release }).causePersists 0 = false ∧
      (partDev { state := .held, reason := 2, request := some .release }).causePersists 0 = true) ∧
    (((partDev { state := .draining, drainDone := true }).part 0).drainDone = true ∧ ((partDev { state := .draining }).part 0).request = none) ∧
    ((partDev { state := .migrating, migLastAck := true }).mustHold 0 = false ∧ ((partDev { state := .migrating, migLastAck := true }).part 0).migLastAck = true) := by
  decide +kernel

/-- A command record: class, opcode, and fields as byte offset and value. -/
def recOf (cls op : Nat) (l : List (Nat × Nat)) : Line :=
  BitVec.ofNat 512 (op + cls * 256 + (l.map (fun x => x.2 * 2 ^ (8 * x.1))).sum)

/-- Partition 0 with this scheduler. -/
def schDev (x : Sched) : State := { dev with sched := [(0, x)] }

/-- An enabled ring of 16 slots, HEAD 1; TAIL at the bounds of Q_TAIL_WRITE; good and bad configurations; a session and none. -/
theorem witness_QueuesAndMarks :
    (dev.vfThere 0 = true ∧ dev.vfServed 0 = true ∧ dev.sessionOpen 0 = true) ∧
    (let k := (schDev { sq := [(0, { en := true, cfg := 4, head := 1, tail := 1 })] }).sq 0 0
     k.en = true ∧ (17 - k.head).toNat ≤ 2 ^ cfgLog k.cfg ∧ (17 - k.tail).toNat < 2 ^ 31 ∧ ¬ (18 - k.head).toNat ≤ 2 ^ cfgLog k.cfg) ∧
    ((1 : Word).getLsbD 0 = true ∧ (0 : Word).getLsbD 0 = false ∧ cfgOk 4 = true ∧ cfgOk 16 = true ∧ cfgOk 3 = false ∧ cfgOk 17 = false ∧
      (64 : Word).toNat % 64 = 0 ∧ (32 : Word).toNat % 32 = 0) ∧
    ({ dev with psess := [] } : State).sessionOpen 0 = false ∧
    (let s := { schDev { sq := [(0, { en := true, state := .active, cfg := 4, tail := 1 })] } with host := { dev.host with fns := [(1, { busMaster := true })] } }
     s.mayCopy 0 0 = true ∧ cfgSpace (s.sq 0 0).cfg = false ∧ (s.fn 1).busMaster = true ∧
     (let d := fun n : Nat => (BitVec.ofNat 32 (recSeq (recOf 6 0 [(4, n)])) - (s.sq 0 0).lastSeq).toNat
      d 0 = 1 ∧ d (2 ^ 31 - 2) = 2 ^ 31 - 1 ∧ d (2 ^ 31 - 1) = 2 ^ 31 ∧ d (2 ^ 32 - 1) = 0)) := by decide +kernel

/-- A NOP at the head of queue 0, with completion queue 0 enabled. -/
def headDev : State := schDev { sq := [(0, { en := true, copied := [{ image := recOf 6 0 [] }] })], cq := [(0, { en := true, cfg := 4 })] }

theorem witness_AdmissionAndCompletion :
    (headDev.headRec 0 0 0 = some { image := recOf 6 0 [] } ∧ (headDev.part 0).state = .running ∧ (headDev.part 0).admStopped = false ∧
      headDev.marksReady 0 (recOf 6 0 []) = true) ∧
    (let u := ((headDev.advance 0).flagHead 0 0 0 (headDev.overScaled 0 (recOf 6 0 []) 0)).settleAll 0
     u.isOpen = true ∧ u.classReady 0 0 (recOf 6 0 []) = true ∧ u.slotReady 0 0 = true ∧ u.fits 0 (recOf 6 0 []) [] = true) ∧
    (({ headDev with sht := { sht0 with open_ := false } } : State).isOpen = false) ∧
    ((schDev { cmds := [{ id := 0, result := some (0, 0) }] }).sch 0).cmd? 0 = some { id := 0, result := some (0, 0) } := by decide +kernel

/-- Partition 0 with one admitted command of this record, and core 1 idle. -/
def cmdDev (r : Line) : State :=
  { schDev { cmds := [{ id := 1, image := r, units := [1], began := some 0 }] } with cores := [] }

theorem witness_KernelsAndSynchronisation :
    (cmdDev (recOf 0 0 [(38, 2)])).engineCmd 0 1 0 0 = some { id := 1, image := recOf 0 0 [(38, 2)], units := [1], began := some 0 } ∧
    (∀ op < 7, ((cmdDev (recOf 6 op [])).engineCmd 0 1 6 op).isSome = true) ∧
    (let s := cmdDev (recOf 0 0 [(38, 2)])
     ((s.core 1).free = true ∧ s.firstFor 0 1 1 = true ∧ recClass (recOf 0 0 [(38, 2)]) = 0 ∧ s.err.fatal = false)) ∧
    failOf (match (cmdDev (recOf 6 3 [])).writePart 0 .engine 0 (List.replicate 16 0) with | (.ok _, _) => .ok () | (.error e, _) => .error e.1) = none ∧
    failOf (match (cmdDev (recOf 6 3 [])).writePart 0 .engine (2 ^ 40) [0] with | (.ok _, _) => .ok () | (.error e, _) => .error e.1) = some .segment := by
  decide +kernel

theorem witness_MoverCommands : (∀ op < 8, ((cmdDev (recOf 1 op [])).engineCmd 0 1 1 op).isSome = true) ∧
    ({ s := dev, p := 0, err := some .poison } : Eng).err.isSome = true ∧ ({ s := dev, p := 0 } : Eng).err = none := by decide +kernel

/-- The shortest block, and a full one. -/
theorem witness_CompressionRoundTrip : ∀ n ∈ [16, 4096], (List.replicate n (0 : Byte)).length % 16 = 0 ∧
    16 ≤ (List.replicate n (0 : Byte)).length ∧ (List.replicate n (0 : Byte)).length ≤ 4096 := by
  intro n h
  simp only [List.length_replicate]
  revert n
  decide

/-- A descriptor with all sizes 1 and formats FP64; one with a bad size. -/
def fixBlock (size : Nat) : List Byte :=
  (List.replicate 5 (natLE 4 size)).flatten ++ [1, 0, 0, 0] ++ List.replicate 40 0 ++
  ((List.replicate 4 (List.replicate 6 0 ++ [1] ++ List.replicate 57 0)).flatten)

/-- A device whose tile unit 0 has reduction 5 open for partition 0. -/
def redDev (r : Line) (x : RUnit) : State := { cmdDev r with rdu := { units := [x] } }

theorem witness_FixerReductionsAndLinks :
    (((cmdDev (recOf 2 0 [])).engineCmd 0 1 2 0).isSome = true ∧ fixOps.contains 6 = false ∧ fixOps.contains 0 = true) ∧
    (blockError 0 (fixBlock 1) = none ∧ blockError 0 (fixBlock 0) = some 0 ∧ blkRnd (fixBlock 1) ≠ 4 ∧ blkStat (fixBlock 1) = 0) ∧
    (let r := recOf 3 0 [(32, 5), (56, 1)]
     let s : State := { schDev { cmds := [{ id := 1, image := r }] } with rdu := { units := [{ op := { rid := 5 } }] } }
     (s.engineCmd 0 1 3 0).isSome = true ∧ (openUnits r).find? (fun u => s.ridOpen 0 u (openOf r).rid) = some 0) ∧
    (let r := recOf 3 0 [(32, 5), (56, 1)]
     let s := schDev { cmds := [{ id := 1, image := r }] }
     (s.engineCmd 0 1 3 0).isSome = true ∧ (openUnits r).find? (fun u => s.ridOpen 0 u (openOf r).rid) = none ∧ (openOf r).scope ≠ 2) ∧
    ((redDev (recOf 3 1 [(56, 1)]) {}).engineCmd 0 1 3 1).isSome = true ∧
    (redDev 0 { op := { rid := 5, declared := 2 } }).redVerdict 0 0 5 0 1 true (fun _ => true) = .accept ∧
    (redDev 0 { op := { rid := 5, declared := 2 } }).redVerdict 0 0 5 0 2 true (fun _ => true) = .refuse 4 ∧
    (redDev 0 { op := { rid := 5, declared := 2 }, ids := [1] }).redVerdict 0 0 5 0 1 true (fun _ => true) = .duplicate ∧
    (let x : RUnit := { op := { rid := 5, scope := 1 }, acc := { contributors := 1 } }
     (redDev 0 x).redUnit 0 0 5 = some x ∧ x.op.scope ≠ 0 ∧ x.acc.any = true) ∧
    (let x : RUnit := { unit := 16, op := { rid := 5, scope := 2 }, inflight := some {}, retryAt := some 9 }
     (redDev 0 x).redUnit 0 16 5 = some x ∧ (redDev 0 x).freeTag ((redDev 0 x).redHome 5) = some 0) ∧
    (∀ op < 2, ((cmdDev (recOf 5 op [])).engineCmd 0 1 5 op).isSome = true) := by decide +kernel

theorem witness_GrainCommands :
    (∀ op < 8, ((cmdDev (recOf 4 op [])).engineCmd 0 1 4 op).isSome = true) ∧
    (∀ n < 3, grnCount (recOf 4 0 [(46, n)]) = n) ∧
    (let x := (cmdDev (recOf 4 0 [])).readPart 0 .read .engine 0 8
     (valOf x []).length = 8) ∧
    (List.replicate 64 ({ s0 := 1 } : Lane)).length = 64 ∧ (32 * 0 + 1 : Nat) ≠ 32 * 0 + 0 ∧ (∃ v ∈ [0, 3], v ≠ (0 : Nat)) := by
  decide +kernel

theorem dev_serves (k : Nat) : dev.pfServes k := ⟨rfl, Or.inr ⟨rfl, rfl, Or.inr rfl⟩⟩

/-- The plate block in this state. -/
def plateDev (x : PlateSt) : State := { dev with plate := { x with en := true, installed := some plate0 } }

theorem witness_PlateAndRequests : dev.pfServes 1 ∧ dev.plate.en = true ∧
    (∀ st ∈ [StageState.copying, .validating, .staged], (plateDev { stage := st }).plate.stage ∈ [StageState.copying, .validating, .staged]) ∧
    dev.plate.stage ∉ [StageState.copying, .validating, .staged] ∧
    (({ dev with regs := [(pltKey 0x1C, 3)] } : State).reg (pltKey 0x1C)).toNat % 4 = 3 ∧ (dev.reg (pltKey 0x1C)).toNat % 4 ≠ 3 ∧
    ((plateDev { stage := .validating, staged := some {} }).plate.staged = some {} ∧ dev.plate.staged = none) ∧
    (match (plateDev { stage := .validating, staged := some {} }).validate [] 0 false with | .error _ => True | .ok _ => False) ∧
    (dev.installBusy plate0 = false ∧ ({ partDev { state := .running } with plate := { dev.plate with installed := some { plate0 with
      parts := plate0.parts.map (fun q => { q with bounds := 1 }) } } } : State).installBusy plate0 = true) ∧
    ((partDev {}).mayStart 0 = true ∧ (partDev {}).stagedChanges 0 = false ∧ ((partDev { state := .held }).part 0).state = .held ∧
      (partDev { state := .held }).causePersists 0 = false ∧ (partDev { state := .held, reason := 2 }).causePersists 0 = true) ∧
    ((partDev { state := .held }).vfThere 0 = true ∧ (partDev { state := .held }).vfServed 0 = true ∧
      (partDev { state := .held }).pageDefined 0 = true ∧ (partDev { state := .held }).sessionOpen 0 = true) ∧
    (dev.pageDefined 15 = false ∧ dev.vfThere 15 = true) :=
  ⟨dev_serves 1, rfl, by decide +kernel, by decide +kernel, by decide +kernel, by decide +kernel, by decide +kernel, trivial,
    by decide +kernel, by decide +kernel, by decide +kernel, by decide +kernel⟩

/-- Channel 0 with this memory. -/
def memDev (m : Mem) : State := { dev with mem := m }

/-- Every class of line; buffers with and without the line's entry; a channel that is off; words of a tray. -/
theorem witness_ChannelsAndSrams :
    (dev.chanServes 0 = true ∧ ({ dev with stackTab := [(0, { enabled := true, halted := true })] } : State).chanServes 0 = false) ∧
    (let s := dev
     let u := s.chanLine 0 5
     let cls := fun (v : State) => classify (v.storedLine u).1 (v.storedLine u).2
     cls s = .clean ∧ cls (s.flipUnit u (3 * 2 ^ 16)) = .corrected 5 3 ∧ cls (memDev { poisoned := [(u, true)] }) = .poisoned ∧
       cls (s.flipUnit u (1 + 2 ^ 100)) = .uncorrectable) ∧
    ((dev.wcOf 0).length < 16 ∧ (1 : BitVec 64) ≠ BitVec.allOnes 64) ∧
    (let u := dev.chanLine 0 5
     ((memDev { wc := [(0, [{ line := u, valid := 1 }])] }).wcOf 0 = [] ++ { line := u, valid := 1 } :: [] ∧
       (1 : BitVec 64) ||| 2 ≠ BitVec.allOnes 64)) ∧
    (0 ∈ ((withCore { gs [] with wcChans := [0] }).core 0).wcChans ∧ 1 ∉ ((withCore { gs [] with wcChans := [0] }).core 0).wcChans) ∧
    dev.granExcluded 0 = false ∧
    ((memDev { flips := [(trayBase 0, 1)] }).isPoisoned (trayBase 0) = false ∧ popcount 72 ((memDev { flips := [(trayBase 0, 1)] }).flipsOf (trayBase 0)) = 1 ∧
      (memDev { poisoned := [(trayBase 0, true)] }).isPoisoned (trayBase 0) = true) ∧
    dev.chanOf 0 (dev.chanLine 0 5 % 2 ^ 32) = 0 := by decide +kernel

theorem witness_LineCodeCorrectsOneSymbol : (1 : BitVec 16) ≠ 0 ∧ (3 : Nat) < 4 ∧ (31 : Nat) < 32 := by decide

theorem witness_Temperatures : (dev.stack 0).enabled = true ∧ (dev.stack 1).enabled = false ∧ (dev.stack 0).lastRead.getD 0 + 150000 ≤ max dev.now 150000 ∧
    max dev.now 149999 < (dev.stack 0).lastRead.getD 0 + 150000 ∧ (dev.stack 0).halted = false ∧
    ((dev.haltStack 0 1).stack 0).halted = true ∧ dev.env.warmAt + 150000000 ≤ max dev.now 150000000 ∧
    max dev.now 149999999 < dev.env.warmAt + 150000000 ∧ dev.env.trip = false := by decide +kernel

/-- Channel 0's Agitator in this state, with a run of 16 lines of this mode (0 writes, 1 reads), the channel in test state. -/
def agDev (a : Agit) (cfg : Nat) : State := { dev with
  plate := { dev.plate with installed := some { plate0 with parts := plate0.parts.map (fun q => { q with test := true }) } }
  agits := [(0, a)], regs := [(atpKey 0 0x10, BitVec.ofNat 32 cfg ^^^ agReset 0x10)] }

theorem witness_MemoryTest : dev.pfServes 2 ∧
    ((agDev { en := true, state := .running } 0x4000).agit 0).state = .running ∧ ((agDev { en := true } 0x4000).agit 0).state ≠ .running ∧
    ((agDev { en := true } 0x4000).agCfg 0).sound = true ∧ ((agDev { en := true } 0x3000).agCfg 0).sound = false ∧
    (agDev { en := true } 0x4000).trained 0 = true ∧ dev.trained 32 = false ∧ (agDev { en := true } 0x4000).testState 0 = true ∧
    dev.testState 0 = false ∧ (agDev { en := true } 0x4000).repairOn 0 = false ∧ ((agDev { en := true } 0x4000).stack 0).halted = false ∧
    (∀ m < 2, ((agDev { en := true, state := .running } (0x4000 + 4 * m)).agit 0).index < ((agDev {} (0x4000 + 4 * m)).agCfg 0).requests) ∧
    (∃ m < 3, ((agDev {} (0x4000 + 4 * m)).agCfg 0).isWrite 0 = true) ∧ (∃ m < 3, ((agDev {} (0x4000 + 4 * m)).agCfg 0).isWrite 0 = false) ∧
    ((agDev { reads := [{}] } 0x4000).agit 0).reads = [{}] ∧ ((agDev { state := .running, ending := some 1 } 0x4000).agit 0).ending = some 1 ∧
    (({ data := 5 } : AgRead).ue = false ∧ ({ data := 5 } : AgRead).data ≠ 0) ∧ ({ feAddr := 0x80000000 } : Agit).feAddr.getLsbD 31 = true :=
  ⟨dev_serves 2, by decide +kernel, by decide +kernel, by decide +kernel, by decide +kernel, by decide +kernel, by decide +kernel,
    by decide +kernel, by decide +kernel, by decide +kernel, by decide +kernel, by decide +kernel, by decide +kernel, by decide +kernel,
    by decide +kernel, by decide +kernel, by decide +kernel, by decide +kernel⟩

/-- A repair request: kind, tile, unit. -/
def repairOf (kind tile unit : Nat) : List Byte := (natLE 1 kind ++ natLE 1 tile ++ natLE 1 unit) ++ List.replicate 13 0

/-- The repair block enabled, channel 0 in test state, with this request and map. -/
def repairDev (kind : Nat) (m : List (List Byte)) : State := { agDev {} 0 with
  repair := { en := true, map := m }, regs := [(rprKey 0x10, BitVec.ofNat 32 kind)] }

theorem witness_RepairAndInternalErrors : dev.pfServes 2 ∧ (repairDev 1 []).repair.op = none ∧ (repairDev 1 []).repair.en = true ∧
    (repairDev 1 []).applyRefused (repairOf 1 0 0) = none ∧ (repairDev 4 []).applyRefused (repairOf 4 0 0) = none ∧
    (repairDev 6 []).applyRefused (repairOf 6 0 0) = some 2 ∧ (repairDev 1 []).repairReq = repairOf 1 0 0 ∧
    repairSound (repairOf 5 15 15) = true ∧ repairSound (repairOf 5 16 15) = false ∧
    (let m := [repairEntry (repairOf 4 0 0) 1, repairEntry (repairOf 2 0 0) 1]
     m.any (fun e => sameRepair e (repairOf 4 0 0)) = true ∧ m.any (fun e => sameRepair e (repairOf 2 0 0)) = true ∧
       m.any (fun e => sameRepair e (repairOf 1 0 0)) = false) ∧
    NatMap.get 0 dev.units.edgeLost 31 = 0 ∧ NatMap.get 0 ({ dev with units := { edgeLost := [(31, 1)] } } : State).units.edgeLost 31 = 1 ∧
    (dev.mgmt.up = true ∧ nextLogged [.record { cls := 1 }, .event 0 0, .record { cls := 3 }] = some { cls := 3 } ∧
      nextLogged [.event 0 0, .record { cls := 1 }] = some { cls := 1 }) :=
  ⟨dev_serves 2, rfl, rfl, by decide +kernel, by decide +kernel, by decide +kernel, by decide +kernel, by decide +kernel, by decide +kernel,
    by decide +kernel, by decide +kernel, by decide +kernel, by decide +kernel⟩

/-- Port 0 in this state, in the X+ direction, its slices given; partition 0's slice has flits. -/
def portDev (p : Port) : State := { dev with
  links := { ports := [(0, p)] }
  plate := { dev.plate with sysInForce := { dimX := 2, ports := [{ connected := true }] },
                            linksInForce := { roles := [1], classMin := List.replicate 4 1, slices := List.replicate 17 64 } } }

/-- A flit of this kind, sequence number, TAG and NMSG, with its CRC. -/
def flitOf (kind seq tag nmsg : Nat) (payload : List Byte) : List Byte :=
  let b := flitBytes kind seq 0 false 0 0 tag nmsg payload
  b.take 252 ++ natLE 4 (flitCrc (b.take 252))

/-- A message of MARK_ADD for partition 0. -/
def markMsg : Msg := { op := 5, src := 1, dst := 0, aux := 7 }

set_option maxRecDepth 100000 in
theorem witness_NoFlitIsAcceptedTwice :
    (flitOf 1 0 0 1 markMsg.bytes).length = 256 ∧
    (let s := portDev { state := .up }
     (after (exec (.dataFlit 0 (blockOf (flitOf 1 0 0 1 markMsg.bytes)) 0) s)).reg (mbxKey 0 0x2C) ≠ s.reg (mbxKey 0 0x2C)) := by
  decide +kernel

set_option maxRecDepth 100000 in
theorem witness_LinkFlitsAndPortStates :
    ((portDev {}).port 0).state ≠ .up ∧ ((portDev { state := .up }).port 0).state = .up ∧
    ((stamp 0 (1000 * cyclesPerMicro) ([] : List Nat)).length ≤ 64 ∧ 64 < (stamp 0 (1000 * cyclesPerMicro) (List.replicate 64 0)).length) ∧
    unblock [] = none ∧
    (5 ≤ flitKind (flitOf 5 0 0 0 []) ∧ flitKind (flitOf 1 0 31 1 []) = 1 ∧ flitFieldBad (flitOf 1 0 31 1 []) = true ∧
      flitKind (flitOf 0 0 0 0 []) = 0 ∧ flitFieldBad (flitOf 0 0 0 0 []) = false ∧ flitKind (flitOf 2 9 0 0 []) = 2 ∧
      flitFieldBad (flitOf 2 9 0 0 []) = false ∧ flitFieldBad (flitOf 1 9 0 1 []) = false) ∧
    (∀ x ∈ [(0, 0), (4095, 1), (2049, 2047), (2048, 2048), (1, 4095)], (0 + 4096 - x.1) % 4096 = x.2) ∧
    ((portDev { state := .up }).plate.linksInForce.sliceFlits 0 0 ≠ 0 ∧ (portDev { state := .up }).plate.linksInForce.sliceFlits 0 31 = 0) ∧
    ((portDev { state := .up }).rxReserved 0 0 || (portDev { state := .up }).rxShared 0 0) = true ∧
    (match flitMsgs (flitOf 1 0 0 0 []) with | .error _ => True | .ok _ => False) ∧ (match flitMsgs (flitOf 1 0 0 1 markMsg.bytes) with | .ok l => l.length = 1 | _ => False) ∧
    ((portDev { state := .up, nakAt := some 0 }).port 0).nakAt = some 0 ∧ (0 : Nat) < 0 + cyclesPerMicro ∧
    (min 3 2048 ≤ (3 + 4095 - 3) % 4096 ∧ (3 + 4095 - 2) % 4096 < min 3 2048) ∧
    (16 ≤ (stamp 0 (1000 * cyclesPerMicro) (List.replicate 15 0)).length ∧ 3 ≤ (stamp 0 (10000000 * cyclesPerMicro) [0, 0]).length ∧
      (stamp 0 (1000000 * cyclesPerMicro) [0, 0]).length < 4 ∧ 4 ≤ (stamp 0 (1000000 * cyclesPerMicro) [0, 0, 0]).length) ∧
    (∀ st ∈ [PortState.training, .retrain, .measure, .ident, .dark, .darkHeld], ((portDev { state := st }).port 0).state = st) ∧
    ((portDev {}).connected 0 = true ∧ (portDev {}).connected 1 = false ∧ (List.replicate 64 (0 : Byte)).length = 64 ∧
      (portDev {}).identityOk 0 (List.replicate 64 0) = false) ∧ (portDev {}).pfServes 2 :=
  ⟨by decide +kernel, by decide +kernel, by decide +kernel, by decide +kernel, by decide +kernel, by decide +kernel, by decide +kernel,
    by decide +kernel, trivial, rfl, by decide +kernel, by decide +kernel, by decide +kernel, by decide +kernel, by decide +kernel,
    by decide +kernel, ⟨rfl, Or.inr ⟨rfl, rfl, Or.inr rfl⟩⟩⟩

/-- A device with this message received and these transactions outstanding. -/
def msgDev (m : Msg) (txns : List Txn) : State := { dev with links := { inbox := [{ msg := m }], txns := txns } }

theorem witness_MessagesAndTransactions :
    (msgDev markMsg []).links.inbox[0]? = some { msg := markMsg } ∧
    (dev.refusePart 0 = none ∧ dev.refusePart 1 = some 1 ∧ (partDev { state := .loading }).refusePart 0 = some 2) ∧
    (dev.refuseMem { op := 1, dlen := 1 } (some .write) = none ∧ dev.refuseMem { op := 1, dlen := 1, addr := 2 ^ 40 } (some .write) = some 3 ∧
      dev.refuseMem { op := 3, dlen := 1 } none = none) ∧
    (failOf (match (dev.readPart 0 .read .remote 0 16).1 with | .ok _ => .ok () | .error e => .error e.1) = none) ∧
    (dev.migMatches 0 {} = false ∧ (partDev { migPeer := some (1, 0), state := .loading }).migMatches 0 { src := 1 } = true) ∧
    (bitOf 0x8000 15 = true ∧ (0x8000 : Nat) % 2 ^ 15 = 0 ∧ bitOf 0 15 = false) ∧
    ((msgDev {} [{ dst := 1, tag := 2 }]).links.txns.find? (fun t => t.dst == 1 && t.tag == 2) = some { dst := 1, tag := 2 } ∧
      (msgDev {} []).links.txns.find? (fun t => t.dst == 1 && t.tag == 2) = none ∧ (0 : Nat) + 1000 * cyclesPerMicro ≤ 1500000) ∧
    (let y : SysSec := { dimX := 4, dimY := 4, dimZ := 4 }
     (63 : Nat) < y.count ∧ y.routeDir 0 63 = some 2 ∧ y.routeDir 63 63 = none) ∧
    (dev.freeTag 255 = some 0) ∧
    (markMsg.op < 256 ∧ markMsg.data.length = msgDataLen markMsg.op markMsg.dlen) := by decide +kernel

theorem witness_HostWindowsResetsAndCxl :
    (dev.host.en = true ∧ dev.pfW2Open = true ∧ ({ dev with boot := {} } : State).pfW2Open = false) ∧
    (dev.pfRow (dramBase 1) = none ∧ dev.pfRow (dramBase 0) = some 5 ∧ dev.pfRow (2 ^ 50) = some 4 ∧ firstRow [none, some 5, some 4] = some 4) ∧
    (dev.vfThere 0 = true ∧ dev.vfServed 0 = true ∧ ({ dev with host := { dev.host with serviceReason := 1 } } : State).vfServed 0 = false ∧
      (valOf (dev.vfPieces 0 .read 0 16, dev) []).length = 1 ∧ (valOf (dev.vfPieces 0 .write 0 16, dev) []).length = 1 ∧
      ({ dev with psess := [] } : State).sessionOpen 0 = false) ∧
    (dev.fnThere 0 = true ∧ dev.fnThere 16 = true ∧ dev.fnThere 17 = false ∧ dev.boot.held = false ∧ dev.boot.halted = false) ∧
    (dev.host.vfEnable = true ∧ ({ dev with host := { en := true } } : State).host.vfEnable = false) ∧
    (let s : State := { dev with host := { en := true, strap := true, cxlSize := 16, cxlGrans := [0, 1], hdm := some (0, 2 ^ 32, 1) } }
     s.hdmDecode (2 ^ 32) = none ∧ s.hdmDecode (2 ^ 32 - 64) = some (2 ^ 32 - 64) ∧ (s.cxlWalk s.host.cxlGrans 64).isSome = true ∧
       s.owner 0 ≠ none ∧ s.owner 1 = none) := by decide +kernel

theorem witness_RegisterAccesses :
    (∀ r ∈ [0, 4, 8, 0x11000, 0x11FFC], r % 4 = 0) ∧ ([1, 2, 3, 4] : List Byte).length = 4 ∧ dev.host.en = true ∧
    (∀ en ∈ [1, 14], 0 < en ∧ en < 15) ∧ ((0 : Nat) % 8 = 0 ∧ (4 : Nat) % 8 = 4) ∧
    (dev.pageDefined 0 = true ∧ ({ dev with psess := [] } : State).sessionOpen 0 = false) ∧
    ((dev.ctlReg 0).acc = .ro ∧ (dev.ctlReg 0x10).acc = .rc ∧ (dev.ctlReg 0x10).half = .whole ∧ (blkOf 0x0C).1 = .dev ∧
      (match (dev.ctlReg 0x0C).acc with | .rw _ => true | _ => false) = true ∧ (match (dev.ctlReg 0x3010).acc with | .rwd _ => true | _ => false) = true ∧
      (blkOf 0x3010).1 = .plt ∧ dev.blkEn .plt = true ∧ State.reset.blkEn .plt = false) ∧
    dev.pfServes 0 ∧ ((512 : Word) - 0).toNat ≤ 512 ∧ 512 < ((513 : Word) - 0).toNat ∧ dev.vecMasked 0 2047 = true ∧
    (({ dev with host := { dev.host with pend := [(pendKey 0 2047, true)] } } : State).pend 0 2047 = true ∧ dev.pend 0 2047 = false ∧
      (dev.setReg (msixKey 0 0 + 16 * 2047 + 12) 1#32).vecMasked 0 2047 = false) :=
  ⟨by decide, rfl, rfl, by decide, by decide, by decide +kernel, by decide +kernel, dev_serves 0, by decide, by decide,
    by decide +kernel, by decide +kernel⟩

/-- A live session of this role and partition, with partner 0. -/
def sessDev (role part : Nat) (live : Bool) : State :=
  { dev with mgmt := { up := true, sessions := [{ id := 1, role := role, part := part, live := live }], stages := [(0, 3)] } }

/-- A message in session 1. -/
def inSess : Ask := { session := 1 }

theorem sess_hears (role part : Nat) (live : Bool) (q : Ask) (h : q = inSess ∨ q = {}) : (sessDev role part live).hears q := by
  rcases h with rfl | rfl <;> exact ⟨rfl, rfl, rfl, rfl, rfl⟩

theorem sess_live (role part : Nat) : (sessDev role part true).inLive inSess { id := 1, role := role, part := part, live := true } :=
  ⟨sess_hears role part true _ (.inl rfl), by decide, rfl, rfl, rfl⟩

theorem witness_SpdmSessionsAndDebugPath :
    (dev.boot.held = false ∧ dev.boot.halted = false ∧ dev.ignoring 0 = false ∧
      ({ dev with mgmt := { up := true, ignored := [(0, 1)] } } : State).ignoring 0 = true) ∧
    (∃ p ∈ [4, 6], p ≠ 0) ∧
    ({ dev with now := 75000000, mgmt := {} } : State).romAnswers = true ∧
    dev.hears {} ∧ (∀ n < 4, ({ dev with mgmt := { up := true, stages := [(0, n)] } } : State).stage {} = n) ∧
    (sessDev 1 255 false).hears inSess ∧ (sessDev 1 255 false).mgmtSession inSess = some { id := 1, role := 1, live := false } ∧
    (sessDev 1 255 true).inLive inSess { id := 1, role := 1, live := true } ∧
    (8 ≤ (List.replicate 8 ({} : MSess)).length ∧ hintOk 1 255 = true ∧ hintOk 3 15 = true ∧ hintOk 3 16 = false) ∧
    (NatMap.get none ({ psks := [(1, some 5)] } : Archive).psks (pskKey 1 255) ≠ none) ∧
    (64 ≤ ((List.replicate 64 0).filter (fun x => decide ((0 : Nat) < x + cyclesPerSecond))).length) ∧
    (0 + 180 * cyclesPerSecond ≤ 270000000000 ∧ (269999999999 : Nat) < 0 + 180 * cyclesPerSecond) ∧
    (({ dev with mgmt := { debugUnlocked := true } } : State).mgmt.debugUnlocked = true ∧ dev.mgmt.debugUnlocked = false ∧
      dev.testState 0 = false ∧ ∀ c < 32, dev.testState (32 + c) = true) :=
  ⟨by decide +kernel, by decide, by decide +kernel, ⟨rfl, rfl, by decide, rfl, rfl⟩, by decide +kernel, sess_hears 1 255 false _ (.inl rfl),
    rfl, sess_live 1 255, by decide, by decide, by decide +kernel, by decide, by decide +kernel⟩

theorem witness_ManagementAndPartitionSessions :
    (sessDev 1 255 true).held.claimed = false ∧
    (∃ s : State, s.held.claimed = true ∧ s.inLive inSess { id := 1, role := 1, part := 255, live := true }) ∧
    (∀ role ∈ [1, 2, 3, 4], (sessDev role 255 true).inLive inSess { id := 1, role := role, part := 255, live := true }) ∧
    (assentBody ([1] ++ List.replicate 48 0) = true ∧ lockedKind 1 = true ∧ lockedKind 3 = false) ∧
    ((sessDev 1 255 true).findAssent 1 0 = none ∧ (∃ n, (List.range 8).find? (fun n => ((sessDev 1 255 true).assent n).isNone) = some n)) ∧
    (let s : State := { dev with mgmt := { up := true, assents := [(7, some { kind := 1, state := .complete, window := 1, deadline := 9 })] } }
     s.findAssent 1 0 = some 7 ∧ s.completeAssent 1 0 = some 7 ∧ s.assent 7 ≠ none) ∧
    (hintOk 1 255 = true ∧ (1 : Nat) ≤ 2 ∧ ([1, 255] ++ List.replicate 48 (0 : Byte)).length = 50) ∧
    (sessDev 1 255 true).hears {} ∧ (List.replicate 365 (0 : Byte)).length = 365 ∧
    (dev.partKey 0 = 0 ∧ ({ dev with mgmt := { held := { keys := [(0, 5)] } } } : State).partKey 0 ≠ 0) ∧
    (({ nonceAt := some 0 } : PSess).nonceLive (10 * cyclesPerSecond - 1) = true ∧ ({ nonceAt := some 0 } : PSess).nonceLive (10 * cyclesPerSecond) = false) ∧
    (({ dev with psess := [(0, { resp := dev.psExpected 0, state := .opened })] } : State).sess 0).resp = dev.psExpected 0 ∧
    ((3 : Nat) ≤ 3 ∧ (2 : Nat) < 3) ∧
    (∀ st ∈ [PsState.closed, .challenged, .opened, .lockout], (({ dev with psess := [(0, { state := st })] } : State).sess 0).state = st) :=
  ⟨rfl, ⟨{ sessDev 1 255 true with mgmt := { (sessDev 1 255 true).mgmt with held := { claimed := true } } }, rfl,
      ⟨⟨rfl, rfl, rfl, rfl, rfl⟩, by decide, rfl, rfl, rfl⟩⟩,
    fun role _ => sess_live role 255, by decide +kernel, ⟨by decide +kernel, ⟨0, by decide +kernel⟩⟩, by decide +kernel, by decide, sess_hears 1 255 true _ (.inr rfl),
    by decide +kernel, by decide +kernel, by decide, rfl, by decide, by decide +kernel⟩

/-- The device in this boot step, since time 0. -/
def bootDev (n : Nat) : State := { dev with boot := { held := false, step := n } }

/-- Each step in progress at its maximum; service mode and not; the signals in each level; the archive halves; a lock and none. -/
theorem witness_ResetsAndBootSteps :
    (∀ n, (bootDev n).inStep n (stepMax n * cyclesPerMs)) ∧
    (∀ n < 15, (bootDev n).skips n = false) ∧ ({ bootDev 2 with boot := { held := false, step := 2, service := true } } : State).skips 2 = true ∧
    (dev.env.pwrgd = true ∧ dev.env.perst = false ∧ State.reset.env.pwrgd = false ∧ State.reset.env.perst = true) ∧ dev.pfServes 0 ∧
    ((bootDev 6).nv.half0 = none ∧ (bootDev 6).nv.half1 = none ∧
      ({ bootDev 6 with nv := { half0 := some {} } } : State).openHalf 0 = some 0 ∧
      ({ bootDev 6 with nv := { half0 := some { setver := 1 } } } : State).openHalf 0 = none) ∧
    (bootDev 8).boot.retry = none ∧ (bootDev 9).clusterOn 0 = true ∧
    ({ bootDev 12 with sht := { locked := true } } : State).sht.locked = true ∧ (bootDev 12).stepPath 12 = 0 ∧
    ({ bootDev 13 with plate := {} } : State).plate.installed = none ∧ (bootDev 13).plate.installed ≠ none ∧
    (dev.boot.ready = true ∧ ({ dev with boot := { dev.boot with setver := 1 } } : State).boot.setver ≠ 0) :=
  ⟨fun n => ⟨rfl, rfl, rfl, rfl, by show stepMax n * cyclesPerMs ≤ 0 + stepMax n * cyclesPerMs; omega⟩, by decide +kernel, by decide +kernel,
    by decide +kernel, dev_serves 0, by decide +kernel, by decide +kernel, by decide +kernel, by decide +kernel, by decide +kernel,
    by decide +kernel, by decide +kernel, by decide +kernel⟩

/-- The update block enabled, in this state. -/
def fwuDev (f : Fwu) : State := { dev with fwu := { f with en := true } }

theorem witness_FirmwareUpdates : dev.pfServes 0 ∧ (fwuDev {}).fwu.en = true ∧
    (∀ st ∈ [FwuState.idle, .erasing, .receiving, .verifying, .verified, .activated], (fwuDev { state := st }).fwu.state = st) ∧
    ((fwuDev {}).beginChecks 1 = 0 ∧ (fwuDev { state := .receiving, path := 1 }).beginChecks 1 ≠ 0) ∧
    (lenOk 4096 = true ∧ lenOk (48 * 2 ^ 20) = true ∧ lenOk 0 = false ∧ lenOk (48 * 2 ^ 20 + 4096) = false) ∧
    (let s : State := { fwuDev {} with nv := { sel0 := some { trial := true } } }
     s.trial = true ∧ s.selector = some { trial := true } ∧ (fwuDev {}).trial = false) ∧
    ((fwuDev {}).env.holdup = false ∧ (fwuDev {}).anyMigrating = false ∧ (fwuDev {}).held.lock = false ∧ (fwuDev {}).fuseVersion ≤ (fwuDev {}).fwu.svn ∧
      (fwuDev {}).held.updatePolicy ≠ 1) ∧
    (0 + 600 * cyclesPerSecond ≤ 900000000000 ∧ (899999999999 : Nat) < 0 + 600 * cyclesPerSecond) ∧
    (fwuDev { resetAt := some 9 }).fwu.resetAt = some 9 ∧ (fwuDev {}).fwu.resetAt = none ∧
    (sessDev 1 255 true).inLive inSess { id := 1, role := 1, live := true } ∧
    ((fwuDev { pldm := 2 }).fwu.pldm = 2 ∧ (2 : Nat) ≤ 2 ∧ (fwuDev {}).fwu.pldm = 0) ∧
    (fwuDev { state := .verifying, written := [], len := 4096 }).verifyResult.1 ≠ 0 :=
  ⟨dev_serves 0, rfl, by decide +kernel, by decide +kernel, by decide +kernel, by decide +kernel, by decide +kernel, by decide,
    rfl, rfl, sess_live 1 255, by decide, by decide +kernel⟩

end Sys2Proof.Tests
end

section
/-!
PROOFS. Frames and ticks (R36, R37, R58, R64): when a frame begins, which number and time it bears, and that no other
command moves them.
-/

namespace Sys2Proof.Machine

open Sys2Proof

/-- Settles O35: `exec_keeps` says it of every command, `Keeps` with a base that begins no frame. -/
theorem framesBeginAtTicksAlone : Obligations.FramesBeginAtTicksAlone := by
  intro i s t hi ht
  have k : Keeps ⟨s, i.mayTick⟩ t := exec_keeps i s t ht
  exact ⟨k.frame hi, k.last hi⟩

@[simp] theorem State.shtEvent_sht (s : State) (bit : Nat) : (s.shtEvent bit).sht = s.sht := State.raise_sht s _ _ _ _ _

/-- The Shutter has just begun frame `f` at a time, by a flywheel tick or not. -/
def Shutter.Begun (x : Shutter) (f : Dword) (time : Thirds) (flywheel : Bool) : Prop :=
  x.frame = f ∧ x.lastTick = time ∧ x.open_ = true ∧ x.guardBand = false ∧ x.flywheel = flywheel ∧ x.started = true

theorem State.tick_begun (s : State) (time : Thirds) (f : Dword) (flywheel installs : Bool) :
    (s.tick time f flywheel installs).sht.Begun f time flywheel := State.tick_shutter s time f flywheel installs

/-- A tick begins its frame too where it is followed by an event of the Shutter. -/
theorem State.tick_event_begun (s : State) (time : Thirds) (f : Dword) (flywheel installs differs : Bool) (bit : Nat) :
    (if differs then (s.tick time f flywheel installs).shtEvent bit else s.tick time f flywheel installs).sht.Begun f time flywheel := by
  have h := State.tick_begun s time f flywheel installs
  cases differs with
  | false => exact h
  | true => simpa using h

/-- A planned tick begins the planned frame at the planned time, whatever it reports of missed and renumbered frames. -/
theorem State.plannedTick_begun (s : State) (p : TickPlan) :
    (s.plannedTick p).sht.Begun (BitVec.ofNat 64 p.frame) p.time false := State.tick_event_begun _ _ _ _ _ _ _

/-- TICK of an enabled device on its own time base, with no tick announced (R37). -/
theorem State.tickNow_own {s : State} (hp : s.sht.plan = none) (he : s.sht.en = true) (ho : s.ownTicks = true) :
    s.tickNow.sht.Begun s.nextFrame s.nextTick false := by
  have h : s.tickNow = s.tick s.nextTick s.nextFrame false false := by simp [State.tickNow, hp, he, ho]
  rw [h]
  exact State.tick_begun _ _ _ _ _

/-- TICK of an announced tick, once boot step SHUTTER is reached (R58). -/
theorem State.tickNow_planned {s : State} {p : TickPlan} (hp : s.sht.plan = some p) (hb : 12 ≤ s.boot.step) :
    s.tickNow.sht.Begun (BitVec.ofNat 64 p.frame) p.time false := by
  have h : s.tickNow = s.plannedTick p := by simp [State.tickNow, hp, Nat.not_lt.mpr hb]
  rw [h]
  exact State.plannedTick_begun s p

/-- FLYWHEEL_TICK where the tick of a source heard before stays out (R64). -/
theorem State.flywheelTick_begun {s : State} (hp : s.sht.plan = none) (he : s.sht.en = true) (ho : s.ownTicks = false)
    (hs : s.sht.started = true) :
    s.flywheelTick.sht.Begun (s.sht.frame + 1) (s.sht.lastTick + usThirds s.sht.period) true := by
  unfold State.flywheelTick
  rw [if_neg (by simp [hp, he, ho, hs])]
  simpa [State.incReg] using State.tick_begun _ _ _ _ _

/-- Settles O34: each kind of tick begins its frame (`Shutter.Begun`), and the guard band is one update of the Shutter. -/
theorem ticksAndFrames : Obligations.TicksAndFrames := by
  intro s
  refine ⟨fun hp he ho => ⟨_, rfl, State.tickNow_own hp he ho⟩, fun p hp hb => ⟨_, rfl, State.tickNow_planned hp hb⟩,
    fun hp he ho hs => ⟨_, rfl, State.flywheelTick_begun hp he ho hs⟩, fun hs ho => ?_⟩
  show execGuardBandStart s = _
  unfold execGuardBandStart
  rw [if_pos ⟨hs, ho⟩]
  rfl

end Sys2Proof.Machine
end

section
/-!
PROOFS. Timers, edges and what is reported of a partition's loading, draining, migration and core stops (R55, R79, R95,
R97, R99, R100, R561).
-/

namespace Sys2Proof.Machine

open Sys2Proof

/-! ## Timers (R79) -/

/-- A timer that is there fires: it is set as expired, and its kind says what follows. -/
theorem State.fireTimer_found {s : State} {p i : Nat} {tm : Timer} (h : (s.part p).timers[i]? = some tm) :
    s.fireTimer p i =
      let u := s.modPart p (fun x => { x with timers := x.timers.set i tm.expired })
      if tm.cfg.kind = 1 then u.logErr { cls := 2, source := 4, code := 5, part := p, detail := tm.cfg.id }
      else u.addMark p tm.cfg.mark 1 := by
  simp [State.fireTimer, h]

/-- The expiry row of an active timer of a RUNNING partition, under the timer's own kind. -/
theorem State.timerExpiry_fires {s : State} {p i k : Nat} {tm : Timer} (h : (s.part p).timers[i]? = some tm)
    (hr : (s.part p).state = .running) (ha : tm.active = true) (hk : tm.cfg.kind = k) :
    s.timerExpiry p i k = (s.advance tm.due).fireTimer p i := by
  simp [State.timerExpiry, State.timerRuns, h, hr, ha, hk, List.headD_eq_head?_getD]

/-! ## Edges (R79, R95, R561) -/

/-- An edge of an input that partition section `q` of the installed plate takes waits behind those latched. -/
theorem State.latchEdge_mapped {s : State} {i : Nat} {rising : Bool} {pl : Plate} {q : PartSec} (h : s.plate.installed = some pl)
    (hq : pl.parts.find? (fun q => ((q.inputs.drop i).headD {}).accepts rising) = some q) :
    s.latchEdge i rising =
      { s with edges := NatMap.set [] s.edges i (NatMap.get [] s.edges i ++ [{ part := q.num, rising := rising }]) } := by
  simp only [State.latchEdge, h, hq, NatMap.upd]

theorem State.latchEdge_unmapped {s : State} {i : Nat} {rising : Bool} {pl : Plate} (h : s.plate.installed = some pl)
    (hq : pl.parts.find? (fun q => ((q.inputs.drop i).headD {}).accepts rising) = none) : s.latchEdge i rising = s := by
  simp only [State.latchEdge, h, hq]

/-- The oldest edge leaves its queue; whether it still counts does not depend on the queue. -/
theorem execEdgeDeliver_latched {s : State} {i : Nat} {e : LatchedEdge} {l : List LatchedEdge}
    (h : NatMap.get [] s.edges i = e :: l) :
    execEdgeDeliver i s =
      let u : State := { s with edges := NatMap.set [] s.edges i l }
      ok (if s.edgeKept i e then u.addMark e.part (((s.psecD e.part).inputs.drop i).headD {}).mark 1 else u) := by
  simp only [execEdgeDeliver, h]
  rfl

/-! ## Core stops (R55, R225) -/

/-- A HELD stop of a core changes its run state alone. -/
theorem State.stopCore_held (s : State) (c : Nat) : (s.stopCore c 4).core c = { s.core c with run := .stopped 4 } := by
  simp only [State.stopCore, if_true]
  rw [State.core, State.logErr_cores]
  exact State.core_modCore_same s c _

/-! ## The obligation -/

/-- Settles O37: each row's guard holds, and its effect is the one stated. -/
theorem timersEdgesAndPartitionWork : Obligations.TimersEdgesAndPartitionWork := by
  intro p i s
  refine ⟨fun tm h hr ha => ?timers, fun rising pl h => ⟨fun q hq => ?mapped, fun hq => ?unmapped⟩, fun e l h => ?deliver,
    fun h => ?heldStop, fun c => ?stopped, fun h hm hl => ?loading, fun h hq => ?draining, fun h hf hm => ?lastAck⟩
  case timers =>
    have fires : ∀ k, tm.cfg.kind = k → s.timerExpiry p i k = (s.advance tm.due).fireTimer p i :=
      fun k hk => State.timerExpiry_fires h hr ha hk
    have h' : ((s.advance tm.due).part p).timers[i]? = some tm := h
    refine ⟨fun hk => ?_, fun hk => ?_, fun hk => ?_⟩
    · show ok (s.timerExpiry p i 2) = _
      simp [fires 2 hk, State.fireTimer_found h', Timer.expired, TimerCfg.cycles, hk]
    · show ok (s.timerExpiry p i 3) = _
      simp [fires 3 hk, State.fireTimer_found h', Timer.expired, hk]
    · show ok (s.timerExpiry p i 1) = _
      simp [fires 1 hk, State.fireTimer_found h', Timer.expired, hk]
  case mapped => exact congrArg ok (State.latchEdge_mapped h hq)
  case unmapped => exact congrArg ok (State.latchEdge_unmapped h hq)
  case deliver => exact execEdgeDeliver_latched h
  case heldStop =>
    show execHeldCoreStop p s = _
    rw [execHeldCoreStop, if_neg (not_not_intro h)]
    rfl
  case stopped => simp [State.stopCore_held]
  case loading =>
    refine ⟨(s.zeroPart p).modPart p (fun x => { x with loadDone := true }), ?_, by simp, rfl⟩
    show execLoadingComplete p s = _
    rw [execLoadingComplete, if_pos ⟨h, hm, by simp [hl]⟩]
  case draining =>
    refine ⟨(s.flushPart p).modPart p (fun x => { x with drainDone := true }), ?_, by simp, rfl⟩
    show execDrainComplete p s = _
    rw [execDrainComplete, if_pos ⟨h, by simp [State.quiet, hq]⟩]
  case lastAck =>
    show execMigrationLastAck p s = _
    rw [execMigrationLastAck, if_pos ⟨h, hf, by simp [hm]⟩]

end Sys2Proof.Machine
end

section
/-!
PROOFS. Launches, the start of a kernel, and SYN commands (R56, R79, R267, R272, R277 to R279).
-/

namespace Sys2Proof

/-- Leaving out what an unlisted key reads as changes no reading, where no key stands twice. -/
theorem NatMap.get_filter_ne_default {α : Type} [DecidableEq α] (d : α) {m : NatMap α} (h : (m.map Prod.fst).Nodup) (k : Nat) :
    NatMap.get d (m.filter (fun e => e.2 != d)) k = NatMap.get d m k := by
  have absent : ∀ {m : NatMap α}, k ∉ m.map Prod.fst → NatMap.get d m k = d := by
    intro m
    induction m with
    | nil => exact fun _ => rfl
    | cons e m ih =>
      intro hk
      obtain ⟨hne, hk⟩ : k ≠ e.1 ∧ k ∉ m.map Prod.fst := by simpa using hk
      simp [NatMap.get, hne, ih hk]
  induction m with
  | nil => rfl
  | cons e m ih =>
    obtain ⟨j, a⟩ := e
    obtain ⟨hj, hm⟩ := List.nodup_cons.mp h
    by_cases ha : a = d
    · by_cases hk : k = j
      · subst hk
        simp [NatMap.get, ha, ih hm, absent hj]
      · simp [NatMap.get, ha, ih hm, hk]
    · by_cases hk : k = j <;> simp [NatMap.get, ha, ih hm, hk]

@[simp] theorem length_natLE (n v : Nat) : (natLE n v).length = n := by
  induction n generalizing v with
  | zero => rfl
  | succ n ih => simp [natLE, ih]

end Sys2Proof

namespace Sys2Proof.Machine

open Sys2Proof

/-! ## Kernels (R272, R279) -/

@[simp] theorem State.modCmd_core (s : State) (p id c : Nat) (f : Cmd → Cmd) : (s.modCmd p id f).core c = s.core c := rfl

/-- The general registers of a launched core: g2 and g10 to g13 as R279 gives them, the others zero. -/
theorem Core.launched_gr (k : Core) (r : Line) (core installed : Nat) (run : KernelRun) (n : Nat) :
    (k.launched r core installed run).gr n = NatMap.get 0 [(2, k.ssp), (10, BitVec.ofNat 64 (fld r 48 8)),
      (11, BitVec.ofNat 64 (fld r 56 8)), (12, BitVec.ofNat 64 (core % 16)), (13, BitVec.ofNat 64 (core / 16 - fld r 36 1))] n := by
  unfold Core.gr
  split
  · next h => subst h; rfl
  · exact NatMap.get_filter_ne_default 0 (by simp) n

/-- Where every condition of R279 holds, the core is launched, and no other core changes. -/
theorem State.kernelStart_starts {s : State} {p id core : Nat} {c : Cmd} (hc : (s.sch p).cmd? id = some c)
    (hp : (s.part p).state ∈ [.running, .draining, .migrating]) (hf : s.err.fatal = false) (hr : recClass c.image = 0)
    (hb : c.began.isSome = true) (hn : c.result = none) (hu : core ∈ c.units)
    (he : NatMap.get .notStarted c.ends core = .notStarted) (hk : (s.core core).free = true) (hi : s.firstFor p id core = true) :
    (s.kernelStart p id core).core core = (s.core core).launched c.image core (s.cluster (core / 16)).installed
        { part := p, cmd := id, admitFrame := c.admitFrame, startedAt := s.now } ∧
      ∀ d, d ≠ core → (s.kernelStart p id core).core d = s.core d := by
  have hp' : ((s.part p).state == .running || (s.part p).state == .draining || (s.part p).state == .migrating) = true := by
    simpa [or_assoc] using hp
  simp only [State.kernelStart, hc]
  rw [if_pos (by simp [hp', hf, hr, hb, hn, hu, he, hk, hi])]
  simp only [State.modCmd_core]
  exact ⟨State.core_modCore_same _ _ _, fun d hd => State.core_modCore_ne _ _ _ _ hd⟩

/-- KRN_LAUNCH of a launch its unit may work on. -/
theorem State.krnLaunch_ready {s : State} {p id : Nat} {c : Cmd} (h : s.engineCmd p id 0 0 = some c) :
    s.krnLaunch p id = s.modCmd p id (fun c => { c with began := c.began.or (some s.now) }) := by
  simp only [State.krnLaunch, h]

/-! ## SYN (R277) -/

/-- A SYN command that has begun has its effect, and completes OK. -/
theorem State.runSyn_ready {s : State} {p id op : Nat} {c : Cmd} (h : s.engineCmd p id 6 op = some c) (f : Line → State → State) :
    s.runSyn p id op f = (f c.image (s.modCmd p id (fun c => { c with began := some s.now }))).completeCmd p id 0 0 := by
  simp only [State.runSyn, h]

theorem State.synFrameAlign_ready {s : State} {p id : Nat} {c : Cmd} (h : s.engineCmd p id 6 4 = some c) :
    s.synFrameAlign p id = s.modCmd p id (fun c => { c with began := c.began.or (some s.now) }) := by
  simp only [State.synFrameAlign, h]

theorem State.synEvent_ready {s : State} {p id : Nat} {c : Cmd} (h : s.engineCmd p id 6 6 = some c) :
    s.synEvent p id = (onesOf 16 (fld c.image 34 2)).foldl
      (fun u k => u.raiseEv (16 * fld c.image 32 1 + k) (1 + fld c.image 36 1))
      ((s.modCmd p id (fun c => { c with began := some s.now })).completeCmd p id 0 0) := by
  simp only [State.synEvent, h]

/-- What SYN TIMESTAMP writes (R38): device time and the frame number, 8 bytes each. -/
def State.stamp (s : State) : List Byte := natLE 8 (s.now % 2 ^ 64) ++ natLE 8 s.sht.frame.toNat

theorem State.stamp_length (s : State) : s.stamp.length = 16 := by simp [State.stamp]

theorem State.synTimestamp_written {s u : State} {p id : Nat} {c : Cmd} (h : s.engineCmd p id 6 3 = some c)
    (hw : s.writePart p .engine (fld c.image 32 6) s.stamp = (.ok (), u)) :
    s.synTimestamp p id = (u.finishCmd p id 16 0 0).completeCmd p id 0 0 := by
  have he : ({ s := s, p := p } : Eng).write (fld c.image 32 6) s.stamp = { s := u, p := p, moved := 16 } := by
    simp [Eng.write, hw, State.stamp_length]
  unfold State.stamp at he
  simp only [State.synTimestamp, h, he]

theorem State.synTimestamp_failed {s u : State} {p id n : Nat} {e : MemErr} {c : Cmd} (h : s.engineCmd p id 6 3 = some c)
    (hw : s.writePart p .engine (fld c.image 32 6) s.stamp = (.error (e, n), u)) :
    s.synTimestamp p id =
      (u.finishCmd p id n (e.status n).1 (e.status n).2).completeCmd p id (e.status n).1 (e.status n).2 := by
  have he : ({ s := s, p := p } : Eng).write (fld c.image 32 6) s.stamp = { s := u, p := p, moved := n, err := some e } := by
    simp [Eng.write, hw]
  unfold State.stamp at he
  simp only [State.synTimestamp, h, he]

/-! ## The obligation -/

/-- Settles O41: a started kernel is read off `Core.launched`; a SYN command is `runSyn` with its effect. -/
theorem kernelsAndSynchronisation : Obligations.KernelsAndSynchronisation := by
  intro p id s c
  refine ⟨fun h => congrArg ok (State.krnLaunch_ready h), fun core hc hp hf hr hb hn hu he hk hi => ?start,
    fun h => congrArg ok (State.runSyn_ready h _), fun h => congrArg ok (State.runSyn_ready h _),
    fun h => congrArg ok (State.runSyn_ready h _),
    fun h => ⟨fun u hw => congrArg ok (State.synTimestamp_written h hw), fun u e n hw => congrArg ok (State.synTimestamp_failed h hw)⟩,
    fun h => congrArg ok (State.synFrameAlign_ready h), fun h => congrArg ok (State.runSyn_ready h _),
    fun h => congrArg ok (State.synEvent_ready h)⟩
  obtain ⟨hcore, hothers⟩ := State.kernelStart_starts hc hp hf hr hb hn hu he hk hi
  refine ⟨s.kernelStart p id core, rfl, ?_⟩
  rw [hcore]
  have gr := Core.launched_gr (s.core core) c.image core (s.cluster (core / 16)).installed
    { part := p, cmd := id, admitFrame := c.admitFrame, startedAt := s.now }
  refine ⟨rfl, rfl, rfl, rfl, gr 2, gr 10, gr 11, gr 12, gr 13, fun n hn => ?others, fun n => rfl, rfl, rfl, rfl, rfl, rfl, rfl, rfl,
    rfl, rfl, hothers⟩
  rw [gr n]
  simp only [List.mem_cons, List.not_mem_nil, or_false, not_or] at hn
  simp [NatMap.get, hn]

end Sys2Proof.Machine
end

section
/-!
PROOFS. Staging, judging and aborting a plate (R87 to R91, R465), and requests to partitions (R96, R98, R100, R453).
-/

namespace Sys2Proof.Machine

open Sys2Proof

/-! ## PLT_CMD (R88, R102) -/

/-- The state in which a command of the plate's registers acts: BADCMD is cleared. -/
def State.badCmdCleared (s : State) : State := { s with plate := { s.plate with badCmd := false } }

/-- A command of PLT_CMD acts where it is served and the block is enabled. -/
theorem State.pltCmd_enabled {s : State} (h : s.pfServes 1) (he : s.plate.en = true) (f : State → State) :
    s.pltCmd f = f s.badCmdCleared := by
  rw [State.pltCmd, State.pfWrite_serves h, if_pos he]
  rfl

theorem State.stagePlate_busy {s : State} (h : s.plate.stage ∈ [.copying, .validating, .staged]) (host : Option (List Byte)) :
    s.stagePlate host = { s with plate := { s.plate with result := 16, errOffset := 0 } } := by
  unfold State.stagePlate
  generalize s.plate.stage = st at h
  cases st with
  | copying | validating | staged => rfl
  | idle | failed => simp at h

/-- What STAGE keeps of the plate it copies: the bytes, and the mode, target and length that the registers name (R88). -/
def State.copied (s : State) (host : Option (List Byte)) : Staged :=
  let c := s.stageCopy host
  let mode := (s.reg (pltKey 0x1C)).toNat
  { bytes := c.1, mode := mode % 4, persist := bitOf mode 8,
    target := (c.2.reg (pltKey 0x20)).toNat + 2 ^ 32 * (c.2.reg (pltKey 0x24)).toNat, len := (c.2.reg (pltKey 0x18)).toNat }

/-- STAGE with nothing staged fails where the mode is 3, and otherwise leaves the copy to be validated. -/
theorem State.stagePlate_free {s : State} (h : s.plate.stage ∉ [.copying, .validating, .staged]) (host : Option (List Byte)) :
    s.stagePlate host =
      if (s.reg (pltKey 0x1C)).toNat % 4 = 3 then s.stageFail (10, 0)
      else
        let t := (s.stageCopy host).2
        { t with plate := { t.plate with stage := .validating, staged := some (s.copied host) } } := by
  unfold State.stagePlate
  generalize s.plate.stage = st at h
  cases st with
  | idle | failed => rfl
  | copying | validating | staged => simp at h

theorem State.abortPlate_staged {s : State} {g : Staged} (h : s.plate.staged = some g) :
    s.abortPlate = ({ s with plate := { s.plate with stage := .idle, staged := none } }).returnAssent g.assent := by
  simp only [State.abortPlate, h]

theorem State.abortPlate_none {s : State} (h : s.plate.staged = none) : s.abortPlate = s := by
  simp only [State.abortPlate, h]

/-! ## Judging the copy (R87, R89 to R91) -/

@[simp] theorem State.pltEvent_plate (s : State) (bit : Nat) : (s.pltEvent bit).plate = s.plate := State.raise_plate s _ _ _ _ _

@[simp] theorem State.pltEvent_assent (s : State) (bit n : Nat) : (s.pltEvent bit).assent n = s.assent n := by
  simp [State.assent, State.pltEvent]

/-- The assent a plate needs is reserved, where it needs one. -/
def State.reserveNeeded (s : State) (a : Option Nat) : State := match a with
  | some n => s.reserveAssent n
  | none => s

theorem State.reserveNeeded_plate (s : State) (a : Option Nat) : (s.reserveNeeded a).plate = s.plate := by
  cases a with
  | none => rfl
  | some n =>
    show (s.reserveAssent n).plate = s.plate
    unfold State.reserveAssent
    split <;> rfl

theorem State.reserveNeeded_assent {s : State} {n : Nat} {y : Assent} (h : s.assent n = some y) :
    (s.reserveNeeded (some n)).assent n = some { y with state := .reserved } := by
  simp [State.reserveNeeded, State.reserveAssent, h]

/-- The plate is staged, with the assent it needs reserved. -/
def State.stages (s : State) (g : Staged) (pl : Plate) (a : Option Nat) : State :=
  let u := s.reserveNeeded a
  ({ u with plate := { u.plate with
    stage := .staged, staged := some { g with plate := pl, assent := a }, result := 0, errOffset := 0, masterFlag := false } }).pltEvent 0

theorem State.stages_plate (s : State) (g : Staged) (pl : Plate) (a : Option Nat) :
    (s.stages g pl a).plate = { s.plate with
      stage := .staged, staged := some { g with plate := pl, assent := a }, result := 0, errOffset := 0, masterFlag := false } := by
  simp only [State.stages, State.pltEvent_plate, State.reserveNeeded_plate]

theorem State.stages_assent {s : State} {n : Nat} {y : Assent} (h : s.assent n = some y) (g : Staged) (pl : Plate) :
    (s.stages g pl (some n)).assent n = some { y with state := .reserved } := by
  simp only [State.stages, State.pltEvent_assent]
  exact State.reserveNeeded_assent h

/-- What validation leads to (R87, R89 to R91): the first failing check, BUSY, LATE, or the plate staged. -/
def State.judged (s : State) (g : Staged) : State :=
  match s.validate g.bytes g.len false with
  | .error e => s.stageFail e
  | .ok (pl, a) =>
    if s.installBusy pl then s.stageFail (16, 0)
    else if g.mode = 1 ∧ g.target ≤ s.sht.frame.toNat then s.stageFail (17, 0)
    else s.stages g pl a

theorem State.judged_error {s : State} {g : Staged} {e : Nat × Nat} (h : s.validate g.bytes g.len false = .error e) :
    s.judged g = s.stageFail e := by
  simp only [State.judged, h]

section
variable {s : State} {g : Staged} {pl : Plate} {a : Option Nat} (h : s.validate g.bytes g.len false = .ok (pl, a))
include h

theorem State.judged_busy (hb : s.installBusy pl = true) : s.judged g = s.stageFail (16, 0) := by
  simp only [State.judged, h]
  rw [if_pos hb]

theorem State.judged_late (hb : s.installBusy pl = false) (hl : g.mode = 1 ∧ g.target ≤ s.sht.frame.toNat) :
    s.judged g = s.stageFail (17, 0) := by
  simp only [State.judged, h]
  rw [if_neg (by simp [hb]), if_pos hl]

theorem State.judged_stages (hb : s.installBusy pl = false) (hl : ¬ (g.mode = 1 ∧ g.target ≤ s.sht.frame.toNat)) :
    s.judged g = s.stages g pl a := by
  simp only [State.judged, h]
  rw [if_neg (by simp [hb]), if_neg hl]

end

theorem State.validationDone_judged {s : State} {g : Staged} (h : s.plate.stage = .validating) (hg : s.plate.staged = some g) :
    s.validationDone = s.expireAssents.judged g := by
  simp only [State.validationDone, h, hg]
  rfl

/-! ## Requests to partitions (R96) -/

theorem State.reqOk_start (s : State) (p : Nat) :
    s.reqOk p .start = true ↔ (s.part p).state = .off ∧ s.mayStart p = true ∧ s.stagedChanges p = false := by
  simp only [State.reqOk]
  cases (s.part p).state <;> simp

theorem State.reqOk_stop (s : State) (p : Nat) :
    s.reqOk p .stop = true ↔ (s.part p).state = .loading ∨ (s.part p).state = .running ∨ (s.part p).state = .held := by
  simp only [State.reqOk]
  cases (s.part p).state <;> simp

theorem State.reqOk_release (s : State) (p : Nat) :
    s.reqOk p .release = true ↔ (s.part p).state = .held ∧ s.causePersists p = false := by
  simp only [State.reqOk]
  cases (s.part p).state <;> simp

theorem State.reqOk_migrateOut (s : State) (p dev part : Nat) :
    s.reqOk p (.migrateOut dev part) = true ↔ (s.part p).state = .running := by
  simp only [State.reqOk]
  cases (s.part p).state <;> simp

/-- A request of a partition is entered where it may be made, and otherwise raises CMD_REFUSED alone. -/
theorem State.requestPart_cases {s : State} {p : Nat} {r : PartReq} {fits : Prop} (hp : p < 16) (h : s.reqOk p r = true ↔ fits) :
    (fits → s.requestPart p r = s.modPart p (fun x => { x with request := some r })) ∧ (¬ fits → s.requestPart p r = s.pltEvent 5) := by
  constructor
  · intro hf
    rw [State.requestPart, if_pos ⟨hp, h.mpr hf⟩]
  · intro hf
    rw [State.requestPart, if_neg fun k => hf (h.mp k.2)]

/-- A command of PLT_PART_CMD on the served path makes its request, once BADCMD is cleared. -/
theorem State.partCmd_serves {s : State} (h : s.pfServes 1) (p : Nat) (r : PartReq) :
    s.partCmd p r = s.badCmdCleared.requestPart p r := State.pfWrite_serves h _

/-- A request by PLT_PART_CMD: entered where the partition's state allows it, and else refused. -/
theorem State.partCmd_cases {s : State} {p : Nat} {r : PartReq} {fits : Prop} (h : s.pfServes 1) (hp : p < 16)
    (hr : s.badCmdCleared.reqOk p r = true ↔ fits) :
    (fits → s.partCmd p r = s.badCmdCleared.modPart p (fun x => { x with request := some r })) ∧
      (¬ fits → s.partCmd p r = s.badCmdCleared.pltEvent 5) := by
  rw [State.partCmd_serves h]
  exact State.requestPart_cases hp hr

/-- The state in which PG_RELEASE acts: the page's BADCMD is cleared. -/
def State.pgBadCmdCleared (s : State) (p : Nat) : State :=
  { s with host := { s.host with pgBadCmd := NatMap.set false s.host.pgBadCmd p false } }

theorem execPgRelease_open {s : State} {p : Nat} (h : s.pageOpen p) :
    execPgRelease p s = ok ((s.pgBadCmdCleared p).requestPart p .release) := by
  obtain ⟨hthere, hserved, hdef, hopen⟩ := h
  rw [execPgRelease, State.vfWrite_serves hthere hserved, if_neg (by simp [hdef, hopen])]
  rfl

theorem execPgRelease_denied {s : State} {p : Nat} (hthere : s.vfThere p = true) (hserved : s.vfServed p = true)
    (h : s.pageDefined p = false ∨ s.sessionOpen p = false) : execPgRelease p s = ok (s.denyPage p) := by
  rw [execPgRelease, State.vfWrite_serves hthere hserved, if_pos (by simpa using h)]

/-! ## The obligation -/

/-- Settles O46: STAGE and ABORT by the stage they meet, the copy's judgement by `State.judged`, and each request by the
states that allow it. -/
theorem plateAndRequests : Obligations.PlateAndRequests := by
  refine ⟨fun host s h he => ?commands, fun s e => rfl, fun t s g hst hg => ?judgement, fun p s hp => ⟨fun h => ?requests, fun h => ?release,
    execPgRelease_denied⟩⟩
  case commands =>
    have stage : exec (.pltStage host) s = ok (s.badCmdCleared.stagePlate host) := congrArg ok (State.pltCmd_enabled h he _)
    have abort : exec .pltAbort s = ok s.badCmdCleared.abortPlate := congrArg ok (State.pltCmd_enabled h he _)
    rw [stage, abort]
    have free := fun hf => State.stagePlate_free (s := s.badCmdCleared) hf host
    exact ⟨fun hb => congrArg ok (State.stagePlate_busy (s := s.badCmdCleared) hb host),
      fun hf hm => congrArg ok ((free hf).trans (if_pos hm)),
      fun hf hm => ⟨_, congrArg ok ((free hf).trans (if_neg hm)), rfl, rfl⟩,
      fun g hg => congrArg ok (State.abortPlate_staged (s := s.badCmdCleared) hg),
      fun hg => congrArg ok (State.abortPlate_none (s := s.badCmdCleared) hg)⟩
  case judgement =>
    intro u v
    have done : exec (.plateValidationDone t) s = ok (u.judged g) := congrArg ok (State.validationDone_judged hst hg)
    rw [done]
    refine ⟨fun e hv => congrArg ok (State.judged_error hv), fun pl a hv => ⟨fun hb => congrArg ok (State.judged_busy hv hb),
      fun hb hm hl => congrArg ok (State.judged_late hv hb ⟨hm, hl⟩), fun hb hl => ⟨_, congrArg ok (State.judged_stages hv hb hl), ?_⟩⟩⟩
    rw [State.stages_plate]
    exact ⟨rfl, rfl, rfl, fun n y ha hy => ha ▸ State.stages_assent hy g pl⟩
  case requests =>
    have takes : ∀ {i r fits}, exec i s = ok (s.partCmd p r) → (s.badCmdCleared.reqOk p r = true ↔ fits) →
        (fits → exec i s = ok (s.badCmdCleared.modPart p (fun x => { x with request := some r }))) ∧
          (¬ fits → exec i s = ok (s.badCmdCleared.pltEvent 5)) := by
      intro i r fits hi hr
      obtain ⟨yes, no⟩ := State.partCmd_cases h hp hr
      rw [hi]
      exact ⟨fun hf => congrArg ok (yes hf), fun hf => congrArg ok (no hf)⟩
    refine ⟨takes rfl (State.reqOk_start _ p), takes rfl (State.reqOk_stop _ p), takes rfl (State.reqOk_release _ p),
      fun dev part hdev hpart => takes ?_ (State.reqOk_migrateOut _ p dev part)⟩
    show execMigrateOut p dev part s = _
    rw [execMigrateOut, Nat.mod_eq_of_lt hdev, Nat.mod_eq_of_lt hpart]
  case release =>
    obtain ⟨yes, no⟩ := State.requestPart_cases hp (State.reqOk_release (s.pgBadCmdCleared p) p)
    have release : exec (.pgRelease p) s = ok ((s.pgBadCmdCleared p).requestPart p .release) := execPgRelease_open h
    rw [release]
    exact ⟨fun hst hc => congrArg ok (yes ⟨hst, hc⟩), fun hf => congrArg ok (no hf)⟩

end Sys2Proof.Machine
end

section
/-!
PROOFS. Routes in the torus of devices (R74, R415): a hop in the direction of a route brings a message one step nearer.
-/

namespace Sys2Proof.Machine

open Sys2Proof

/-! ## One ring -/

/-- The steps between two places of a ring by the shorter way round (R415). -/
def ringDistance (a b n : Nat) : Nat := min ((b + n - a) % n) (n - (b + n - a) % n)

/-- The next place of a ring, in + or in −. -/
def ringNext (plus : Bool) (a n : Nat) : Nat := if plus then (a + 1) % n else (a + n - 1) % n

/-- The way from `a` to `b` in +, without its modulus. -/
theorem ringOffset {a b n : Nat} (ha : a < n) (hb : b < n) : (b + n - a) % n = if a ≤ b then b - a else b + n - a := by
  split
  · rw [show b + n - a = b - a + n by omega, Nat.add_mod_right, Nat.mod_eq_of_lt (by omega)]
  · exact Nat.mod_eq_of_lt (by omega)

theorem ringNext_lt {a n : Nat} (plus : Bool) (ha : a < n) : ringNext plus a n < n := by
  unfold ringNext
  split <;> exact Nat.mod_lt _ (by omega)

theorem ringStep_none {a b n : Nat} (ha : a < n) (hb : b < n) : ringStep a b n = none ↔ a = b := by
  simp only [ringStep, ringOffset ha hb]
  grind

theorem ringDistance_next_plus {a b n : Nat} (ha : a < n) (hb : b < n) (h0 : (b + n - a) % n ≠ 0) (h : 2 * ((b + n - a) % n) ≤ n) :
    ringDistance (ringNext true a n) b n + 1 = ringDistance a b n := by
  have hs : ringNext true a n = if a + 1 = n then 0 else a + 1 := by
    show (a + 1) % n = _
    split
    · next e => rw [e, Nat.mod_self]
    · exact Nat.mod_eq_of_lt (by omega)
  unfold ringDistance
  rw [ringOffset (ringNext_lt true ha) hb, hs]
  rw [ringOffset ha hb] at h0 h ⊢
  grind

theorem ringDistance_next_minus {a b n : Nat} (ha : a < n) (hb : b < n) (h0 : (b + n - a) % n ≠ 0) (h : n ≤ 2 * ((b + n - a) % n)) :
    ringDistance (ringNext false a n) b n + 1 = ringDistance a b n := by
  have hs : ringNext false a n = if a = 0 then n - 1 else a - 1 := by
    show (a + n - 1) % n = _
    split
    · next e => rw [e, Nat.zero_add]; exact Nat.mod_eq_of_lt (by omega)
    · rw [show a + n - 1 = a - 1 + n by omega, Nat.add_mod_right, Nat.mod_eq_of_lt (by omega)]
  unfold ringDistance
  rw [ringOffset (ringNext_lt false ha) hb, hs]
  rw [ringOffset ha hb] at h0 h ⊢
  grind

/-- A step the ring's rule takes brings it one nearer. -/
theorem ringStep_nearer {a b n : Nat} {plus : Bool} (ha : a < n) (hb : b < n) (h : ringStep a b n = some plus) :
    ringDistance (ringNext plus a n) b n + 1 = ringDistance a b n := by
  simp only [ringStep] at h
  split at h
  · simp at h
  next h0 =>
  cases plus with
  | true => exact ringDistance_next_plus ha hb h0 (by grind)
  | false => exact ringDistance_next_minus ha hb h0 (by grind)

/-! ## Coordinates -/

/-- The device's place in ring `i`, and the ring's size. -/
def SysSec.coord (y : SysSec) (d i : Nat) : Nat := ((y.coords d).drop i).headD 0
def SysSec.dim (y : SysSec) (i : Nat) : Nat := (y.dims.drop i).headD 0

/-- The number of the device at three places (R74). -/
def SysSec.number (y : SysSec) (a b c : Nat) : Nat := a + y.dimX * b + y.dimX * y.dimY * c

theorem mixed_lt {a b n m : Nat} (ha : a < n) (hb : b < m) : a + n * b < n * m :=
  calc a + n * b < n + n * b := Nat.add_lt_add_right ha _
    _ = n * (b + 1) := by rw [Nat.mul_succ, Nat.add_comm]
    _ ≤ n * m := Nat.mul_le_mul_left n hb

section
variable {y : SysSec} {a b c : Nat} (ha : a < y.dimX) (hb : b < y.dimY)
include ha hb

theorem SysSec.coords_number : y.coords (y.number a b c) = [a, b, c] := by
  have hn : y.number a b c = a + y.dimX * (b + y.dimY * c) := by
    unfold SysSec.number
    rw [Nat.mul_add, Nat.mul_assoc, Nat.add_assoc]
  have hdiv : y.number a b c / y.dimX = b + y.dimY * c := by
    rw [hn, Nat.add_mul_div_left _ _ (by omega), Nat.div_eq_of_lt ha, Nat.zero_add]
  unfold SysSec.coords
  rw [← Nat.div_div_eq_div_mul, hdiv, Nat.add_mul_mod_self_left, Nat.mod_eq_of_lt hb, Nat.add_mul_div_left _ _ (by omega),
    Nat.div_eq_of_lt hb, Nat.zero_add, hn, Nat.add_mul_mod_self_left, Nat.mod_eq_of_lt ha]

theorem SysSec.number_lt (hc : c < y.dimZ) : y.number a b c < y.count := mixed_lt (mixed_lt ha hb) hc

end

theorem SysSec.number_coords (y : SysSec) (d : Nat) : y.number (y.coord d 0) (y.coord d 1) (y.coord d 2) = d := by
  show d % y.dimX + y.dimX * (d / y.dimX % y.dimY) + y.dimX * y.dimY * (d / (y.dimX * y.dimY)) = d
  rw [← Nat.div_div_eq_div_mul, Nat.add_assoc, Nat.mul_assoc, ← Nat.mul_add, Nat.mod_add_div, Nat.mod_add_div]

theorem SysSec.coord_lt {y : SysSec} {d i : Nat} (hd : d < y.count) (hi : i < 3) : y.coord d i < y.dim i := by
  have hpos : 0 < y.dimX * y.dimY * y.dimZ := Nat.zero_lt_of_lt hd
  have hxy : 0 < y.dimX * y.dimY := Nat.pos_of_mul_pos_right hpos
  match i with
  | 0 => exact Nat.mod_lt _ (Nat.pos_of_mul_pos_right hxy)
  | 1 => exact Nat.mod_lt _ (Nat.pos_of_mul_pos_left hxy)
  | 2 => exact Nat.div_lt_of_lt_mul hd

/-! ## The next device -/

/-- The place in ring `i` after a hop in direction `dir`. -/
def SysSec.hopped (y : SysSec) (here dir i : Nat) : Nat :=
  if (dir - 1) / 2 ≠ i then y.coord here i else ringNext (dir % 2 == 1) (y.coord here i) (y.dim i)

theorem SysSec.hopped_lt {y : SysSec} {here i : Nat} (h : here < y.count) (hi : i < 3) (dir : Nat) : y.hopped here dir i < y.dim i := by
  unfold SysSec.hopped
  split
  · exact SysSec.coord_lt h hi
  · exact ringNext_lt _ (SysSec.coord_lt h hi)

theorem SysSec.neighbour_number (y : SysSec) (here dir : Nat) :
    y.neighbour here dir = y.number (y.hopped here dir 0) (y.hopped here dir 1) (y.hopped here dir 2) := by
  simp [SysSec.neighbour, SysSec.number, SysSec.hopped, ringNext, SysSec.coord, SysSec.dim, SysSec.coords, SysSec.dims]

theorem SysSec.neighbour_lt {y : SysSec} {here : Nat} (h : here < y.count) (dir : Nat) : y.neighbour here dir < y.count := by
  rw [SysSec.neighbour_number]
  exact SysSec.number_lt (SysSec.hopped_lt h (by omega) dir) (SysSec.hopped_lt h (by omega) dir) (SysSec.hopped_lt h (by omega) dir)

theorem SysSec.coord_neighbour {y : SysSec} {here i : Nat} (h : here < y.count) (hi : i < 3) (dir : Nat) :
    y.coord (y.neighbour here dir) i = y.hopped here dir i := by
  rw [SysSec.neighbour_number, SysSec.coord,
    SysSec.coords_number (SysSec.hopped_lt h (by omega) dir) (SysSec.hopped_lt h (by omega) dir)]
  match i with
  | 0 | 1 | 2 => rfl

theorem SysSec.distance_rings (y : SysSec) (a b : Nat) : y.distance a b =
    ringDistance (y.coord a 0) (y.coord b 0) (y.dim 0) + ringDistance (y.coord a 1) (y.coord b 1) (y.dim 1)
      + ringDistance (y.coord a 2) (y.coord b 2) (y.dim 2) := rfl

/-! ## The direction -/

theorem SysSec.routeDir_rings (y : SysSec) (here dst : Nat) : y.routeDir here dst = (List.range 3).findSome? (fun i =>
    (ringStep (y.coord here i) (y.coord dst i) (y.dim i)).map (fun plus => 2 * i + (if plus then 1 else 2))) := by
  unfold SysSec.routeDir
  congr 1
  funext i
  simp only [SysSec.coord, SysSec.dim]
  generalize ringStep _ _ _ = r
  cases r <;> rfl

/-- A route goes on in one ring, by that ring's step. -/
theorem SysSec.routeDir_some {y : SysSec} {here dst dir : Nat} (h : y.routeDir here dst = some dir) :
    ∃ i < 3, ∃ plus, ringStep (y.coord here i) (y.coord dst i) (y.dim i) = some plus ∧ dir = 2 * i + (if plus then 1 else 2) := by
  rw [SysSec.routeDir_rings] at h
  obtain ⟨i, hi, h⟩ := List.exists_of_findSome?_eq_some h
  obtain ⟨plus, hp, hd⟩ := Option.map_eq_some_iff.mp h
  exact ⟨i, List.mem_range.mp hi, plus, hp, hd.symm⟩

/-- The route ends exactly at its destination. -/
theorem SysSec.routeDir_none {y : SysSec} {here dst : Nat} (hh : here < y.count) (hd : dst < y.count) :
    y.routeDir here dst = none ↔ here = dst := by
  have rings : y.routeDir here dst = none ↔ ∀ i < 3, y.coord here i = y.coord dst i := by
    rw [SysSec.routeDir_rings, List.findSome?_eq_none_iff]
    refine ⟨fun h i hi => ?_, fun h i hi => ?_⟩
    · exact (ringStep_none (SysSec.coord_lt hh hi) (SysSec.coord_lt hd hi)).mp (Option.map_eq_none_iff.mp (h i (List.mem_range.mpr hi)))
    · have hi := List.mem_range.mp hi
      exact Option.map_eq_none_iff.mpr ((ringStep_none (SysSec.coord_lt hh hi) (SysSec.coord_lt hd hi)).mpr (h i hi))
  rw [rings]
  refine ⟨fun h => ?_, fun h i _ => by rw [h]⟩
  rw [← y.number_coords here, ← y.number_coords dst, h 0 (by omega), h 1 (by omega), h 2 (by omega)]

/-- A hop in the direction of ring `i` moves in that ring alone. -/
theorem SysSec.hopped_dir (y : SysSec) (here i j : Nat) (plus : Bool) :
    y.hopped here (2 * i + (if plus then 1 else 2)) j =
      if j = i then ringNext plus (y.coord here i) (y.dim i) else y.coord here j := by
  have hring : (2 * i + (if plus then 1 else 2) - 1) / 2 = i := by split <;> omega
  have hsign : ((2 * i + (if plus then 1 else 2)) % 2 == 1) = plus := by cases plus <;> simp
  unfold SysSec.hopped
  rw [hring, hsign]
  by_cases h : j = i
  · subst h; simp
  · simp [h, Ne.symm h]

/-- The neighbour in a route's direction is one step nearer to the destination. -/
theorem SysSec.routeDir_nearer {y : SysSec} {here dst dir : Nat} (hh : here < y.count) (hd : dst < y.count)
    (h : y.routeDir here dst = some dir) :
    1 ≤ dir ∧ dir ≤ 6 ∧ y.distance (y.neighbour here dir) dst + 1 = y.distance here dst := by
  obtain ⟨i, hi, plus, hstep, rfl⟩ := SysSec.routeDir_some h
  refine ⟨by split <;> omega, by split <;> omega, ?_⟩
  have near := ringStep_nearer (SysSec.coord_lt hh hi) (SysSec.coord_lt hd hi) hstep
  simp only [SysSec.distance_rings, SysSec.coord_neighbour hh (by omega : 0 < 3), SysSec.coord_neighbour hh (by omega : 1 < 3),
    SysSec.coord_neighbour hh (by omega : 2 < 3), SysSec.hopped_dir]
  match i with
  | 0 | 1 | 2 => simp; omega

end Sys2Proof.Machine
end

section
/-!
PROOFS. The bytes of a message (R418) and the message read back from them.
-/

namespace Sys2Proof

/-- Bytes behind a little-endian number are found by leaving the number out. -/
theorem drop_natLE_append {n lo : Nat} (h : n ≤ lo) (v : Nat) (b : List Byte) : (natLE n v ++ b).drop lo = b.drop (lo - n) := by
  rw [List.drop_append, length_natLE, List.drop_eq_nil_of_le (by simp [h]), List.nil_append]

theorem leNat_natLE (n v : Nat) : leNat (natLE n v) = v % 256 ^ n := by
  induction n generalizing v with
  | zero => simp [natLE, leNat, Nat.mod_one]
  | succ n ih =>
    rw [natLE, leNat, ih, BitVec.toNat_ofNat, Nat.pow_succ' (m := 256), Nat.mod_mul]

theorem fieldLE_natLE_behind {n lo : Nat} (h : n ≤ lo) (v k : Nat) (b : List Byte) :
    fieldLE (natLE n v ++ b) lo k = fieldLE b (lo - n) k := by
  rw [fieldLE, drop_natLE_append h, fieldLE]

theorem fieldLE_natLE_first {n v : Nat} (h : v < 256 ^ n) (b : List Byte) : fieldLE (natLE n v ++ b) 0 n = v := by
  rw [fieldLE, List.drop_zero, List.take_append_of_le_length (by simp), List.take_of_length_le (by simp), leNat_natLE,
    Nat.mod_eq_of_lt h]

theorem byteAt_natLE_behind {n i : Nat} (h : n ≤ i) (v : Nat) (b : List Byte) : byteAt (natLE n v ++ b) i = byteAt b (i - n) := by
  rw [byteAt, drop_natLE_append h, byteAt]

theorem byteAt_natLE_first {v : Nat} (h : v < 256) (b : List Byte) : byteAt (natLE 1 v ++ b) 0 = v := by
  simp [byteAt, natLE, Nat.mod_eq_of_lt h]

end Sys2Proof

namespace Sys2Proof.Machine

open Sys2Proof

/-- The fields of SPAN (R418) are found in their bits. -/
theorem span_fields {part skip trim : Nat} (hpart : part < 16) (hskip : skip < 16) (htrim : trim < 16) :
    (part + 16 * skip + 256 * trim) % 16 = part ∧ bitsOf (part + 16 * skip + 256 * trim) 4 4 = skip ∧
      bitsOf (part + 16 * skip + 256 * trim) 8 4 = trim := by
  simp only [bitsOf]
  omega

/-- The bytes of a message, whose fields and data are what R418 allows, are read back as the message, whatever follows. -/
theorem msgOf_bytes {m : Msg} (hop : m.op < 256) (hdlen : m.dlen < 256) (hsrc : m.src < 256) (hdst : m.dst < 256)
    (htag : m.tag < 2 ^ 16) (hpart : m.part < 16) (hskip : m.skip < 16) (htrim : m.trim < 16) (haddr : m.addr < 2 ^ 48)
    (haux : m.aux < 2 ^ 16) (hdata : m.data.length = msgDataLen m.op m.dlen) (rest : List Byte) :
    msgOf (m.bytes ++ rest) = m := by
  have hspan : m.part + 16 * m.skip + 256 * m.trim < 256 ^ 2 := by omega
  obtain ⟨ppart, pskip, ptrim⟩ := span_fields hpart hskip htrim
  have pdata : (m.data ++ rest).take (msgDataLen m.op m.dlen) = m.data := by rw [← hdata, List.take_left]
  simp [msgOf, Msg.bytes, fieldLE_natLE_behind, byteAt_natLE_behind, drop_natLE_append, byteAt_natLE_first hop,
    byteAt_natLE_first hdlen, byteAt_natLE_first hsrc, byteAt_natLE_first hdst, fieldLE_natLE_first (n := 2) htag,
    fieldLE_natLE_first hspan, fieldLE_natLE_first (n := 6) haddr, fieldLE_natLE_first (n := 2) haux, ppart, pskip, ptrim, pdata]

end Sys2Proof.Machine
end

section
/-!
PROOFS. Transactions (R424): the one a response answers, timeouts, and tags in quarantine.
-/

namespace Sys2Proof.Machine

open Sys2Proof

/-! ## Responses -/

/-- The first element that passes one test is the first that passes two, where it passes the second. -/
theorem find?_and_of_find? {α : Type} {p q : α → Bool} {a : α} {l : List α} (h : l.find? p = some a) (hq : q a = true) :
    l.find? (fun x => p x && q x) = some a := by
  obtain ⟨hp, as, bs, hl, has⟩ := List.find?_eq_some_iff_append.mp h
  refine List.find?_eq_some_iff_append.mpr ⟨by simp [hp, hq], as, bs, hl, fun b hb => ?_⟩
  have hb : p b = false := by simpa using has b hb
  simp [hb]

theorem find?_and_none {α : Type} {p : α → Bool} {l : List α} (h : l.find? p = none) (q : α → Bool) :
    l.find? (fun x => p x && q x) = none := by
  rw [List.find?_eq_none] at h ⊢
  exact fun x hx hpq => h x hx (Bool.and_eq_true_iff.mp hpq).1

/-- The transaction of a destination and tag, if one is outstanding. -/
def State.txn? (s : State) (dst tag : Nat) : Option Txn := s.links.txns.find? (fun t => t.dst == dst && t.tag == tag)

theorem State.txn?_ids {s : State} {dst tag : Nat} {t : Txn} (h : s.txn? dst tag = some t) : t.dst = dst ∧ t.tag = tag := by
  have h := List.find?_some h
  simpa using h

/-- A response that matches nothing is counted at the port it came by (R424). -/
def State.countLate (s : State) (x : InMsg) : State := match x.slot with
  | some y => s.incReg (mbxKey y.port 0x48)
  | none => s

theorem State.response_unmatched {s : State} {x : InMsg} (h : s.txn? x.msg.src x.msg.tag = none) (fits : TxnKind → Bool)
    (f : State → Txn → State) : s.response x fits f = s.countLate x := by
  have hf : s.links.txns.find? (fun t => t.dst == x.msg.src && t.tag == x.msg.tag && fits t.kind) = none := find?_and_none h _
  rw [State.response, hf]
  rfl

/-- A response of any kind that matches nothing is only counted. -/
theorem State.responses_unmatched {s : State} {x : InMsg} (h : s.txn? x.msg.src x.msg.tag = none) :
    s.writeAck x = s.countLate x ∧ s.readData x = s.countLate x ∧ s.markAck x = s.countLate x ∧ s.refused x = s.countLate x ∧
      s.redAck x = s.countLate x := by
  unfold State.writeAck State.readData State.markAck State.refused State.redAck
  simp only [State.response_unmatched h, and_self]

/-- A response ends the transaction it answers, and acts. -/
theorem State.response_matched {s : State} {x : InMsg} {t : Txn} (h : s.txn? x.msg.src x.msg.tag = some t)
    {fits : TxnKind → Bool} (hk : fits t.kind = true) (f : State → Txn → State) :
    s.response x fits f = f (s.endTxn x.msg.src x.msg.tag) t := by
  have hf : s.links.txns.find? (fun t => t.dst == x.msg.src && t.tag == x.msg.tag && fits t.kind) = some t :=
    find?_and_of_find? h hk
  obtain ⟨hdst, htag⟩ := State.txn?_ids h
  rw [State.response, hf]
  simp only [hdst, htag]

section
variable {s : State} {x : InMsg} {t : Txn} (h : s.txn? x.msg.src x.msg.tag = some t)
include h

theorem State.writeAck_lnkWrite {p id n : Nat} (hk : t.kind = .lnkWrite p id n) :
    s.writeAck x = (s.endTxn x.msg.src x.msg.tag).lnkAck p id n := by
  rw [State.writeAck, State.response_matched h (by rw [hk])]
  simp only [hk]

theorem State.writeAck_store {c : Nat} (hk : t.kind = .store c) :
    s.writeAck x = (s.endTxn x.msg.src x.msg.tag).storeAnswer c x.msg.src x.msg.tag none := by
  obtain ⟨hdst, htag⟩ := State.txn?_ids h
  rw [State.writeAck, State.response_matched h (by rw [hk])]
  simp only [hk, hdst, htag]

theorem State.readData_lnkRead {p id o n : Nat} (hk : t.kind = .lnkRead p id o n) :
    s.readData x = (s.endTxn x.msg.src x.msg.tag).lnkData p id o n (bitOf x.msg.aux 0) x.msg.payload := by
  rw [State.readData, State.response_matched h (by rw [hk])]
  simp only [hk]

theorem State.readData_load {c : Nat} (hk : t.kind = .load c) :
    s.readData x = (s.endTxn x.msg.src x.msg.tag).loadAnswer c x.msg.src x.msg.tag
      (if bitOf x.msg.aux 0 then .inr 3 else .inl x.msg.payload) := by
  obtain ⟨hdst, htag⟩ := State.txn?_ids h
  rw [State.readData, State.response_matched h (by rw [hk])]
  simp only [hk, hdst, htag]

theorem State.markAck_lnkMark {p id : Nat} (hk : t.kind = .lnkMark p id) :
    s.markAck x = (s.endTxn x.msg.src x.msg.tag).lnkMarked p id := by
  rw [State.markAck, State.response_matched h (by rw [hk])]
  simp only [hk]

/-- A refused transaction fails with REFUSED and the refusing device. -/
theorem State.refused_fails :
    s.refused x = (s.endTxn x.msg.src x.msg.tag).txnFail t 0x0C x.msg.src 3 4 := by
  obtain ⟨hdst, -⟩ := State.txn?_ids h
  rw [State.refused, State.response_matched h rfl, hdst]

/-- RED_ACK of a delta acts by its code (R306, R310): merged, to be tried again, or its OPEN refused. -/
theorem State.redAck_delta {p rid : Nat} (hk : t.kind = .delta p rid) :
    let v := s.endTxn x.msg.src x.msg.tag
    (x.msg.aux = 0 → s.redAck x = v.modRed p 16 rid (fun y => { y with inflight := none })) ∧
    (x.msg.aux = 1 → s.redAck x = v.modRed p 16 rid (fun y => { y with retryAt := some (s.now + 2 * cyclesPerMicro) })) ∧
    (2 ≤ x.msg.aux → s.redAck x = v.openRefused p rid x.msg.aux) := by
  rw [State.redAck, State.response_matched h (by rw [hk])]
  simp only [hk]
  exact ⟨fun ha => if_pos ha, fun ha => (if_neg (by omega)).trans (if_pos ha), fun ha => (if_neg (by omega)).trans (if_neg (by omega))⟩

end

/-! ## A transaction that fails -/

section
variable {t : Txn} {p id n c : Nat} (s : State) (st detail late sub : Nat)

theorem State.txnFail_lnkWrite (hk : t.kind = .lnkWrite p id n) : s.txnFail t st detail late sub = s.lnkFinish p id st detail := by
  rw [State.txnFail, hk]

theorem State.txnFail_store (hk : t.kind = .store c) :
    s.txnFail t st detail late sub = s.storeAnswer c t.dst t.tag (some late) := by
  rw [State.txnFail, hk]

theorem State.txnFail_load (hk : t.kind = .load c) : s.txnFail t st detail late sub = s.loadAnswer c t.dst t.tag (.inr sub) := by
  rw [State.txnFail, hk]

end

/-! ## Timeouts -/

/-- What of a transaction's request still waits to leave is dropped. -/
def State.dropRequest (s : State) (dst tag : Nat) : State :=
  s.modLinks (fun l => { l with outbox := l.outbox.filter (fun m =>
    !(m.msg.src == s.dev && m.msg.dst == dst && m.msg.tag == tag && decide (m.msg.op < 0x80))) })

/-- A transaction 1,000 µs without a response ends ROUTE_DOWN, with its port. -/
theorem State.txnTimeout_due {s : State} {dst tag : Nat} {t : Txn} (h : s.txn? dst tag = some t)
    (hd : t.sentAt + 1000 * cyclesPerMicro ≤ s.now) :
    s.txnTimeout dst tag = ((s.dropRequest dst tag).endTxn dst tag).txnFail t 0x0D t.port 2 4 := by
  obtain ⟨hdst, htag⟩ := State.txn?_ids h
  have hf : s.links.txns.find? (fun t => t.dst == dst && t.tag == tag) = some t := h
  rw [State.txnTimeout, hf]
  simp only [if_pos hd, State.routeDown, hdst, htag]
  rfl

/-! ## Tags -/

/-- What leaves quarantine is the tag's own entry, once 10 ms old. -/
theorem State.mem_tagQuarantineEnd {s : State} {dst tag : Nat} {y : Nat × Nat × Nat} :
    y ∈ (s.tagQuarantineEnd dst tag).links.quarantine ↔
      y ∈ s.links.quarantine ∧ (y.1 = dst → y.2.1 = tag → s.now < y.2.2 + 10000 * cyclesPerMicro) := by
  have htest : (!(y.1 == dst && y.2.1 == tag && decide (y.2.2 + 10000 * cyclesPerMicro ≤ s.now))) = true ↔
      (y.1 = dst → y.2.1 = tag → s.now < y.2.2 + 10000 * cyclesPerMicro) := by
    simp only [Bool.not_eq_true', Bool.and_eq_false_iff, beq_eq_false_iff_ne, decide_eq_false_iff_not, Nat.not_le, ne_eq,
      or_assoc, Decidable.imp_iff_not_or]
  rw [← htest]
  exact List.mem_filter

/-- The tags of a destination that are outstanding or in quarantine. -/
def State.tagsInUse (s : State) (dst : Nat) : List Nat :=
  (s.links.txns.filter (fun t => t.dst == dst)).map Txn.tag ++ (s.links.quarantine.filter (fun x => x.1 == dst)).map (fun x => x.2.1)

/-- The tags tried, from the next one on: one more than are in use. -/
def State.tagsTried (s : State) (dst : Nat) : List Nat :=
  (List.range ((s.tagsInUse dst).length + 1)).map (fun i => (NatMap.get 0 s.links.nextTag dst + i) % 65536)

theorem State.freeTag_tried (s : State) (dst : Nat) : s.freeTag dst =
    if (s.tagsInUse dst).length ≥ 65536 then none else (s.tagsTried dst).find? (fun t => !(s.tagsInUse dst).contains t) := rfl

theorem State.mem_tagsInUse {s : State} {dst tag : Nat} : tag ∈ s.tagsInUse dst ↔
    (∃ x ∈ s.links.txns, x.dst = dst ∧ x.tag = tag) ∨ ∃ x ∈ s.links.quarantine, x.1 = dst ∧ x.2.1 = tag := by
  simp [State.tagsInUse, and_assoc]

theorem State.tagsTried_nodup {s : State} {dst : Nat} (h : (s.tagsInUse dst).length < 65536) : (s.tagsTried dst).Nodup := by
  refine List.pairwise_map.mpr (List.nodup_range.imp_of_mem fun {i j} hi hj hij => ?_)
  rw [List.mem_range] at hi hj
  omega

/-- A tag taken is a 16-bit number not in use. -/
theorem State.freeTag_some {s : State} {dst tag : Nat} (h : s.freeTag dst = some tag) : tag < 65536 ∧ tag ∉ s.tagsInUse dst := by
  rw [State.freeTag_tried] at h
  split at h
  · simp at h
  · have hfree := List.find?_some h
    obtain ⟨i, -, hi⟩ := List.mem_map.mp (List.mem_of_find?_eq_some h)
    exact ⟨hi ▸ Nat.mod_lt _ (by omega), by simpa using hfree⟩

/-- While fewer tags are in use than there are, one is found: more are tried than are in use, all different. -/
theorem State.freeTag_ne_none {s : State} {dst : Nat} (h : (s.tagsInUse dst).length < 65536) : s.freeTag dst ≠ none := by
  rw [State.freeTag_tried, if_neg (by omega), Ne, List.find?_eq_none]
  intro hall
  have hsub : s.tagsTried dst ⊆ s.tagsInUse dst := fun t ht => by simpa using hall t ht
  have hle := (State.tagsTried_nodup h).length_le_of_subset hsub
  rw [State.tagsTried, List.length_map, List.length_range] at hle
  omega

end Sys2Proof.Machine
end

section
/-!
PROOFS. What the device does with a message it takes (R100, R310, R311, R407, R419 to R423).
-/

namespace Sys2Proof.Machine

open Sys2Proof

/-! ## Taking a message -/

/-- Freeing a buffer's place changes the credits of its port alone. -/
theorem State.freeSlot_ports (s : State) (x : Option RxSlot) :
    s.freeSlot x = { s with links := { s.links with ports := (s.freeSlot x).links.ports } } := by
  cases x with
  | none => rfl
  | some x =>
    simp only [State.freeSlot]
    split <;> rfl

/-- The state in which message `i`, `x`, of those received has been taken. -/
def State.taken (s : State) (i : Nat) (x : InMsg) : State :=
  (s.modLinks (fun l => { l with inbox := l.inbox.eraseIdx i })).freeSlot x.slot

@[simp] theorem State.taken_now (s : State) (i : Nat) (x : InMsg) : (s.taken i x).now = s.now := by
  rw [State.taken, State.freeSlot_ports]
  rfl

@[simp] theorem State.taken_rdu (s : State) (i : Nat) (x : InMsg) : (s.taken i x).rdu = s.rdu := by
  rw [State.taken, State.freeSlot_ports]
  rfl

@[simp] theorem State.taken_outbox (s : State) (i : Nat) (x : InMsg) : (s.taken i x).links.outbox = s.links.outbox := by
  rw [State.taken, State.freeSlot_ports]
  rfl

@[simp] theorem State.taken_txns (s : State) (i : Nat) (x : InMsg) : (s.taken i x).links.txns = s.links.txns := by
  rw [State.taken, State.freeSlot_ports]
  rfl

/-- A message of the operation asked for acts on the state in which it has been taken. -/
theorem State.takeIn_taken {s : State} {i op : Nat} {x : InMsg} (h : s.links.inbox[i]? = some x) (ho : x.msg.op = op)
    (f : InMsg → State → State) : s.takeIn i op f = f x (s.taken i x) := State.takeIn_found h ho f

/-! ## Memory requests (R421, R422) -/

theorem State.refuseMem_undefined {s : State} {m : Msg} (h : s.psec m.part = none) (acc : Option Access) :
    s.refuseMem m acc = some 1 := by
  simp only [State.refuseMem, State.refusePart, h]

theorem State.refuseMem_notRunning {s : State} {m : Msg} {q : PartSec} (h : s.psec m.part = some q) (hq : q.spanning = true)
    (hc : s.created m.part = true) (hr : (s.part m.part).state ≠ .running) (acc : Option Access) :
    s.refuseMem m acc = some 2 := by
  have hp : s.refusePart m.part = some 2 := by simp [State.refusePart, h, hq, hc, hr]
  simp only [State.refuseMem, hp]

section
variable {s u : State} {x : InMsg} {c : Nat} {b : List Byte} {e : MemErr × Nat}

theorem State.msgWrite_refused (h : s.refuseMem x.msg (some .write) = some c) : s.msgWrite x = s.refuse x c := by
  simp only [State.msgWrite, h]

theorem State.msgWrite_performed (h : s.refuseMem x.msg (some .write) = none) :
    s.msgWrite x = (s.writePart x.msg.part .remote x.msg.addr x.msg.payload).2.sendMsg (x.msg.response 0x81 0) := by
  simp only [State.msgWrite, h]

theorem State.msgRead_refused (h : s.refuseMem x.msg (some .read) = some c) : s.msgRead x = s.refuse x c := by
  simp only [State.msgRead, h]

theorem State.msgRead_ok (h : s.refuseMem x.msg (some .read) = none)
    (hr : s.readPart x.msg.part .read .remote x.msg.addr x.msg.count = (.ok b, u)) : s.msgRead x = u.sendMsg (x.msg.readData b) := by
  simp only [State.msgRead, h, hr, State.answerRead]

theorem State.msgRead_error (h : s.refuseMem x.msg (some .read) = none)
    (hr : s.readPart x.msg.part .read .remote x.msg.addr x.msg.count = (.error e, u)) :
    s.msgRead x = u.sendMsg (x.msg.response 0x82 1) := by
  simp only [State.msgRead, h, hr, State.answerRead]

theorem State.msgWriteSys_refused (h : s.refuseMem x.msg none = some c) : s.msgWriteSys x = s.refuse x c := by
  simp only [State.msgWriteSys, h]

theorem State.msgWriteSys_performed (h : s.refuseMem x.msg none = none) :
    s.msgWriteSys x = (s.writeDev x.msg.addr x.msg.payload .remote 0).2.sendMsg (x.msg.response 0x81 0) := by
  simp only [State.msgWriteSys, h]

theorem State.msgReadSys_refused (h : s.refuseMem x.msg none = some c) : s.msgReadSys x = s.refuse x c := by
  simp only [State.msgReadSys, h]

theorem State.msgReadSys_ok (h : s.refuseMem x.msg none = none) (hr : s.readDev x.msg.addr x.msg.count .remote = (.ok b, u)) :
    s.msgReadSys x = u.sendMsg (x.msg.readData b) := by
  simp only [State.msgReadSys, h, hr, State.answerRead]

theorem State.msgReadSys_error (h : s.refuseMem x.msg none = none) (hr : s.readDev x.msg.addr x.msg.count .remote = (.error e, u)) :
    s.msgReadSys x = u.sendMsg (x.msg.response 0x82 1) := by
  simp only [State.msgReadSys, h, hr, State.answerRead]

theorem State.msgMarkAdd_refused (h : s.refusePart x.msg.part = some c) : s.msgMarkAdd x = s.refuse x c := by
  simp only [State.msgMarkAdd, h]

theorem State.msgMarkAdd_performed (h : s.refusePart x.msg.part = none) :
    s.msgMarkAdd x = (s.addMark x.msg.part (x.msg.aux % 4096) 1).sendMsg (x.msg.response 0x85 0) := by
  simp only [State.msgMarkAdd, h]

/-! ## Migration (R100, R423) -/

theorem State.msgMigWrite_accepted (h : s.migWriteIn x.msg = (true, u)) : s.msgMigWrite x = u.sendMsg (x.msg.response 0x81 0) := by
  simp only [State.msgMigWrite, h]

/-- MIG_WRITE outside the stream that the partition takes in is refused, and the stream goes on. -/
theorem State.msgMigWrite_refused (h : s.migMatches x.msg.aux x.msg = false) : s.msgMigWrite x = s.refuse x 6 := by
  have hw : s.migWriteIn x.msg = (false, s) := by simp [State.migWriteIn, h]
  simp only [State.msgMigWrite, hw]

theorem State.msgMigCtl_accepted {v : State} (h : s.migCtlIn x.msg = (some u, v)) :
    s.msgMigCtl x = u.sendMsg (x.msg.response 0x85 0) := by
  simp only [State.msgMigCtl, h]

theorem State.msgMigCtl_refused (ha : x.msg.addr ≠ 0) (h : s.migMatches x.msg.aux x.msg = false) :
    s.msgMigCtl x = s.refuse x 6 := by
  have hw : s.migCtlIn x.msg = (none, s) := by simp [State.migCtlIn, ha, h]
  simp only [State.msgMigCtl, hw]

theorem State.msgMigCtl_begins (ha : x.msg.addr = 0) (hd : x.msg.data.length = 48)
    (hf : s.migFits x.msg.aux (fieldLE x.msg.data 0 16) (fieldLE x.msg.data 16 32) = true) :
    s.msgMigCtl x = (s.migBegin x.msg.aux x.msg).sendMsg (x.msg.response 0x85 0) :=
  State.msgMigCtl_accepted (v := s) (by simp [State.migCtlIn, ha, hd, hf])

end

/-! ## Reductions (R310, R311, R423) -/

/-- No piece of the message's delta or result has come yet. -/
def State.firstPiece (s : State) (m : Msg) : Prop :=
  s.rdu.pieces.find? (fun x => x.src == m.src && x.tag == m.tag && x.op == m.op) = none

section
variable {s : State} {m : Msg} (h : s.firstPiece m)
include h

theorem State.piecesOf_first : s.piecesOf m = { src := m.src, tag := m.tag, op := m.op } := by
  have hf : s.rdu.pieces.find? (fun x => x.src == m.src && x.tag == m.tag && x.op == m.op) = none := h
  rw [State.piecesOf, hf]
  rfl

/-- The first piece kept stands behind those of other deltas and results. -/
theorem State.setPieces_first (y : RedPieces) : (s.setPieces m (some y)).rdu.pieces = s.rdu.pieces ++ [y] := by
  have hall : s.rdu.pieces.filter (fun y => !(y.src == m.src && y.tag == m.tag && y.op == m.op)) = s.rdu.pieces :=
    List.filter_eq_self.mpr fun x hx => by
      rw [Bool.not_eq_true', ← Bool.not_eq_true]
      exact List.find?_eq_none.mp h x hx
  show List.filter _ _ ++ [y] = _
  rw [hall]

/-- A delta or result of one piece is whole at once. -/
theorem State.takePiece_whole (hl : bitOf m.aux 15 = true) (hn : m.aux % 2 ^ 15 = 0) (f : State → List Byte → State) :
    s.takePiece m f = f (s.setPieces m none) m.data := by
  simp only [State.takePiece, State.piecesOf_first h, hl, hn]
  simp [NatMap.get_set]

/-- A first piece that is not the last is kept. -/
theorem State.takePiece_kept (hl : bitOf m.aux 15 = false) (f : State → List Byte → State) :
    ∃ y, s.takePiece m f = s.setPieces m (some y) := by
  simp only [State.takePiece, State.piecesOf_first h, hl]
  exact ⟨_, rfl⟩

end

/-- A whole delta at the final stage of its open reduction is merged and acknowledged (R310). -/
theorem State.takeDelta_merges {s : State} {m : Msg} {y : RUnit} (hy : s.redUnit m.part 16 m.rid = some y)
    (he : y.op.epoch = m.epoch) (hs : y.op.scope = 2) (hf : s.finalStage y.op 16 = true) (hp : (s.psecD m.part).spanning = true)
    (b : List Byte) :
    s.takeDelta m b = ((s.modRed m.part 16 m.rid (fun y => { y with
      announced := if y.announced.contains m.src then y.announced else y.announced ++ [m.src],
      acc := y.acc.merge y.op (y.op.ofDelta b) })).sendMsg (m.redAck 0)).redCheck m.part 16 m.rid := by
  simp only [State.takeDelta, hp, hy]
  rw [if_neg (by simp), if_neg (by simp [he, hs, hf])]

/-- A whole result at a device where its reduction is open is written, and the reduction is done (R311). -/
theorem State.takeResult_writes {s : State} {m : Msg} {y : RUnit} (hy : s.redUnit m.part 16 m.rid = some y)
    (he : y.op.epoch = m.epoch) (hs : y.op.scope = 2) (b : List Byte) :
    s.takeResult m b = ((s.writeResult y (y.op.ofDelta b)).closeRed m.part m.rid m.epoch).sendMsg (m.redAck 0) := by
  simp only [State.takeResult, hy]
  rw [if_neg (by simp [he, hs])]

theorem State.takeResult_unknown {s : State} {m : Msg} (hy : s.redUnit m.part 16 m.rid = none) (b : List Byte) :
    s.takeResult m b = s.sendMsg (m.redAck 1) := by
  simp only [State.takeResult, hy]

end Sys2Proof.Machine
end

section
/-!
PROOFS. Messages, responses, tags and routes together (R415, R418 to R424).
-/

namespace Sys2Proof.Machine

open Sys2Proof

/-- Settles O54: a message acts on the state in which it has been taken, by the lemma of its operation; a response by the
transaction it matches; tags, routes and the bytes of a message by their own parts. -/
theorem messagesAndTransactions : Obligations.MessagesAndTransactions := by
  refine ⟨fun s i x hx => ?message, fun s dst tag t => ?transaction, fun y here dst dir hh hd h => ?route,
    fun y here dst => SysSec.routeDir_none, fun m => msgOf_bytes⟩
  case message =>
    intro m w refuse late fresh found
    have acts : ∀ {op f t}, m.op = op → f x w = t → ok (s.takeIn i op f) = ok t :=
      fun ho ht => congrArg ok ((State.takeIn_taken hx ho _).trans ht)
    have hrdu : w.rdu = s.rdu := State.taken_rdu s i x
    have htxns : w.links.txns = s.links.txns := State.taken_txns s i x
    have hfound : w.txn? m.src m.tag = found := by rw [State.txn?, htxns]
    have first : fresh → w.firstPiece m := fun hfr => by rw [State.firstPiece, hrdu]; exact hfr
    have hnow : w.now = s.now := State.taken_now s i x
    refine ⟨fun ho => ⟨fun c hc => acts ho (State.msgWrite_refused hc), fun hc => acts ho (State.msgWrite_performed hc)⟩,
      fun ho => ⟨fun c hc => acts ho (State.msgRead_refused hc), fun hc => ⟨fun b u hr => acts ho (State.msgRead_ok hc hr),
        fun e u hr => acts ho (State.msgRead_error hc hr)⟩⟩,
      fun ho => ⟨fun c hc => acts ho (State.msgWriteSys_refused hc), fun hc => acts ho (State.msgWriteSys_performed hc)⟩,
      fun ho => ⟨fun c hc => acts ho (State.msgReadSys_refused hc), fun hc => ⟨fun b u hr => acts ho (State.msgReadSys_ok hc hr),
        fun e u hr => acts ho (State.msgReadSys_error hc hr)⟩⟩,
      fun acc => ⟨fun h => State.refuseMem_undefined h acc, fun y hy hs hc hr => State.refuseMem_notRunning hy hs hc hr acc⟩,
      fun ho => ⟨fun c hc => acts ho (State.msgMarkAdd_refused hc), fun hc => acts ho (State.msgMarkAdd_performed hc)⟩,
      fun ho => ⟨fun u hu => acts ho (State.msgMigWrite_accepted hu), fun hm => acts ho (State.msgMigWrite_refused hm)⟩,
      fun ho => ⟨fun u v hu => acts ho (State.msgMigCtl_accepted hu), fun ha hm => acts ho (State.msgMigCtl_refused ha hm),
        fun ha hd hf => acts ho (State.msgMigCtl_begins ha hd hf)⟩,
      fun ho hfr => ⟨fun hl hn y hy he hs hf hp => ?delta, fun hl => ?piece⟩,
      fun ho hfr hl hn => ⟨fun y hy he hs => ?result, fun hy => ?unknown⟩,
      fun ho => acts ho rfl, fun ho => acts ho rfl, fun hn => ?late, fun t ht => ?answered⟩
    case delta =>
      exact acts ho ((State.takePiece_whole (first hfr) hl hn _).trans (State.takeDelta_merges (s := w.setPieces m none) hy he hs hf hp m.data))
    case piece =>
      obtain ⟨y, hy⟩ := State.takePiece_kept (first hfr) hl (fun s b => s.takeDelta m b)
      refine ⟨_, acts ho hy, show w.rdu.units = _ from congrArg Rdu.units hrdu, State.taken_outbox s i x, ?_⟩
      rw [State.setPieces_first (first hfr), hrdu, List.length_append, List.length_singleton]
    case result =>
      exact acts ho ((State.takePiece_whole (first hfr) hl hn _).trans (State.takeResult_writes (s := w.setPieces m none) hy he hs m.data))
    case unknown =>
      exact acts ho ((State.takePiece_whole (first hfr) hl hn _).trans (State.takeResult_unknown (s := w.setPieces m none) hy m.data))
    case late =>
      obtain ⟨hwrite, hread, hmark, hrefuse, hred⟩ := State.responses_unmatched (hfound.trans hn)
      exact ⟨fun ho => acts ho hwrite, fun ho => acts ho hread, fun ho => acts ho hmark, fun ho => acts ho hrefuse, fun ho => acts ho hred⟩
    case answered =>
      have hw : w.txn? m.src m.tag = some t := hfound.trans ht
      obtain ⟨hdst, htag⟩ := State.txn?_ids hw
      refine ⟨fun ho => ⟨fun p id n hk => acts ho (State.writeAck_lnkWrite hw hk), fun c hk => acts ho (State.writeAck_store hw hk)⟩,
        fun ho => ⟨fun p id o n hk => acts ho (State.readData_lnkRead hw hk), fun c hk => acts ho (State.readData_load hw hk)⟩,
        fun ho p id hk => acts ho (State.markAck_lnkMark hw hk),
        fun ho => ?refused, fun ho p rid hk => ?redAck⟩
      case refused =>
        have fails := State.refused_fails hw
        refine ⟨fun p id n hk => acts ho (fails.trans (State.txnFail_lnkWrite _ _ _ _ _ hk)), fun c hk => acts ho (fails.trans ?_),
          fun c hk => acts ho (fails.trans ?_)⟩
        · rw [State.txnFail_store _ _ _ _ _ hk, hdst, htag]
        · rw [State.txnFail_load _ _ _ _ _ hk, hdst, htag]
      case redAck =>
        obtain ⟨merged, again, refused⟩ := State.redAck_delta hw hk
        rw [hnow] at again
        exact ⟨fun h => acts ho (merged h), fun h => acts ho (again h), fun h => acts ho (refused h)⟩
  case transaction =>
    intro u
    refine ⟨fun x hx hd => ?timeout, ⟨_, rfl, rfl, fun y => State.mem_tagQuarantineEnd (s := u)⟩, fun h => ?taken, fun h => ?free⟩
    case timeout =>
      have hu : u.txn? dst tag = some x := hx
      obtain ⟨hdst, htag⟩ := State.txn?_ids hu
      have ends : exec (.transactionTimeout dst tag t) s = ok (((u.dropRequest dst tag).endTxn dst tag).txnFail x 0x0D x.port 2 4) :=
        congrArg ok (State.txnTimeout_due hu hd)
      rw [ends]
      refine ⟨fun p id n hk => congrArg ok (State.txnFail_lnkWrite _ _ _ _ _ hk), fun c hk => congrArg ok ?_, fun c hk => congrArg ok ?_⟩
      · rw [State.txnFail_store _ _ _ _ _ hk, hdst, htag]
        rfl
      · rw [State.txnFail_load _ _ _ _ _ hk, hdst, htag]
        rfl
    case taken =>
      obtain ⟨hlt, hnot⟩ := State.freeTag_some h
      rw [State.mem_tagsInUse] at hnot
      exact ⟨hlt, fun x hx hd ht => hnot (Or.inl ⟨x, hx, hd, ht⟩), fun x hx hd ht => hnot (Or.inr ⟨x, hx, hd, ht⟩)⟩
    case free =>
      refine State.freeTag_ne_none ?_
      rwa [State.tagsInUse, List.length_append, List.length_map, List.length_map]
  case route =>
    obtain ⟨hlow, hhigh, hnear⟩ := SysSec.routeDir_nearer hh hd h
    exact ⟨hlow, hhigh, SysSec.neighbour_lt hh dir, hnear⟩

end Sys2Proof.Machine
end

section
/-!
PROOFS. How a core instruction ends: a completion is read off the state its operation answers, a precise fault off the fault it
answers, and an instruction that raises flags off FFLAGS' traps (R108, R138, R224).
-/

namespace Sys2Proof.Machine

open Sys2Proof

section
variable {i : Instr} {s : State} {c : Nat} {w : Word} {sem : State → Res} (hi : exec i s = ok (s.execute c w sem)) (h : s.executes c)
include hi h

theorem CompletesAs.of_ok {u : State} (e : sem s = .ok u) (hd : (u.core c).ctl.delay = (s.core c).ctl.delay) :
    CompletesAs i s u c := ⟨_, hi, State.execute_advanced w h e hd⟩

theorem Raises.of_fault {f : FaultInfo} (e : sem s = .fault f s) : Raises i s c f := by
  obtain ⟨⟨hrun, halign, hreach⟩, hplain⟩ := h
  refine hi.trans (congrArg ok ?_)
  rw [State.execute, hrun, fetchFault_none _ halign hreach, e]
  cases hd : (s.core c).ctl.delay with
  | none => rfl
  | some d => simp [(hplain d hd).2]

/-- An instruction that raises flags completes where no raised flag is trapped, and traps otherwise (R138). -/
theorem ends_of_fpFinish {fl : Nat} {wr : State → State} (e : sem s = s.fpFinish c fl wr)
    (hd : ((wr (s.fpEnd c fl)).core c).ctl.delay = (s.core c).ctl.delay) :
    (fl % 32 &&& (s.core c).ctl.traps = 0 → CompletesAs i s (wr (s.fpEnd c fl)) c) ∧
    (fl % 32 &&& (s.core c).ctl.traps ≠ 0 → Raises i s c { cause := 5, sub := fl % 32 }) :=
  ⟨fun untrapped => .of_ok hi h (e.trans (if_neg (not_not_intro untrapped))) hd,
    fun trapped => .of_fault hi h (e.trans (if_pos trapped))⟩

end

end Sys2Proof.Machine
end

section
/-!
PROOFS. Short vectors (R142 to R145).
-/

namespace Sys2Proof.Machine

open Sys2Proof

theorem svIs_of {w : Word} {p : Nat → Bool} (hm : major w = 0x37) (hp : p (fFunc w % 8) = true) (he : encOk {} w = true) :
    svIs w p = true := by
  rw [svIs, hm, hp, he]
  rfl

/-- A q register is its two f registers, so it reads back as the low 128 bits written (R142). -/
theorem State.setQ_qr (s : State) (c n x : Nat) : ((s.setQ c n x).core c).qr n = x % 2 ^ 128 := by
  have halves : x % 2 ^ (64 + 64) = x % 2 ^ 64 + 2 ^ 64 * (x / 2 ^ 64 % 2 ^ 64) := by rw [Nat.pow_add, Nat.mod_mul]
  have low : ((s.setQ c n x).core c).fr (2 * n) = BitVec.ofNat 64 x := by
    rw [State.setQ, State.setF_fr, if_neg (by omega), State.setF_fr, if_pos rfl]
  have high : ((s.setQ c n x).core c).fr (2 * n + 1) = BitVec.ofNat 64 (x / 2 ^ 64) := by
    rw [State.setQ, State.setF_fr, if_pos rfl]
  rw [Core.qr, low, high, BitVec.toNat_ofNat, BitVec.toNat_ofNat, Nat.mul_comm, halves]

theorem State.setQ_fr (s : State) (c n x r : Nat) (hlow : r ≠ 2 * n) (hhigh : r ≠ 2 * n + 1) :
    ((s.setQ c n x).core c).fr r = (s.core c).fr r := by
  rw [State.setQ, State.setF_fr, if_neg hhigh, State.setF_fr, if_neg hlow]

/-- Settles O24: the arithmetic forms and SVCVT end as `ends_of_fpFinish` says; a q register is two f registers. -/
theorem shortVectorInstructions : Obligations.ShortVectorInstructions := by
  refine ⟨fun c w s h hm he => ?_, fun s c n x => ⟨State.setQ_qr s c n x, State.setQ_fr s c n x⟩⟩
  intro k f op n el val ends
  refine ⟨?arith, ?cvt, fun hop => .of_ok rfl h (if_neg ?shuf) (by simp)⟩
  case arith =>
    intro hop l
    have runs : semSvArith c w s =
        s.fpFinish c (FRes.or l) (fun t => t.setQ c (fRd w) (packElems f.width (l.map FRes.bits) 0)) := by
      rw [semSvArith, if_neg (by simp [svIs_of hm (p := fun n => decide (n ≤ 5)) (decide_eq_true hop) he])]
      have six : fFunc w % 8 = 0 ∨ fFunc w % 8 = 1 ∨ fFunc w % 8 = 2 ∨ fFunc w % 8 = 3 ∨ fFunc w % 8 = 4 ∨ fFunc w % 8 = 5 :=
        by omega
      rcases six with ho | ho | ho | ho | ho | ho <;> simp only [l, op, ho] <;> rfl
    exact ends_of_fpFinish rfl h runs (by simp)
  case cvt =>
    intro hop hsr d l
    have runs : semSvcvt c w s =
        s.fpFinish c (FRes.or l) (fun t => t.setQ c (fRd w) (packElems d.width (l.map FRes.bits) 0)) := by
      rw [semSvcvt, if_neg (by simp [svIs_of hm (p := (· == 6)) (beq_iff_eq.mpr hop) he])]
      have noDraws : (s.core c).ctl.sr = false := hsr
      simp only [noDraws, Bool.false_eq_true, if_false]
      rfl
    exact ends_of_fpFinish rfl h runs (by simp)
  case shuf =>
    simp [svIs_of hm (p := (· == 7)) (beq_iff_eq.mpr hop) he]

end Sys2Proof.Machine
end

section
/-!
PROOFS. Groups and elements of the long vector (R148, R152, R154): a group is its registers end to end, and an element of what an
instruction leaves is its result, a zero or the old element.
-/

namespace Sys2Proof.Machine

open Sys2Proof

/-! ## Elements of packed numbers -/

theorem testBit_elem (x w i j : Nat) : (elem x w i).testBit j = (decide (j < w) && x.testBit (w * i + j)) := by
  rw [elem, bitsOf, Nat.testBit_mod_two_pow, Nat.testBit_div_two_pow, Nat.add_comm]

theorem elem_lt (x w i : Nat) : elem x w i < 2 ^ w := Nat.mod_lt _ (Nat.two_pow_pos w)

theorem elem_div (x w n i : Nat) : elem (x / 2 ^ (w * n)) w i = elem x w (n + i) := by
  rw [elem, bitsOf, Nat.div_div_eq_div_mul, ← Nat.pow_add, ← Nat.mul_add, elem, bitsOf]

theorem elem_mod {x w i n : Nat} (h : w * i + w ≤ n) : elem (x % 2 ^ n) w i = elem x w i := by
  refine Nat.eq_of_testBit_eq fun j => ?_
  rw [testBit_elem, testBit_elem, Nat.testBit_mod_two_pow]
  by_cases hj : j < w
  · rw [decide_eq_true (show w * i + j < n by omega), Bool.true_and]
  · rw [decide_eq_false hj, Bool.false_and, Bool.false_and]

theorem elem_cons_zero {e w : Nat} (he : e < 2 ^ w) (acc : Nat) : elem (e + acc * 2 ^ w) w 0 = e := by
  rw [elem, bitsOf, Nat.mul_zero, Nat.pow_zero, Nat.div_one, Nat.add_mul_mod_self_right, Nat.mod_eq_of_lt he]

theorem elem_cons_succ {e w : Nat} (he : e < 2 ^ w) (acc i : Nat) : elem (e + acc * 2 ^ w) w (i + 1) = elem acc w i := by
  have drop : (e + acc * 2 ^ w) / 2 ^ (w * 1) = acc := by
    rw [Nat.mul_one, Nat.add_mul_div_right _ _ (Nat.two_pow_pos w), Nat.div_eq_of_lt he, Nat.zero_add]
  rw [Nat.add_comm i 1, ← elem_div, drop]

/-- A packed list's elements are the list's, and past its end those of what stands above it. -/
theorem elem_packElems {w : Nat} {l : List Nat} (hl : ∀ e ∈ l, e < 2 ^ w) (rest i : Nat) :
    elem (packElems w l rest) w i = l[i]?.getD (elem rest w (i - l.length)) := by
  induction l generalizing i with
  | nil => rfl
  | cons e l ih =>
    have he : e < 2 ^ w := hl e List.mem_cons_self
    cases i with
    | zero => exact elem_cons_zero he _
    | succ i =>
      refine (elem_cons_succ he _ i).trans ((ih (fun a ha => hl a (List.mem_cons_of_mem e ha)) i).trans ?_)
      rw [List.getElem?_cons_succ, List.length_cons, Nat.add_sub_add_right]

/-- Packing a number's own elements gives its low part. -/
theorem packElems_elems (x w n rest : Nat) :
    packElems w ((List.range n).map (elem x w)) rest = x % 2 ^ (w * n) + rest * 2 ^ (w * n) := by
  induction n generalizing rest with
  | zero => simp [packElems, Nat.mod_one]
  | succ n ih =>
    have low : x % 2 ^ (w * n + w) = x % 2 ^ (w * n) + 2 ^ (w * n) * elem x w n := by rw [Nat.pow_add, Nat.mod_mul]; rfl
    have last : packElems w ((List.range (n + 1)).map (elem x w)) rest =
        packElems w ((List.range n).map (elem x w)) (elem x w n + rest * 2 ^ w) := by
      rw [List.range_succ, List.map_append, packElems, List.foldr_append]
      rfl
    rw [last, ih, Nat.mul_succ, low, Nat.pow_add, Nat.add_mul, Nat.mul_comm (elem x w n), Nat.mul_assoc rest, Nat.mul_comm (2 ^ w),
      Nat.add_assoc]

/-! ## Register groups -/

/-- A register of a number cut into registers is an element of its width. -/
theorem toNat_register (x w j : Nat) : (BitVec.ofNat w (x / 2 ^ (w * j))).toNat = elem x w j := BitVec.toNat_ofNat _ _

theorem Core.group_eq_packElems (k : Core) (base n : Nat) :
    k.group base n = packElems 8192 ((List.range n).map (fun j => (NatMap.get 0 k.regs.v (base + j)).toNat)) 0 := by
  rw [packElems, List.foldr_map]
  rfl

/-- A group is a matter of the vector registers alone. -/
theorem Core.group_congr {k l : Core} (h : k.regs.v = l.regs.v) (base n : Nat) : k.group base n = l.group base n := by
  rw [Core.group, Core.group, h]

theorem State.setGroup_succ (s : State) (c base n x : Nat) : s.setGroup c base (n + 1) x =
    (s.setGroup c base n x).modRegs c
      (fun r => { r with v := NatMap.set 0 r.v (base + n) (BitVec.ofNat 8192 (x / 2 ^ (8192 * n))) }) := by
  rw [State.setGroup, List.range_succ, List.foldl_append]
  rfl

theorem State.setGroup_only (s : State) (c base n x : Nat) : CoreOnly c s (s.setGroup c base n x) := by
  induction n with
  | zero => exact .refl c s
  | succ n ih => rw [State.setGroup_succ]; exact ih.modCore _

/-- A group's write leaves the g, f and mask registers. -/
theorem State.setGroup_otherRegs (s : State) (c base n x : Nat) :
    ((s.setGroup c base n x).core c).regs.g = (s.core c).regs.g ∧ ((s.setGroup c base n x).core c).regs.f = (s.core c).regs.f ∧
    ((s.setGroup c base n x).core c).regs.m = (s.core c).regs.m := by
  induction n with
  | zero => exact ⟨rfl, rfl, rfl⟩
  | succ n ih => rwa [State.setGroup_succ, State.modRegs, State.core_modCore_same]

theorem State.setGroup_v (s : State) (c base n x r : Nat) : NatMap.get 0 ((s.setGroup c base n x).core c).regs.v r =
    if base ≤ r ∧ r < base + n then BitVec.ofNat 8192 (x / 2 ^ (8192 * (r - base))) else NatMap.get 0 (s.core c).regs.v r := by
  induction n with
  | zero => rw [if_neg (by omega)]; rfl
  | succ n ih =>
    rw [State.setGroup_succ, State.modRegs, State.core_modCore_same]
    dsimp only
    rw [NatMap.get_set, ih]
    by_cases hr : r = base + n
    · rw [if_pos hr, if_pos (by omega), hr, Nat.add_sub_cancel_left]
    · rw [if_neg hr]
      by_cases inside : base ≤ r ∧ r < base + n
      · rw [if_pos inside, if_pos (by omega)]
      · rw [if_neg inside, if_neg (by omega)]

/-- A group reads back as what was written, as far as its registers reach. -/
theorem State.setGroup_group (s : State) (c base n x : Nat) :
    ((s.setGroup c base n x).core c).group base n = x % 2 ^ (8192 * n) := by
  have regs : (List.range n).map (fun j => (NatMap.get 0 ((s.setGroup c base n x).core c).regs.v (base + j)).toNat) =
      (List.range n).map (elem x 8192) := by
    refine List.map_congr_left fun j hj => ?_
    have hj : j < n := List.mem_range.mp hj
    rw [State.setGroup_v, if_pos (by omega), Nat.add_sub_cancel_left, toNat_register]
  rw [Core.group_eq_packElems, regs, packElems_elems, Nat.zero_mul, Nat.add_zero]

/-! ## Shapes -/

/-- The elements of a group lie in its registers (R148). -/
theorem Core.vctx_fits {k : Core} (h : shapeIll k.ctl.vshapeEff = false) {i : Nat} (hi : i < k.vctx.vlmax) :
    k.vctx.sew * i + k.vctx.sew ≤ 8192 * k.vctx.gang := by
  have room : k.vctx.sew * k.vctx.vlmax ≤ 8192 * k.vctx.gang := by
    show shapeSew _ * vlmaxOf _ ≤ _
    rw [vlmaxOf, h]
    exact Nat.mul_div_le _ _
  calc k.vctx.sew * i + k.vctx.sew = k.vctx.sew * (i + 1) := (Nat.mul_succ _ _).symm
    _ ≤ k.vctx.sew * k.vctx.vlmax := Nat.mul_le_mul_left _ hi
    _ ≤ 8192 * k.vctx.gang := room

/-! ## Results of elements -/

/-- What holds of no flags, of an OR, and of each result's flags holds of the flags of all. -/
theorem FRes.or_induction {P : Nat → Prop} (h0 : P 0) (hor : ∀ a b, P a → P b → P (a ||| b)) {l : List FRes}
    (hl : ∀ x ∈ l, P x.flags) : P (FRes.or l) := List.foldlRecOn l _ h0 fun a ha x hx => hor a x.flags ha (hl x hx)

section
variable {k : Core} {w : Word} {vln width old : Nat} {f : Nat → FRes}

theorem vecResult_flags_induction {P : Nat → Prop} (h0 : P 0) (hor : ∀ a b, P a → P b → P (a ||| b)) (hf : ∀ i, P (f i).flags) :
    P (vecResult k w vln width old f).flags := by
  refine FRes.or_induction h0 hor fun x hx => ?_
  obtain ⟨i, -, rfl⟩ := List.mem_map.mp hx
  split
  · exact hf i
  · exact h0

theorem vecResult_flags_zero (hf : ∀ i, (f i).flags = 0) : (vecResult k w vln width old f).flags = 0 :=
  vecResult_flags_induction (P := (· = 0)) rfl (fun _ _ ha hb => by rw [ha, hb]; rfl) hf

/-- An element below VLN is its result where it is active, and where it is not, zero or kept as MZ says; the others are kept
(R154). -/
theorem elem_vecResult (hf : ∀ i, (f i).bits < 2 ^ width) (i : Nat) : elem (vecResult k w vln width old f).bits width i =
    if i < vln ∧ k.active w i = true then (f i).bits else if i < vln ∧ fMz w = true then 0 else elem old width i := by
  have small : ∀ e ∈ ((List.range vln).map (fun i =>
      if k.active w i then f i else { bits := if fMz w then 0 else elem old width i })).map FRes.bits, e < 2 ^ width := by
    intro e he
    obtain ⟨x, hx, rfl⟩ := List.mem_map.mp he
    obtain ⟨j, -, rfl⟩ := List.mem_map.mp hx
    split
    · exact hf j
    · dsimp only
      split
      · exact Nat.two_pow_pos width
      · exact elem_lt _ _ _
  refine (elem_packElems small _ i).trans ?_
  rw [List.length_map, List.length_map, List.length_range, elem_div]
  by_cases hi : i < vln
  · rw [List.getElem?_map, List.getElem?_map, List.getElem?_range hi]
    by_cases ha : k.active w i = true <;> simp [hi, ha]
  · rw [List.getElem?_eq_none (by simpa using hi), if_neg (fun h => hi h.1), if_neg (fun h => hi h.1), Nat.add_sub_cancel' (by omega)]
    rfl

end

/-! ## Completion -/

theorem State.vecEnd_only {s t : State} {c : Nat} (h : CoreOnly c s t) (fl n : Nat) : CoreOnly c s (t.vecEnd c fl n) :=
  (h.modCore _).modCore _

theorem State.vecEnd_regs (s : State) (c fl n : Nat) : ((s.vecEnd c fl n).core c).regs = (s.core c).regs := by
  rw [State.vecEnd, State.bump, State.core_modCore_same, State.modCtl, State.core_modCore_same]

theorem State.vecEnd_fflags (s : State) (c fl n : Nat) :
    ((s.vecEnd c fl n).core c).ctl.fflags = (s.core c).ctl.fflags ||| (fl % 32) := by
  rw [State.vecEnd, State.bump, State.core_modCore_same, State.modCtl, State.core_modCore_same]

theorem State.vecEnd_nextPc (s : State) (c fl n : Nat) : ((s.vecEnd c fl n).core c).ctl.nextPc = (s.core c).ctl.nextPc := by
  rw [State.vecEnd, State.bump, State.core_modCore_same, State.modCtl, State.core_modCore_same]
  rfl

end Sys2Proof.Machine
end

section
/-!
PROOFS. Integer operations on elements (R157).
-/

namespace Sys2Proof.Machine

open Sys2Proof

theorem wrapInt_lt (n : Nat) (i : Int) : wrapInt n i < 2 ^ n := by
  have hpos : (0 : Int) < 2 ^ n := Int.pow_pos (by decide)
  have hlt : i % 2 ^ n < 2 ^ n := Int.emod_lt_of_pos i hpos
  have hnn : 0 ≤ i % 2 ^ n := Int.emod_nonneg i (Int.ne_of_gt hpos)
  rw [wrapInt, Int.toNat_lt hnn, Int.natCast_pow]
  exact hlt

theorem satInt_lt (n : Nat) (i : Int) : (satInt n i).1 < 2 ^ n := by
  unfold satInt
  dsimp only
  split
  · exact wrapInt_lt _ _
  · split <;> exact wrapInt_lt _ _

/-- The result of an integer operation is an element. -/
theorem vintElem_lt {sew op a b : Nat} (ha : a < 2 ^ sew) (hb : b < 2 ^ sew) : (vintElem sew op a b).bits < 2 ^ sew := by
  have hmod : ∀ x, x % 2 ^ sew < 2 ^ sew := fun x => Nat.mod_lt x (Nat.two_pow_pos sew)
  unfold vintElem
  dsimp only
  split
  case h_1 | h_3 | h_9 => exact hmod _
  case h_2 | h_4 | h_11 => exact wrapInt_lt _ _
  case h_5 => exact Nat.div_lt_of_lt_mul (Nat.mul_lt_mul'' ha hb)
  case h_6 => exact Nat.and_lt_two_pow a hb
  case h_7 => exact Nat.or_lt_two_pow ha hb
  case h_8 => exact Nat.xor_lt_two_pow ha hb
  case h_10 => exact Nat.lt_of_le_of_lt (Nat.div_le_self _ _) ha
  case h_16 | h_17 => exact satInt_lt _ _
  all_goals
    dsimp only
    split <;> assumption

/-- An integer operation raises no flag of FFLAGS. -/
theorem vintElem_flags (sew op a b : Nat) : (vintElem sew op a b).flags % 32 = 0 := by
  unfold vintElem
  dsimp only
  split
  case h_16 | h_17 =>
    dsimp only
    split <;> rfl
  all_goals rfl

end Sys2Proof.Machine
end

section
/-!
PROOFS. How a long-vector instruction begins and ends (R147, R150, R152).
-/

namespace Sys2Proof.Machine

open Sys2Proof

section
variable {s : State} {c : Nat} {enc needShape : Bool} {f : State → Res} (he : enc = true)
include he

theorem State.vecStart_runs (hs : needShape = true → shapeIll (s.core c).ctl.vshapeEff = false)
    (ha : (s.core c).ctl.vresArmed = false) : s.vecStart c enc needShape f = f s := by
  cases needShape with
  | false => simp [State.vecStart, he, ha]
  | true => simp [State.vecStart, he, ha, hs rfl]

theorem State.vecStart_illegalShape (hs : shapeIll (s.core c).ctl.vshapeEff = true) :
    s.vecStart c enc true f = .fault illVshape s := by simp [State.vecStart, he, hs]

theorem State.vecStart_armed (hs : shapeIll (s.core c).ctl.vshapeEff = false) (ha : (s.core c).ctl.vresArmed = true) :
    s.vecStart c enc true f = .fault illVresume s := by simp [State.vecStart, he, hs, ha]

end

end Sys2Proof.Machine
end

section
/-!
PROOFS. VINT (R157): one result for the group, and what each element, register and flag of it is.
-/

namespace Sys2Proof.Machine

open Sys2Proof

/-- The operand of VINT for element `i` beside that of va: an element of vb, or the low bits of g[vb] (R157). -/
def Core.vintOperand (k : Core) (w : Word) (i : Nat) : Nat :=
  if bitOf (fFunc w) 5 then (k.gr (fRb w)).toNat % 2 ^ k.vctx.sew else elem (k.group (fRb w) k.vctx.gang) k.vctx.sew i

/-- The group that VINT leaves and the flags of its elements. -/
def Core.vintResult (k : Core) (w : Word) : FRes :=
  vecResult k w k.vctx.vln k.vctx.sew (k.group (fRd w) k.vctx.gang)
    (fun i => vintElem k.vctx.sew (fFunc w % 32) (elem (k.group (fRa w) k.vctx.gang) k.vctx.sew i) (k.vintOperand w i))

theorem Core.vintOperand_lt (k : Core) (w : Word) (i : Nat) : k.vintOperand w i < 2 ^ k.vctx.sew := by
  unfold Core.vintOperand
  split
  · exact Nat.mod_lt _ (Nat.two_pow_pos _)
  · exact elem_lt _ _ _

theorem Core.vintResult_flags (k : Core) (w : Word) : (k.vintResult w).flags % 32 = 0 :=
  vecResult_flags_induction (P := (· % 32 = 0)) rfl
    (fun a b ha hb => by rw [show (32 : Nat) = 2 ^ 5 from rfl, Nat.or_mod_two_pow, ha, hb]; rfl) fun _ => vintElem_flags _ _ _ _

/-- The check of vb, which is made unless the operand is a scalar. -/
theorem placed_unless {scalar placed : Bool} (h : scalar = false → placed = true) : (!scalar && !placed) = false := by
  cases scalar with
  | false => rw [h rfl]; rfl
  | true => rfl

theorem vint_completes {c : Nat} {w : Word} {s : State} (h : s.executes c) (hm : major w = 0x30) (he : encOk {} w = true)
    (hs : shapeIll (s.core c).ctl.vshapeEff = false) (ha : (s.core c).ctl.vresArmed = false)
    (okd : gangOk (fRd w) (s.core c).vctx.gang = true) (oka : gangOk (fRa w) (s.core c).vctx.gang = true)
    (okb : bitOf (fFunc w) 5 = false → gangOk (fRb w) (s.core c).vctx.gang = true) :
    CompletesAs (.vint c w) s ((s.setGroup c (fRd w) (s.core c).vctx.gang ((s.core c).vintResult w).bits).vecEnd c
      ((s.core c).vintResult w).flags (beats (s.core c).vctx.vln (s.core c).vctx.sew)) c :=
  .of_ok rfl h ((State.vecStart_runs (by rw [hm, he]; rfl) (fun _ => hs) ha).trans
    (if_neg (by simp [okd, oka, placed_unless okb]))) (by simp)

/-- Settles O25: the group reads back as `Core.vintResult`, whose elements `elem_vecResult` gives. -/
theorem vectorIntegerElements : Obligations.VectorIntegerElements := by
  intro c w s h hm he k x scalar hs ha okd oka okb
  obtain ⟨t, ht, adv⟩ := vint_completes h hm he hs ha okd oka okb
  have regs := adv.regs.trans (State.vecEnd_regs _ c _ _)
  obtain ⟨hg, hf, hmask⟩ := State.setGroup_otherRegs s c (fRd w) x.gang (k.vintResult w).bits
  refine ⟨t, ht, fun i hi => ?element, fun r hr => ?register, (congrArg CoreRegs.g regs).trans hg, (congrArg CoreRegs.f regs).trans hf,
    (congrArg CoreRegs.m regs).trans hmask, ?fflags, ?pc, ?device⟩
  case element =>
    rw [Core.group_congr (congrArg CoreRegs.v regs), State.setGroup_group, elem_mod (Core.vctx_fits hs hi)]
    exact elem_vecResult (fun j => vintElem_lt (elem_lt _ _ _) (k.vintOperand_lt w j)) i
  case register =>
    rw [regs, State.setGroup_v, if_neg fun inside => hr.elim (Nat.not_lt.mpr inside.1) (Nat.not_le.mpr inside.2)]
  case fflags =>
    rw [adv.flags.1, State.vecEnd_fflags, State.setGroup_ctl, Core.vintResult_flags, Nat.or_zero]
  case pc =>
    rw [adv.pc, State.vecEnd_nextPc, State.setGroup_ctl]
  case device =>
    rw [adv.device, (State.vecEnd_only (State.setGroup_only s c _ _ _) _ _).1]

end Sys2Proof.Machine
end

section
/-!
PROOFS. VFP and the mask instructions (R158, R159), and long-vector arithmetic together.
-/

namespace Sys2Proof.Machine

open Sys2Proof

theorem major_enc {w : Word} {m : Nat} (hm : major w = m) (he : encOk {} w = true) : (major w == m && encOk {} w) = true := by
  simp [hm, he]

/-- An illegal shape, or else an armed VRESUME, is raised before anything else of a word that is not reserved (R147, R150). -/
theorem vecStart_raises {i : Instr} {s : State} {c m : Nat} {w : Word} {f : State → Res}
    (hi : exec i s = ok (s.execute c w (fun s => s.vecStart c (major w == m && encOk {} w) true f))) (h : s.executes c)
    (hm : major w = m) (he : encOk {} w = true) :
    (shapeIll (s.core c).ctl.vshapeEff = true → Raises i s c illVshape) ∧
    (shapeIll (s.core c).ctl.vshapeEff = false → (s.core c).ctl.vresArmed = true → Raises i s c illVresume) :=
  ⟨fun hs => .of_fault hi h (State.vecStart_illegalShape (major_enc hm he) hs),
    fun hs ha => .of_fault hi h (State.vecStart_armed (major_enc hm he) hs ha)⟩

theorem mem_maskHits {k : Core} {w : Word} {vln i : Nat} :
    i ∈ maskHits k w vln ↔ i < vln ∧ k.active w i = true ∧ bitOf (k.mr (fRa w)) i = true := by
  simp [maskHits]

/-- The first active element whose bit is set heads the hits (R159). -/
theorem maskHits_first {k : Core} {w : Word} {vln i : Nat} (hi : i < vln)
    (hit : k.active w i = true ∧ bitOf (k.mr (fRa w)) i = true)
    (before : ∀ j < i, ¬ (k.active w j = true ∧ bitOf (k.mr (fRa w)) j = true)) : ∃ l, maskHits k w vln = i :: l := by
  rw [← List.head?_eq_some_iff, maskHits, List.head?_filter, List.find?_range_eq_some]
  refine ⟨by simpa using hit, List.mem_range.mpr hi, fun j hj => ?_⟩
  rw [Bool.not_eq_true', ← Bool.not_eq_true, Bool.and_eq_true]
  exact before j hj

theorem maskHits_none {k : Core} {w : Word} {vln : Nat}
    (none : ∀ i < vln, ¬ (k.active w i = true ∧ bitOf (k.mr (fRa w)) i = true)) : maskHits k w vln = [] :=
  List.eq_nil_iff_forall_not_mem.mpr fun i hi => none i (mem_maskHits.mp hi).1 (mem_maskHits.mp hi).2

section
variable {c : Nat} {w : Word} {s : State} (he : encOk {} w = true) (hs : shapeIll (s.core c).ctl.vshapeEff = false)
  (ha : (s.core c).ctl.vresArmed = false)
include he hs ha

theorem semVmfirst_hit (hm : major w = 0x35) (hf : fFunc w = 22) {i : Nat} {l : List Nat}
    (hits : maskHits (s.core c) w (s.core c).vctx.vln = i :: l) :
    semVmfirst c w s = (s.setG c (fRd w) (BitVec.ofNat 64 i)).vecDone c 0 (ceilDiv (s.core c).vctx.vln 512) := by
  refine (State.vecStart_runs (by simp [hm, hf, he]) (fun _ => hs) ha).trans ?_
  simp only [hits]

theorem semVmfirst_noHit (hm : major w = 0x35) (hf : fFunc w = 22)
    (hits : maskHits (s.core c) w (s.core c).vctx.vln = []) :
    semVmfirst c w s = (s.setG c (fRd w) (BitVec.allOnes 64)).vecDone c 0 (ceilDiv (s.core c).vctx.vln 512) := by
  refine (State.vecStart_runs (by simp [hm, hf, he]) (fun _ => hs) ha).trans ?_
  simp only [hits]

end

/-- Settles O26: each instruction begins as `State.vecStart` says, and past its checks is its operation. -/
theorem vectorArithmeticAndMasks : Obligations.VectorArithmeticAndMasks := by
  intro c w s h he
  dsimp only
  refine ⟨List.forall_mem_cons.mpr ⟨fun hm => ?vint, List.forall_mem_singleton.mpr fun hm => ?vfp⟩, fun hs ha =>
    ⟨fun hm => ⟨fun hd => ?vintGang, fun okd ⟨oka, okb⟩ => vint_completes h hm he hs ha okd oka okb⟩,
    fun hm => ⟨fun hf => ?vfpFormat, fun hf okd oka okb => ?vfpResult⟩, fun hm hop ⟨oka, okb⟩ => ?intCompare,
    fun hm hlo hhi hf ⟨oka, okb⟩ => ?floatCompare, fun hm hlo hhi => ?logic, fun hm hf => ?vmset, fun hm hf => ?vmpopc,
    fun hm hf => ⟨fun i hi hit before => ?first, fun none => ?noHit⟩⟩⟩
  case vint => exact vecStart_raises rfl h hm he
  case vfp => exact vecStart_raises rfl h hm he
  case vintGang =>
    exact .of_fault rfl h ((State.vecStart_runs (major_enc hm he) (fun _ => hs) ha).trans (if_pos (by simp [hd])))
  case vfpFormat =>
    exact .of_fault rfl h ((State.vecStart_runs (major_enc hm he) (fun _ => hs) ha).trans (if_pos (by simp [hf])))
  case vfpResult =>
    have placed : (fFunc w % 32 != 4 && !bitOf (fFunc w) 5 && !gangOk (fRb w) (s.core c).vctx.gang) = false := by
      by_cases ho : fFunc w % 32 = 4
      · rw [ho]
        rfl
      · rw [Bool.and_assoc, placed_unless (okb ho), Bool.and_false]
    exact .of_ok rfl h ((State.vecStart_runs (major_enc hm he) (fun _ => hs) ha).trans
      ((if_neg (by simp [hf])).trans (if_neg (by simp [okd, oka, placed])))) (by simp)
  case intCompare =>
    have low : ¬ 6 ≤ fFunc w % 32 := by omega
    refine .of_ok rfl h (sem := semVmaskCompare c w) ?_ (by simp)
    rw [semVmaskCompare, State.vecStart_runs (by simp [hm, he]; omega) (fun _ => hs) ha]
    simp only [ge_iff_le, low, if_false]
    exact (if_neg (by simp)).trans (if_neg (by simp [oka, placed_unless okb]))
  case floatCompare =>
    refine .of_ok rfl h (sem := semVmaskCompare c w) ?_ (by simp)
    rw [semVmaskCompare, State.vecStart_runs (by simp [hm, he]; omega) (fun _ => hs) ha]
    simp only [ge_iff_le, hlo, if_true]
    exact (if_neg (by simp [hf])).trans (if_neg (by simp [oka, placed_unless okb]))
  case logic =>
    rw [vecResult_flags_zero fun _ => rfl]
    refine .of_ok rfl h (sem := semMaskLogic c w) ?_ (by simp)
    rw [semMaskLogic, State.vecStart_runs (by simp [hm, he]; omega) (fun _ => hs) ha]
    have five : fFunc w = 16 ∨ fFunc w = 17 ∨ fFunc w = 18 ∨ fFunc w = 19 ∨ fFunc w = 20 := by omega
    rcases five with hf | hf | hf | hf | hf <;> simp only [hf] <;> rfl
  case vmset =>
    rw [vecResult_flags_zero fun _ => rfl]
    exact .of_ok rfl h (State.vecStart_runs (by simp [hm, hf, he]) (fun _ => hs) ha) (by simp)
  case vmpopc =>
    rw [List.countP_eq_length_filter]
    exact .of_ok rfl h (State.vecStart_runs (by simp [hm, hf, he]) (fun _ => hs) ha) (by simp)
  case first =>
    obtain ⟨l, hits⟩ := maskHits_first hi hit before
    exact .of_ok rfl h (semVmfirst_hit he hs ha hm hf hits) (by simp)
  case noHit =>
    exact .of_ok rfl h (semVmfirst_noHit he hs ha hm hf (maskHits_none none)) (by simp)

end Sys2Proof.Machine
end

section
/-!
PROOFS. Moves, slides, gathers and reductions (R148, R160, R161).
-/

namespace Sys2Proof.Machine

open Sys2Proof

theorem vmiscIs_of {w : Word} {fn : Nat} (hm : major w = 0x36) (hf : fFunc w = fn) (he : encOk {} w = true) : vmiscIs w fn = true := by
  simp [vmiscIs, hm, hf, he]

section
variable {c : Nat} {w : Word} {s : State} (hm : major w = 0x36) (he : encOk {} w = true)
  (hs : shapeIll (s.core c).ctl.vshapeEff = false) (ha : (s.core c).ctl.vresArmed = false)
include hm he hs ha

/-- Past its checks a VMISC instruction that writes a group writes its elements' values. -/
theorem vmiscGroup_runs {fn : Nat} {srcs apart : List Nat} {nbeats : VCtx → Nat} {f : Core → VCtx → Nat → Nat} (hf : fFunc w = fn)
    (okd : gangOk (fRd w) (s.core c).vctx.gang = true) (oks : ∀ r ∈ srcs, gangOk r (s.core c).vctx.gang = true)
    (oka : ∀ r ∈ apart, shareReg (fRd w) (s.core c).vctx.gang r (s.core c).vctx.gang = false) :
    vmiscGroup c w fn srcs apart nbeats f s = State.vecDone (s.setGroup c (fRd w) (s.core c).vctx.gang
      (vecResult (s.core c) w (s.core c).vctx.vln (s.core c).vctx.sew ((s.core c).group (fRd w) (s.core c).vctx.gang)
        (fun i => { bits := f (s.core c) (s.core c).vctx i % 2 ^ (s.core c).vctx.sew })).bits) c 0 (nbeats (s.core c).vctx) := by
  have placed : (!gangOk (fRd w) (s.core c).vctx.gang || srcs.any (fun r => !gangOk r (s.core c).vctx.gang)) = false := by
    simpa [okd] using oks
  have kept : apart.any (fun r => shareReg (fRd w) (s.core c).vctx.gang r (s.core c).vctx.gang) = false := by
    simpa using oka
  exact (State.vecStart_runs (vmiscIs_of hm hf he) (fun _ => hs) ha).trans
    ((if_neg (Bool.eq_false_iff.mp placed)).trans (if_neg (Bool.eq_false_iff.mp kept)))

end

/-- Settles O27: the instructions that write a group by `vmiscGroup_runs`, the others past the checks of `State.vecStart`. -/
theorem vectorMovesAndReductions : Obligations.VectorMovesAndReductions := by
  intro c w s h hm he ha
  dsimp only
  have start : ∀ {fn : Nat} {f : State → Res}, fFunc w = fn → shapeIll (s.core c).ctl.vshapeEff = false →
      s.vecStart c (vmiscIs w fn) true f = f s := fun hf hs => State.vecStart_runs (vmiscIs_of hm hf he) (fun _ => hs) ha
  have startTwo : ∀ {m n : Nat} {f : State → Res}, fFunc w = m ∨ fFunc w = n → shapeIll (s.core c).ctl.vshapeEff = false →
      s.vecStart c (vmiscIs w m || vmiscIs w n) true f = f s := fun hf hs =>
    State.vecStart_runs (by rcases hf with hf | hf <;> simp [vmiscIs_of hm hf he]) (fun _ => hs) ha
  refine ⟨fun hf => ?vsetl, fun hs => ⟨fun hf okd oka => ?vmv, fun hf okd => ?vmvX, fun hf okd => ?vmvF, fun hf oka => ?vextX,
    fun hf oka => ?vextF, fun hf okd oka apart => ?slideup, fun hf okd oka apart => ?slidedn,
    fun hf okd oka okb apart apartb => ?gather, fun hf okd oka okb => ?merge, fun hf okd => ?vid, fun hf oka => ?redsum,
    fun hf float oka => ?fredsum, fun hf float oka => ⟨fun none => ?extremumFree, fun e l hact => ?extremum⟩⟩⟩
  case vsetl =>
    exact .of_ok (sem := semVsetl c w) rfl h
      (State.vecStart_runs (vmiscIs_of hm hf he) (fun needs => absurd needs Bool.false_ne_true) ha) (by simp [State.modCtl])
  case vmv =>
    exact .of_ok (sem := semVmv c w) rfl h (vmiscGroup_runs hm he hs ha hf okd (by simpa using oka) (by simp)) (by simp)
  case vmvX =>
    exact .of_ok (sem := semVmvScalar c w) rfl h
      ((if_pos hf).trans (vmiscGroup_runs hm he hs ha hf okd (by simp) (by simp))) (by simp)
  case vmvF =>
    exact .of_ok (sem := semVmvScalar c w) rfl h
      ((if_neg (by omega)).trans (vmiscGroup_runs hm he hs ha hf okd (by simp) (by simp))) (by simp)
  case vextX =>
    exact .of_ok rfl h ((startTwo (.inl hf) hs).trans ((if_neg (by simp [oka])).trans (if_pos hf))) (by simp)
  case vextF =>
    exact .of_ok rfl h ((startTwo (.inr hf) hs).trans ((if_neg (by simp [oka])).trans (if_neg (by omega)))) (by simp)
  case slideup =>
    exact .of_ok rfl h ((start hf hs).trans ((if_neg (by simp [okd, oka])).trans (if_neg (by simp [apart])))) (by simp)
  case slidedn =>
    exact .of_ok (sem := semVslidedn c w) rfl h
      (vmiscGroup_runs hm he hs ha hf okd (by simpa using oka) (by simpa using apart)) (by simp)
  case gather =>
    exact .of_ok (sem := semVgather c w) rfl h
      (vmiscGroup_runs hm he hs ha hf okd (by simpa using ⟨oka, okb⟩) (by simpa using ⟨apart, apartb⟩)) (by simp)
  case merge =>
    exact .of_ok rfl h ((start hf hs).trans (if_neg (by simp [okd, oka, okb]))) (by simp)
  case vid =>
    exact .of_ok (sem := semVid c w) rfl h (vmiscGroup_runs hm he hs ha hf okd (by simp) (by simp)) (by simp)
  case redsum =>
    rw [List.foldl_map]
    exact .of_ok rfl h ((start hf hs).trans (if_neg (by simp [oka]))) (by simp)
  case fredsum =>
    exact .of_ok rfl h ((start hf hs).trans ((if_neg (by simp [float])).trans (if_neg (by simp [oka])))) (by simp)
  case extremumFree =>
    have active : activeElems (s.core c) (s.core c).vctx w = [] := none
    refine ⟨Config.freeDword s.draw.1, .of_ok (sem := semVfredmaxmin c w) rfl h ?_ (by simp)⟩
    refine (startTwo hf hs).trans ((if_neg (by simp [float])).trans ((if_neg (by simp [oka])).trans ?_))
    rw [active]
    rfl
  case extremum =>
    have active : activeElems (s.core c) (s.core c).vctx w = e :: l := hact
    refine ⟨_, rfl, .of_ok (sem := semVfredmaxmin c w) rfl h ?_ (by simp)⟩
    refine (startTwo hf hs).trans ((if_neg (by simp [float])).trans ((if_neg (by simp [oka])).trans ?_))
    rw [active]
    rfl

end Sys2Proof.Machine
end

section
/-!
PROOFS. Conversions and microscaling (R169 to R175).
-/

namespace Sys2Proof.Machine

open Sys2Proof

section
variable {c : Nat} {w : Word} {s : State} {kind : Nat} {f : State → Res} (hm : major w = 0x34) (he : encOk {} w = true)
  (hs : shapeIll (s.core c).ctl.vshapeEff = false) (ha : (s.core c).ctl.vresArmed = false) (hk : fKind w = kind)
include hm he hs ha hk

theorem State.cvtStart_misformatted (hp : pairingOk (s.core c).vctx w = false) : s.cvtStart c w kind f = .fault illVformat s :=
  (State.vecStart_runs (by simp [hm, he, hk]) (fun _ => hs) ha).trans (if_pos (by simp [hp]))

/-- A conversion passes its checks: a legal pairing, a destination group that is there, and groups in place and apart (R155,
R169). -/
theorem State.cvtStart_runs (hp : pairingOk (s.core c).vctx w = true) (hn : dstCount (s.core c).vctx w ≤ 8)
    (okd : gangOk (fRd w) (dstCount (s.core c).vctx w) = true) (oka : gangOk (fRa w) (s.core c).vctx.gang = true)
    (apartA : shareReg (fRd w) (dstCount (s.core c).vctx w) (fRa w) (s.core c).vctx.gang = false)
    (apartB : shareReg (fRd w) (dstCount (s.core c).vctx w) (fRb w) 1 = false)
    (apartScale : shareReg (fRb w) 1 (fRa w) (s.core c).vctx.gang = false) : s.cvtStart c w kind f = f s :=
  (State.vecStart_runs (by simp [hm, he, hk]) (fun _ => hs) ha).trans
    ((if_neg (by simp [hp])).trans ((if_neg (Nat.not_lt.mpr hn)).trans ((if_neg (by simp [okd, oka])).trans
      ((if_neg (by simp [apartA])).trans ((if_neg (by simp [apartB])).trans (if_neg (by simp [apartScale])))))))

end

/-- Settles O28: past the checks of `State.cvtStart_runs` each kind is its operation, and with MODE.SR 0 nothing is drawn. -/
theorem formatConversions : Obligations.FormatConversions := by
  intro c w s h hm he ha hs
  dsimp only
  simp only [List.take_succ_cons, List.take_zero, List.forall_mem_cons]
  refine ⟨fun hp => ?misformatted, fun hp hn okd oka apartA apartB apartScale hsr =>
    ⟨⟨fun hk => ?cvt, fun hk => ?cvtT, List.forall_mem_nil _⟩, fun hk => ?mxq, fun hk => ?mxd⟩⟩
  case misformatted =>
    have fails : ∀ {kind : Nat} {f : State → Res}, fKind w = kind → s.cvtStart c w kind f = .fault illVformat s :=
      fun hk => State.cvtStart_misformatted hm he hs ha hk hp
    exact ⟨fun hk => .of_fault (sem := convert c w 0) rfl h (fails hk),
      fun hk => .of_fault (sem := convert c w 1) rfl h (fails hk),
      fun hk => .of_fault (sem := semMxq c w) rfl h (fails hk), fun hk => .of_fault (sem := semMxd c w) rfl h (fails hk),
      List.forall_mem_nil _⟩
  all_goals
    have runs : ∀ {f : State → Res}, s.cvtStart c w _ f = f s :=
      State.cvtStart_runs hm he hs ha hk hp hn okd oka apartA apartB apartScale
  case cvt =>
    refine .of_ok (sem := convert c w 0) rfl h (runs.trans ?_) (by simp)
    simp only [hk, hsr]
    rfl
  case cvtT =>
    refine .of_ok (sem := convert c w 1) rfl h (runs.trans ?_) (by simp)
    simp only [hk]
    rfl
  case mxq =>
    refine .of_ok (sem := semMxq c w) rfl h (runs.trans ?_) (by simp)
    simp only [hsr]
    rfl
  case mxd =>
    exact .of_ok (sem := semMxd c w) rfl h runs (by rw [State.vecEnd_delay, State.setGroup_ctl])

end Sys2Proof.Machine
end

section
/-!
PROOFS. Tile and scale memory, the moves between registers, and the store-buffer entries of the matrix extension (R164, R186, R187,
R189, R248).
-/

namespace Sys2Proof.Machine

open Sys2Proof

/-! ## The store buffer -/

@[simp] theorem State.pushSb_ctl (s : State) (c d : Nat) (e : SbEntry) : ((s.pushSb c e).core d).ctl = (s.core d).ctl :=
  State.modCore_ctl _ _ _ _ rfl

/-- With an entry free an instruction that needs one goes on at once. -/
theorem State.sbRoom_free {s : State} {c : Nat} (hsb : (s.core c).sb.length < 8) (k : State → Res) : s.sbRoom c k = k s := if_pos hsb

/-! ## Tile and scale memory (R187) -/

theorem mxferIs_of {w : Word} {fn : Nat} (hm : major w = 0x39) (hf : fFunc w = fn) (he : encOk {} w = true) : mxferIs w fn = true := by
  simp [mxferIs, hm, hf, he]

/-- An instruction whose operation gives `u` ends in `u` gone on past it, also where `u` is what reading memory has left. -/
theorem exec_finishes {i : Instr} {s u : State} {c : Nat} {w : Word} {sem : State → Res} (hi : exec i s = ok (s.execute c w sem))
    (h : s.executes c) (e : sem s = .ok u) : exec i s = .next (u.finish c) :=
  hi.trans (congrArg ok (State.execute_ok w h e))

section
variable {c : Nat} {w : Word} {s : State} {fn n len : Nat} (hx : mxferIs w fn = true)
include hx

theorem tileLoad_reads {b : List Byte} {u : State} (hr : readRows c (s.core c) w len (List.range n) 0 [] s = .ok b u) :
    tileLoad c w fn n len s = .ok ((u.setT c (fRd w) (BitVec.ofNat 8192 (leNat b))).bump c 0x30D 16) := by
  rw [tileLoad, if_neg (by simp [hx]), hr]
  rfl

/-- A row that fails its check faults before any byte is stored. -/
theorem tileStore_fails {f : FaultInfo} (hc : checkRows s c (s.core c) w len (List.range n) = some f) :
    tileStore c w fn n len s = .fault f s := by
  rw [tileStore, if_neg (by simp [hx])]
  simp only [hc]

theorem tileStore_enters (hc : checkRows s c (s.core c) w len (List.range n) = none) (hsb : (s.core c).sb.length < 8) :
    tileStore c w fn n len s = .ok ((s.pushSb c
      { kind := .tile, addr := rowAddr (s.core c) w 0,
        pieces := (List.range n).flatMap (fun r => rowPieces s c (rowAddr (s.core c) w r)
          (((natLE 1024 ((s.core c).tr (fRd w)).toNat).drop (len * r)).take len)) }).bump c 0x30D 16) := by
  rw [tileStore, if_neg (by simp [hx])]
  simp only [hc, State.sbRoom_free hsb]

end

section
variable {c : Nat} {w : Word} {s : State}

theorem semTsld_reads {b : List Byte} {u : State} (hx : mxferIs w 0x04 = true) (hr : readRows c (s.core c) w 64 [0] 0 [] s = .ok b u) :
    semTsld c w s = .ok ((u.setTs c (fRd w) (bytesLine b)).bump c 0x30D 1) := by
  rw [semTsld, if_neg (by simp [hx]), hr]
  rfl

theorem semTsst_enters (hx : mxferIs w 0x05 = true) (hc : checkRows s c (s.core c) w 64 [0] = none)
    (hsb : (s.core c).sb.length < 8) :
    semTsst c w s = .ok ((s.pushSb c
      { kind := .tile, addr := rowAddr (s.core c) w 0,
        pieces := rowPieces s c (rowAddr (s.core c) w 0) (lineBytes ((s.core c).tsr (fRd w))) }).bump c 0x30D 1) := by
  rw [semTsst, if_neg (by simp [hx])]
  simp only [hc, State.sbRoom_free hsb]

end

/-- Settles O30: loads by `tileLoad_reads`, stores by `tileStore_fails` and `tileStore_enters`, the scale forms by their own. -/
theorem tileMemory : Obligations.TileMemory := by
  intro c w s h hm he k row pieces loads stores
  have names : ∀ {fn : Nat}, fFunc w = fn → mxferIs w fn = true := fun hf => mxferIs_of hm hf he
  refine ⟨fun hf b u hr => ?tld, fun hf b u hr => ?tldW, fun hf => ⟨fun f hc => ?tstFails, fun hc hsb => ?tst⟩,
    fun hf => ⟨fun f hc => ?tstWFails, fun hc hsb => ?tstW⟩, fun hf b u hr => ?tsld, fun hf hc hsb => ?tsst⟩
  case tld => exact exec_finishes (sem := semTld c w) rfl h (tileLoad_reads (names hf) hr)
  case tldW => exact exec_finishes (sem := semTldW c w) rfl h (tileLoad_reads (names hf) hr)
  case tstFails => exact .of_fault (sem := semTst c w) rfl h (tileStore_fails (names hf) hc)
  case tst => exact .of_ok (sem := semTst c w) rfl h (tileStore_enters (names hf) hc hsb) (by simp)
  case tstWFails => exact .of_fault (sem := semTstW c w) rfl h (tileStore_fails (names hf) hc)
  case tstW => exact .of_ok (sem := semTstW c w) rfl h (tileStore_enters (names hf) hc hsb) (by simp)
  case tsld => exact exec_finishes (sem := semTsld c w) rfl h (semTsld_reads (names hf) hr)
  case tsst => exact .of_ok (sem := semTsst c w) rfl h (semTsst_enters (names hf) hc hsb) (by simp)

end Sys2Proof.Machine
end

section
/-!
PROOFS. Matrix products, the moves between registers and ARED (R178, R180 to R186, R189).
-/

namespace Sys2Proof.Machine

open Sys2Proof

/-! ## Products (R180 to R185) -/

@[simp] theorem State.setAcc_ctl (s : State) (c d : Nat) (h : MopShape) (ad : Nat) (l : List Nat) :
    ((s.setAcc c h ad l).core d).ctl = (s.core d).ctl := by
  unfold State.setAcc
  split
  · exact (State.setA_ctl _ _ _ _ _).trans (State.setA_ctl _ _ _ _ _)
  · exact State.setA_ctl _ _ _ _ _

/-- Only the INT8 row of the shape table has element format 0 (R180). -/
theorem mopShape_fmt_ne_zero {m : Nat} (h : m < 12) : (mopShape m).fmt ≠ 0 := by
  revert m
  decide

/-- With MODE.SR 0 an instruction takes nothing from the Grain. -/
theorem State.reserveSr_unwanted (s : State) (c n : Nat) : s.reserveSr c false n = ([], s) := rfl

theorem mopIs_of {w : Word} {op : Nat} (hm : major w = 0x38) (ho : fMop w = op) (he : encOk {} w = true) :
    (major w == 0x38 && fMop w == op && encOk {} w) = true := by
  simp [hm, ho, he]

/-! ## Moves and ARED (R186, R189) -/

section
variable {c : Nat} {w : Word} {s : State}

/-- A move whose word is its own writes its register. -/
theorem mxMove_runs {fn : Nat} {f : State → State} (hx : mxferIs w fn = true) : mxMove w fn s f = .ok (f s) := if_neg (by simp [hx])

theorem semAred_enters (hx : mxferIs w 0x11 = true) (hsb : (s.core c).sb.length < 8) :
    semAred c w s = .ok (s.pushSb c
      { kind := .ared, ared := c :: ((s.core c).gr (fRa w)).toNat :: ((s.core c).gr (fRb w)).toNat :: fRc w :: aredValues (s.core c) w }) := by
  rw [semAred, if_neg (by simp [hx])]
  exact State.sbRoom_free hsb _

end

/-- Settles O31: the four MOPs are `semMop` with their operation, the moves `mxMove` with their write. -/
theorem matrixInstructions : Obligations.MatrixInstructions := by
  intro c w s h he k sh
  refine ⟨fun x hx hm ho => ?mop, fun hm => ?moves⟩
  case mop =>
    have runs : exec x.2 s = ok (s.execute c w (semMop c w x.1)) := by
      revert x
      simp only [List.forall_mem_cons]
      exact ⟨fun _ => rfl, fun _ => rfl, fun _ => rfl, fun _ => rfl, List.forall_mem_nil _⟩
    have own : ¬ (!(major w == 0x38 && fMop w == x.1 && encOk {} w)) = true := by simp [mopIs_of hm ho he]
    intro set neg
    refine ⟨fun hf => .of_ok runs h ((if_neg own).trans ?int) (by simp), fun hf hsr => ?float⟩
    case int =>
      simp only [sh, hf]
      rfl
    case float =>
      intro l
      refine .of_ok runs h ((if_neg own).trans ((if_neg (mopShape_fmt_ne_zero hf)).trans ?_)) (by simp [State.modCtl])
      have off : (s.core c).ctl.sr = false := hsr
      simp only [off, State.reserveSr_unwanted]
      rfl
  case moves =>
    have names : ∀ {fn : Nat}, fFunc w = fn → mxferIs w fn = true := fun hf => mxferIs_of hm hf he
    refine ⟨fun hf => .of_ok (sem := semVfromt c w) rfl h (mxMove_runs (names hf)) (by simp),
      fun hf => .of_ok (sem := semTfromv c w) rfl h (mxMove_runs (names hf)) (by simp),
      fun hf => .of_ok (sem := semVfroma c w) rfl h (mxMove_runs (names hf)) (by simp),
      fun hf => .of_ok (sem := semAfromv c w) rfl h (mxMove_runs (names hf)) (by simp), fun hf => ?vfromts, fun hf => ?tsfromv,
      fun hf => .of_ok (sem := semAzero c w) rfl h (mxMove_runs (names hf)) (by simp),
      fun hf hsb => .of_ok rfl h (semAred_enters (names hf) hsb) (by simp)⟩
    case vfromts =>
      rw [BitVec.ofNat_toNat]
      exact .of_ok (sem := semVfromts c w) rfl h (mxMove_runs (names hf)) (by simp)
    case tsfromv =>
      rw [BitVec.ofNat_toNat]
      exact .of_ok (sem := semTsfromv c w) rfl h (mxMove_runs (names hf)) (by simp)

end Sys2Proof.Machine
end

section
/-!
PROOFS. How a control transfer ends (R120 to R122): its delay slot comes next, or the fault its operation answers is raised; and the
arrival of a transfer at its target (R121).
-/

namespace Sys2Proof.Machine

open Sys2Proof

/-! ## The transfer -/

section
variable {i : Instr} {s u : State} {c : Nat} {sem : State → TransRes}

theorem State.executeTransfer_fault {f : FaultInfo} (h : s.transfers c) (e : sem s = .fault f u) :
    s.executeTransfer c sem = (u.endRemote c).faultAt c f := by
  obtain ⟨⟨hrun, halign, hreach⟩, hslot⟩ := h
  simp [State.executeTransfer, hrun, fetchFault_none _ halign hreach, hslot, e]

theorem TransfersAs.of_go {d : Delay} (hi : exec i s = ok (s.executeTransfer c sem)) (h : s.transfers c) (e : sem s = .go d u) :
    TransfersAs i s u c d := ⟨_, hi, State.executeTransfer_transferred h e⟩

/-- A transfer that faults does so in the state its operation has left, which reading memory may have changed. -/
theorem exec_transferFault {f : FaultInfo} (hi : exec i s = ok (s.executeTransfer c sem)) (h : s.transfers c) (e : sem s = .fault f u) :
    exec i s = .next ((u.endRemote c).faultAt c f) :=
  hi.trans (congrArg ok (State.executeTransfer_fault h e))

end

/-! ## The core's parts after a change of one of them -/

@[simp] theorem State.modCtl_ctl (s : State) (c : Nat) (f : CoreCtl → CoreCtl) : ((s.modCtl c f).core c).ctl = f (s.core c).ctl := by
  rw [State.modCtl, State.core_modCore_same]

@[simp] theorem State.modCtl_gr (s : State) (c r : Nat) (f : CoreCtl → CoreCtl) : ((s.modCtl c f).core c).gr r = (s.core c).gr r := by
  rw [State.modCtl, State.core_modCore_same]
  rfl

@[simp] theorem State.modCtl_sb (s : State) (c : Nat) (f : CoreCtl → CoreCtl) : ((s.modCtl c f).core c).sb = (s.core c).sb := by
  rw [State.modCtl, State.core_modCore_same]

@[simp] theorem State.setG_sb (s : State) (c r : Nat) (v : Dword) : ((s.setG c r v).core c).sb = (s.core c).sb := by
  unfold State.setG
  split
  · rfl
  · rw [State.modRegs, State.core_modCore_same]

@[simp] theorem State.pushSb_sb (s : State) (c : Nat) (e : SbEntry) : ((s.pushSb c e).core c).sb = (s.core c).sb ++ [e] := by
  rw [State.pushSb, State.core_modCore_same]

@[simp] theorem State.pushSb_gr (s : State) (c r : Nat) (e : SbEntry) : ((s.pushSb c e).core c).gr r = (s.core c).gr r := by
  rw [State.pushSb, State.core_modCore_same]
  rfl

/-- With a store-buffer entry free, a frame is one entry more (R224). -/
theorem State.pushFrame_free {s : State} {c : Nat} (hsb : (s.core c).sb.length < 8) (sp : Nat) (bs : List Byte) :
    s.pushFrame c sp bs = s.pushSb c (s.scalarEntry c sp bs) := by
  rw [State.pushFrame, if_pos hsb]

/-! ## The arrival -/

section
variable {s : State} {c : Nat} {d : Delay}

theorem State.moveOn_delay (hd : (s.core c).ctl.delay = some d) : s.moveOn c = s.arrive c d := by
  rw [State.moveOn, hd]

/-- At its handler a GATE pushes its frame, takes the new stack pointer into g2 and switches to system level (R234). -/
theorem State.arrive_gate {nsp n ret st time frame : Nat} (ha : d.act = .gate nsp n ret st time frame)
    (hsb : (s.core c).sb.length < 8) :
    s.arrive c d =
      ((s.pushSb c (s.scalarEntry c nsp (frameBytes ret st ((s.core c).gr 2).toNat 0 (2 ^ 24) time frame n))).setG c 2
        (BitVec.ofNat 64 nsp)).modCtl c
        (fun x => { x with priv := true, ie := false, pc := BitVec.ofNat 64 d.target, delay := none }) := by
  rw [State.arrive, ha]
  exact congrArg (fun t : State => (t.setG c 2 _).modCtl c _) (State.pushFrame_free hsb nsp _)

/-- At the address it returns to, a return takes g2 and STATUS from its frame (R231, R237). -/
theorem State.arrive_ret {st g2 : Dword} {uop : Option (Nat × Nat)} (ha : d.act = .ret st g2 uop) :
    s.arrive c d = (s.setG c 2 g2).modCtl c
      (fun x => { x with priv := st.getLsbD 0, ie := st.getLsbD 1, pc := BitVec.ofNat 64 d.target, delay := none, resumeUop := uop }) := by
  rw [State.arrive, ha]

end

end Sys2Proof.Machine
end

section
/-!
PROOFS. GATE, RETG and RETE (R231, R233, R234, R237).
-/

namespace Sys2Proof.Machine

open Sys2Proof

/-! ## GATE -/

section
variable {c : Nat} {w : Word} {s u : State} {b : List Byte} {sp : Nat}

/-- A GATE that passes every check of R234 goes, after its delay slot, to its entry's handler. -/
theorem semGate_passes (own : sysIs w 0 = true)
    (readable : s.tableRead c ((s.core c).sre.gatebase.toNat + 32 * sysN w) 32 = (.ok b, u))
    (valid : bitOf (gateEntry b).ctrl 0 = true) (wellFormed : (gateEntry b).malformed = false)
    (callable : (u.core c).ctl.priv = true ∨ bitOf (gateEntry b).ctrl 1 = true)
    (args : ∀ i < (gateEntry b).nargs, u.gateArgOk c (gateEntry b) i = true)
    (hsp : sp = if (gateEntry b).newStack ≠ 0 then (gateEntry b).newStack
      else if (u.core c).ctl.priv then ((u.core c).gr 2).toNat else (u.core c).ssp.toNat)
    (room : 64 ≤ sp) (limit : (u.core c).sre.slimit.toNat ≤ sp / 64 * 64 - 64)
    (push : u.coreCheck c true .write (sp / 64 * 64 - 64) 64 = .ok ()) :
    semGate c w s = .go
      { addr := (s.core c).ctl.pc.toNat, target := (gateEntry b).handler,
        act := .gate (sp / 64 * 64 - 64) (sysN w) ((s.core c).ctl.pc.toNat + 8) (u.core c).ctl.status (u.now % 2 ^ 64)
          u.sht.frame.toNat,
        guard := [2, 10, 11, 12, 13, 14, 15], gateSlot := true }
      (u.btbResolve c (s.core c).ctl.pc.toNat true (gateEntry b).handler) := by
  have mayCall : (!(u.core c).ctl.priv && !bitOf (gateEntry b).ctrl 1) = false := by
    rcases callable with h | h <;> simp [h]
  have noBadArg : (List.range (gateEntry b).nargs).find? (fun i => !u.gateArgOk c (gateEntry b) i) = none :=
    List.find?_eq_none.mpr fun i hi => by simp [args i (List.mem_range.mp hi)]
  have newSp : ((sp / 64 * 64 : Nat) : Int) - 64 = ((sp / 64 * 64 - 64 : Nat) : Int) := by omega
  have aboveLimit : ¬ ((sp / 64 * 64 - 64 : Nat) : Int) < ((u.core c).sre.slimit.toNat : Int) := by omega
  simp only [semGate, own, readable, valid, wellFormed, mayCall, noBadArg, ← hsp, newSp, if_neg aboveLimit, Int.toNat_natCast, push,
    Bool.not_true, Bool.false_eq_true, if_false]

end

/-! ## RETE and RETG -/

/-- The micro-op that a return resumes at, with its instruction's address: RETE's alone, where the frame's UOPV is 1 (R231). -/
def returnUop (gate : Bool) (b : List Byte) : Option (Nat × Nat) :=
  if !gate && bitOf (fieldLE b 32 8) 21 then
    some (if bitOf (fieldLE b 32 8) 6 then (fieldLE b 0 8 + 4) % 2 ^ 64 else fieldLE b 0 8, bitsOf (fieldLE b 32 8) 16 5)
  else none

section
variable {c : Nat} {w : Word} {s u : State} {b : List Byte} {gate : Bool}

theorem semRetg_own (own : sysIs w 1 = true) : semRetg c w = returnFrom c true := funext fun _ => if_neg (by simp [own])

theorem semRete_own (own : sysIs w 2 = true) : semRete c w = returnFrom c false := funext fun _ => if_neg (by simp [own])

/-- RETG and RETE are one operation, on frames of the two kinds. -/
theorem exec_return (own : sysIs w (if gate then 1 else 2) = true) :
    exec (if gate then .retg c w else .rete c w) s = ok (s.executeTransfer c (returnFrom c gate)) := by
  cases gate with
  | true => exact congrArg (fun sem => ok (s.executeTransfer c sem)) (semRetg_own own)
  | false => exact congrArg (fun sem => ok (s.executeTransfer c sem)) (semRete_own own)

theorem returnFrom_user (level : (s.core c).ctl.priv = false) : returnFrom c gate s = .fault illPriv s := by
  simp [returnFrom, level]

section
variable (level : (s.core c).ctl.priv = true) (read : s.load c (((s.core c).gr 2).toNat / 64 * 64) 64 = .ok b u)
include level read

theorem returnFrom_otherKind (kind : bitOf (fieldLE b 32 8) 24 ≠ gate) : returnFrom c gate s = .fault illFrame u := by
  simp [returnFrom, level, read, kind]

theorem returnFrom_kind (kind : bitOf (fieldLE b 32 8) 24 = gate) :
    returnFrom c gate s = .go
      { addr := (s.core c).ctl.pc.toNat, target := fieldLE b 0 8, guard := [2],
        act := .ret (BitVec.ofNat 64 (fieldLE b 8 8)) (BitVec.ofNat 64 (fieldLE b 16 8)) (returnUop gate b) }
      (u.btbResolve c (s.core c).ctl.pc.toNat true (fieldLE b 0 8)) := by
  simp [returnFrom, level, read, kind, returnUop]

end

end

/-- Settles O14: GATE past its checks is `semGate_passes`, a return `returnFrom_kind` or one of its two faults, and what follows the
delay slot `State.arrive_gate` and `State.arrive_ret`. -/
theorem gatesAndReturns : Obligations.GatesAndReturns := by
  refine ⟨?gate, ?handler, ?returns, ?returned, ?user⟩
  case gate =>
    intro c w s u b h own readable e k sp nsp valid wellFormed callable args room limit push
    exact .of_go (sem := semGate c w) rfl h (semGate_passes own readable valid wellFormed callable args rfl room limit push)
  case handler =>
    intro c u d nsp n ret st time frame act slot hsb t
    have arrived : t = _ := (State.moveOn_delay slot).trans (State.arrive_gate act hsb)
    rw [arrived]
    exact ⟨by simp, by simp [State.setG_gr], fun r hr => by simp [State.setG_gr, hr], by simp⟩
  case returns =>
    intro c w s u b gate h level own read i
    exact ⟨fun kind => exec_transferFault (exec_return own) h (returnFrom_otherKind level read kind),
      fun kind => ⟨returnUop gate b, .of_go (exec_return own) h (returnFrom_kind level read kind)⟩⟩
  case returned =>
    intro c u d st g2 uop act slot t
    have arrived : t = _ := (State.moveOn_delay slot).trans (State.arrive_ret act)
    rw [arrived]
    exact ⟨by simp, by simp [State.setG_gr], fun r hr => by simp [State.setG_gr, hr], by simp⟩
  case user =>
    intro c w s h level
    exact ⟨fun own => exec_transferFault (exec_return (gate := true) own) h (returnFrom_user level),
      fun own => exec_transferFault (exec_return (gate := false) own) h (returnFrom_user level)⟩

end Sys2Proof.Machine
end

section
/-!
PROOFS. Doorbells, queue and completion-queue control, marks, and the copy of a record (R259, R260, R262, R267, R283, R284).
-/

namespace Sys2Proof.Machine

open Sys2Proof

/-! ## What an event leaves of the schedulers -/

@[simp] theorem State.toStream_sched (s : State) (e : StreamEntry) : (s.toStream e).sched = s.sched := by
  unfold State.toStream
  dsimp only
  repeat' split
  all_goals rfl

@[simp] theorem State.requestMsix_sched (s : State) (f v : Nat) : (s.requestMsix f v).sched = s.sched := by
  unfold State.requestMsix State.sendMsix
  split
  · rfl
  · split <;> rfl

@[simp] theorem State.raise_sched (s : State) (fn ev irq bit vec : Nat) : (s.raise fn ev irq bit vec).sched = s.sched := by
  have stored : ((s.orReg ev bit).toStream (.event ev bit)).sched = s.sched := State.toStream_sched _ _
  unfold State.raise
  dsimp only
  split
  · rw [State.requestMsix_sched, stored]
  · exact stored

@[simp] theorem State.schEvent_sq (s : State) (p bit j q : Nat) : (s.schEvent p bit).sq j q = s.sq j q := by
  simp only [State.sq, State.sch, State.schEvent, State.raise_sched]

/-! ## Queues (R259, R283) -/

/-- The doorbell takes `x`: it is within the ring's size of HEAD, and not behind TAIL. -/
abbrev SQ.takesTail (k : SQ) (x : Word) : Prop := (x - k.head).toNat ≤ 2 ^ cfgLog k.cfg ∧ (x - k.tail).toNat < 2 ^ 31

/-- A disabled queue of good configuration is enabled: its fields are those of an enabled queue. -/
theorem State.enableQueue_good {s : State} {p q : Nat} (hen : (s.sq p q).en = false)
    (hcfg : cfgOk (s.sq p q).cfg = true) (hbase : (s.sq p q).baseLo.toNat % 64 = 0) :
    (s.enableQueue p q).sq p q =
      { (s.dropWaiters p q).sq p q with
        en := true, state := .active, tailBad := false, wign := false, cfgErr := false, tail := 0, head := 0,
        lastSeq := 0xFFFFFFFF, copied := [], accepted := [] } := by
  rw [State.enableQueue, if_neg (by simp [hen]), if_pos (by simp [hcfg, hbase]), State.modSq_sq]

theorem State.enableQueue_bad {s : State} {p q : Nat} (hen : (s.sq p q).en = false)
    (hbad : ¬ (cfgOk (s.sq p q).cfg = true ∧ (s.sq p q).baseLo.toNat % 64 = 0)) :
    s.enableQueue p q = s.modSq p q (fun k => { k with cfgErr := true }) := by
  rw [State.enableQueue, if_neg (by simp [hen]), if_neg (by simpa using hbad)]

/-- Whatever becomes of its copied records, a disabled queue is off and holds none. -/
theorem State.disableQueue_sq (s : State) (p q : Nat) :
    ((s.disableQueue p q).sq p q).en = false ∧ ((s.disableQueue p q).sq p q).state = .off ∧
      ((s.disableQueue p q).sq p q).copied = [] := by
  simp [State.disableQueue]

/-! ## Completion queues (R284) -/

theorem State.enableCq_good {s : State} {p c : Nat} (hen : (s.cq p c).en = false)
    (hcfg : cfgOk (s.cq p c).cfg = true) (hbase : (s.cq p c).baseLo.toNat % 32 = 0) :
    s.enableCq p c = s.modCq p c (fun c => { c with
      en := true, wign := false, cfgErr := false, writeErr := false, tail := 0, head := 0, reserved := 0, run := c.run + 1 }) := by
  rw [State.enableCq, if_neg (by simp [hen]), if_pos (by simp [hcfg, hbase])]

theorem State.enableCq_bad {s : State} {p c : Nat} (hen : (s.cq p c).en = false)
    (hbad : ¬ (cfgOk (s.cq p c).cfg = true ∧ (s.cq p c).baseLo.toNat % 32 = 0)) :
    s.enableCq p c = s.modCq p c (fun c => { c with cfgErr := true }) := by
  rw [State.enableCq, if_neg (by simp [hen]), if_neg (by simpa using hbad)]

/-! ## Marks (R267) -/

/-- Every mark of the partition, after an amount is added to one. -/
theorem State.addMark_mark (s : State) (p m n j : Nat) :
    (s.addMark p m n).mark p j = if j = m then s.mark p m + BitVec.ofNat 64 n else s.mark p j := by
  simp only [State.addMark, State.setMark, State.mark, State.modSch_sch, NatMap.get_set]

/-! ## Writes under the session rule (R260) -/

section
variable {s : State} {p : Nat} (hthere : s.vfThere p = true) (hserved : s.vfServed p = true)
include hthere hserved

/-- Without a session a write of a scheduler register only counts and reports NO_SESSION. -/
theorem State.gated_closed (hclosed : s.sessionOpen p = false) (off : Nat) (f : State → State) :
    s.gated p off f = s.noSession p off := by
  rw [State.gated, State.vfWrite_serves hthere hserved, if_neg (Bool.eq_false_iff.mp hclosed)]

variable (hopen : s.sessionOpen p = true)
include hopen

/-- With the session open it has its effect. -/
theorem State.gated_open (off : Nat) (f : State → State) : s.gated p off f = f s := by
  rw [State.gated, State.vfWrite_serves hthere hserved, if_pos hopen]

variable {q : Nat} {x : Word}

section
variable (hen : (s.sq p q).en = true)
include hen

theorem State.qTail_takes (htakes : (s.sq p q).takesTail x) : s.qTail p q x = s.modSq p q (fun k => { k with tail := x }) := by
  rw [State.qTail, State.gated_open hthere hserved hopen, if_neg (by simp [hen]),
    if_pos (by simpa only [Bool.and_eq_true, decide_eq_true_eq] using htakes)]

theorem State.qTail_refuses (hbad : ¬ (s.sq p q).takesTail x) :
    s.qTail p q x = (s.modSq p q (fun k => { k with tailBad := true })).schEvent p 2 := by
  rw [State.qTail, State.gated_open hthere hserved hopen, if_neg (by simp [hen]), if_neg (by simpa using hbad)]

end

theorem State.qCtrl_en (hx : x.getLsbD 0 = true) : s.qCtrl p q x = s.enableQueue p q := by
  rw [State.qCtrl, State.gated_open hthere hserved hopen, if_pos hx]

theorem State.qCtrl_dis (hx : x.getLsbD 0 = false) : s.qCtrl p q x = s.disableQueue p q := by
  rw [State.qCtrl, State.gated_open hthere hserved hopen, if_neg (Bool.eq_false_iff.mp hx)]

theorem State.cqCtrl_en (hx : x.getLsbD 0 = true) : s.cqCtrl p q x = s.enableCq p q := by
  rw [State.cqCtrl, State.gated_open hthere hserved hopen, if_pos hx]

theorem State.cqCtrl_dis (hx : x.getLsbD 0 = false) :
    s.cqCtrl p q x = s.modCq p q (fun c => { c with en := false, wign := false }) := by
  rw [State.cqCtrl, State.gated_open hthere hserved hopen, if_neg (Bool.eq_false_iff.mp hx)]

end

/-! ## The copy of a record (R259, R262) -/

/-- The record's SEQ is newer than the queue's LASTSEQ. -/
abbrev SQ.newer (k : SQ) (img : Line) : Prop :=
  1 ≤ (BitVec.ofNat 32 (recSeq img) - k.lastSeq).toNat ∧ (BitVec.ofNat 32 (recSeq img) - k.lastSeq).toNat < 2 ^ 31

/-- A record newer than LASTSEQ is entered with the verdict of its checks. -/
theorem State.takeRecord_newer {s : State} {p q : Nat} {img : Line} (h : (s.sq p q).newer img) :
    ((s.takeRecord p q img).sq p q).head = (s.sq p q).head + 1 ∧ ((s.takeRecord p q img).sq p q).tail = (s.sq p q).tail ∧
      ((s.takeRecord p q img).sq p q).lastSeq = BitVec.ofNat 32 (recSeq img) ∧
      ((s.takeRecord p q img).sq p q).copied =
        (s.sq p q).copied ++ [{ image := img, verdict := s.checkRecord p none img }] := by
  rw [State.takeRecord, if_pos h, State.modSq_sq]
  exact ⟨rfl, rfl, rfl, rfl⟩

/-- Any other is entered as a duplicate. -/
theorem State.takeRecord_dup {s : State} {p q : Nat} {img : Line} (h : ¬ (s.sq p q).newer img) :
    (s.takeRecord p q img).sq p q =
      { s.sq p q with head := (s.sq p q).head + 1, copied := (s.sq p q).copied ++ [{ image := img, verdict := .dup }] } := by
  rw [State.takeRecord, if_neg h, State.schEvent_sq, State.modSq_sq]
  rfl

/-- A record in host memory that the function may read is taken. -/
theorem State.recordCopy_host {s : State} {p q : Nat} (hcopy : s.mayCopy p q = true) (hspace : cfgSpace (s.sq p q).cfg = false)
    (hbus : (s.fn (p + 1)).busMaster = true) (img : Line) : s.recordCopy p q (some img) = s.takeRecord p q img := by
  rw [State.recordCopy, if_neg (by simp [hcopy]), if_neg (by simp [hspace])]
  exact if_pos hbus

/-! ## The obligation -/

/-- Settles O39: each write has the effect behind the session rule, and a copied record is newer than LASTSEQ or a duplicate. -/
theorem queuesAndMarks : Obligations.QueuesAndMarks := by
  intro p q x s
  refine ⟨fun hthere hserved hopen => ?effects, fun hthere hserved hclosed => ?noSession, fun img hcopy hspace hbus => ?copy⟩
  case effects =>
    have qEn := State.qCtrl_en hthere hserved hopen (q := q) (x := x)
    have cqEn := State.cqCtrl_en hthere hserved hopen (q := q) (x := x)
    refine ⟨fun hen hsize hahead => congrArg ok (State.qTail_takes hthere hserved hopen hen ⟨hsize, hahead⟩),
      fun hen hbad => ⟨_, congrArg ok (State.qTail_refuses hthere hserved hopen hen hbad), by simp⟩,
      fun hx hen hcfg hbase => ⟨_, congrArg ok (qEn hx), ?enabled⟩,
      fun hx hen hbad => congrArg ok ((qEn hx).trans (State.enableQueue_bad hen hbad)),
      fun hx => ⟨_, congrArg ok (State.qCtrl_dis hthere hserved hopen hx), State.disableQueue_sq s p q⟩,
      fun hx hen hcfg hbase => congrArg ok ((cqEn hx).trans (State.enableCq_good hen hcfg hbase)),
      fun hx hen hbad => congrArg ok ((cqEn hx).trans (State.enableCq_bad hen hbad)),
      fun hx => congrArg ok (State.cqCtrl_dis hthere hserved hopen hx),
      congrArg ok (State.gated_open hthere hserved hopen _ _),
      ⟨_, congrArg ok (State.gated_open hthere hserved hopen _ _), ?added, fun m hm => ?kept⟩⟩
    case enabled =>
      rw [State.enableQueue_good hen hcfg hbase]
      exact ⟨rfl, rfl, rfl, rfl, rfl, rfl, rfl, rfl⟩
    case added => rw [State.addMark_mark, if_pos rfl]
    case kept => rw [State.addMark_mark, if_neg hm]
  case noSession =>
    have closed := fun off f => congrArg ok (State.gated_closed hthere hserved hclosed off f)
    exact ⟨closed _ _, closed _ _, closed _ _, closed _ _, closed _ _⟩
  case copy =>
    refine ⟨_, congrArg ok (State.recordCopy_host hcopy hspace hbus img), ?_⟩
    by_cases h : (s.sq p q).newer img
    · obtain ⟨hhead, htail, hseq, hcopied⟩ := State.takeRecord_newer h
      exact ⟨hhead, htail, fun _ => ⟨hseq, hcopied⟩, fun k => absurd h k⟩
    · rw [State.takeRecord_dup h]
      exact ⟨rfl, rfl, fun k => absurd k h, fun _ => ⟨rfl, rfl⟩⟩

end Sys2Proof.Machine
end

section
/-!
PROOFS. Bit streams, runs and elements of the Condensed Tensor Format (R316 to R318), written and read back.
-/

namespace Sys2Proof

theorem natLE_zero_value (n : Nat) : natLE n 0 = List.replicate n 0#8 := by
  induction n with
  | zero => rfl
  | succ n ih => simp [natLE, ih, List.replicate_succ]

theorem natLE_leNat (bs : List Byte) : natLE bs.length (leNat bs) = bs := by
  induction bs with
  | nil => rfl
  | cons b bs ih =>
    have hlow : BitVec.ofNat 8 (b.toNat + 256 * leNat bs) = b := by
      apply BitVec.eq_of_toNat_eq
      simp
      omega
    have hhigh : (b.toNat + 256 * leNat bs) / 256 = leNat bs := by omega
    rw [List.length_cons, leNat, natLE, hlow, hhigh, ih]

theorem leNat_lt (bs : List Byte) : leNat bs < 256 ^ bs.length := by
  induction bs with
  | nil => simp [leNat]
  | cons b bs ih =>
    rw [leNat, List.length_cons, Nat.pow_succ]
    omega

/-- `ceilDiv n 8` bytes hold `n` bits. -/
theorem le_eight_mul_ceilDiv (n : Nat) : n ≤ 8 * ceilDiv n 8 := by
  unfold ceilDiv
  omega

/-- `ceilDiv n 16` units of 16 bytes hold `n` bytes, and one unit less does not. -/
theorem ceilDiv_sixteen_bounds (n : Nat) : n ≤ 16 * ceilDiv n 16 ∧ 16 * ceilDiv n 16 < n + 16 := by
  unfold ceilDiv
  omega

end Sys2Proof

namespace Sys2Proof.Machine

open Sys2Proof

/-! ## Bits and bytes (R318) -/

theorem testBit_natOfBits (l : List Bool) (i : Nat) : (natOfBits l).testBit i = l.getD i false := by
  induction l generalizing i with
  | nil => simp [natOfBits]
  | cons b l ih =>
    cases i with
    | zero => cases b <;> simp [natOfBits, Nat.testBit_zero]
    | succ i =>
      have hhalf : natOfBits (b :: l) / 2 = natOfBits l := by
        rw [natOfBits]
        split <;> omega
      rw [Nat.testBit_succ, hhalf, ih, List.getD_cons_succ]

@[simp] theorem length_bitsLow (n v : Nat) : (bitsLow n v).length = n := by simp [bitsLow]

@[simp] theorem length_bitsHigh (n v : Nat) : (bitsHigh n v).length = n := by simp [bitsHigh]

theorem natOfBits_bitsLow (n v : Nat) : natOfBits (bitsLow n v) = v % 2 ^ n := by
  apply Nat.eq_of_testBit_eq
  intro i
  rw [testBit_natOfBits, Nat.testBit_mod_two_pow]
  by_cases hi : i < n <;> simp [bitsLow, bitOf, hi]

/-- Bits above those of the list read as 0. -/
theorem bitsLow_natOfBits {l : List Bool} {n : Nat} (h : l.length ≤ n) :
    bitsLow n (natOfBits l) = l ++ List.replicate (n - l.length) false := by
  apply List.ext_getElem
  · simp
    omega
  · intro i hi hi'
    rw [List.getElem_append]
    by_cases hl : i < l.length <;> simp [bitsLow, bitOf, testBit_natOfBits, hl]

theorem bitsLow_add (m n v : Nat) : bitsLow (m + n) v = bitsLow m v ++ bitsLow n (v / 2 ^ m) := by
  simp [bitsLow, bitOf, List.range_add, Nat.testBit_div_two_pow, Nat.add_comm, Function.comp_def]

theorem bitsOfBytes_natLE (n v : Nat) : bitsOfBytes (natLE n v) = bitsLow (8 * n) v := by
  induction n generalizing v with
  | zero => rfl
  | succ n ih =>
    have hbyte : (List.range 8).map (BitVec.ofNat 8 v).getLsbD = bitsLow 8 v := by
      apply List.map_congr_left
      intro i hi
      rw [BitVec.getLsbD_ofNat, decide_eq_true (List.mem_range.mp hi), Bool.true_and, bitOf]
    calc bitsOfBytes (natLE (n + 1) v)
        = (List.range 8).map (BitVec.ofNat 8 v).getLsbD ++ bitsOfBytes (natLE n (v / 256)) := rfl
      _ = bitsLow 8 v ++ bitsLow (8 * n) (v / 2 ^ 8) := by rw [hbyte]; exact congrArg (bitsLow 8 v ++ ·) (ih (v / 2 ^ 8))
      _ = bitsLow (8 * (n + 1)) v := by rw [← bitsLow_add, Nat.mul_succ, Nat.add_comm]

@[simp] theorem length_packBits (l : List Bool) : (packBits l).length = ceilDiv l.length 8 := length_natLE _ _

/-- Packed bits are read back, and the unused bits of the last byte are 0. -/
theorem bitsOfBytes_packBits (l : List Bool) :
    bitsOfBytes (packBits l) = l ++ List.replicate (8 * ceilDiv l.length 8 - l.length) false := by
  rw [packBits, bitsOfBytes_natLE, bitsLow_natOfBits (le_eight_mul_ceilDiv _)]

/-! ## Runs of a fixed length -/

section
variable {α : Type} {n : Nat}

theorem runsOf_flatten_append {ls : List (List α)} (h : ∀ l ∈ ls, l.length = n) (rest : List α) :
    runsOf n ls.length (ls.flatten ++ rest) = ls := by
  induction ls with
  | nil => rfl
  | cons l ls ih =>
    obtain ⟨hl, hls⟩ := List.forall_mem_cons.mp h
    subst hl
    simp [runsOf, ih hls]

/-- The same for a list of values, each coded in `n` items. -/
theorem runsOf_flatMap_append {β : Type} {f : β → List α} (h : ∀ b, (f b).length = n) (bs : List β) (rest : List α) :
    runsOf n bs.length (bs.flatMap f ++ rest) = bs.map f := by
  have hruns := runsOf_flatten_append (ls := bs.map f) (n := n) (by simp [h]) rest
  rwa [List.length_map, ← List.flatMap_def] at hruns

theorem length_flatMap_of_length_eq {β : Type} {f : β → List α} (h : ∀ b, (f b).length = n) (bs : List β) :
    (bs.flatMap f).length = bs.length * n := by
  induction bs with
  | nil => rw [List.flatMap_nil, List.length_nil, List.length_nil, Nat.zero_mul]
  | cons b bs ih => rw [List.flatMap_cons, List.length_append, h, ih, List.length_cons, Nat.succ_mul, Nat.add_comm]

theorem flatten_runsOf {k : Nat} {l : List α} (h : l.length = n * k) : (runsOf n k l).flatten = l := by
  induction k generalizing l with
  | zero => simpa [runsOf] using (List.length_eq_zero_iff.mp h).symm
  | succ k ih =>
    have htail : (l.drop n).length = n * k := by
      rw [List.length_drop, h, Nat.mul_succ]
      omega
    rw [runsOf, List.flatten_cons, ih htail, List.take_append_drop]

@[simp] theorem length_runsOf (n k : Nat) (l : List α) : (runsOf n k l).length = k := by
  induction k generalizing l with
  | zero => rfl
  | succ k ih => simp [runsOf, ih]

theorem length_of_mem_runsOf {k : Nat} {l r : List α} (h : l.length = n * k) (hr : r ∈ runsOf n k l) : r.length = n := by
  induction k generalizing l with
  | zero => simp [runsOf] at hr
  | succ k ih =>
    rw [Nat.mul_succ] at h
    rcases List.mem_cons.mp hr with rfl | hr
    · rw [List.length_take]
      omega
    · exact ih (by rw [List.length_drop]; omega) hr

end

/-! ## Elements (R316) and the bitmap (R317) -/

/-- The elements of a raw block. -/
def ctfElems (cls : Nat) (raw : List Byte) : List Nat := (runsOf (ctfSize cls) (raw.length / ctfSize cls) raw).map leNat

/-- The elements that are not zero. -/
def ctfStored (cls : Nat) (raw : List Byte) : List Nat := (ctfElems cls raw).filter (· ≠ 0)

/-- The bits of the bitmap. -/
def ctfMarks (cls : Nat) (raw : List Byte) : List Bool := (ctfElems cls raw).map (fun v => decide (v ≠ 0))

theorem ctfSize_dvd (cls : Nat) : ctfSize cls ∣ 16 := by
  unfold ctfSize
  split
  · decide
  · split
    · decide
    · split <;> decide

theorem length_eq_ctfSize_mul (cls : Nat) {raw : List Byte} (h : raw.length % 16 = 0) :
    raw.length = ctfSize cls * (raw.length / ctfSize cls) :=
  (Nat.mul_div_cancel' (Nat.dvd_trans (ctfSize_dvd cls) (Nat.dvd_of_mod_eq_zero h))).symm

@[simp] theorem length_ctfElems (cls : Nat) (raw : List Byte) : (ctfElems cls raw).length = raw.length / ctfSize cls := by
  simp [ctfElems]

@[simp] theorem length_ctfMarks (cls : Nat) (raw : List Byte) : (ctfMarks cls raw).length = raw.length / ctfSize cls := by
  simp [ctfMarks]

theorem length_ctfStored_le (cls : Nat) (raw : List Byte) : (ctfStored cls raw).length ≤ raw.length / ctfSize cls :=
  length_ctfElems cls raw ▸ List.length_filter_le _ _

theorem countP_ctfMarks (cls : Nat) (raw : List Byte) : (ctfMarks cls raw).countP id = (ctfStored cls raw).length := by
  rw [ctfMarks, List.countP_map, List.countP_eq_length_filter]
  rfl

theorem zero_notMem_ctfStored (cls : Nat) (raw : List Byte) : 0 ∉ ctfStored cls raw := by simp [ctfStored]

theorem lt_of_mem_ctfStored {cls : Nat} {raw : List Byte} (h : raw.length % 16 = 0) {v : Nat} (hv : v ∈ ctfStored cls raw) :
    v < 256 ^ ctfSize cls := by
  obtain ⟨r, hr, rfl⟩ := List.mem_map.mp (List.mem_filter.mp hv).1
  have hlen := length_of_mem_runsOf (length_eq_ctfSize_mul cls h) hr
  exact hlen ▸ leNat_lt r

theorem flatMap_natLE_ctfElems (cls : Nat) {raw : List Byte} (h : raw.length % 16 = 0) :
    (ctfElems cls raw).flatMap (natLE (ctfSize cls)) = raw := by
  have hlen := length_eq_ctfSize_mul cls h
  calc (ctfElems cls raw).flatMap (natLE (ctfSize cls))
      = ((runsOf (ctfSize cls) (raw.length / ctfSize cls) raw).map (fun r => natLE (ctfSize cls) (leNat r))).flatten := by
        rw [ctfElems, List.flatMap_def, List.map_map]
        rfl
    _ = ((runsOf (ctfSize cls) (raw.length / ctfSize cls) raw).map id).flatten := by
        refine congrArg _ (List.map_congr_left fun r hr => ?_)
        rw [← length_of_mem_runsOf hlen hr, natLE_leNat, id]
    _ = raw := by rw [List.map_id, flatten_runsOf hlen]

/-- Spreading the non-zero values over their marks gives the elements back. -/
theorem spread_marks_filter (size : Nat) (els : List Nat) :
    spread size (els.map (fun v => decide (v ≠ 0))) (els.filter (· ≠ 0)) = els.flatMap (natLE size) := by
  induction els with
  | nil => rfl
  | cons v els ih =>
    by_cases hv : v = 0
    · subst hv
      simpa [spread, natLE_zero_value] using ih
    · simpa [spread, hv] using ih

theorem spread_ctfMarks_ctfStored (cls : Nat) {raw : List Byte} (h : raw.length % 16 = 0) :
    spread (ctfSize cls) (ctfMarks cls raw) (ctfStored cls raw) = raw :=
  (spread_marks_filter _ _).trans (flatMap_natLE_ctfElems cls h)

end Sys2Proof.Machine
end

section
/-!
PROOFS. The exponent stream (R319 to R321) and the sign-mantissa stream (R318), written and read back.
-/

namespace Sys2Proof.Machine

open Sys2Proof

/-! ## Codewords (R320, R321) -/

/-- The bits of a table's codeword. -/
def codeBits (k : Nat × Nat × Int) : List Bool := bitsHigh k.1 k.2.1

/-- The bits of the escape. -/
def escBits (c : Nat) : List Bool := bitsHigh (ctfEsc c).1 (ctfEsc c).2

/-- No codeword of a table, the escape among them, begins another (R321). -/
theorem ctfCodes_prefixFree (c : Nat) :
    (escBits c :: (ctfCodes c).map codeBits).Pairwise (fun a b => ¬ a <+: b ∧ ¬ b <+: a) := by
  by_cases h : c ≤ 2
  · simp only [escBits, ctfEsc, ctfCodes, h, if_true]
    decide
  · simp only [escBits, ctfEsc, ctfCodes, h, if_false]
    decide

/-- A table that codes each magnitude up to `D` with both signs codes every delta up to `D`. -/
theorem exists_code_of_signs {ks : List (Nat × Nat × Int)} {D : Nat}
    (hks : ∀ m < D + 1, (∃ k ∈ ks, k.2.2 = (m : Int)) ∧ ∃ k ∈ ks, k.2.2 = -(m : Int)) {d : Int} (h : d.natAbs ≤ D) :
    ∃ k ∈ ks, k.2.2 = d := by
  obtain ⟨hpos, hneg⟩ := hks d.natAbs (Nat.lt_succ_of_le h)
  rcases Int.natAbs_eq d with hd | hd
  · rw [hd]
    exact hpos
  · rw [hd]
    exact hneg

/-- The tables code every delta up to D. -/
theorem exists_code_of_le {c : Nat} {d : Int} (h : d.natAbs ≤ ctfD c) : ∃ k ∈ ctfCodes c, k.2.2 = d := by
  by_cases hc : c ≤ 2
  · rw [ctfD, if_pos hc] at h
    rw [ctfCodes, if_pos hc]
    exact exists_code_of_signs (by decide) h
  · rw [ctfD, if_neg hc] at h
    rw [ctfCodes, if_neg hc]
    exact exists_code_of_signs (by decide) h

/-! ## Reading one symbol -/

theorem strip_append (n v : Nat) (l : List Bool) : strip n v (bitsHigh n v ++ l) = some l := by
  rw [strip, List.take_left' (length_bitsHigh n v), List.drop_left' (length_bitsHigh n v), if_pos rfl]

/-- Where `w` stands, a word is not read of which neither `w` is the beginning nor it that of `w`. -/
theorem strip_eq_none {n v : Nat} {w : List Bool} (h : ¬ bitsHigh n v <+: w ∧ ¬ w <+: bitsHigh n v) (l : List Bool) :
    strip n v (w ++ l) = none := by
  refine if_neg fun heq => ?_
  have hpre : bitsHigh n v <+: w ++ l := heq ▸ List.take_prefix n (w ++ l)
  rcases List.prefix_or_prefix_of_prefix hpre (List.prefix_append w l) with hp | hp
  · exact h.1 hp
  · exact h.2 hp

theorem nextCode_escape (c : Nat) (l : List Bool) : nextCode c (escBits c ++ l) = some (none, l) := by
  rw [nextCode, escBits, strip_append]

/-- In a table where no word begins another, the first word that reads is the one that stands there. -/
theorem findSome?_strip {ks : List (Nat × Nat × Int)} (hfree : (ks.map codeBits).Pairwise (fun a b => ¬ a <+: b ∧ ¬ b <+: a))
    {k : Nat × Nat × Int} (hk : k ∈ ks) (l : List Bool) :
    ks.findSome? (fun x => (strip x.1 x.2.1 (codeBits k ++ l)).map (fun r => (some x.2.2, r))) = some (some k.2.2, l) := by
  induction ks with
  | nil => exact absurd hk List.not_mem_nil
  | cons j ks ih =>
    obtain ⟨hj, hfree⟩ := List.pairwise_cons.mp hfree
    rcases List.mem_cons.mp hk with rfl | hk
    · rw [List.findSome?_cons, codeBits, strip_append, Option.map_some]
    · rw [List.findSome?_cons, strip_eq_none (hj _ (List.mem_map_of_mem hk)), Option.map_none]
      exact ih hfree hk

theorem nextCode_code {c : Nat} {k : Nat × Nat × Int} (hk : k ∈ ctfCodes c) (l : List Bool) :
    nextCode c (codeBits k ++ l) = some (some k.2.2, l) := by
  obtain ⟨hesc, hfree⟩ := List.pairwise_cons.mp (ctfCodes_prefixFree c)
  rw [nextCode, strip_eq_none (hesc _ (List.mem_map_of_mem hk))]
  exact findSome?_strip hfree hk l

/-! ## The exponent stream (R319) -/

/-- What the encoder writes for exponent `x` after `e`. -/
def expBits (c e x : Nat) : List Bool :=
  match (ctfCodes c).find? (fun k => k.2.2 == (x : Int) - (e : Int)) with
  | some k => codeBits k
  | none => escBits c ++ bitsHigh (ctfEw c) x

theorem encodeExps_cons (c e x : Nat) (xs : List Nat) : encodeExps c e (x :: xs) = expBits c e x ++ encodeExps c x xs := rfl

/-- A delta that leads to an exponent in range is followed. -/
theorem nextExp_code {c e x : Nat} (hx : x < 2 ^ ctfEw c) {k : Nat × Nat × Int} (hk : k ∈ ctfCodes c)
    (hd : k.2.2 = (x : Int) - (e : Int)) (l : List Bool) : nextExp c e (codeBits k ++ l) = some (x, l) := by
  have hto : (e : Int) + k.2.2 = x := by omega
  have hrange : ¬ ((x : Int) < 0 ∨ (x : Int) > ((2 ^ ctfEw c - 1 : Nat) : Int)) := by omega
  simp only [nextExp, nextCode_code hk, hto, if_neg hrange, Int.toNat_natCast]

/-- A literal farther away than D is read back. -/
theorem nextExp_escape {c e x : Nat} (hx : x < 2 ^ ctfEw c) (hfar : ctfD c < ((x : Int) - (e : Int)).natAbs) (l : List Bool) :
    nextExp c e (escBits c ++ (bitsHigh (ctfEw c) x ++ l)) = some (x, l) := by
  have hlen : ¬ (bitsHigh (ctfEw c) x ++ l).length < ctfEw c := by simp
  have hlit : natOfBits (((bitsHigh (ctfEw c) x ++ l).take (ctfEw c)).reverse) = x := by
    rw [List.take_left' (length_bitsHigh _ _), bitsHigh, List.reverse_reverse, natOfBits_bitsLow, Nat.mod_eq_of_lt hx]
  simp only [nextExp, nextCode_escape, if_neg hlen, hlit, if_neg (Nat.not_le.mpr hfar), List.drop_left' (length_bitsHigh _ _)]

theorem nextExp_expBits {c e x : Nat} (hx : x < 2 ^ ctfEw c) (l : List Bool) : nextExp c e (expBits c e x ++ l) = some (x, l) := by
  unfold expBits
  cases hfind : (ctfCodes c).find? (fun k => k.2.2 == (x : Int) - (e : Int)) with
  | some k =>
    have hd : k.2.2 = (x : Int) - (e : Int) := by simpa using List.find?_some hfind
    exact nextExp_code hx (List.mem_of_find?_eq_some hfind) hd l
  | none =>
    have hfar : ctfD c < ((x : Int) - (e : Int)).natAbs := by
      refine Nat.lt_of_not_le fun hnear => ?_
      obtain ⟨k, hk, hd⟩ := exists_code_of_le hnear
      exact List.find?_eq_none.mp hfind k hk (beq_iff_eq.mpr hd)
    rw [List.append_assoc]
    exact nextExp_escape hx hfar l

theorem decodeExps_encodeExps {c : Nat} {xs : List Nat} (hxs : ∀ x ∈ xs, x < 2 ^ ctfEw c) (e : Nat) :
    decodeExps c xs.length e (encodeExps c e xs) = some xs := by
  induction xs generalizing e with
  | nil => rfl
  | cons x xs ih =>
    obtain ⟨hx, hxs⟩ := List.forall_mem_cons.mp hxs
    simp only [List.length_cons, decodeExps, encodeExps_cons, nextExp_expBits hx, ih hxs, Option.map_some]

/-! ## Sign and mantissa (R318) -/

/-- The field of an element in the sign-mantissa stream. -/
def ctfSm (cls v : Nat) : Nat := (if bitOf v (ctfEw cls + ctfMw cls) then 2 ^ ctfMw cls else 0) + v % 2 ^ ctfMw cls

/-- The exponent field of an element. -/
def ctfX (cls v : Nat) : Nat := bitsOf v (ctfMw cls) (ctfEw cls)

/-- The sign-mantissa stream of a ZMAP-EXP block. -/
def smStream (cls : Nat) (vs : List Nat) : List Bool := vs.flatMap (fun v => bitsLow (1 + ctfMw cls) (ctfSm cls v))

/-- Its exponent stream. -/
def expStream (cls : Nat) (vs : List Nat) : List Bool := encodeExps cls (ctfE0 cls) (vs.map (ctfX cls))

@[simp] theorem length_smStream (cls : Nat) (vs : List Nat) : (smStream cls vs).length = vs.length * (1 + ctfMw cls) :=
  length_flatMap_of_length_eq (fun _ => length_bitsLow _ _) vs

/-- Sign, exponent and mantissa fill an element. -/
theorem pow_ctfSize_eq {cls : Nat} (h : ctfExp cls = true) : 256 ^ ctfSize cls = 2 ^ (1 + ctfEw cls + ctfMw cls) := by
  have hcls : 1 ≤ cls ∧ cls ≤ 4 := by simpa [ctfExp] using h
  have hcases : cls = 1 ∨ cls = 2 ∨ cls = 3 ∨ cls = 4 := by omega
  rcases hcases with rfl | rfl | rfl | rfl <;> rfl

theorem ctfX_lt (cls v : Nat) : ctfX cls v < 2 ^ ctfEw cls := Nat.mod_lt _ (Nat.two_pow_pos _)

theorem ctfSm_lt (cls v : Nat) : ctfSm cls v < 2 ^ (1 + ctfMw cls) := by
  have hman : v % 2 ^ ctfMw cls < 2 ^ ctfMw cls := Nat.mod_lt _ (Nat.two_pow_pos _)
  rw [ctfSm, Nat.pow_add, Nat.pow_one]
  split <;> omega

/-- The sign is the highest bit of an element. -/
theorem ctfSm_eq {cls v : Nat} (hexp : ctfExp cls = true) (hv : v < 256 ^ ctfSize cls) :
    ctfSm cls v = 2 ^ ctfMw cls * (v / 2 ^ (ctfEw cls + ctfMw cls)) + v % 2 ^ ctfMw cls := by
  have hsign : v / 2 ^ (ctfEw cls + ctfMw cls) < 2 := by
    rw [pow_ctfSize_eq hexp, Nat.add_assoc, Nat.pow_add, Nat.mul_comm] at hv
    exact Nat.div_lt_of_lt_mul hv
  rw [ctfSm, bitOf, Nat.testBit_eq_decide_div_mod_eq, Nat.mod_eq_of_lt hsign]
  generalize v / 2 ^ (ctfEw cls + ctfMw cls) = sign at hsign
  have hbit : sign = 0 ∨ sign = 1 := by omega
  rcases hbit with rfl | rfl
  · rw [if_neg (by decide), Nat.mul_zero]
  · rw [if_pos (by decide), Nat.mul_one]

/-- The element that the decoder puts together from its field of the sign-mantissa stream and its exponent (R322). -/
def ctfJoin (cls sm x : Nat) : Nat :=
  sm / 2 ^ ctfMw cls * 2 ^ (ctfEw cls + ctfMw cls) + x * 2 ^ ctfMw cls + sm % 2 ^ ctfMw cls

theorem ctfJoin_ctfSm_ctfX {cls v : Nat} (hexp : ctfExp cls = true) (hv : v < 256 ^ ctfSize cls) :
    ctfJoin cls (ctfSm cls v) (ctfX cls v) = v := by
  have hm : 0 < 2 ^ ctfMw cls := Nat.two_pow_pos _
  have hexpo : 2 ^ ctfEw cls * (v / 2 ^ (ctfEw cls + ctfMw cls)) + ctfX cls v = v / 2 ^ ctfMw cls := by
    rw [Nat.add_comm (ctfEw cls), Nat.pow_add, ← Nat.div_div_eq_div_mul, ctfX, bitsOf, Nat.div_add_mod]
  have hdiv : ctfSm cls v / 2 ^ ctfMw cls = v / 2 ^ (ctfEw cls + ctfMw cls) := by
    rw [ctfSm_eq hexp hv, Nat.mul_add_div hm, Nat.div_eq_of_lt (Nat.mod_lt _ hm), Nat.add_zero]
  have hmod : ctfSm cls v % 2 ^ ctfMw cls = v % 2 ^ ctfMw cls := by
    rw [ctfSm_eq hexp hv, Nat.mul_add_mod, Nat.mod_mod]
  calc ctfJoin cls (ctfSm cls v) (ctfX cls v)
      = 2 ^ ctfMw cls * (2 ^ ctfEw cls * (v / 2 ^ (ctfEw cls + ctfMw cls)) + ctfX cls v) + v % 2 ^ ctfMw cls := by
        rw [ctfJoin, hdiv, hmod, Nat.mul_add, ← Nat.mul_assoc, ← Nat.pow_add, Nat.add_comm (ctfMw cls), Nat.mul_comm (2 ^ _),
          Nat.mul_comm (2 ^ _)]
    _ = v := by rw [hexpo, Nat.div_add_mod]

/-- The fields of the sign-mantissa stream are read back, whatever follows. -/
theorem runsOf_smStream (cls : Nat) (vs : List Nat) (rest : List Bool) :
    (runsOf (1 + ctfMw cls) vs.length (smStream cls vs ++ rest)).map natOfBits = vs.map (ctfSm cls) := by
  rw [smStream, runsOf_flatMap_append (fun _ => length_bitsLow _ _), List.map_map]
  refine List.map_congr_left fun v _ => ?_
  rw [Function.comp_apply, natOfBits_bitsLow, Nat.mod_eq_of_lt (ctfSm_lt cls v)]

theorem decodeExps_expStream (cls : Nat) (vs : List Nat) :
    decodeExps cls vs.length (ctfE0 cls) (expStream cls vs) = some (vs.map (ctfX cls)) := by
  have hx : ∀ x ∈ vs.map (ctfX cls), x < 2 ^ ctfEw cls := by simp [ctfX_lt]
  have hdec := decodeExps_encodeExps hx (ctfE0 cls)
  rwa [List.length_map] at hdec

/-- The two streams together give the elements back. -/
theorem zip_streams_join {cls : Nat} (hexp : ctfExp cls = true) {vs : List Nat} (hvs : ∀ v ∈ vs, v < 256 ^ ctfSize cls) :
    ((vs.map (ctfX cls)).zip (vs.map (ctfSm cls))).map (fun p => ctfJoin cls p.2 p.1) = vs := by
  rw [List.zip_map', List.map_map]
  exact (List.map_congr_left fun v hv => ctfJoin_ctfSm_ctfX hexp (hvs v hv)).trans (List.map_id vs)

end Sys2Proof.Machine
end

section
/-!
PROOFS. The block of each mode (R315, R317), read back by the decoder (R322, R323), and the choice of the mode (R325).
-/

namespace Sys2Proof.Machine

open Sys2Proof

/-! ## The block and its header (R315) -/

/-- The check value of a block (R324). -/
def ctfCrc (raw : List Byte) : Nat := (crc32With 0x82F63B78#32 raw).toNat

/-- The header the encoder writes. -/
def headOf (mode cls : Nat) (raw body : List Byte) : CtfHead :=
  { mode := mode, cls := cls, spare := 0, rawlen := raw.length / 16 - 1, clen := ceilDiv (8 + body.length) 16, crc := ctfCrc raw }

section
variable (mode cls : Nat) (raw body : List Byte)

@[simp] theorem headOf_mode : (headOf mode cls raw body).mode = mode := rfl
@[simp] theorem headOf_cls : (headOf mode cls raw body).cls = cls := rfl
@[simp] theorem headOf_rawlen : (headOf mode cls raw body).rawlen = raw.length / 16 - 1 := rfl
@[simp] theorem headOf_clen : (headOf mode cls raw body).clen = ceilDiv (8 + body.length) 16 := rfl
@[simp] theorem headOf_crc : (headOf mode cls raw body).crc = (crc32With 0x82F63B78#32 raw).toNat := rfl

end

/-- The zero bytes behind a body. -/
def ctfPadding (body : List Byte) : List Byte := List.replicate (16 * ceilDiv (8 + body.length) 16 - (8 + body.length)) 0#8

theorem ctfBlock_eq (mode cls : Nat) (raw body : List Byte) : ctfBlock mode cls raw body =
    natLE 1 (mode + 4 * cls) ++ (natLE 1 (raw.length / 16 - 1) ++ (natLE 2 (ceilDiv (8 + body.length) 16) ++
      (natLE 4 (ctfCrc raw) ++ (body ++ ctfPadding body)))) := by
  simp [ctfBlock, pad16, ctfPadding, ctfCrc, ← Nat.add_assoc]

theorem length_ctfBlock (mode cls : Nat) (raw body : List Byte) :
    (ctfBlock mode cls raw body).length = 16 * ceilDiv (8 + body.length) 16 := by
  have hle := (ceilDiv_sixteen_bounds (8 + body.length)).1
  simp only [ctfBlock_eq, ctfPadding, List.length_append, length_natLE, List.length_replicate]
  omega

/-- Behind the header stand the body and the padding. -/
theorem drop_ctfBlock {n : Nat} (hn : 8 ≤ n) (mode cls : Nat) (raw body : List Byte) :
    (ctfBlock mode cls raw body).drop n = (body ++ ctfPadding body).drop (n - 8) := by
  rw [ctfBlock_eq, drop_natLE_append (by omega), drop_natLE_append (by omega), drop_natLE_append (by omega),
    drop_natLE_append (by omega)]
  rfl

theorem fieldLE_ctfBlock {lo : Nat} (hlo : 8 ≤ lo) (n mode cls : Nat) (raw body : List Byte) :
    fieldLE (ctfBlock mode cls raw body) lo n = fieldLE (body ++ ctfPadding body) (lo - 8) n := by
  rw [fieldLE, drop_ctfBlock hlo, fieldLE]

theorem zeroAt_of_drop_eq_replicate {bs : List Byte} {lo k : Nat} (h : bs.drop lo = List.replicate k 0#8) (n : Nat) :
    zeroAt bs lo n = true := by
  simp [zeroAt, h, List.take_replicate]

/-- The padding is zero. -/
theorem zeroAt_ctfBlock_padding (mode cls : Nat) (raw body : List Byte) (n : Nat) :
    zeroAt (ctfBlock mode cls raw body) (8 + body.length) n = true :=
  zeroAt_of_drop_eq_replicate (by rw [drop_ctfBlock (by omega), Nat.add_sub_cancel_left, List.drop_left, ctfPadding]) n

/-- A raw block that the format takes, in a class that it has. -/
structure RawOk (cls : Nat) (raw : List Byte) : Prop where
  cls_lt : cls < 8
  whole : raw.length % 16 = 0
  least : 16 ≤ raw.length
  most : raw.length ≤ 4096

section
variable {mode cls : Nat} {raw body : List Byte}

/-- The header of a block that is not longer than the RAW block is read back. -/
theorem ctfHead_ctfBlock (hraw : RawOk cls raw) (hmode : mode ≤ 2) (hfit : body.length ≤ raw.length + 8) :
    ctfHead (ctfBlock mode cls raw body) = headOf mode cls raw body := by
  obtain ⟨hcls, hwhole, hleast, hmost⟩ := hraw
  have hfirst : mode + 4 * cls < 256 := by omega
  have hrawlen : raw.length / 16 - 1 < 256 := by omega
  have hclen : ceilDiv (8 + body.length) 16 < 256 ^ 2 := by
    have := (ceilDiv_sixteen_bounds (8 + body.length)).2
    omega
  have hcrc : ctfCrc raw < 256 ^ 4 := BitVec.isLt _
  have hm : (mode + 4 * cls) % 4 = mode := by omega
  have hc : (mode + 4 * cls) / 4 % 16 = cls := by omega
  have hs : (mode + 4 * cls) / 64 = 0 := by omega
  simp only [ctfHead, headOf, ctfBlock_eq, byteAt_natLE_behind, fieldLE_natLE_behind, Nat.le_refl, Nat.reduceLeDiff,
    Nat.reduceSub, byteAt_natLE_first hfirst, byteAt_natLE_first hrawlen, fieldLE_natLE_first hclen, fieldLE_natLE_first hcrc, hm, hc, hs]

theorem rawBytes_headOf (hraw : RawOk cls raw) : (headOf mode cls raw body).rawBytes = raw.length := by
  obtain ⟨-, hwhole, hleast, -⟩ := hraw
  rw [CtfHead.rawBytes, headOf_rawlen]
  omega

theorem elems_headOf (hraw : RawOk cls raw) : (headOf mode cls raw body).elems = raw.length / ctfSize cls := by
  rw [CtfHead.elems, rawBytes_headOf hraw]
  rfl

theorem headOf_sound (hraw : RawOk cls raw) (hmode : mode ≤ 2) (hfit : body.length ≤ raw.length + 8)
    (hexp : mode = 2 → ctfExp cls = true) : (headOf mode cls raw body).sound = true := by
  obtain ⟨hcls, hwhole, hleast, -⟩ := hraw
  obtain ⟨hlo, hhi⟩ := ceilDiv_sixteen_bounds (8 + body.length)
  have hpos : 1 ≤ ceilDiv (8 + body.length) 16 := by omega
  have hmost : ceilDiv (8 + body.length) 16 ≤ raw.length / 16 - 1 + 2 := by omega
  have hthree : mode ≠ 3 := by omega
  have htwo : mode ≠ 2 ∨ ctfExp cls = true := by
    by_cases h : mode = 2
    · exact Or.inr (hexp h)
    · exact Or.inl h
  simpa [CtfHead.sound, headOf, hthree, hcls, hpos, hmost] using htwo

/-- The Position check passes. -/
theorem position_ok {last : Bool} (hlast : raw.length = 4096 ∨ last = true) :
    ¬ (raw.length / 16 - 1 ≠ 255 ∧ (!last) = true) := by
  rintro ⟨hshort, hnot⟩
  rcases hlast with h | h
  · omega
  · simp [h] at hnot

end

/-! ## RAW (R317) -/

section
variable {cls : Nat} {raw : List Byte} {last : Bool}

/-- The body of a RAW block. -/
def rawBody (raw : List Byte) : List Byte := raw ++ List.replicate 8 0#8

theorem length_rawBody (raw : List Byte) : (rawBody raw).length = raw.length + 8 := by simp [rawBody]

theorem decodeBlock_rawBody (hraw : RawOk cls raw) (hlast : raw.length = 4096 ∨ last = true) :
    decodeBlock (ctfBlock 0 cls raw (rawBody raw)) last = some raw := by
  have hclen : ceilDiv (8 + (rawBody raw).length) 16 = raw.length / 16 - 1 + 2 := by
    obtain ⟨-, hwhole, hleast, -⟩ := hraw
    rw [length_rawBody, ceilDiv]
    omega
  have hzero : zeroAt (ctfBlock 0 cls raw (rawBody raw)) (8 + raw.length) 8 = true := by
    refine zeroAt_of_drop_eq_replicate (k := 8 + (ctfPadding (rawBody raw)).length) ?_ 8
    rw [drop_ctfBlock (by omega), Nat.add_sub_cancel_left, rawBody, List.append_assoc, List.drop_left]
    rw [ctfPadding, List.length_replicate, List.replicate_append_replicate]
  have hdata : ((ctfBlock 0 cls raw (rawBody raw)).drop 8).take raw.length = raw := by
    rw [drop_ctfBlock (by omega), Nat.sub_self, List.drop_zero, rawBody, List.append_assoc, List.take_left]
  simp only [decodeBlock, ctfHead_ctfBlock hraw (Nat.zero_le 2) (Nat.le_of_eq (length_rawBody raw)), rawBytes_headOf hraw, headOf_mode,
    headOf_rawlen, headOf_clen, headOf_crc, if_neg (position_ok hlast), hclen, hzero, hdata]
  simp

end

/-! ## The bitmap and the counts of ZMAP and ZMAP-EXP (R317) -/

/-- A body with a bitmap: NZ, the next two bytes (0 or ELEN), the bitmap, and what the mode stores. -/
def mapBody (cls : Nat) (raw : List Byte) (y : Nat) (content : List Byte) : List Byte :=
  natLE 2 (ctfStored cls raw).length ++ (natLE 2 y ++ (packBits (ctfMarks cls raw) ++ content))

/-- Where the bitmap ends. -/
def mapEnd (cls : Nat) (raw : List Byte) : Nat := 12 + ceilDiv (raw.length / ctfSize cls) 8

theorem length_mapBody (cls : Nat) (raw : List Byte) (y : Nat) (content : List Byte) :
    8 + (mapBody cls raw y content).length = mapEnd cls raw + content.length := by
  simp only [mapBody, mapEnd, List.length_append, length_natLE, length_packBits, length_ctfMarks]
  omega

section
variable {mode cls : Nat} {raw content : List Byte} {y : Nat} {last : Bool}

theorem fieldLE_mapBody_nz (hraw : RawOk cls raw) :
    fieldLE (ctfBlock mode cls raw (mapBody cls raw y content)) 8 2 = (ctfStored cls raw).length := by
  have hnz : (ctfStored cls raw).length < 256 ^ 2 :=
    calc (ctfStored cls raw).length ≤ raw.length / ctfSize cls := length_ctfStored_le cls raw
      _ ≤ raw.length := Nat.div_le_self _ _
      _ < 256 ^ 2 := by have := hraw.most; omega
  rw [fieldLE_ctfBlock (by omega), mapBody, List.append_assoc]
  exact fieldLE_natLE_first hnz _

theorem fieldLE_mapBody_second (hy : y < 256 ^ 2) :
    fieldLE (ctfBlock mode cls raw (mapBody cls raw y content)) 10 2 = y := by
  rw [fieldLE_ctfBlock (by omega), mapBody, List.append_assoc, fieldLE_natLE_behind (by omega), List.append_assoc]
  exact fieldLE_natLE_first hy _

theorem zeroAt_mapBody : zeroAt (ctfBlock mode cls raw (mapBody cls raw 0 content)) 10 2 = true := by
  rw [zeroAt, drop_ctfBlock (by omega), mapBody, List.append_assoc, drop_natLE_append (by omega)]
  simp [natLE]

theorem drop_mapBody_map : (ctfBlock mode cls raw (mapBody cls raw y content)).drop 12 =
    packBits (ctfMarks cls raw) ++ (content ++ ctfPadding (mapBody cls raw y content)) := by
  rw [drop_ctfBlock (by omega)]
  generalize ctfPadding (mapBody cls raw y content) = padding
  rw [mapBody]
  simp only [List.append_assoc, drop_natLE_append, Nat.reduceSub, Nat.reduceLeDiff, Nat.le_refl, List.drop_zero]

theorem drop_mapBody_content : (ctfBlock mode cls raw (mapBody cls raw y content)).drop (mapEnd cls raw) =
    content ++ ctfPadding (mapBody cls raw y content) := by
  rw [mapEnd, ← List.drop_drop, drop_mapBody_map]
  exact List.drop_left' (by simp)

theorem take_mapBody_map :
    ((ctfBlock mode cls raw (mapBody cls raw y content)).drop 12).take (ceilDiv (raw.length / ctfSize cls) 8) =
      packBits (ctfMarks cls raw) := by
  rw [drop_mapBody_map]
  exact List.take_left' (by simp)

/-- The bits of the bitmap are the marks, and those behind them are 0. -/
theorem bits_map : (bitsOfBytes (packBits (ctfMarks cls raw))).take (raw.length / ctfSize cls) = ctfMarks cls raw ∧
    ((bitsOfBytes (packBits (ctfMarks cls raw))).drop (raw.length / ctfSize cls)).any id = false := by
  rw [bitsOfBytes_packBits, List.take_left' (length_ctfMarks cls raw), List.drop_left' (length_ctfMarks cls raw)]
  simp

/-- Where the stored values are read back with their length, every other check of R323 passes and the block gives its raw bytes. -/
theorem decodeBlock_mapBody (hraw : RawOk cls raw) (hmode : mode = 1 ∧ y = 0 ∨ mode = 2)
    (hfit : (mapBody cls raw y content).length ≤ raw.length + 8) (hlast : raw.length = 4096 ∨ last = true)
    (hvals : ctfValues (headOf mode cls raw (mapBody cls raw y content)) (ctfBlock mode cls raw (mapBody cls raw y content))
      (ctfStored cls raw).length = some (ctfStored cls raw, mapEnd cls raw + content.length)) :
    decodeBlock (ctfBlock mode cls raw (mapBody cls raw y content)) last = some raw := by
  have htwo : mode ≤ 2 := by omega
  have hzero : mode ≠ 0 := by omega
  have hsecond : ¬ (mode = 1 ∧ (!zeroAt (ctfBlock mode cls raw (mapBody cls raw y content)) 10 2) = true) := by
    rintro ⟨hone, hbad⟩
    obtain ⟨-, rfl⟩ | h := hmode
    · simp [zeroAt_mapBody] at hbad
    · omega
  have hpad : ∀ n, zeroAt (ctfBlock mode cls raw (mapBody cls raw y content)) (mapEnd cls raw + content.length) n = true :=
    fun n => length_mapBody cls raw y content ▸ zeroAt_ctfBlock_padding mode cls raw _ n
  obtain ⟨hmarks, hclear⟩ := bits_map (cls := cls) (raw := raw)
  simp only [decodeBlock, ctfHead_ctfBlock hraw htwo hfit, elems_headOf hraw, headOf_mode, headOf_cls, headOf_rawlen, headOf_clen,
    headOf_crc, if_neg (position_ok hlast), if_neg hzero, fieldLE_mapBody_nz hraw, take_mapBody_map, hmarks, hclear, countP_ctfMarks,
    hvals, length_mapBody, hpad, spread_ctfMarks_ctfStored cls hraw.whole, hsecond]
  simp [Nat.not_lt.mpr (length_ctfStored_le cls raw), zero_notMem_ctfStored]

end

/-! ## What ZMAP and ZMAP-EXP store (R317, R318) -/

section
variable {h : CtfHead} {bs padding : List Byte} {vs : List Nat}

theorem ctfValues_zmap (hmode : h.mode = 1) (hvs : ∀ v ∈ vs, v < 256 ^ ctfSize h.cls)
    (hdrop : bs.drop (12 + ceilDiv h.elems 8) = vs.flatMap (natLE (ctfSize h.cls)) ++ padding) :
    ctfValues h bs vs.length = some (vs, 12 + ceilDiv h.elems 8 + (vs.flatMap (natLE (ctfSize h.cls))).length) := by
  have hvals : (vs.map (natLE (ctfSize h.cls))).map leNat = vs := by
    rw [List.map_map]
    refine (List.map_congr_left fun v hv => ?_).trans (List.map_id vs)
    rw [Function.comp_apply, leNat_natLE, Nat.mod_eq_of_lt (hvs v hv), id]
  rw [ctfValues, if_pos hmode, hdrop, runsOf_flatMap_append (fun _ => length_natLE _ _), hvals,
    length_flatMap_of_length_eq fun _ => length_natLE _ _]

theorem ctfValues_zmapExp (hmode : h.mode = 2) (hexp : ctfExp h.cls = true) (hvs : ∀ v ∈ vs, v < 256 ^ ctfSize h.cls)
    (hlen : fieldLE bs 10 2 = (expStream h.cls vs).length)
    (hdrop : bs.drop (12 + ceilDiv h.elems 8) = packBits (smStream h.cls vs) ++ (packBits (expStream h.cls vs) ++ padding)) :
    ctfValues h bs vs.length =
      some (vs, 12 + ceilDiv h.elems 8 + (packBits (smStream h.cls vs) ++ packBits (expStream h.cls vs)).length) := by
  have hone : ¬ h.mode = 1 := by omega
  have hsm : (bs.drop (12 + ceilDiv h.elems 8)).take (ceilDiv (vs.length * (1 + ctfMw h.cls)) 8) = packBits (smStream h.cls vs) := by
    rw [hdrop]
    exact List.take_left' (by simp)
  have hes : (bs.drop (12 + ceilDiv h.elems 8 + ceilDiv (vs.length * (1 + ctfMw h.cls)) 8)).take
      (ceilDiv (expStream h.cls vs).length 8) = packBits (expStream h.cls vs) := by
    rw [← List.drop_drop, hdrop, List.drop_left' (by simp)]
    exact List.take_left' (by simp)
  simp only [ctfValues, if_neg hone, hlen, hsm, hes, bitsOfBytes_packBits, runsOf_smStream, List.take_left, List.drop_left,
    List.drop_left' (length_smStream h.cls vs), decodeExps_expStream]
  rw [if_neg (by simp), List.length_append, ← Nat.add_assoc, length_packBits, length_packBits, length_smStream]
  exact congrArg (fun ws => some (ws, _)) (zip_streams_join hexp hvs)

end

/-! ## The modes and the shortest of them (R325) -/

/-- The body of a ZMAP block. -/
def zmapBody (cls : Nat) (raw : List Byte) : List Byte := mapBody cls raw 0 ((ctfStored cls raw).flatMap (natLE (ctfSize cls)))

/-- The body of a ZMAP-EXP block. -/
def zmapExpBody (cls : Nat) (raw : List Byte) : List Byte :=
  mapBody cls raw (expStream cls (ctfStored cls raw)).length
    (packBits (smStream cls (ctfStored cls raw)) ++ packBits (expStream cls (ctfStored cls raw)))

theorem ctfModes_eq (cls : Nat) (raw : List Byte) : ctfModes cls raw =
    [ctfBlock 0 cls raw (rawBody raw), ctfBlock 1 cls raw (zmapBody cls raw)] ++
      (if ctfExp cls then [ctfBlock 2 cls raw (zmapExpBody cls raw)] else []) := by
  simp only [zmapBody, zmapExpBody, mapBody, ← List.append_assoc]
  rfl

theorem shortest_cons_cons (b c : List Byte) (l : List (List Byte)) : shortest (b :: c :: l) =
    if b.length ≤ (shortest (c :: l)).length then b else shortest (c :: l) := rfl

theorem shortest_mem {l : List (List Byte)} (h : l ≠ []) : shortest l ∈ l := by
  induction l with
  | nil => exact absurd rfl h
  | cons b l ih =>
    cases l with
    | nil => exact List.mem_singleton_self b
    | cons c l =>
      rw [shortest_cons_cons]
      split
      · exact List.mem_cons_self
      · exact List.mem_cons_of_mem _ (ih (List.cons_ne_nil c l))

theorem length_shortest_le {l : List (List Byte)} {b : List Byte} (hb : b ∈ l) : (shortest l).length ≤ b.length := by
  induction l with
  | nil => exact absurd hb List.not_mem_nil
  | cons a l ih =>
    cases l with
    | nil => exact Nat.le_of_eq (congrArg List.length (List.mem_singleton.mp hb).symm)
    | cons c l =>
      rw [shortest_cons_cons]
      rcases List.mem_cons.mp hb with rfl | hb
      · split <;> omega
      · have hrest := ih hb
        split <;> omega

section
variable {cls : Nat} {raw : List Byte} {last : Bool}

theorem decodeBlock_zmapBody (hraw : RawOk cls raw) (hfit : (zmapBody cls raw).length ≤ raw.length + 8)
    (hlast : raw.length = 4096 ∨ last = true) : decodeBlock (ctfBlock 1 cls raw (zmapBody cls raw)) last = some raw := by
  refine decodeBlock_mapBody hraw (Or.inl ⟨rfl, rfl⟩) hfit hlast ?_
  rw [mapEnd, ← elems_headOf (mode := 1) (body := zmapBody cls raw) hraw]
  refine ctfValues_zmap rfl (fun v => lt_of_mem_ctfStored hraw.whole) (padding := ctfPadding (zmapBody cls raw)) ?_
  rw [elems_headOf hraw]
  exact drop_mapBody_content

/-- A block no longer than the RAW one has an exponent stream whose length ELEN can hold. -/
theorem length_expStream_lt (hraw : RawOk cls raw) (hfit : (zmapExpBody cls raw).length ≤ raw.length + 8) :
    (expStream cls (ctfStored cls raw)).length < 256 ^ 2 := by
  have hes := le_eight_mul_ceilDiv (expStream cls (ctfStored cls raw)).length
  have hbody := length_mapBody cls raw (expStream cls (ctfStored cls raw)).length
    (packBits (smStream cls (ctfStored cls raw)) ++ packBits (expStream cls (ctfStored cls raw)))
  rw [List.length_append, length_packBits (expStream _ _), mapEnd] at hbody
  rw [zmapExpBody] at hfit
  have hmost := hraw.most
  omega

theorem decodeBlock_zmapExpBody (hraw : RawOk cls raw) (hexp : ctfExp cls = true)
    (hfit : (zmapExpBody cls raw).length ≤ raw.length + 8) (hlast : raw.length = 4096 ∨ last = true) :
    decodeBlock (ctfBlock 2 cls raw (zmapExpBody cls raw)) last = some raw := by
  refine decodeBlock_mapBody hraw (Or.inr rfl) hfit hlast ?_
  rw [mapEnd, ← elems_headOf (mode := 2) (body := zmapExpBody cls raw) hraw]
  refine ctfValues_zmapExp rfl hexp (fun v => lt_of_mem_ctfStored hraw.whole) (padding := ctfPadding (zmapExpBody cls raw))
    (fieldLE_mapBody_second (length_expStream_lt hraw hfit)) ?_
  rw [elems_headOf hraw, ← List.append_assoc]
  exact drop_mapBody_content

/-! ## The obligation -/

/-- What the statement says of the block written for raw bytes. -/
def RoundTrip (raw : List Byte) (last : Bool) (b : List Byte) : Prop :=
  decodeBlock b last = some raw ∧ (ctfHead b).sound = true ∧ (ctfHead b).rawBytes = raw.length ∧
    b.length = 16 * (ctfHead b).clen ∧ b.length ≤ raw.length + 16

/-- A block of any mode that is no longer than the RAW one makes the round trip, if its body does. -/
theorem roundTrip_ctfBlock {mode : Nat} {body : List Byte} (hraw : RawOk cls raw) (hmode : mode ≤ 2)
    (hexp : mode = 2 → ctfExp cls = true) (hlen : (ctfBlock mode cls raw body).length ≤ raw.length + 16)
    (hdec : body.length ≤ raw.length + 8 → decodeBlock (ctfBlock mode cls raw body) last = some raw) :
    RoundTrip raw last (ctfBlock mode cls raw body) := by
  have hfit : body.length ≤ raw.length + 8 := by
    have hle := (ceilDiv_sixteen_bounds (8 + body.length)).1
    rw [length_ctfBlock] at hlen
    omega
  have hhead := ctfHead_ctfBlock hraw hmode hfit
  exact ⟨hdec hfit, hhead ▸ headOf_sound hraw hmode hfit hexp, hhead ▸ rawBytes_headOf hraw,
    hhead ▸ length_ctfBlock mode cls raw body, hlen⟩

theorem roundTrip_of_mem_ctfModes (hraw : RawOk cls raw) (hlast : raw.length = 4096 ∨ last = true) {b : List Byte}
    (hb : b ∈ ctfModes cls raw) (hlen : b.length ≤ raw.length + 16) : RoundTrip raw last b := by
  rw [ctfModes_eq] at hb
  rcases List.mem_append.mp hb with hb | hb
  · rcases List.mem_cons.mp hb with rfl | hb
    · exact roundTrip_ctfBlock hraw (by omega) (by omega) hlen fun _ => decodeBlock_rawBody hraw hlast
    · obtain rfl := List.mem_singleton.mp hb
      exact roundTrip_ctfBlock hraw (by omega) (by omega) hlen fun hfit => decodeBlock_zmapBody hraw hfit hlast
  · split at hb
    · next hexp =>
      obtain rfl := List.mem_singleton.mp hb
      exact roundTrip_ctfBlock hraw (Nat.le_refl 2) (fun _ => hexp) hlen fun hfit => decodeBlock_zmapExpBody hraw hexp hfit hlast
    · exact absurd hb List.not_mem_nil

/-- The block written is no longer than the RAW one. -/
theorem length_encodeBlock_le (hraw : RawOk cls raw) : (encodeBlock cls raw).length ≤ raw.length + 16 := by
  have hmem : ctfBlock 0 cls raw (rawBody raw) ∈ ctfModes cls raw := by simp [ctfModes_eq]
  have hle := length_shortest_le hmem
  have hwhole := hraw.whole
  rw [length_ctfBlock, length_rawBody, ceilDiv] at hle
  rw [encodeBlock]
  omega

end

/-- Settles O43: the shortest block is one of the three modes and no longer than RAW, and each such block is read back. -/
theorem compressionRoundTrip : Obligations.CompressionRoundTrip := by
  intro cls raw last hcls hwhole hleast hmost hlast
  have hraw : RawOk cls raw := ⟨hcls, hwhole, hleast, hmost⟩
  have hmem : encodeBlock cls raw ∈ ctfModes cls raw := shortest_mem (by simp [ctfModes_eq])
  exact roundTrip_of_mem_ctfModes hraw hlast hmem (length_encodeBlock_le hraw)

end Sys2Proof.Machine
end

section
/-!
PROOFS. The Grain's streams, draws and commands (R276, R334 to R348).
-/

namespace Sys2Proof

/-- Bytes counted from a place in a list. -/
theorem fieldLE_drop (bs : List Byte) (base lo n : Nat) : fieldLE (bs.drop base) lo n = fieldLE bs (base + lo) n := by
  rw [fieldLE, List.drop_drop, fieldLE]

end Sys2Proof

namespace Sys2Proof.Machine

open Sys2Proof

/-! ## An engine at work (R270) -/

/-- A command its unit may work on is worked on, from the device as it is and nothing moved. -/
theorem State.runEngine_ready {s : State} {p id cls op : Nat} {c : Cmd} (h : s.engineCmd p id cls op = some c)
    (f : Line → Eng → State) : s.runEngine p id cls op f = f c.image { s := s, p := p } := by
  simp only [State.runEngine, h]

theorem Eng.read_ok {e : Eng} {acc : Access} {a n : Nat} {b : List Byte} {u : State} (herr : e.err = none)
    (h : e.s.readPart e.p acc .engine a n = (.ok b, u)) : e.read acc a n = (b, { e with s := u, moved := e.moved + n }) := by
  simp [Eng.read, herr, h]

/-- The FP32 bit patterns that the bytes of a row hold. -/
def rowWords (b : List Byte) : List Nat := (List.range (b.length / 4)).map (fun i => fieldLE b (4 * i) 4)

theorem Eng.row_ok {e : Eng} {a n : Nat} {b : List Byte} {u : State} (herr : e.err = none)
    (h : e.s.readPart e.p .read .engine a (4 * n) = (.ok b, u)) :
    e.row a n = (rowWords b, { e with s := u, moved := e.moved + 4 * n }) := by
  rw [Eng.row, Eng.read_ok herr h, rowWords]

/-- A row read by a command that has reserved its rounds and done nothing else. -/
theorem Eng.reserve_row_ok {s u : State} {p rounds a n : Nat} {r : Line} {b : List Byte}
    (h : (s.reserve (fld r 32 1) (grnStream r) rounds).2.readPart p .read .engine a (4 * n) = (.ok b, u)) :
    (({ s := s, p := p } : Eng).reserve r rounds).2.row a n = (rowWords b, { s := u, p := p, moved := 4 * n }) := by
  have hrow := Eng.row_ok (e := (({ s := s, p := p } : Eng).reserve r rounds).2) rfl h
  rw [hrow, Eng.reserve, Nat.zero_add]

/-- The end of a GRN command that had moved `m` bytes and writes its result. -/
def State.writeGrn (s : State) (p id : Nat) (r : Line) (m : Nat) (bs : List Byte) : State :=
  (({ s := s, p := p, moved := m } : Eng).writeAll (grnDst r) bs).finish id (0, 0)

/-! ## Streams (R332, R338) -/

@[simp] theorem State.setGrain_grain (s : State) (g n : Nat) (x : GStream) : (s.setGrain g n x).grain g n = x := by
  simp [State.grain, State.setGrain]

theorem State.setGrain_grain_ne (s : State) (g n h j : Nat) (x : GStream) (hne : 32 * h + j ≠ 32 * g + n) :
    (s.setGrain g n x).grain h j = s.grain h j := by
  simp [State.grain, State.setGrain, NatMap.get_set_ne _ _ _ _ _ hne]

/-- Drawing rounds moves ROUNDS on by their number. -/
theorem GStream.run_rounds (x : GStream) (m : Nat) : (x.run m).2.rounds = x.rounds + BitVec.ofNat 64 m := by
  induction m generalizing x with
  | zero => simp [GStream.run]
  | succ m ih =>
    rw [GStream.run, ih, BitVec.ofNat_add, BitVec.add_assoc, BitVec.add_comm 1]
    rfl

theorem State.reserve_rounds (s : State) (g n m : Nat) :
    ((s.reserve g n m).2.grain g n).rounds = (s.grain g n).rounds + BitVec.ofNat 64 m := by
  rw [State.reserve, State.setGrain_grain, GStream.run_rounds]

theorem State.reserve_grain_ne (s : State) (g n m h j : Nat) (hne : 32 * h + j ≠ 32 * g + n) :
    (s.reserve g n m).2.grain h j = s.grain h j := State.setGrain_grain_ne _ _ _ _ _ _ hne

/-! ## SEED (R343) -/

section
variable {s u : State} {p id : Nat} {c : Cmd} {b : List Byte}

theorem State.runSeedMode_ready {m : Nat} (h : s.engineCmd p id 4 0 = some c) (hm : grnCount c.image = m) (f : Line → Eng → State) :
    s.runSeedMode p id m f = f c.image { s := s, p := p } := by
  rw [State.runSeedMode, State.runEngine_ready h, if_pos hm]

/-- LOAD installs what all 2,064 bytes hold. -/
theorem runSeedLoad_read {r : Line} (h : s.readPart p .read .engine (grnSrc r) 2064 = (.ok b, u)) :
    runSeedLoad id r { s := s, p := p } = (u.setGrain (fld r 32 1) (grnStream r) (streamOf b)).finishCmd p id 2064 0 0 := by
  rw [runSeedLoad, Eng.read_ok rfl h]
  rfl

end

/-- The 32 bytes of a lane in an image. -/
def Lane.bytes (l : Lane) : List Byte := natLE 8 l.s0.toNat ++ natLE 8 l.s1.toNat ++ natLE 8 l.s2.toNat ++ natLE 8 l.s3.toNat

theorem Lane.length_bytes (l : Lane) : l.bytes.length = 32 := by simp [Lane.bytes]

/-- Every lane that is not listed reads as zero, so a list of all 64 is the lanes. -/
theorem GStream.all_of_length {x : GStream} (h : x.lanes.length = 64) : x.all = x.lanes := by
  apply List.ext_getElem
  · simp [GStream.all, h]
  · intro i hi hi'
    simp [GStream.all, hi']

theorem Lane.fix_of_ne {l : Lane} (h : l ≠ {}) : l.fix = l := if_neg h

/-- A part of a list of runs of one length starts at a run. -/
theorem drop_flatMap_of_length_eq {α β : Type} {n : Nat} {f : β → List α} (h : ∀ x, (f x).length = n) (l : List β) (i : Nat) :
    (l.flatMap f).drop (n * i) = (l.drop i).flatMap f := by
  induction i generalizing l with
  | zero => simp
  | succ i ih =>
    cases l with
    | nil => simp
    | cons x l =>
      rw [List.flatMap_cons, Nat.mul_succ, Nat.add_comm, ← List.drop_drop, List.drop_left' (h x), ih, List.drop_succ_cons]

/-- Behind the first 16 bytes and `i` lanes of an image stands lane `i`. -/
theorem GStream.drop_image {x : GStream} {i : Nat} (hi : i < x.all.length) :
    ∃ rest, x.image.drop (16 + 32 * i) = (x.all[i]).bytes ++ rest := by
  have himage : x.image = (natLE 8 x.rounds.toNat ++ natLE 8 0) ++ x.all.flatMap Lane.bytes := rfl
  refine ⟨(x.all.drop (i + 1)).flatMap Lane.bytes, ?_⟩
  rw [himage, ← List.drop_drop, List.drop_left' (by simp), drop_flatMap_of_length_eq Lane.length_bytes, List.drop_eq_getElem_cons hi,
    List.flatMap_cons]

/-- The four words of a lane are read back, whatever follows. -/
theorem dwordAt_laneBytes (l : Lane) (rest : List Byte) :
    dwordAt (l.bytes ++ rest) 0 = l.s0 ∧ dwordAt (l.bytes ++ rest) 8 = l.s1 ∧
      dwordAt (l.bytes ++ rest) 16 = l.s2 ∧ dwordAt (l.bytes ++ rest) 24 = l.s3 := by
  have first : ∀ (w : Dword) (b : List Byte), fieldLE (natLE 8 w.toNat ++ b) 0 8 = w.toNat := fun w b =>
    fieldLE_natLE_first w.isLt b
  simp [Lane.bytes, dwordAt, fieldLE_natLE_behind, first]

theorem dwordAt_drop (b : List Byte) (base lo : Nat) : dwordAt (b.drop base) lo = dwordAt b (base + lo) :=
  congrArg (BitVec.ofNat 64) (fieldLE_drop b base lo 8)

/-- The lane that `streamOf` reads at place `i`, before an all-zero one is mended. -/
theorem GStream.image_lane {x : GStream} {i : Nat} (hi : i < x.all.length) :
    ({ s0 := dwordAt x.image (16 + 32 * i), s1 := dwordAt x.image (24 + 32 * i), s2 := dwordAt x.image (32 + 32 * i),
       s3 := dwordAt x.image (40 + 32 * i) } : Lane) = x.all[i] := by
  obtain ⟨rest, hrest⟩ := GStream.drop_image hi
  have at_ : ∀ lo, dwordAt x.image (16 + lo + 32 * i) = dwordAt ((x.all[i]).bytes ++ rest) lo := fun lo => by
    rw [← hrest, dwordAt_drop, Nat.add_right_comm]
  obtain ⟨h0, h1, h2, h3⟩ := dwordAt_laneBytes x.all[i] rest
  rw [(at_ 0).trans h0, (at_ 8).trans h1, (at_ 16).trans h2, (at_ 24).trans h3]

/-- An image of a stream without an all-zero lane gives the stream back. -/
theorem streamOf_image {x : GStream} (hlen : x.lanes.length = 64) (hne : ∀ l ∈ x.lanes, l ≠ {}) : streamOf x.image = x := by
  have hrounds : fieldLE x.image 0 8 = x.rounds.toNat := by
    rw [GStream.image, List.append_assoc, fieldLE_natLE_first x.rounds.isLt]
  have hall := GStream.all_of_length hlen
  have hlanes : (streamOf x.image).lanes = x.lanes := by
    apply List.ext_getElem
    · simp [streamOf, hlen]
    · intro i hi hi'
      have hlane := GStream.image_lane (x := x) (i := i) (by rw [hall]; exact hi')
      simp only [streamOf, List.getElem_map, List.getElem_range, hlane, hall]
      exact Lane.fix_of_ne (hne _ (List.getElem_mem hi'))
  calc streamOf x.image
      = { rounds := BitVec.ofNat 64 (fieldLE x.image 0 8), lanes := (streamOf x.image).lanes } := rfl
    _ = x := by rw [hlanes, hrounds, BitVec.ofNat_toNat, BitVec.setWidth_eq]

/-! ## DISCRETE (R346) -/

section
variable {s u v : State} {p id : Nat} {r : Line} {b b2 : List Byte}

theorem runDiscrete_read
    (h : (s.reserve (fld r 32 1) (grnStream r) (ceilDiv (grnPa r) 64)).2.readPart p .read .engine (grnSrc r) (4 * grnCount r) = (.ok b, u))
    (h2 : u.readPart p .read .engine (grnSrc r) (4 * grnCount r) = (.ok b2, v)) :
    runDiscrete id r { s := s, p := p } = v.writeGrn p id r (8 * grnCount r) ((List.range (grnPa r)).flatMap (fun i =>
      natLE 4 (discrete ((rowWords b).map weightOf)
        (draw64 (s.reserve (fld r 32 1) (grnStream r) (ceilDiv (grnPa r) 64)).1 i).toNat))) := by
  have hmoved : 4 * grnCount r + 4 * grnCount r = 8 * grnCount r := by omega
  rw [runDiscrete, Eng.reserve_row_ok h, Eng.row_ok rfl h2, hmoved]
  rfl

end

/-- Where the running sum reaches past `t / 2^64` somewhere, it does so first at an entry whose weight is not 0. -/
theorem firstAbove_chooses {t : Nat} {ws : List Nat} {j sum : Nat} (below : 2 ^ 64 * sum ≤ t)
    (above : t < 2 ^ 64 * ws.foldl (· + ·) sum) : ∃ i v, firstAbove t ws j sum = some (j + i) ∧ ws[i]? = some v ∧ v ≠ 0 := by
  induction ws generalizing j sum with
  | nil => exact absurd above (Nat.not_lt.mpr below)
  | cons w ws ih =>
    by_cases hw : 2 ^ 64 * (sum + w) > t
    · refine ⟨0, w, by rw [firstAbove, if_pos hw]; rfl, rfl, ?_⟩
      rintro rfl
      exact absurd hw (Nat.not_lt.mpr below)
    · obtain ⟨i, v, hfirst, hat, hv⟩ := ih (j := j + 1) (Nat.not_lt.mp hw) above
      exact ⟨i + 1, v, by rw [firstAbove, if_neg hw, hfirst, Nat.add_right_comm, Nat.add_assoc], hat, hv⟩

/-- A sample is an entry whose weight is not 0, wherever there is one. -/
theorem discrete_positive {ws : List Nat} {w : Nat} (hw : w < 2 ^ 64) (hpos : ∃ v ∈ ws, v ≠ 0) :
    ∃ v, ws[discrete ws w]? = some v ∧ v ≠ 0 := by
  have hsum : 0 < ws.foldl (· + ·) 0 := by
    obtain ⟨v, hv, hne⟩ := hpos
    rw [← List.sum_eq_foldl]
    exact List.sum_pos_iff_exists_pos_nat.mpr ⟨v, hv, Nat.pos_of_ne_zero hne⟩
  obtain ⟨i, v, hfirst, hat, hv⟩ := firstAbove_chooses (j := 0) (Nat.zero_le _) (Nat.mul_lt_mul_of_pos_right hw hsum)
  refine ⟨v, ?_, hv⟩
  rw [discrete, if_neg (Nat.ne_of_gt hsum), hfirst, Option.getD_some, Nat.zero_add, hat]

/-! ## SAMPLE and TOPK_EXPORT (R347, R348) -/

section
variable {s u : State} {p id : Nat} {r : Line} {b : List Byte}

theorem runSample_read
    (h : (s.reserve (fld r 32 1) (grnStream r) 1).2.readPart p .read .engine (grnSrc r) (4 * grnCount r) = (.ok b, u)) :
    runSample id r { s := s, p := p } = u.writeGrn p id r (4 * grnCount r) (sampleBytes (sample (rowWords b) (grnPa r) (grnPb r)
      (grnK r) (draw64 (s.reserve (fld r 32 1) (grnStream r) 1).1 0).toNat)) := by
  rw [runSample, Eng.reserve_row_ok h]
  rfl

/-- The 8 bytes of an exported entry. -/
def rankedEntryBytes (x : Entry) : List Byte := natLE 4 x.1 ++ natLE 4 x.2

theorem length_rankedEntryBytes (x : Entry) : (rankedEntryBytes x).length = 8 := by simp [rankedEntryBytes]

/-- What TOPK_EXPORT writes of `k` places: the first ranked entries, and behind them places without one. -/
def exportBytes (row : List Nat) (k : Nat) : List Byte :=
  let l := (ranked row).take k
  (l ++ List.replicate (k - l.length) (0xFFFFFFFF, 0x7FC00000)).flatMap rankedEntryBytes

theorem length_exportBytes (row : List Nat) (k : Nat) : (exportBytes row k).length = 8 * k := by
  rw [exportBytes, length_flatMap_of_length_eq length_rankedEntryBytes, List.length_append, List.length_replicate,
    Nat.add_sub_of_le (List.length_take_le k _), Nat.mul_comm]

theorem take_exportBytes (row : List Nat) (k : Nat) :
    (exportBytes row k).take (8 * ((ranked row).take k).length) = ((ranked row).take k).flatMap rankedEntryBytes := by
  rw [exportBytes, List.flatMap_append, List.take_left' (by rw [length_flatMap_of_length_eq length_rankedEntryBytes, Nat.mul_comm])]

theorem runTopkExport_read (h : s.readPart p .read .engine (grnSrc r) (4 * grnCount r) = (.ok b, u)) :
    runTopkExport id r { s := s, p := p } = u.writeGrn p id r (4 * grnCount r) (exportBytes (rowWords b) (grnK r)) := by
  rw [runTopkExport, Eng.row_ok rfl h, Nat.zero_add]
  rfl

end

/-! ## The obligation -/

/-- Settles O45: each command is its `run` on the admitted record; a stream is read back from its image; a sample is `firstAbove`. -/
theorem grainCommands : Obligations.GrainCommands := by
  intro p id s c
  refine ⟨fun h => ⟨fun hn => congrArg ok (State.runSeedMode_ready h hn _), fun hn => congrArg ok (State.runSeedMode_ready h hn _),
      fun b u hn hb => congrArg ok ((State.runSeedMode_ready h hn _).trans (runSeedLoad_read hb))⟩,
    fun h => congrArg ok (State.runEngine_ready h _), fun h => congrArg ok (State.runEngine_ready h _),
    fun h => congrArg ok (State.runEngine_ready h _), fun h => congrArg ok (State.runEngine_ready h _),
    fun b b2 u v h hb hb2 => congrArg ok ((State.runEngine_ready h _).trans (runDiscrete_read hb hb2)),
    fun b u h hb => congrArg ok ((State.runEngine_ready h _).trans (runSample_read hb)),
    fun b u h hb => ⟨exportBytes (rowWords b) (grnK c.image),
      congrArg ok ((State.runEngine_ready h _).trans (runTopkExport_read hb)), length_exportBytes _ _, take_exportBytes _ _⟩,
    fun m => ⟨State.reserve_rounds _ _ _ _, fun g j hne => State.reserve_grain_ne _ _ _ _ _ _ hne⟩,
    fun x hlen hne => streamOf_image hlen hne, fun ws w hw _ hpos => discrete_positive hw hpos⟩

end Sys2Proof.Machine
end

section
/-!
PROOFS. The line check code (R370 to R372): the arithmetic of GF(2^16), the syndromes as a linear function of the stored word, and
what one changed symbol makes of them.
-/

namespace Sys2Proof.Machine

open Sys2Proof

/-! ## GF(2^16) (R370) -/

theorem xor_xor_xor_comm {w : Nat} (a b c d : BitVec w) : (a ^^^ b) ^^^ (c ^^^ d) = (a ^^^ c) ^^^ (b ^^^ d) := by
  ac_rfl

theorem gfX_eq_xor (a : BitVec 16) : gfX a = (a <<< 1) ^^^ (if a.getLsbD 15 then 0x100B#16 else 0#16) := by
  unfold gfX
  split
  · rfl
  · rw [BitVec.xor_zero]

theorem gfX_xor (a b : BitVec 16) : gfX (a ^^^ b) = gfX a ^^^ gfX b := by
  have hbit : ∀ p q : Bool, (if (p ^^ q) then 0x100B#16 else 0#16) =
      (if p then 0x100B#16 else 0#16) ^^^ (if q then 0x100B#16 else 0#16) := by decide
  rw [gfX_eq_xor, gfX_eq_xor a, gfX_eq_xor b, xor_xor_xor_comm, BitVec.shiftLeft_xor_distrib, BitVec.getLsbD_xor, hbit]

theorem gfMulFrom_xor (a b c x y : BitVec 16) (n : Nat) :
    gfMulFrom (a ^^^ b) c n (x ^^^ y) = gfMulFrom a c n x ^^^ gfMulFrom b c n y := by
  induction n generalizing x y with
  | zero => rfl
  | succ n ih =>
    have hbit : (if c.getLsbD n then a ^^^ b else 0#16) = (if c.getLsbD n then a else 0#16) ^^^ (if c.getLsbD n then b else 0#16) := by
      split <;> simp
    rw [gfMulFrom, hbit, gfX_xor, xor_xor_xor_comm, ih, gfMulFrom, gfMulFrom]

theorem gfMul_xor_left (a b c : BitVec 16) : gfMul (a ^^^ b) c = gfMul a c ^^^ gfMul b c :=
  gfMulFrom_xor a b c 0#16 0#16 16

theorem gfMulFrom_gfX (a b x : BitVec 16) (n : Nat) : gfMulFrom (gfX a) b n (gfX x) = gfX (gfMulFrom a b n x) := by
  induction n generalizing x with
  | zero => rfl
  | succ n ih =>
    have hbit : (if b.getLsbD n then gfX a else 0#16) = gfX (if b.getLsbD n then a else 0#16) := by
      split <;> rfl
    rw [gfMulFrom, hbit, ← gfX_xor, ih, gfMulFrom]

theorem gfMul_gfX_left (a b : BitVec 16) : gfMul (gfX a) b = gfX (gfMul a b) := gfMulFrom_gfX a b 0#16 16

/-- A word shifted down by one place has its top bit clear, so `gfX` shifts it up again and the lowest bit is put back. -/
theorem gfX_ushiftRight_succ (b : BitVec 16) (n : Nat) :
    gfX (b >>> (n + 1)) ^^^ (if b.getLsbD n then 1#16 else 0#16) = b >>> n := by
  have htop : (b >>> (n + 1)).getLsbD 15 = false := by
    rw [BitVec.getLsbD_ushiftRight]
    exact BitVec.getLsbD_of_ge _ _ (by omega)
  rw [gfX, htop, if_neg Bool.false_ne_true]
  apply BitVec.eq_of_getLsbD_eq
  intro i hi
  cases i with
  | zero => cases h : b.getLsbD n <;> simp [h]
  | succ i => cases b.getLsbD n <;> simp [hi, show n + 1 + i = n + (i + 1) by omega]

theorem gfMulFrom_one_ushiftRight (b : BitVec 16) {n : Nat} (hn : n ≤ 16) : gfMulFrom 1#16 b n (b >>> n) = b := by
  induction n with
  | zero => rw [gfMulFrom, BitVec.ushiftRight_zero]
  | succ n ih => rw [gfMulFrom, gfX_ushiftRight_succ b n, ih (by omega)]

@[simp] theorem gfMul_one_left (b : BitVec 16) : gfMul 1#16 b = b := by
  have h := gfMulFrom_one_ushiftRight b (Nat.le_refl 16)
  rwa [BitVec.ushiftRight_eq_zero (Nat.le_refl 16)] at h

/-- What holds of 1, of α times what it holds of, and of sums holds of every element of the field. -/
theorem gf_induction {P : BitVec 16 → Prop} (one : P 1#16) (shift : ∀ a, P a → P (gfX a))
    (xor : ∀ a b, P a → P b → P (a ^^^ b)) (b : BitVec 16) : P b := by
  have zero : P 0#16 := by simpa using xor _ _ one one
  have partials : ∀ n x, P x → P (gfMulFrom 1#16 b n x) := by
    intro n
    induction n with
    | zero => exact fun x hx => hx
    | succ n ih =>
      intro x hx
      refine ih _ (xor _ _ (shift x hx) ?_)
      split
      · exact one
      · exact zero
  have h := partials 16 0#16 zero
  rwa [← gfMul, gfMul_one_left] at h

theorem gfMul_xor_right (a b c : BitVec 16) : gfMul a (b ^^^ c) = gfMul a b ^^^ gfMul a c := by
  induction a using gf_induction with
  | one => simp only [gfMul_one_left]
  | shift a ih => simp only [gfMul_gfX_left, ih, gfX_xor]
  | xor x y hx hy => rw [gfMul_xor_left, hx, hy, xor_xor_xor_comm, ← gfMul_xor_left, ← gfMul_xor_left]

theorem gfMul_gfX_right (a b : BitVec 16) : gfMul a (gfX b) = gfX (gfMul a b) := by
  induction a using gf_induction with
  | one => simp only [gfMul_one_left]
  | shift a ih => simp only [gfMul_gfX_left, ih]
  | xor x y hx hy => rw [gfMul_xor_left, hx, hy, ← gfX_xor, ← gfMul_xor_left]

@[simp] theorem gfMul_one_right (a : BitVec 16) : gfMul a 1#16 = a := by
  induction a using gf_induction with
  | one => exact gfMul_one_left _
  | shift a ih => rw [gfMul_gfX_left, ih]
  | xor x y hx hy => rw [gfMul_xor_left, hx, hy]

theorem gfMul_comm (a b : BitVec 16) : gfMul a b = gfMul b a := by
  induction a using gf_induction with
  | one => rw [gfMul_one_left, gfMul_one_right]
  | shift a ih => rw [gfMul_gfX_left, ih, gfMul_gfX_right]
  | xor x y hx hy => rw [gfMul_xor_left, hx, hy, gfMul_xor_right]

theorem gfMul_assoc (a b c : BitVec 16) : gfMul (gfMul a b) c = gfMul a (gfMul b c) := by
  induction a using gf_induction with
  | one => simp only [gfMul_one_left]
  | shift a ih => simp only [gfMul_gfX_left, ih]
  | xor x y hx hy => simp only [gfMul_xor_left, hx, hy]

@[simp] theorem gfMul_zero_left (a : BitVec 16) : gfMul 0#16 a = 0#16 := by
  simpa using gfMul_xor_left a a a

theorem gfMul_gfPow_gfPow (m n : Nat) : gfMul (gfPow m) (gfPow n) = gfPow (m + n) := by
  induction m with
  | zero => rw [gfPow, gfMul_one_left, Nat.zero_add]
  | succ m ih => rw [gfPow, gfMul_gfX_left, ih, Nat.succ_add, gfPow]

theorem gfMul_gfPow_mul_gfPow (a : BitVec 16) (m n : Nat) : gfMul (gfMul a (gfPow m)) (gfPow n) = gfMul a (gfPow (m + n)) := by
  rw [gfMul_assoc, gfMul_gfPow_gfPow]

/-- A product of two multiples of one element depends on the powers of α through their sum alone. -/
theorem gfMul_scaled (x : BitVec 16) (m n : Nat) :
    gfMul (gfMul x (gfPow m)) (gfMul x (gfPow n)) = gfMul (gfMul x x) (gfPow (m + n)) := by
  rw [gfMul_assoc, gfMul_comm (gfPow m), gfMul_assoc x (gfPow n), gfMul_gfPow_gfPow, gfMul_assoc, Nat.add_comm n]

/-! ## Units: the first 36 powers of α are told apart by every nonzero factor -/

/-- `a` to the power 2^(n+1) − 2: the product of the `n` squares that follow `a`. -/
def gfSquares : Nat → BitVec 16 → BitVec 16
  | 0, _ => 1#16
  | n + 1, a => gfMul (gfMul a a) (gfSquares n (gfMul a a))

theorem eq_zero_of_gfMul_unit_eq_zero {a y : BitVec 16} (hy : gfMul a y = 1#16) {x : BitVec 16} (h : gfMul x a = 0#16) : x = 0#16 := by
  rw [← gfMul_one_right x, ← hy, ← gfMul_assoc, h, gfMul_zero_left]

/-- α has the inverse x^15 + x^11 + x^2 + 1. -/
theorem eq_zero_of_gfX_eq_zero {x : BitVec 16} (h : gfX x = 0#16) : x = 0#16 :=
  eq_zero_of_gfMul_unit_eq_zero (a := gfX 1#16) (y := 0x8805#16) (by decide +kernel) (by rw [gfMul_gfX_right, gfMul_one_right, h])

theorem eq_zero_of_gfMul_gfPow_eq_zero {x : BitVec 16} {n : Nat} (h : gfMul x (gfPow n) = 0#16) : x = 0#16 := by
  induction n with
  | zero => rwa [gfPow, gfMul_one_right] at h
  | succ n ih => exact ih (eq_zero_of_gfX_eq_zero (by rwa [gfPow, gfMul_gfX_right] at h))

/-- 1 + α^n has an inverse for n from 1 to 35: its power 2^16 − 2. -/
theorem gfMul_one_xor_gfPow_inverse :
    ∀ n < 35, gfMul (1#16 ^^^ gfPow (n + 1)) (gfSquares 15 (1#16 ^^^ gfPow (n + 1))) = 1#16 := by decide +kernel

theorem gfMul_gfPow_ne_of_lt {x : BitVec 16} (hx : x ≠ 0#16) {m n : Nat} (hmn : m < n) (hn : n < 36) :
    gfMul x (gfPow m) ≠ gfMul x (gfPow n) := by
  intro h
  obtain ⟨k, rfl⟩ := Nat.exists_eq_add_of_lt hmn
  have hsplit : gfMul (gfMul x (1#16 ^^^ gfPow (k + 1))) (gfPow m) = 0#16 := by
    rw [gfMul_xor_right, gfMul_one_right, gfMul_xor_left, gfMul_gfPow_mul_gfPow, show k + 1 + m = m + k + 1 by omega, h,
      BitVec.xor_self]
  exact hx (eq_zero_of_gfMul_unit_eq_zero (gfMul_one_xor_gfPow_inverse k (by omega)) (eq_zero_of_gfMul_gfPow_eq_zero hsplit))

/-- The position of a changed symbol is read off S1 ÷ S0. -/
theorem find?_position {x : BitVec 16} (hx : x ≠ 0#16) {e : Nat} (he : e < 36) :
    (List.range 36).find? (fun n => gfMul x (gfPow n) == gfMul x (gfPow e)) = some e := by
  rw [List.find?_range_eq_some]
  refine ⟨beq_self_eq_true _, List.mem_range.mpr he, fun j hj => ?_⟩
  simpa using gfMul_gfPow_ne_of_lt hx hj he

/-! ## Syndromes (R371) -/

@[simp] theorem syndrome_nil (i : Nat) : syndrome [] i = 0#16 := rfl

@[simp] theorem syndrome_cons (a : BitVec 16) (w : List (BitVec 16)) (i : Nat) :
    syndrome (a :: w) i = gfMul (syndrome w i) (gfPow i) ^^^ a := rfl

theorem syndrome_append (v w : List (BitVec 16)) (i : Nat) :
    syndrome (v ++ w) i = syndrome v i ^^^ gfMul (syndrome w i) (gfPow (i * v.length)) := by
  induction v with
  | nil => simp [gfPow]
  | cons a v ih =>
    rw [List.cons_append, syndrome_cons, ih, gfMul_xor_left, gfMul_gfPow_mul_gfPow, syndrome_cons, List.length_cons, Nat.mul_succ]
    ac_rfl

theorem syndrome_zipWith_xor {v w : List (BitVec 16)} (h : v.length = w.length) (i : Nat) :
    syndrome (List.zipWith (· ^^^ ·) v w) i = syndrome v i ^^^ syndrome w i := by
  induction v generalizing w with
  | nil => rw [List.length_eq_zero_iff.mp h.symm]; simp
  | cons a v ih =>
    cases w with
    | nil => simp at h
    | cons b w =>
      rw [List.zipWith_cons_cons, syndrome_cons, ih (Nat.succ.inj h), gfMul_xor_left, xor_xor_xor_comm]
      rfl

theorem syndrome_map_gfMul (a : BitVec 16) (w : List (BitVec 16)) (i : Nat) :
    syndrome (w.map (gfMul a)) i = gfMul a (syndrome w i) := by
  induction w with
  | nil => simpa using (gfMul_comm 0#16 a)
  | cons b w ih => rw [List.map_cons, syndrome_cons, ih, gfMul_assoc, ← gfMul_xor_right, syndrome_cons]

/-- A change of the symbol at position `e` changes S_i by α^(i·e) times it. -/
theorem syndrome_modify (x : BitVec 16) {w : List (BitVec 16)} {e : Nat} (he : e < w.length) (i : Nat) :
    syndrome (w.modify e (· ^^^ x)) i = syndrome w i ^^^ gfMul x (gfPow (i * e)) := by
  induction w generalizing e with
  | nil => simp at he
  | cons a w ih =>
    cases e with
    | zero => simp [gfPow, BitVec.xor_assoc]
    | succ e =>
      rw [List.modify_succ_cons, syndrome_cons, ih (Nat.lt_of_succ_lt_succ he), gfMul_xor_left, gfMul_gfPow_mul_gfPow, syndrome_cons,
        Nat.mul_succ]
      ac_rfl

/-! ## The check symbols (R370) -/

theorem length_genPoly : genPoly.length = 5 := by decide +kernel

/-- α^0 to α^3 are the roots of g: there the terms below x⁴ sum to x⁴. -/
theorem syndrome_genPoly : ∀ i < 4, syndrome (genPoly.take 4) i = gfPow (i * 4) := by decide +kernel

theorem length_checkStep {r : List (BitVec 16)} (hr : r.length = 4) (a : BitVec 16) : (checkStep r a).length = 4 := by
  simp [checkStep, hr, length_genPoly]

/-- One step of the division keeps the remainder's value at a root of g: it becomes α^i times itself plus the new symbol's term. -/
theorem syndrome_checkStep {r : List (BitVec 16)} (hr : r.length = 4) (a : BitVec 16) {i : Nat} (hi : i < 4) :
    syndrome (checkStep r a) i = gfMul (syndrome r i) (gfPow i) ^^^ gfMul a (gfPow (i * 4)) := by
  obtain ⟨v, b, rfl⟩ : ∃ v b, r = v ++ [b] :=
    ⟨_, _, (List.dropLast_concat_getLast (List.ne_nil_of_length_eq_add_one hr)).symm⟩
  have hv : v.length = 3 := by simpa using hr
  have hlen : (0#16 :: v).length = ((genPoly.take 4).map (gfMul (a ^^^ b))).length := by simp [hv, length_genPoly]
  rw [checkStep, List.getLastD_concat, List.dropLast_concat, syndrome_zipWith_xor hlen, syndrome_map_gfMul, syndrome_genPoly i hi,
    syndrome_append, hv, syndrome_cons, syndrome_cons, syndrome_nil, gfMul_zero_left, BitVec.xor_zero, BitVec.zero_xor, gfMul_xor_left,
    gfMul_xor_left, gfMul_gfPow_mul_gfPow, ← Nat.mul_succ]
  ac_rfl

/-- The remainder of a word's symbols, lowest first, shifted up by four places. -/
def remainder (w : List (BitVec 16)) : List (BitVec 16) := w.foldr (fun a r => checkStep r a) [0#16, 0#16, 0#16, 0#16]

theorem length_remainder (w : List (BitVec 16)) : (remainder w).length = 4 := by
  induction w with
  | nil => rfl
  | cons a w ih => exact length_checkStep ih a

theorem syndrome_remainder (w : List (BitVec 16)) {i : Nat} (hi : i < 4) :
    syndrome (remainder w) i = gfMul (syndrome w i) (gfPow (i * 4)) := by
  induction w with
  | nil => simp [remainder]
  | cons a w ih =>
    rw [syndrome_cons, gfMul_xor_left, gfMul_gfPow_mul_gfPow, Nat.add_comm, ← gfMul_gfPow_mul_gfPow, ← ih]
    exact syndrome_checkStep (length_remainder w) a hi

theorem checkSyms_eq_remainder (d : Line) : checkSyms d = remainder ((List.range 32).map (dataSym d)) := by
  rw [checkSyms, List.foldl_reverse, remainder, List.foldr_map]

/-! ## The stored word -/

theorem extractLsb'_push_zero (acc : BitVec 64) (p : BitVec 16) : ((acc <<< 16) ||| p.setWidth 64).extractLsb' 0 16 = p := by
  apply BitVec.eq_of_getLsbD_eq
  intro n hn
  simp [hn, show n < 64 by omega]

theorem extractLsb'_push_succ (acc : BitVec 64) (p : BitVec 16) {j : Nat} (hj : j < 3) :
    ((acc <<< 16) ||| p.setWidth 64).extractLsb' (16 * (j + 1)) 16 = acc.extractLsb' (16 * j) 16 := by
  apply BitVec.eq_of_getLsbD_eq
  intro n hn
  have hp : p.getLsbD (16 * (j + 1) + n) = false := BitVec.getLsbD_of_ge _ _ (by omega)
  simp [hn, hp, BitVec.getLsbD_eq_getElem (show 16 * j + n < 64 by omega), show 16 * (j + 1) + n < 64 by omega,
    show ¬ 16 * (j + 1) + n < 16 by omega, show 16 * (j + 1) + n - 16 = 16 * j + n by omega]

/-- Symbol `j` of at most four symbols packed lowest first is read back. -/
theorem extractLsb'_packed {l : List (BitVec 16)} (hl : l.length ≤ 4) {j : Nat} (hj : j < l.length) :
    (l.reverse.foldl (fun (acc : BitVec 64) p => (acc <<< 16) ||| p.setWidth 64) 0#64).extractLsb' (16 * j) 16 = l[j] := by
  rw [List.foldl_reverse]
  induction l generalizing j with
  | nil => simp at hj
  | cons p l ih =>
    have hlen : l.length + 1 ≤ 4 := hl
    cases j with
    | zero => exact extractLsb'_push_zero _ p
    | succ j =>
      have hj' : j < l.length := Nat.lt_of_succ_lt_succ hj
      exact (extractLsb'_push_succ _ p (by omega)).trans (ih (by omega) hj')

theorem wordSyms_checkBits (d : Line) :
    wordSyms d (checkBits d) = checkSyms d ++ (List.range 32).map (dataSym d) := by
  have hlen : (checkSyms d).length = 4 := by rw [checkSyms_eq_remainder, length_remainder]
  have hcheck : (List.range 4).map (fun j => (checkBits d).extractLsb' (16 * j) 16) = checkSyms d := by
    apply List.ext_getElem (by simp [hlen])
    intro j _ hj
    rw [List.getElem_map, List.getElem_range, checkBits, extractLsb'_packed (Nat.le_of_eq hlen) hj]
  rw [wordSyms, hcheck]

/-- The stored word of a line is a multiple of g: its four syndromes are 0. -/
theorem syndrome_stored (d : Line) {i : Nat} (hi : i < 4) : syndrome (wordSyms d (checkBits d)) i = 0#16 := by
  rw [wordSyms_checkBits, checkSyms_eq_remainder, syndrome_append, length_remainder, syndrome_remainder _ hi, BitVec.xor_self]

@[simp] theorem length_wordSyms (d : Line) (c : BitVec 64) : (wordSyms d c).length = 36 := by simp [wordSyms]

/-- A symbol read out of a word with one symbol changed. -/
theorem extractLsb'_xor_symbol {w : Nat} (v : BitVec w) (x : BitVec 16) {j k : Nat} (hk : 16 * k + 16 ≤ w) :
    (v ^^^ (x.setWidth w <<< (16 * j))).extractLsb' (16 * k) 16 =
      if j = k then v.extractLsb' (16 * k) 16 ^^^ x else v.extractLsb' (16 * k) 16 := by
  have hw : ∀ n < 16, 16 * k + n < w := fun n hn => by omega
  apply BitVec.eq_of_getLsbD_eq
  intro n hn
  split
  case isTrue h => subst h; simp [hn, hw n hn]
  case isFalse h =>
    by_cases hlt : 16 * k + n < 16 * j
    · simp [hn, hlt]
    · have hx : x.getLsbD (16 * k + n - 16 * j) = false := BitVec.getLsbD_of_ge _ _ (by omega)
      simp [hn, hx]

theorem wordSyms_check_changed (d : Line) (c : BitVec 64) (x : BitVec 16) {j : Nat} (hj : j < 4) :
    wordSyms d (c ^^^ (x.setWidth 64 <<< (16 * j))) = (wordSyms d c).modify j (· ^^^ x) := by
  apply List.ext_getElem (by simp)
  intro n _ hn
  have h36 : n < 36 := by simpa using hn
  by_cases h4 : n < 4
  · rw [List.getElem_modify]
    simp [wordSyms, h4, extractLsb'_xor_symbol c x (show 16 * n + 16 ≤ 64 by omega)]
  · have hne : j ≠ n := by omega
    simp [wordSyms, List.getElem_append, h4, hne]

theorem wordSyms_data_changed (d : Line) (c : BitVec 64) (x : BitVec 16) (k : Nat) :
    wordSyms (d ^^^ (x.setWidth 512 <<< (16 * k))) c = (wordSyms d c).modify (k + 4) (· ^^^ x) := by
  apply List.ext_getElem (by simp)
  intro n _ hn
  have h36 : n < 36 := by simpa using hn
  by_cases h4 : n < 4
  · have hne : k + 4 ≠ n := by omega
    simp [wordSyms, h4, hne]
  · have hk : k = n - 4 ↔ k + 4 = n := by omega
    rw [List.getElem_modify]
    simp [wordSyms, List.getElem_append, h4, dataSym, extractLsb'_xor_symbol d x (show 16 * (n - 4) + 16 ≤ 512 by omega), hk]

theorem wordSyms_inverted (d : Line) (c : BitVec 64) :
    wordSyms d (c ^^^ BitVec.allOnes 64) =
      List.zipWith (· ^^^ ·) (wordSyms d c) (List.replicate 4 0xFFFF#16 ++ List.replicate 32 0#16) := by
  have hones : ∀ n < 4, (BitVec.allOnes 64).extractLsb' (16 * n) 16 = 0xFFFF#16 := by decide
  apply List.ext_getElem (by simp)
  intro n _ hn
  by_cases h4 : n < 4
  · simp [wordSyms, h4, BitVec.extractLsb'_xor, hones n h4, -List.reduceReplicate, -BitVec.reduceAllOnes, -BitVec.xor_allOnes]
  · simp [wordSyms, List.getElem_append, h4, -List.reduceReplicate]

/-! ## Classification (R371) -/

/-- Four equal check symbols cancel in Π_0, so no single changed symbol (S_0 ≠ 0) looks poisoned. -/
theorem poisonSyndrome_zero : poisonSyndrome 0 = 0#16 := by decide +kernel

/-- A line written poisoned is not clean. -/
theorem poisonSyndrome_one_ne : poisonSyndrome 1 ≠ 0#16 := by decide +kernel

theorem classify_clean {d : Line} {c : BitVec 64} (h : ∀ i < 4, syndrome (wordSyms d c) i = 0#16) : classify d c = .clean :=
  if_pos ⟨h 0 (by decide), h 1 (by decide), h 2 (by decide), h 3 (by decide)⟩

theorem classify_poisoned {d : Line} {c : BitVec 64} (h : ∀ i < 4, syndrome (wordSyms d c) i = poisonSyndrome i) :
    classify d c = .poisoned := by
  have h1 := h 1 (by decide)
  exact (if_neg fun ⟨_, hc, _⟩ => poisonSyndrome_one_ne (h1.symm.trans hc)).trans
    (if_pos ⟨h 0 (by decide), h1, h 2 (by decide), h 3 (by decide)⟩)

/-- Syndromes x, x·α^e, x·α^(2e), x·α^(3e) name the position `e` and the change `x`. -/
theorem classify_corrected {d : Line} {c : BitVec 64} {x : BitVec 16} (hx : x ≠ 0#16) {e : Nat} (he : e < 36)
    (h : ∀ i < 4, syndrome (wordSyms d c) i = gfMul x (gfPow (i * e))) : classify d c = .corrected e x := by
  have h0 : syndrome (wordSyms d c) 0 = x := by rw [h 0 (by decide), Nat.zero_mul, gfPow, gfMul_one_right]
  have hprod : ∀ i < 4, ∀ j < 4, gfMul (syndrome (wordSyms d c) i) (syndrome (wordSyms d c) j) =
      gfMul (gfMul x x) (gfPow ((i + j) * e)) := fun i hi j hj => by
    rw [h i hi, h j hj, gfMul_scaled, Nat.add_mul]
  have h02 := (hprod 0 (by decide) 2 (by decide)).trans (hprod 1 (by decide) 1 (by decide)).symm
  have h13 := (hprod 1 (by decide) 3 (by decide)).trans (hprod 2 (by decide) 2 (by decide)).symm
  have hfind : (List.range 36).find? (fun n => gfMul (syndrome (wordSyms d c) 0) (gfPow n) == syndrome (wordSyms d c) 1) = some e := by
    rw [h0, h 1 (by decide), Nat.one_mul, find?_position hx he]
  have hne : syndrome (wordSyms d c) 0 ≠ 0#16 := by rwa [h0]
  have hnotPoison : syndrome (wordSyms d c) 0 ≠ poisonSyndrome 0 := by rwa [poisonSyndrome_zero]
  rw [← h0]
  simp only [classify, hne, hnotPoison, false_and, if_false, ne_eq, not_false_eq_true, h02, h13, and_self, if_true, hfind]

theorem classify_one_changed {d b : Line} {c : BitVec 64} {x : BitVec 16} (hx : x ≠ 0#16) {e : Nat} (he : e < 36)
    (hw : wordSyms b c = (wordSyms d (checkBits d)).modify e (· ^^^ x)) : classify b c = .corrected e x :=
  classify_corrected hx he fun i hi => by
    rw [hw, syndrome_modify x (by rwa [length_wordSyms]), syndrome_stored d hi, BitVec.zero_xor]

theorem fixSymbol_check (d : Line) (x : BitVec 16) {e : Nat} (he : e < 4) : fixSymbol d e x = d := if_pos he

theorem fixSymbol_data_changed (d : Line) (x : BitVec 16) (k : Nat) :
    fixSymbol (d ^^^ (x.setWidth 512 <<< (16 * k))) (k + 4) x = d := by
  rw [fixSymbol, if_neg (by omega), Nat.add_sub_cancel, BitVec.xor_assoc, BitVec.xor_self, BitVec.xor_zero]

/-- Settles O48: one changed symbol leaves syndromes x·α^(i·e), and inverted check bytes the poison syndromes. -/
theorem lineCodeCorrectsOneSymbol : Obligations.LineCodeCorrectsOneSymbol := by
  intro d x hx
  refine ⟨classify_clean fun i hi => syndrome_stored d hi, classify_poisoned fun i hi => ?_,
    fun j hj => ⟨?_, fixSymbol_check d x hj⟩, fun k hk => ⟨?_, fixSymbol_data_changed d x k⟩⟩
  · rw [wordSyms_inverted, syndrome_zipWith_xor (by simp), syndrome_stored d hi, BitVec.zero_xor, poisonSyndrome]
  · exact classify_one_changed hx (by omega) (wordSyms_check_changed d _ x hj)
  · exact classify_one_changed hx (by omega) (wordSyms_data_changed d _ x k)

end Sys2Proof.Machine
end

section
/-!
PROOFS. The Agitator and Proof of a channel (R381 to R388, R390): its commands, a request, a check, the end of a run, and the places
that a pass visits.
-/

namespace Sys2Proof.Machine

open Sys2Proof

/-! ## An update of one channel -/

/-- An update counts only by what it makes of the channel's present Agitator. -/
theorem State.modAgit_congr {s : State} {ch : Nat} {f g : Agit → Agit} (h : f (s.agit ch) = g (s.agit ch)) :
    s.modAgit ch f = s.modAgit ch g := by
  have hset : f (NatMap.get {} s.agits ch) = g (NatMap.get {} s.agits ch) := h
  simp only [State.modAgit, NatMap.upd, hset]

theorem Agit.stop_running {a : Agit} (h : a.state = .running) (k : Nat) : a.stop k = { a with ending := a.ending.or (some k) } := if_pos h
theorem Agit.stop_at_rest {a : Agit} (h : a.state ≠ .running) (k : Nat) : a.stop k = a := if_neg h

/-! ## Commands (R388, R390) -/

/-- A command of AG_CMD acts where it is served and the block is enabled. -/
theorem State.agCmd_enabled {s : State} (h : s.pfServes 2) {ch : Nat} (he : (s.agit ch).en = true) (f : State → State) :
    s.agCmd ch f = f s := by
  rw [State.agCmd, State.pfWrite_serves h, if_pos he]

/-- ATP_CTRL.EN written 0 makes a run end for reason 2, unless it was to end already. -/
theorem State.atpCtrl_eq (s : State) (ch : Nat) (x : Word) : s.atpCtrl ch x = s.modAgit ch (fun a =>
    if x.getLsbD 0 then { a with en := true }
    else { a with en := false, wign := false, ending := if a.state = .running then a.ending.or (some 2) else a.ending }) := by
  refine State.modAgit_congr ?_
  by_cases hr : (s.agit ch).state = .running
  · rw [Agit.stop_running hr, if_pos hr]
  · rw [Agit.stop_at_rest hr, if_neg hr]

/-- START refused: the Agitator is left idle, with the reason. -/
def Agit.declined (a : Agit) (reason : Nat) : Agit := { a with cfgErr := false, badCmd := false, state := .idle, reason := reason }

/-- START accepted: a run at its first request, begun now. -/
def Agit.started (a : Agit) (now : Nat) : Agit :=
  { a with cfgErr := false, badCmd := false, state := .running, reason := 0, runPass := 0, index := 0, startedAt := now,
           lastIssue := none, reads := [], ending := none }

section Start
variable {s : State} {ch : Nat}

theorem State.agStart_running (h : (s.agit ch).state = .running) : s.agStart ch = s.modAgit ch (fun a => { a with badCmd := true }) :=
  if_pos h

theorem State.agStart_unsound (h : (s.agit ch).state ≠ .running) (hc : (s.agCfg ch).sound = false) :
    s.agStart ch = s.modAgit ch (fun a => { a with cfgErr := true, badCmd := false }) := by
  rw [State.agStart, if_neg h, if_pos (by simp [hc])]

variable (h : (s.agit ch).state ≠ .running) (hc : (s.agCfg ch).sound = true)
include h hc

theorem State.agStart_untrained (ht : s.trained ch = false) : s.agStart ch = s.modAgit ch (·.declined 7) := by
  rw [State.agStart, if_neg h, if_neg (by simp [hc]), if_pos (by simp [ht])]
  rfl

theorem State.agStart_refused (ht : s.trained ch = true)
    (hr : s.testState ch = false ∨ s.repairOn ch = true ∨ (s.stack (ch / 32)).halted = true) :
    s.agStart ch = s.modAgit ch (·.declined 6) := by
  have hr' : (!s.testState ch || s.repairOn ch || (s.stack (ch / 32)).halted) = true := by simpa [or_assoc] using hr
  rw [State.agStart, if_neg h, if_neg (by simp [hc]), if_neg (by simp [ht]), if_pos hr']
  rfl

theorem State.agStart_starts (ht : s.trained ch = true) (hts : s.testState ch = true) (hr : s.repairOn ch = false)
    (hh : (s.stack (ch / 32)).halted = false) : s.agStart ch = s.modAgit ch (·.started s.now) := by
  rw [State.agStart, if_neg h, if_neg (by simp [hc]), if_neg (by simp [ht]), if_neg (by simp [hts, hr, hh])]
  rfl

end Start

theorem State.agStop_running {s : State} {ch : Nat} (h : (s.agit ch).state = .running) (he : (s.agit ch).ending = none) :
    s.agStop ch = s.modAgit ch (fun a => { a with badCmd := false, ending := some 2 }) := by
  refine State.modAgit_congr ?_
  rw [Agit.stop_running (a := { s.agit ch with badCmd := false }) h, he]
  rfl

theorem State.agStop_at_rest {s : State} {ch : Nat} (h : (s.agit ch).state ≠ .running) :
    s.agStop ch = s.modAgit ch (fun a => { a with badCmd := false }) :=
  State.modAgit_congr (Agit.stop_at_rest (a := { s.agit ch with badCmd := false }) h 2)

theorem Agit.clear_running {a : Agit} (h : a.state = .running) : a.clear = { a with badCmd := true } := if_pos h

/-- CLEAR of an Agitator at rest: its counters and its first error are zero again, and its state stays. -/
theorem Agit.clear_at_rest {a : Agit} (h : a.state ≠ .running) : a.clear.checked = 0 ∧ a.clear.mismatch = 0 ∧ a.clear.bits = 0 ∧
    a.clear.feAddr = 0 ∧ a.clear.err = false ∧ a.clear.state = a.state := by
  rw [Agit.clear, if_neg h]
  exact ⟨rfl, rfl, rfl, rfl, rfl, rfl⟩

/-! ## What a channel's reads and writes leave of the Agitators -/

theorem State.agit_of_agits {s t : State} (h : t.agits = s.agits) (ch : Nat) : t.agit ch = s.agit ch := by
  rw [State.agit, h, State.agit]

@[simp] theorem State.incReg_agits (s : State) (k : Nat) : (s.incReg k).agits = s.agits := rfl
@[simp] theorem State.rawWrite_agits (s : State) (u : Nat) (bs : List Byte) : (s.rawWrite u bs).agits = s.agits := rfl
@[simp] theorem State.setUnit_agits (s : State) (u : Nat) (b : Bool) : (s.setUnit u b).agits = s.agits := rfl
@[simp] theorem State.setWc_agits (s : State) (ch : Nat) (l : List WcEntry) : (s.setWc ch l).agits = s.agits := rfl
@[simp] theorem State.stkEvent_agits (s : State) (t bit : Nat) : (s.stkEvent t bit).agits = s.agits := State.raise_agits ..

@[simp] theorem State.lineUE_agits (s : State) (ch u : Nat) (written : Bool) (req : Requester) :
    (s.lineUE ch u written req).agits = s.agits := by
  simp only [State.lineUE, State.logErr_agits, State.stkEvent_agits]
  split <;> rfl

theorem State.readDramLine_keeps_agits {s v : State} {ch u : Nat} {req : Requester} {d : Except MemErr Line}
    (h : s.readDramLine ch u req = (d, v)) : v.agits = s.agits := by
  rw [show v = (s.readDramLine ch u req).2 by rw [h]]
  unfold State.readDramLine
  dsimp only
  split <;> simp

@[simp] theorem State.addLate_agits (s : State) (core sub addr : Nat) : (s.addLate core sub addr).agits = s.agits := by
  unfold State.addLate
  split <;> rfl

@[simp] theorem State.rmw_agits (s : State) (ch : Nat) (e : WcEntry) : (s.rmw ch e).agits = s.agits := by
  unfold State.rmw
  dsimp only
  split
  · next hread => simp [State.readDramLine_keeps_agits hread]
  · next hread =>
    have hv := State.readDramLine_keeps_agits hread
    split <;> simp [hv]

@[simp] theorem State.flushEntry_agits (s : State) (ch : Nat) (e : WcEntry) : (s.flushEntry ch e).agits = s.agits := by
  unfold State.flushEntry
  split <;> simp

/-- A fold whose steps leave the Agitators leaves them. -/
theorem State.foldl_agits {α : Type} {f : State → α → State} (hf : ∀ t x, (f t x).agits = t.agits) (l : List α) (s : State) :
    (l.foldl f s).agits = s.agits := by
  induction l generalizing s with
  | nil => rfl
  | cons x l ih => exact (ih (f s x)).trans (hf s x)

@[simp] theorem State.flushWhere_agits (s : State) (ch : Nat) (p : WcEntry → Bool) : (s.flushWhere ch p).agits = s.agits :=
  State.foldl_agits (fun t e => t.flushEntry_agits ch e) _ _

@[simp] theorem State.fullWrite_agits (s : State) (ch u : Nat) (d : Line) : (s.fullWrite ch u d).agits = s.agits := rfl

@[simp] theorem State.partialWrite_agits (s : State) (ch u : Nat) (d : Line) (v : BitVec 64) (w : Requester) (core : Nat) :
    (s.partialWrite ch u d v w core).agits = s.agits := by
  unfold State.partialWrite
  rw [State.flushWhere_agits]
  dsimp only
  split
  · rfl
  · rw [State.setWc_agits]
    split
    · split <;> simp
    · rfl

theorem State.agWrite_agits (s : State) (ch l : Nat) (d : Line) (parts : Bool) : (s.agWrite ch l d parts).agits = s.agits := by
  unfold State.agWrite
  dsimp only
  split
  · exact State.foldl_agits (fun t k => t.partialWrite_agits ..) _ _
  · rfl

theorem State.agRead_agits (s : State) (ch l pass i : Nat) (raw : Bool) : (s.agRead ch l pass i raw).2.agits = s.agits := by
  unfold State.agRead
  dsimp only
  split
  · rfl
  · split <;> rfl

/-! ## A request (R384, R386) -/

/-- The Agitator after it has issued a request. -/
def Agit.issued (a : Agit) (now : Nat) : Agit := { a with index := a.index + 1, lastIssue := some now, reqs := a.reqs + 1 }

/-- The completion of a pass counts no request. -/
theorem Agit.settle_reqs (a : Agit) (c : AgCfg) : (a.settle c).reqs = a.reqs := by
  unfold Agit.settle
  split <;> rfl

/-- A request is due: the run goes on, the pass has requests left, and the interval has passed since the last one. -/
structure State.AgDue (s : State) (ch : Nat) : Prop where
  running : (s.agit ch).state = .running
  goesOn : (s.agit ch).ending = none
  left : (s.agit ch).index < (s.agCfg ch).requests
  interval : ∀ x, (s.agit ch).lastIssue = some x → x + max 1 (s.agCfg ch).interval ≤ s.now

/-- The line and the data of the run's next request. -/
def State.agLine (s : State) (ch : Nat) : Nat := (s.agCfg ch).lineOf (s.agit ch).index
def State.agData (s : State) (ch : Nat) : Line := (s.agCfg ch).data (s.agLine ch) (s.chanLine ch (s.agLine ch)) (s.agit ch).runPass

/-- A due request is issued: a write at once, a read where its pseudo-channel has a credit free. -/
theorem State.agIssue_due {s : State} {ch : Nat} (h : s.AgDue ch) : s.agIssue ch =
    if (s.agCfg ch).isWrite (s.agit ch).index then
      (s.agWrite ch (s.agLine ch) (s.agData ch) (s.agCfg ch).wpart).modAgit ch (fun b => (b.issued s.now).settle (s.agCfg ch))
    else if ((s.agit ch).reads.filter (fun r => r.line / 4 % 2 == s.agLine ch / 4 % 2)).length ≥ 8 then s
    else
      let r := s.agRead ch (s.agLine ch) (s.agit ch).runPass (s.agit ch).index (s.agCfg ch).eccOff
      r.2.modAgit ch (fun b => { b.issued s.now with reads := b.reads ++ [r.1] }) := by
  obtain ⟨hrun, hend, hleft, hint⟩ := h
  unfold State.agIssue
  dsimp only
  rw [if_neg]
  · rfl
  · rintro (hs | he | hd | hr)
    · exact hs hrun
    · simp [hend] at he
    · split at hd
      · next x hx => simp [hint x hx] at hd
      · simp at hd
    · exact absurd hleft (Nat.not_lt.mpr hr)

/-- A due write writes its line, and is counted. -/
theorem State.agIssue_write {s : State} {ch : Nat} (h : s.AgDue ch) (hw : (s.agCfg ch).isWrite (s.agit ch).index = true) :
    (s.agIssue ch).mem = (s.agWrite ch (s.agLine ch) (s.agData ch) (s.agCfg ch).wpart).mem ∧
      ((s.agIssue ch).agit ch).reqs = (s.agit ch).reqs + 1 := by
  rw [State.agIssue_due h, if_pos hw, State.modAgit_agit, State.agit_of_agits (State.agWrite_agits ..), Agit.settle_reqs]
  exact ⟨rfl, rfl⟩

/-- A due read with a credit observes its line, waits to be checked, and is counted. -/
theorem State.agIssue_read {s : State} {ch : Nat} (h : s.AgDue ch) (hw : (s.agCfg ch).isWrite (s.agit ch).index = false)
    (hcredit : ((s.agit ch).reads.filter (fun r => r.line / 4 % 2 == s.agLine ch / 4 % 2)).length < 8) :
    let r := s.agRead ch (s.agLine ch) (s.agit ch).runPass (s.agit ch).index (s.agCfg ch).eccOff
    (s.agIssue ch).mem = r.2.mem ∧ ((s.agIssue ch).agit ch).reads = (s.agit ch).reads ++ [r.1] ∧
      ((s.agIssue ch).agit ch).reqs = (s.agit ch).reqs + 1 := by
  have hnot : ¬ (s.agCfg ch).isWrite (s.agit ch).index = true := by simp [hw]
  rw [State.agIssue_due h, if_neg hnot, if_neg (Nat.not_le.mpr hcredit)]
  dsimp only
  rw [State.modAgit_agit, State.agit_of_agits (State.agRead_agits ..)]
  exact ⟨rfl, rfl, rfl⟩

/-! ## Checks and the end of a run (R387, R390) -/

@[simp] theorem State.atpEvent_mem (s : State) (ch bit : Nat) : (s.atpEvent ch bit).mem = s.mem := State.raise_mem ..
@[simp] theorem State.atpEvent_agit (s : State) (ch bit j : Nat) : (s.atpEvent ch bit).agit j = s.agit j :=
  State.agit_of_agits (State.raise_agits ..) j

/-- The oldest read is judged against the data of its line in its pass. -/
theorem State.proofCheck_cons {s : State} {ch : Nat} {r : AgRead} {l : List AgRead} (h : (s.agit ch).reads = r :: l) :
    (s.proofCheck ch).mem = s.mem ∧ (s.proofCheck ch).agit ch = (({ s.agit ch with reads := l } : Agit).judge (s.agCfg ch) r
      ((s.agCfg ch).data r.line (s.chanLine ch r.line) r.pass)).settle (s.agCfg ch) := by
  simp only [State.proofCheck, h]
  split <;> simp

/-- A run whose reads are all checked ends for the reason given. -/
theorem State.agEnd_ends {s : State} {ch k : Nat} (hr : (s.agit ch).state = .running) (hl : (s.agit ch).reads = [])
    (he : (s.agit ch).ending = some k) : (s.agEnd ch).agit ch = { s.agit ch with
      state := if k = 1 then .done else .stopped, reason := k, ending := none,
      cycles := BitVec.ofNat 64 (s.now - (s.agit ch).startedAt) } := by
  simp only [State.agEnd, he]
  rw [if_neg (by simp [hr, hl]), State.atpEvent_agit, State.modAgit_agit]

/-- The first error alone fills the capture. -/
theorem Agit.capture_first {a : Agit} (h : a.feAddr.getLsbD 31 = false) (c : AgCfg) {r : AgRead} (hue : r.ue = false) (x : Line) :
    (a.capture c r x).feXor = x ∧ (a.capture c r x).feAddr = BitVec.ofNat 32 (r.line + 2 ^ 31) := by
  simp only [Agit.capture, h, hue, Bool.false_eq_true, if_false, Nat.add_zero, and_self]

theorem Agit.capture_later {a : Agit} (h : a.feAddr.getLsbD 31 = true) (c : AgCfg) (r : AgRead) (x : Line) :
    (a.capture c r x).feXor = a.feXor ∧ (a.capture c r x).feAddr = a.feAddr := by
  simp only [Agit.capture, h, if_true, and_self]

/-- Capturing an error marks it and counts nothing. -/
theorem Agit.capture_counts (a : Agit) (c : AgCfg) (r : AgRead) (x : Line) : (a.capture c r x).err = true ∧
    (a.capture c r x).mismatch = a.mismatch ∧ (a.capture c r x).bits = a.bits := by
  unfold Agit.capture
  dsimp only
  split <;> exact ⟨rfl, rfl, rfl⟩

/-- A read is counted as checked, and one that the line code corrected as corrected. -/
def Agit.countRead (a : Agit) (r : AgRead) : Agit :=
  { a with checked := a.checked + 1, ceCount := if r.ce then satInc a.ceCount else a.ceCount }

/-- A mismatch is counted: its bits, and the failed lanes of its pseudo-channel. -/
def Agit.countMismatch (a : Agit) (r : AgRead) (x : Line) : Agit :=
  { a with
    mismatch := satInc a.mismatch, bits := satAdd a.bits (popcount 512 x.toNat),
    lanes0 := if r.line / 4 % 2 = 0 then a.lanes0 ||| BitVec.ofNat 32 (laneBits x) else a.lanes0,
    lanes1 := if r.line / 4 % 2 = 1 then a.lanes1 ||| BitVec.ofNat 32 (laneBits x) else a.lanes1 }

theorem Agit.countMismatch_bits (a : Agit) (r : AgRead) (x : Line) :
    (a.countMismatch r x).bits = satAdd a.bits (popcount 512 x.toNat) := by
  simp only [Agit.countMismatch]

section Judge
variable {c : AgCfg} {r : AgRead} (hue : r.ue = false) (hecc : c.eccOff = false)
include hue hecc

theorem Agit.judge_equal (a : Agit) : a.judge c r r.data = a.countRead r := by
  simp [Agit.judge, hue, hecc, Agit.countRead]

theorem Agit.judge_differs (a : Agit) {want : Line} (h : r.data ≠ want) :
    a.judge c r want = ((a.countRead r).countMismatch r (r.data ^^^ want)).capture c r (r.data ^^^ want) := by
  have hx : ¬ r.data ^^^ want = 0 := by simpa using h
  simp only [Agit.judge, hue, hecc, Bool.false_and, Bool.false_eq_true, if_false, if_neg hx]
  rfl

end Judge

/-! ## The places of a pass (R383) -/

/-- Odd steps through a power of two come to no place twice. -/
theorem mul_odd_mod_two_pow_inj {k m i j : Nat} (hm : m % 2 = 1) (hi : i < 2 ^ k) (hj : j < 2 ^ k)
    (h : i * m % 2 ^ k = j * m % 2 ^ k) : i = j := by
  have hcop : Nat.Coprime (2 ^ k) m := Nat.Coprime.pow_left k (by rw [Nat.Coprime, Nat.gcd_rec, hm, Nat.gcd_one_left])
  have place_le : ∀ {x y : Nat}, x < 2 ^ k → x * m % 2 ^ k = y * m % 2 ^ k → x ≤ y := by
    intro x y hx he
    have hdvd : 2 ^ k ∣ (x - y) * m := by
      rw [Nat.sub_mul]
      exact Nat.dvd_of_mod_eq_zero (Nat.sub_mod_eq_zero_of_mod_eq he)
    have hzero : x - y = 0 := Nat.eq_zero_of_dvd_of_lt (hcop.dvd_of_dvd_mul_right hdvd) (by omega)
    omega
  exact Nat.le_antisymm (place_le hi h) (place_le hj h.symm)

/-- A sound configuration that strides has an odd stride (R390). -/
theorem AgCfg.stride_odd {c : AgCfg} (hs : c.sound = true) (ha : c.apat = 1) : c.stride % 2 = 1 := by
  simp only [AgCfg.sound, Bool.and_eq_true] at hs
  obtain ⟨⟨-, hstride⟩, -⟩ := hs
  simpa [ha] using hstride

theorem AgCfg.seq_inj {c : AgCfg} (hs : c.sound = true) (ha : c.apat ≤ 1) {i j : Nat} (hi : i < c.count) (hj : j < c.count)
    (h : c.seq i = c.seq j) : i = j := by
  obtain h0 | h1 : c.apat = 0 ∨ c.apat = 1 := by omega
  · simpa only [AgCfg.seq, h0] using h
  · simp only [AgCfg.seq, h1] at h
    exact mul_odd_mod_two_pow_inj (AgCfg.stride_odd hs h1) hi hj h

/-! ## The obligation -/

/-- Settles O50: each command, request, check and end by its own lemma above; the places of a pass by `AgCfg.seq_inj`. -/
theorem memoryTest : Obligations.MemoryTest := by
  refine ⟨fun ch s => ⟨fun hs => ⟨fun x => ?enable, fun he => ?commands⟩, fun t hrun hend hleft hint => ?issue,
    fun r l hl => ?check, fun t k hrun hl he => ?finish⟩, fun a c r want hue hecc => ⟨?equal, fun hne => ?differs⟩,
    fun c i j hs ha hi hj h => AgCfg.seq_inj hs ha hi hj h⟩
  case enable => exact congrArg ok ((State.pfWrite_serves hs _).trans (s.atpCtrl_eq ch x))
  case commands =>
    have acts : ∀ f, ok (s.agCmd ch f) = ok (f s) := fun f => congrArg ok (State.agCmd_enabled hs he f)
    refine ⟨fun h => ?_, fun h hc => ?_, fun h hc ht => ?_, fun h hc ht hr => ?_, fun h hc ht hts hr hh => ?_, fun h hn => ?_,
      fun h => ?_, fun h => ?_, fun h => ?_⟩
    · exact (acts _).trans (congrArg ok (State.agStart_running h))
    · exact (acts _).trans (congrArg ok (State.agStart_unsound h hc))
    · exact (acts _).trans (congrArg ok (State.agStart_untrained h hc ht))
    · exact (acts _).trans (congrArg ok (State.agStart_refused h hc ht hr))
    · refine ⟨_, (acts _).trans (congrArg ok (State.agStart_starts h hc ht hts hr hh)), ?_⟩
      rw [State.modAgit_agit]
      exact ⟨rfl, rfl, rfl, rfl, rfl, rfl, rfl, rfl⟩
    · exact (acts _).trans (congrArg ok (State.agStop_running h hn))
    · exact (acts _).trans (congrArg ok (State.agStop_at_rest h))
    · exact (acts _).trans (congrArg ok (State.modAgit_congr (Agit.clear_running h)))
    · refine ⟨_, acts _, ?_⟩
      rw [State.modAgit_agit]
      exact Agit.clear_at_rest h
  case issue =>
    have due : (s.advance t).AgDue ch := ⟨hrun, hend, hleft, hint⟩
    exact ⟨fun hw => ⟨_, rfl, State.agIssue_write due hw⟩, fun hw hcredit => ⟨_, rfl, State.agIssue_read due hw hcredit⟩⟩
  case check => exact ⟨_, rfl, State.proofCheck_cons hl⟩
  case finish =>
    have hfinal := State.agEnd_ends (s := s.advance t) hrun hl he
    refine ⟨_, rfl, ?_⟩
    rw [hfinal]
    exact ⟨rfl, rfl, rfl⟩
  case equal =>
    rintro rfl
    exact Agit.judge_equal hue hecc a
  case differs =>
    rw [Agit.judge_differs hue hecc a hne]
    let b := (a.countRead r).countMismatch r (r.data ^^^ want)
    obtain ⟨herr, hmis, hbits⟩ := b.capture_counts c r (r.data ^^^ want)
    exact ⟨hmis, herr, hbits.trans (Agit.countMismatch_bits ..), fun hfirst => Agit.capture_first (a := b) hfirst c hue _,
      fun hlater => Agit.capture_later (a := b) hlater c r _⟩

end Sys2Proof.Machine
end

section
/-!
PROOFS. The step (R5, R38) and what every step keeps: the queue, the canonical forms, blown fuses (R475), what has been sent and
the count of free values.
-/

namespace Sys2Proof.Machine

open Sys2Proof

/-- Every command answers a next state (assumption log entry 10). -/
theorem exec_next (i : Instr) (s : State) : ∃ t, exec i s = .next t := by
  cases i <;> exact ⟨_, rfl⟩

theorem step_cons {s : State} {i : Instr} {rest : List Instr} (h : s.pending = i :: rest) :
    step s = exec i { s with pending := rest } := by
  simp only [step, h]

theorem step_nil {s : State} (h : s.pending = []) : step s = .next { s with now := s.now + 1 } := by
  simp only [step, h, State.advance, Nat.max_eq_right (Nat.le_succ s.now)]

/-- Settles O1: the two cases of the queue. -/
theorem stepRunsFrontCommand : Obligations.StepRunsFrontCommand :=
  ⟨fun _ _ _ => step_cons rfl, fun _ => step_nil⟩

/-- Settles O3: at reset memory and registers list nothing and no command waits. -/
theorem resetSatisfiesInvariant : Obligations.ResetSatisfiesInvariant := ⟨rfl, rfl, rfl⟩

/-- Settles O5: `exec_keeps` says it of every command. -/
theorem nothingIsTakenBack : Obligations.NothingIsTakenBack := by
  intro i s t ht
  have k : Keeps ⟨s, i.mayTick⟩ t := exec_keeps i s t ht
  exact ⟨k.queue, k.fuses, k.sent, k.draws⟩

/-- A state that keeps what `s` has, its queue included, meets the invariant where `s` does. -/
theorem Keeps.inv {s t : State} {b : Bool} (k : Keeps ⟨s, b⟩ t) (h : s.Inv) : t.Inv := by
  obtain ⟨hmem, hregs, hqueue⟩ := h
  exact ⟨k.mem hmem, k.regs hregs, k.queue ▸ hqueue⟩

/-- Taking the front command off the queue keeps the invariant. -/
theorem State.Inv.tail {s : State} {i : Instr} {rest : List Instr} (hq : s.pending = i :: rest) (h : s.Inv) :
    ({ s with pending := rest } : State).Inv := by
  obtain ⟨hmem, hregs, hqueue⟩ := h
  rw [hq, List.all_cons, Bool.and_eq_true] at hqueue
  exact ⟨hmem, hregs, hqueue.2⟩

/-- Settles O4: the front command answers a next state, which keeps what `Keeps` says; with no command only time moves. -/
theorem everyStepIsSafe : Obligations.EveryStepIsSafe := by
  intro s
  cases hq : s.pending with
  | nil => exact ⟨_, step_nil hq, by simp [hq], fun h => h⟩
  | cons i rest =>
    obtain ⟨t, ht⟩ := exec_next i { s with pending := rest }
    have k := exec_keeps i _ t ht
    exact ⟨t, (step_cons hq).trans ht, by rw [k.queue, hq]; rfl, fun h => k.inv (h.tail hq)⟩

end Sys2Proof.Machine
end

section
/-!
PROOFS. The arithmetic of GF(2^8) (R400): products are sums of shifts, and every nonzero byte is a power of α.
-/

namespace Sys2Proof.Machine

open Sys2Proof

/-! ## Sums -/

theorem g8X_xor (a b : Byte) : g8X (a ^^^ b) = g8X a ^^^ g8X b := by
  unfold g8X
  rw [BitVec.getLsbD_xor, BitVec.shiftLeft_xor_distrib]
  cases a.getLsbD 7 <;> cases b.getLsbD 7
  case true.true => simp [xor_xor_xor_comm]
  case true.false => simp only [Bool.true_xor, Bool.not_false, if_true, Bool.false_eq_true, if_false]; ac_rfl
  case false.true => simp only [Bool.false_xor, if_true, Bool.false_eq_true, if_false]; ac_rfl
  case false.false => simp

/-- The product's loop is additive in its left factor and what it has summed so far. -/
theorem g8MulFrom_xor (a b c x y : Byte) (n : Nat) :
    g8MulFrom (a ^^^ b) c n (x ^^^ y) = g8MulFrom a c n x ^^^ g8MulFrom b c n y := by
  induction n generalizing x y with
  | zero => rfl
  | succ n ih =>
    cases h : c.getLsbD n <;>
      simp only [g8MulFrom, h, g8X_xor, xor_xor_xor_comm, ih, Bool.false_eq_true, if_true, if_false, BitVec.xor_zero]

/-- The product's loop commutes with the multiplication by α. -/
theorem g8MulFrom_g8X (a c x : Byte) (n : Nat) : g8MulFrom (g8X a) c n (g8X x) = g8X (g8MulFrom a c n x) := by
  induction n generalizing x with
  | zero => rfl
  | succ n ih =>
    cases h : c.getLsbD n <;>
      simp only [g8MulFrom, h, ← g8X_xor, ih, Bool.false_eq_true, if_true, if_false, BitVec.xor_zero]

theorem g8Mul_xor_left (a b c : Byte) : g8Mul (a ^^^ b) c = g8Mul a c ^^^ g8Mul b c := g8MulFrom_xor a b c 0#8 0#8 8

theorem g8Mul_g8X_left (a b : Byte) : g8Mul (g8X a) b = g8X (g8Mul a b) := g8MulFrom_g8X a b 0#8 8

@[simp] theorem g8Mul_one_left : ∀ a : Byte, g8Mul 1#8 a = a := by decide +kernel

@[simp] theorem g8Mul_zero_left (a : Byte) : g8Mul 0#8 a = 0#8 := by
  simpa using g8Mul_xor_left a a a

/-! ## Powers of α: every nonzero element is one -/

theorem g8Mul_g8Pow (m n : Nat) : g8Mul (g8Pow m) (g8Pow n) = g8Pow (m + n) := by
  induction m with
  | zero => rw [g8Pow, g8Mul_one_left, Nat.zero_add]
  | succ m ih => rw [g8Pow, g8Mul_g8X_left, ih, Nat.succ_add, g8Pow]

theorem g8Pow_255 : g8Pow 255 = 1#8 := by decide +kernel

theorem g8Pow_ne_one : ∀ n < 254, g8Pow (n + 1) ≠ 1#8 := by decide +kernel

theorem g8Pow_mul_255 (n : Nat) : g8Pow (n * 255) = 1#8 := by
  induction n with
  | zero => rw [Nat.zero_mul, g8Pow]
  | succ n ih => rw [Nat.succ_mul, ← g8Mul_g8Pow, ih, g8Pow_255, g8Mul_one_left]

/-- The first 255 powers of α are told apart: α^m times α^(255 − m) is 1, and no other power below 255 is. -/
theorem g8Pow_ne_of_lt {m n : Nat} (hmn : m < n) (hn : n < 255) : g8Pow m ≠ g8Pow n := by
  intro h
  have hunit : g8Pow (n - m - 1 + 1) = 1#8 := by
    have key : g8Mul (g8Pow n) (g8Pow (255 - m)) = 1#8 := by
      rw [← h, g8Mul_g8Pow, show m + (255 - m) = 255 by omega, g8Pow_255]
    rw [g8Mul_g8Pow, show n + (255 - m) = 255 + (n - m - 1 + 1) by omega, ← g8Mul_g8Pow, g8Pow_255, g8Mul_one_left] at key
    exact key
  exact g8Pow_ne_one _ (by omega) hunit

theorem g8Pow_inj {m n : Nat} (hm : m < 255) (hn : n < 255) : g8Pow m = g8Pow n ↔ m = n := by
  constructor
  · intro h
    rcases Nat.lt_trichotomy m n with hlt | heq | hgt
    · exact absurd h (g8Pow_ne_of_lt hlt hn)
    · exact heq
    · exact absurd h.symm (g8Pow_ne_of_lt hgt hm)
  · exact fun h => h ▸ rfl

theorem eq_zero_of_g8X_eq_zero : ∀ a : Byte, g8X a = 0#8 → a = 0#8 := by decide +kernel

theorem g8Pow_ne_zero (n : Nat) : g8Pow n ≠ 0#8 := by
  induction n with
  | zero => decide
  | succ n ih => exact fun h => ih (eq_zero_of_g8X_eq_zero _ h)

/-- 255 powers of α, and 255 nonzero bytes. -/
theorem exists_g8Pow {a : Byte} (ha : a ≠ 0#8) : ∃ n, a = g8Pow n := by
  have hinj : Set.InjOn g8Pow (Finset.range 255) := fun m hm n hn h =>
    (g8Pow_inj (by simpa using hm) (by simpa using hn)).mp h
  have hcard : (insert 0#8 ((Finset.range 255).image g8Pow)).card = Fintype.card Byte := by
    rw [Finset.card_insert_of_notMem, Finset.card_image_of_injOn hinj, Finset.card_range]
    · exact FinEnum.card_eq_fintypeCard (α := Byte)
    · simpa using fun n _ => g8Pow_ne_zero n
  have hmem : a ∈ insert 0#8 ((Finset.range 255).image g8Pow) := by
    rw [Finset.eq_univ_of_card _ hcard]
    exact Finset.mem_univ a
  rcases Finset.mem_insert.mp hmem with h | h
  · exact absurd h ha
  · obtain ⟨n, -, h⟩ := Finset.mem_image.mp h
    exact ⟨n, h.symm⟩

@[simp] theorem g8Mul_zero_right : ∀ a : Byte, g8Mul a 0#8 = 0#8 := by decide +kernel

theorem g8Mul_comm (a b : Byte) : g8Mul a b = g8Mul b a := by
  by_cases ha : a = 0#8
  · simp [ha]
  by_cases hb : b = 0#8
  · simp [hb]
  obtain ⟨m, rfl⟩ := exists_g8Pow ha
  obtain ⟨n, rfl⟩ := exists_g8Pow hb
  rw [g8Mul_g8Pow, g8Mul_g8Pow, Nat.add_comm]

theorem g8Mul_assoc (a b c : Byte) : g8Mul (g8Mul a b) c = g8Mul a (g8Mul b c) := by
  by_cases ha : a = 0#8
  · simp [ha]
  by_cases hb : b = 0#8
  · simp [hb]
  by_cases hc : c = 0#8
  · simp [hc]
  obtain ⟨l, rfl⟩ := exists_g8Pow ha
  obtain ⟨m, rfl⟩ := exists_g8Pow hb
  obtain ⟨n, rfl⟩ := exists_g8Pow hc
  simp only [g8Mul_g8Pow, Nat.add_assoc]

theorem g8Mul_xor_right (a b c : Byte) : g8Mul a (b ^^^ c) = g8Mul a b ^^^ g8Mul a c := by
  rw [g8Mul_comm, g8Mul_xor_left, g8Mul_comm b, g8Mul_comm c]

@[simp] theorem g8Mul_one_right (a : Byte) : g8Mul a 1#8 = a := by rw [g8Mul_comm, g8Mul_one_left]

/-! ## Inverses -/

theorem g8Mul_foldl_g8Pow (m n k : Nat) :
    (List.range k).foldl (fun x _ => g8Mul x (g8Pow n)) (g8Pow m) = g8Pow (m + k * n) := by
  induction k with
  | zero => simp
  | succ k ih =>
    rw [List.range_succ, List.foldl_append, ih, List.foldl_cons, List.foldl_nil, g8Mul_g8Pow, Nat.succ_mul, Nat.add_assoc]

theorem g8Mul_g8Inv {a : Byte} (ha : a ≠ 0#8) : g8Mul a (g8Inv a) = 1#8 := by
  obtain ⟨n, rfl⟩ := exists_g8Pow ha
  rw [g8Inv, g8Mul_foldl_g8Pow, g8Mul_g8Pow, ← g8Pow_mul_255 n]
  congr 1
  omega

theorem g8Mul_right_cancel {a b c : Byte} (hc : c ≠ 0#8) (h : g8Mul a c = g8Mul b c) : a = b := by
  rw [← g8Mul_one_right a, ← g8Mul_g8Inv hc, ← g8Mul_assoc, h, g8Mul_assoc, g8Mul_g8Inv hc, g8Mul_one_right]

theorem eq_zero_of_g8Mul_eq_zero {a c : Byte} (hc : c ≠ 0#8) (h : g8Mul a c = 0#8) : a = 0#8 :=
  g8Mul_right_cancel hc (h.trans (g8Mul_zero_left c).symm)

theorem g8Mul_ne_zero {a c : Byte} (ha : a ≠ 0#8) (hc : c ≠ 0#8) : g8Mul a c ≠ 0#8 := fun h => ha (eq_zero_of_g8Mul_eq_zero hc h)

@[simp] theorem g8Inv_one : g8Inv 1#8 = 1#8 := by simpa using g8Mul_g8Inv (show (1#8 : Byte) ≠ 0#8 by decide)

end Sys2Proof.Machine
end

section
/-!
PROOFS. The code words of a wire block's two codes (R400): the values of a word at the powers of α, and the words with all syndromes 0,
which are the data bytes with their parity bytes.
-/

namespace Sys2Proof.Machine

open Sys2Proof

/-! ## The value of a word at α^i -/

@[simp] theorem rsEval_nil (y : Byte) : rsEval [] y = 0#8 := rfl

theorem rsEval_concat (c : List Byte) (b y : Byte) : rsEval (c ++ [b]) y = g8Mul (rsEval c y) y ^^^ b := by
  simp [rsEval]

theorem rsEval_append (c d : List Byte) (i : Nat) :
    rsEval (c ++ d) (g8Pow i) = g8Mul (rsEval c (g8Pow i)) (g8Pow (i * d.length)) ^^^ rsEval d (g8Pow i) := by
  induction d using List.reverseRecOn with
  | nil => simp [g8Pow]
  | append_singleton d b ih =>
    rw [← List.append_assoc, rsEval_concat, ih, g8Mul_xor_left, g8Mul_assoc, g8Mul_g8Pow, rsEval_concat, List.length_append,
      List.length_singleton, Nat.mul_succ, BitVec.xor_assoc]

theorem rsEval_cons (a : Byte) (c : List Byte) (i : Nat) :
    rsEval (a :: c) (g8Pow i) = g8Mul a (g8Pow (i * c.length)) ^^^ rsEval c (g8Pow i) := by
  simpa [rsEval] using rsEval_append [a] c i

theorem rsEval_eq_zero {c : List Byte} (h : ∀ b ∈ c, b = 0#8) (i : Nat) : rsEval c (g8Pow i) = 0#8 := by
  induction c with
  | nil => rfl
  | cons a c ih =>
    obtain ⟨ha, hc⟩ := List.forall_mem_cons.mp h
    rw [rsEval_cons, ha, ih hc, g8Mul_zero_left, BitVec.xor_zero]

theorem rsEval_zipWith_xor {c d : List Byte} (h : c.length = d.length) (i : Nat) :
    rsEval (List.zipWith (· ^^^ ·) c d) (g8Pow i) = rsEval c (g8Pow i) ^^^ rsEval d (g8Pow i) := by
  induction c generalizing d with
  | nil => rw [List.length_eq_zero_iff.mp h.symm]; simp
  | cons a c ih =>
    obtain ⟨b, d, rfl⟩ := List.exists_cons_of_length_eq_add_one h.symm
    have hl : c.length = d.length := Nat.succ.inj h
    rw [List.zipWith_cons_cons, rsEval_cons, ih hl, rsEval_cons, rsEval_cons, List.length_zipWith, ← hl, Nat.min_self, g8Mul_xor_left,
      xor_xor_xor_comm]

theorem rsEval_map_g8Mul (f : Byte) (c : List Byte) (i : Nat) :
    rsEval (c.map (g8Mul f)) (g8Pow i) = g8Mul f (rsEval c (g8Pow i)) := by
  induction c with
  | nil => simp
  | cons a c ih => rw [List.map_cons, rsEval_cons, ih, List.length_map, g8Mul_assoc, ← g8Mul_xor_right, ← rsEval_cons]

/-- A change of byte `e` by `x` adds x times the power of α^i whose coefficient the byte is. -/
theorem rsEval_modify (x : Byte) {c : List Byte} {e : Nat} (he : e < c.length) (i : Nat) :
    rsEval (c.modify e (· ^^^ x)) (g8Pow i) = rsEval c (g8Pow i) ^^^ g8Mul x (g8Pow (i * (c.length - 1 - e))) := by
  induction c generalizing e with
  | nil => simp at he
  | cons a c ih =>
    cases e with
    | zero =>
      rw [List.modify_zero_cons, rsEval_cons, rsEval_cons, g8Mul_xor_left, List.length_cons, Nat.add_sub_cancel, Nat.sub_zero]
      ac_rfl
    | succ e =>
      rw [List.modify_succ_cons, rsEval_cons, ih (Nat.lt_of_succ_lt_succ he), List.length_modify, rsEval_cons, List.length_cons,
        show c.length + 1 - 1 - (e + 1) = c.length - 1 - e by omega, BitVec.xor_assoc]

/-! ## Code words: the words with all syndromes 0 -/

/-- α^0 to α^7 are the roots of the generator: there its terms below x^8 sum to x^8. -/
theorem rsEval_rsGen : ∀ i < 8, rsEval rsGen (g8Pow i) = g8Pow (i * 8) := by decide +kernel

theorem length_rsGen : rsGen.length = 8 := by decide +kernel

/-- One step of the division by the generator: the remainder `r` takes in the next byte. -/
def parityStep (r : List Byte) (b : Byte) : List Byte :=
  List.zipWith (· ^^^ ·) (r.drop 1 ++ [0#8]) (rsGen.map (g8Mul (b ^^^ r.headD 0#8)))

theorem rsParity_concat (d : List Byte) (b : Byte) : rsParity (d ++ [b]) = parityStep (rsParity d) b := by
  rw [rsParity, List.foldl_concat]
  rfl

@[simp] theorem length_rsParity (d : List Byte) : (rsParity d).length = 8 := by
  induction d using List.reverseRecOn with
  | nil => rfl
  | append_singleton d b ih => simp [rsParity_concat, parityStep, ih, length_rsGen]

theorem rsEval_parityStep {r : List Byte} (hr : r.length = 8) (b : Byte) {i : Nat} (hi : i < 8) :
    rsEval (parityStep r b) (g8Pow i) = g8Mul (rsEval r (g8Pow i)) (g8Pow i) ^^^ g8Mul b (g8Pow (i * 8)) := by
  obtain ⟨a, v, rfl⟩ := List.exists_cons_of_length_eq_add_one hr
  have hv : v.length = 7 := Nat.succ.inj hr
  have hlen : (v ++ [0#8]).length = (rsGen.map (g8Mul (b ^^^ a))).length := by simp [hv, length_rsGen]
  rw [parityStep, List.drop_one, List.tail_cons, List.headD_cons, rsEval_zipWith_xor hlen, rsEval_map_g8Mul, rsEval_rsGen i hi,
    rsEval_concat, rsEval_cons, hv, g8Mul_xor_left, g8Mul_xor_left, g8Mul_assoc, g8Mul_g8Pow, ← Nat.mul_succ, BitVec.xor_zero]
  ac_rfl

/-- The parity bytes are the remainder of the data bytes shifted up by eight places. -/
theorem rsEval_rsParity (d : List Byte) {i : Nat} (hi : i < 8) :
    rsEval (rsParity d) (g8Pow i) = g8Mul (rsEval d (g8Pow i)) (g8Pow (i * 8)) := by
  induction d using List.reverseRecOn with
  | nil => simp [rsParity, List.replicate, rsEval_cons]
  | append_singleton d b ih =>
    rw [rsParity_concat, rsEval_parityStep (length_rsParity d) b hi, ih, rsEval_concat, g8Mul_xor_left, g8Mul_assoc, g8Mul_assoc,
      g8Mul_comm (g8Pow i)]

/-- A word whose syndromes are all 0. -/
def CodeWord (c : List Byte) : Prop := ∀ i < 8, rsEval c (g8Pow i) = 0#8

theorem rsSyndromes_zero_iff (c : List Byte) : (rsSyndromes c).all (· = 0#8) = true ↔ CodeWord c := by
  simp [rsSyndromes, CodeWord]

theorem codeWord_rsParity (d : List Byte) : CodeWord (d ++ rsParity d) := by
  intro i hi
  rw [rsEval_append, length_rsParity, rsEval_rsParity d hi, BitVec.xor_self]

/-- The coefficients of p(αy) + α^n·p(y): each is scaled, that of y^n to 0. -/
def scaleBytes (n : Nat) : List Byte → List Byte
  | [] => []
  | b :: v => g8Mul b (g8Pow v.length ^^^ g8Pow n) :: scaleBytes n v

@[simp] theorem length_scaleBytes (n : Nat) (v : List Byte) : (scaleBytes n v).length = v.length := by
  induction v with
  | nil => rfl
  | cons b v ih => simp [scaleBytes, ih]

theorem rsEval_scaleBytes (n : Nat) (v : List Byte) (i : Nat) :
    rsEval (scaleBytes n v) (g8Pow i) = rsEval v (g8Pow (i + 1)) ^^^ g8Mul (rsEval v (g8Pow i)) (g8Pow n) := by
  induction v with
  | nil => simp [scaleBytes]
  | cons b v ih =>
    rw [scaleBytes, rsEval_cons, ih, length_scaleBytes, rsEval_cons, rsEval_cons, g8Mul_assoc, g8Mul_xor_left (g8Pow v.length),
      g8Mul_g8Pow, g8Mul_g8Pow, g8Mul_xor_right, g8Mul_xor_left, g8Mul_assoc, g8Mul_g8Pow, Nat.add_comm v.length, ← Nat.succ_mul,
      Nat.add_comm n, xor_xor_xor_comm]

/-- Scaling with n of at most 255 coefficients below y^n loses none. -/
theorem eq_zero_of_scaleBytes {n : Nat} {v : List Byte} (hv : v.length ≤ n) (hn : n < 255) (h : ∀ b ∈ scaleBytes n v, b = 0#8) :
    ∀ b ∈ v, b = 0#8 := by
  induction v with
  | nil => simp
  | cons a v ih =>
    obtain ⟨ha, htail⟩ := List.forall_mem_cons.mp h
    have hunit : g8Pow v.length ^^^ g8Pow n ≠ 0#8 := fun e => g8Pow_ne_of_lt hv hn (BitVec.xor_eq_zero_iff.mp e)
    exact List.forall_mem_cons.mpr ⟨eq_zero_of_g8Mul_eq_zero hunit ha, ih (Nat.le_of_succ_le hv) htail⟩

/-- A polynomial of degree below n with the n roots α^0 to α^(n − 1) is zero. -/
theorem eq_zero_of_rsEval {n : Nat} (hn : n < 255) {v : List Byte} (hv : v.length = n) (h : ∀ i < n, rsEval v (g8Pow i) = 0#8) :
    ∀ b ∈ v, b = 0#8 := by
  induction n generalizing v with
  | zero => simp [List.length_eq_zero_iff.mp hv]
  | succ n ih =>
    obtain ⟨a, v, rfl⟩ := List.exists_cons_of_length_eq_add_one hv
    have hvn : v.length = n := Nat.succ.inj hv
    have heval : ∀ i < n + 1, rsEval v (g8Pow i) = g8Mul a (g8Pow (i * n)) := fun i hi =>
      (BitVec.xor_eq_zero_iff.mp (by rw [← hvn, ← rsEval_cons]; exact h i hi)).symm
    have hv0 : ∀ b ∈ v, b = 0#8 := by
      refine eq_zero_of_scaleBytes (Nat.le_of_eq hvn) (by omega) (ih (by omega) ((length_scaleBytes n v).trans hvn) fun i hi => ?_)
      rw [rsEval_scaleBytes, heval (i + 1) (by omega), heval i (by omega), g8Mul_assoc, g8Mul_g8Pow, ← Nat.succ_mul, BitVec.xor_self]
    have ha := heval 0 (by omega)
    rw [rsEval_eq_zero hv0 0, Nat.zero_mul, g8Pow, g8Mul_one_right] at ha
    exact List.forall_mem_cons.mpr ⟨ha.symm, hv0⟩

/-- A code word is its data bytes with their parity bytes. -/
theorem CodeWord.eq_rsParity {d p : List Byte} (hp : p.length = 8) (h : CodeWord (d ++ p)) : p = rsParity d := by
  have hlen : p.length = (rsParity d).length := by rw [hp, length_rsParity]
  have hdiff : ∀ b ∈ List.zipWith (· ^^^ ·) p (rsParity d), b = 0#8 := by
    refine eq_zero_of_rsEval (n := 8) (by omega) (by simp [hp]) fun i hi => ?_
    have hval := h i hi
    rw [rsEval_append, hp] at hval
    rw [rsEval_zipWith_xor hlen, rsEval_rsParity d hi, BitVec.xor_comm, hval]
  apply List.ext_getElem hlen
  intro i h1 h2
  have hi := hdiff _ (List.getElem_mem (l := List.zipWith (· ^^^ ·) p (rsParity d)) (n := i) (by simp; omega))
  rw [List.getElem_zipWith] at hi
  exact BitVec.xor_eq_zero_iff.mp hi

end Sys2Proof.Machine
end

section
/-!
PROOFS. The decoder of a wire block's codes (R400): the search names a single changed byte, and whatever is answered is a code word that
differs from what was received in at most four bytes.
-/

namespace Sys2Proof.Machine

open Sys2Proof

/-! ## One changed byte -/

/-- Coefficient `i` of a polynomial, lowest power first. -/
def coeff (l : List Byte) (i : Nat) : Byte := (l.drop i).headD 0#8

@[simp] theorem coeff_nil (i : Nat) : coeff [] i = 0#8 := by simp [coeff]
@[simp] theorem coeff_cons_zero (a : Byte) (l : List Byte) : coeff (a :: l) 0 = a := rfl
@[simp] theorem coeff_cons_succ (a : Byte) (l : List Byte) (i : Nat) : coeff (a :: l) (i + 1) = coeff l i := rfl

/-- The sum the decoder forms of a locator and syndromes: the products of their coefficients whose places add up to `n`. -/
def convolve (c syn : List Byte) (m n : Nat) : Byte :=
  (List.range m).foldl (fun a i => a ^^^ g8Mul (coeff c i) (coeff syn (n - i))) 0#8

/-- The sum for a locator of two coefficients. -/
theorem convolve_two (a b : Byte) (syn : List Byte) (m n : Nat) :
    convolve [a, b] syn (m + 2) n = g8Mul a (coeff syn n) ^^^ g8Mul b (coeff syn (n - 1)) := by
  induction m with
  | zero => simp [convolve, List.range_succ]
  | succ m ih =>
    rw [convolve, List.range_succ, List.foldl_append, ← convolve, ih]
    simp

theorem convolve_one (c syn : List Byte) (n : Nat) : convolve c syn 1 n = g8Mul (coeff c 0) (coeff syn n) := by
  simp [convolve]

/-- The syndromes that a change by `x` of the coefficient of y^k leaves. -/
def oneSyndromes (x : Byte) (k : Nat) : List Byte := (List.range 8).map (fun i => g8Mul x (g8Pow (i * k)))

theorem coeff_oneSyndromes (x : Byte) (k : Nat) {n : Nat} (hn : n < 8) : coeff (oneSyndromes x k) n = g8Mul x (g8Pow (n * k)) := by
  rw [coeff, oneSyndromes, ← List.map_drop, List.headD_eq_head?_getD, List.head?_map, List.head?_drop, List.getElem?_range hn]
  rfl

theorem rsSyndromes_modify {c : List Byte} (h : CodeWord c) (x : Byte) {e : Nat} (he : e < c.length) :
    rsSyndromes (c.modify e (· ^^^ x)) = oneSyndromes x (c.length - 1 - e) := by
  apply List.map_congr_left
  intro i hi
  rw [rsEval_modify x he, h i (List.mem_range.mp hi), BitVec.zero_xor]

/-- Each syndrome is α^k times the one before. -/
theorem convolve_next (x : Byte) (k m : Nat) {n : Nat} (hn : n + 1 < 8) :
    convolve [1#8, g8Pow k] (oneSyndromes x k) (m + 2) (n + 1) = 0#8 := by
  rw [convolve_two, coeff_oneSyndromes x k hn, coeff_oneSyndromes x k (by omega), g8Mul_one_left, g8Mul_comm (g8Pow k), g8Mul_assoc,
    g8Mul_g8Pow, Nat.add_sub_cancel, ← Nat.succ_mul, BitVec.xor_self]

section
variable {x : Byte} (hx : x ≠ 0#8) (k : Nat)
include hx

/-- The locator with the one root that names the coefficient of y^k. -/
def Locator.Names (k : Nat) (l : Locator) : Prop := l.c = [1#8, g8Pow k] ∧ l.len = 1

omit hx in
theorem Locator.step_eq (l : Locator) (syn : List Byte) (n : Nat) : l.step syn n =
    let d := convolve l.c syn (l.len + 1) n
    if d = 0#8 then { l with gap := l.gap + 1 }
    else
      let c := polyAdd l.c (List.replicate l.gap 0#8 ++ l.b.map (g8Mul (g8Mul d (g8Inv l.last))))
      if 2 * l.len ≤ n then { c := c, b := l.c, len := n + 1 - l.len, gap := 1, last := d }
      else { l with c := c, gap := l.gap + 1 } := rfl

/-- The first step takes S_0 for the ratio of the syndromes. -/
theorem Locator.step_first : ({} : Locator).step (oneSyndromes x k) 0 =
    { c := [1#8, x], b := [1#8], len := 1, gap := 1, last := x } := by
  have hd : convolve [1#8] (oneSyndromes x k) 1 0 = x := by
    simpa [convolve, g8Pow] using coeff_oneSyndromes x k (n := 0) (by omega)
  rw [Locator.step_eq]
  simp [hd, hx, polyAdd]

/-- The second step corrects the ratio to S_1 ÷ S_0, which is α^k. -/
theorem Locator.step_second :
    (({ c := [1#8, x], b := [1#8], len := 1, gap := 1, last := x } : Locator).step (oneSyndromes x k) 1).Names k := by
  have hd : convolve [1#8, x] (oneSyndromes x k) 2 1 = g8Mul (g8Pow k ^^^ x) x := by
    rw [convolve_two, coeff_oneSyndromes x k (by omega), coeff_oneSyndromes x k (by omega), g8Mul_one_left, Nat.zero_mul, g8Pow,
      g8Mul_one_right, Nat.one_mul, g8Mul_xor_left, g8Mul_comm x]
  rw [Locator.step_eq]
  by_cases hratio : g8Pow k = x
  · simp [hd, hratio, Locator.Names]
  · have hne : g8Mul (g8Pow k ^^^ x) x ≠ 0#8 := g8Mul_ne_zero (fun e => hratio (BitVec.xor_eq_zero_iff.mp e)) hx
    have hf : g8Mul (g8Mul (g8Pow k ^^^ x) x) (g8Inv x) = g8Pow k ^^^ x := by rw [g8Mul_assoc, g8Mul_g8Inv hx, g8Mul_one_right]
    simp [hd, hne, hf, polyAdd, Locator.Names]

omit hx in
theorem Locator.Names.step {l : Locator} (h : l.Names k) {n : Nat} (hn : n + 1 < 8) : (l.step (oneSyndromes x k) (n + 1)).Names k := by
  obtain ⟨hc, hlen⟩ := h
  rw [Locator.step_eq, if_pos (by rw [hc, hlen]; exact convolve_next x k 0 hn)]
  exact ⟨hc, hlen⟩

/-- After a change of one byte the search ends with the locator of its place. -/
theorem locator_names :
    ((List.range 8).foldl (fun l n => l.step (oneSyndromes x k) n) ({} : Locator)).Names k := by
  have hstep : ∀ {l : Locator} {n : Nat}, l.Names k → n + 1 < 8 → (l.step (oneSyndromes x k) (n + 1)).Names k := fun h hn =>
    h.step k hn
  have hlater : ∀ m < 7, ((List.range (m + 2)).foldl (fun l n => l.step (oneSyndromes x k) n) ({} : Locator)).Names k := by
    intro m hm
    induction m with
    | zero =>
      simp only [List.range_succ, List.range_zero, List.nil_append, List.foldl_append, List.foldl_cons, List.foldl_nil,
        Locator.step_first hx]
      exact Locator.step_second hx k
    | succ m ih =>
      rw [List.range_succ, List.foldl_concat]
      exact (ih (by omega)).step k (by omega)
  exact hlater 6 (by omega)

end

/-! ## The decoder -/

/-- The places of a word of `n` bytes that a locator names. -/
def Locator.places (l : Locator) (n : Nat) : List Nat :=
  (List.range n).filter (fun i => polyAt l.c (g8Inv (g8Pow (n - 1 - i))) = 0#8)

/-- The word with the bytes at a locator's places changed as its syndromes say. -/
def Locator.repair (l : Locator) (syn w : List Byte) : List Byte :=
  let omega := (List.range 8).map (fun k => convolve l.c syn (k + 1) k)
  let deriv := (List.range l.c.length).map (fun i => if i % 2 = 0 then coeff l.c (i + 1) else 0#8)
  (w.zip (List.range w.length)).map (fun y =>
    if (l.places w.length).contains y.2 then
      let xk := g8Pow (w.length - 1 - y.2)
      y.1 ^^^ g8Mul xk (g8Mul (polyAt omega (g8Inv xk)) (g8Inv (polyAt deriv (g8Inv xk))))
    else y.1)

theorem g8Inv_ne_zero {a : Byte} (ha : a ≠ 0#8) : g8Inv a ≠ 0#8 := by
  intro h
  have := g8Mul_g8Inv ha
  simp [h] at this

theorem rsDecode_eq (w : List Byte) : rsDecode w =
    if (rsSyndromes w).all (· = 0#8) then some (w, false)
    else
      let l := (List.range 8).foldl (fun l n => l.step (rsSyndromes w) n) ({} : Locator)
      let fixed := l.repair (rsSyndromes w) w
      if l.len ≤ 4 ∧ (l.places w.length).length = l.len ∧ (rsSyndromes fixed).all (· = 0#8) then some (fixed, true) else none := rfl

theorem rsDecode_codeWord {c : List Byte} (h : CodeWord c) : rsDecode c = some (c, false) := by
  rw [rsDecode_eq, if_pos ((rsSyndromes_zero_iff c).mpr h)]

theorem Locator.Names.polyAt_eq_zero_iff {l : Locator} {k : Nat} (h : l.Names k) (hk : k < 255) {j : Nat} (hj : j < 255) :
    polyAt l.c (g8Inv (g8Pow j)) = 0#8 ↔ j = k := by
  have hval : polyAt l.c (g8Inv (g8Pow j)) = g8Mul (g8Pow k) (g8Inv (g8Pow j)) ^^^ 1#8 := by
    rw [h.1]
    simp [polyAt]
  rw [hval, BitVec.xor_eq_zero_iff, ← g8Mul_g8Inv (g8Pow_ne_zero j)]
  constructor
  · intro e
    exact ((g8Pow_inj hk hj).mp (g8Mul_right_cancel (g8Inv_ne_zero (g8Pow_ne_zero j)) e)).symm
  · rintro rfl
    rfl

theorem Locator.Names.places {l : Locator} {n e : Nat} (h : l.Names (n - 1 - e)) (he : e < n) (hn : n ≤ 255) : l.places n = [e] := by
  have hplace : ∀ i ∈ List.range n, decide (polyAt l.c (g8Inv (g8Pow (n - 1 - i))) = 0#8) = (i == e) := by
    intro i hi
    have := List.mem_range.mp hi
    rw [Bool.eq_iff_iff, decide_eq_true_iff, h.polyAt_eq_zero_iff (by omega) (by omega), beq_iff_eq]
    omega
  rw [Locator.places, List.filter_congr hplace, List.filter_beq, List.count_eq_one_of_mem List.nodup_range (List.mem_range.mpr he),
    List.replicate_one]

theorem polyAt_replicate_zero (y : Byte) (n : Nat) : polyAt (List.replicate n 0#8) y = 0#8 := by
  induction n with
  | zero => rfl
  | succ n ih => rw [List.replicate_succ, polyAt, List.foldr_cons, ← polyAt, ih, g8Mul_zero_left, BitVec.xor_zero]

section
variable {l : Locator} {k : Nat} (h : l.Names k)
include h

/-- With one error the evaluator is the change itself. -/
theorem Locator.Names.omega (x y : Byte) :
    polyAt ((List.range 8).map (fun n => convolve l.c (oneSyndromes x k) (n + 1) n)) y = x := by
  have hfirst : convolve l.c (oneSyndromes x k) 1 0 = x := by
    rw [h.1, convolve_one, coeff_cons_zero, coeff_oneSyndromes x k (by omega), Nat.zero_mul, g8Pow, g8Mul_one_right, g8Mul_one_left]
  have hlater : (List.range 7).map (fun n => convolve l.c (oneSyndromes x k) (n + 2) (n + 1)) = List.replicate 7 0#8 := by
    refine List.eq_replicate_iff.mpr ⟨by simp, fun b hb => ?_⟩
    obtain ⟨n, hn, rfl⟩ := List.mem_map.mp hb
    have := List.mem_range.mp hn
    rw [h.1]
    exact convolve_next x k n (by omega)
  rw [List.range_succ_eq_map, List.map_cons, List.map_map, hfirst]
  change polyAt (x :: (List.range 7).map (fun n => convolve l.c (oneSyndromes x k) (n + 2) (n + 1))) y = x
  rw [hlater, polyAt, List.foldr_cons, ← polyAt, polyAt_replicate_zero, g8Mul_zero_left, BitVec.zero_xor]

/-- The derivative of a locator with one root is constant. -/
theorem Locator.Names.deriv (y : Byte) :
    polyAt ((List.range l.c.length).map (fun i => if i % 2 = 0 then coeff l.c (i + 1) else 0#8)) y = g8Pow k := by
  rw [h.1]
  simp [List.range_succ, polyAt]

end

/-- The value computed at a locator's one place is the change. -/
theorem Locator.Names.repair {l : Locator} {x : Byte} {w : List Byte} {e : Nat} (h : l.Names (w.length - 1 - e)) (he : e < w.length)
    (hn : w.length ≤ 255) : l.repair (oneSyndromes x (w.length - 1 - e)) w = w.modify e (· ^^^ x) := by
  have hchange : g8Mul (g8Pow (w.length - 1 - e)) (g8Mul x (g8Inv (g8Pow (w.length - 1 - e)))) = x := by
    rw [g8Mul_comm x, ← g8Mul_assoc, g8Mul_g8Inv (g8Pow_ne_zero _), g8Mul_one_left]
  apply List.ext_getElem
  · simp [Locator.repair]
  intro i h1 h2
  rw [List.getElem_modify]
  by_cases hi : e = i
  · subst hi
    simp [Locator.repair, h.places he hn, h.omega, h.deriv, hchange]
  · simp [Locator.repair, h.places he hn, hi, Ne.symm hi]

/-- A code word with one byte changed is corrected. -/
theorem rsDecode_modify {c : List Byte} (h : CodeWord c) {x : Byte} (hx : x ≠ 0#8) {e : Nat} (he : e < c.length) (hn : c.length ≤ 255) :
    rsDecode (c.modify e (· ^^^ x)) = some (c, true) := by
  have hsyn := rsSyndromes_modify h x he
  have hnames := locator_names hx (c.length - 1 - e)
  have hne : ¬ CodeWord (c.modify e (· ^^^ x)) := by
    intro hw
    have h0 := hw 0 (by omega)
    rw [rsEval_modify x he, h 0 (by omega), Nat.zero_mul, g8Pow, g8Mul_one_right, BitVec.zero_xor] at h0
    exact hx h0
  rw [rsDecode_eq, if_neg (fun hz => hne ((rsSyndromes_zero_iff _).mp hz)), hsyn]
  generalize (List.range 8).foldl (fun l n => l.step (oneSyndromes x (c.length - 1 - e)) n) ({} : Locator) = l at hnames
  have hlen : (c.modify e (· ^^^ x)).length = c.length := List.length_modify ..
  have hrepair : l.repair (oneSyndromes x (c.length - 1 - e)) (c.modify e (· ^^^ x)) = c := by
    rw [← hlen, Locator.Names.repair (by rwa [hlen]) (by rwa [hlen]) (by rwa [hlen]), List.modify_modify_eq]
    have htwice : (fun b : Byte => b ^^^ x) ∘ (fun b => b ^^^ x) = id := by
      funext b
      simp
    rw [htwice, List.modify_id]
  simp [hrepair, hlen, hnames.places he hn, hnames.2, (rsSyndromes_zero_iff c).mpr h]

/-! ## What the decoder answers -/

/-- The places at which two words differ are among those that pass a test each differing place passes. -/
theorem length_differing_le {w v : List Byte} (hlen : v.length = w.length) {p : Nat → Bool}
    (h : ∀ i (hw : i < w.length) (hv : i < v.length), w[i] ≠ v[i] → p i = true) :
    ((w.zip v).filter (fun y => y.1 != y.2)).length ≤ ((List.range w.length).filter p).length := by
  induction w generalizing v p with
  | nil => simp
  | cons a w ih =>
    obtain ⟨b, v, rfl⟩ := List.exists_cons_of_length_eq_add_one hlen
    have hrest := ih (v := v) (p := p ∘ Nat.succ) (Nat.succ.inj hlen) fun i hw hv hne =>
      h (i + 1) (Nat.succ_lt_succ hw) (Nat.succ_lt_succ hv) hne
    have hfirst : a ≠ b → p 0 = true := h 0 (Nat.succ_pos _) (Nat.succ_pos _)
    rw [List.length_cons, List.range_succ_eq_map, List.zip_cons_cons, List.filter_cons, List.filter_cons, List.filter_map,
      apply_ite List.length, apply_ite List.length, List.length_cons, List.length_cons, List.length_map]
    by_cases hab : a = b
    · rw [if_neg (by simpa using hab)]
      split <;> omega
    · rw [if_pos (by simpa using hab), if_pos (hfirst hab)]
      omega

theorem Locator.length_repair (l : Locator) (syn w : List Byte) : (l.repair syn w).length = w.length := by
  simp [Locator.repair]

theorem Locator.repair_differing_le (l : Locator) (syn w : List Byte) :
    ((w.zip (l.repair syn w)).filter (fun y => y.1 != y.2)).length ≤ (l.places w.length).length := by
  refine length_differing_le (l.length_repair syn w) fun i hw hv hne => ?_
  by_contra hp
  rw [decide_eq_true_iff] at hp
  exact hne (by simp [Locator.repair, Locator.places, hp])

/-- What the decoder answers is a code word that differs from its input in at most four bytes. -/
theorem rsDecode_some {w v : List Byte} {fixed : Bool} (h : rsDecode w = some (v, fixed)) :
    v.length = w.length ∧ CodeWord v ∧ ((w.zip v).filter (fun y => y.1 != y.2)).length ≤ 4 := by
  rw [rsDecode_eq] at h
  split at h
  case isTrue hz =>
    obtain ⟨rfl, -⟩ := Prod.mk.inj (Option.some.inj h)
    refine ⟨rfl, (rsSyndromes_zero_iff _).mp hz, ?_⟩
    exact (length_differing_le rfl (p := fun _ => false) fun i _ _ hne => absurd rfl hne).trans (by simp)
  case isFalse =>
    generalize (List.range 8).foldl (fun l n => l.step (rsSyndromes w) n) ({} : Locator) = l at h
    dsimp only at h
    split at h
    case isTrue hok =>
      obtain ⟨hlen, hplaces, hz⟩ := hok
      obtain ⟨rfl, -⟩ := Prod.mk.inj (Option.some.inj h)
      refine ⟨l.length_repair _ w, (rsSyndromes_zero_iff _).mp hz, ?_⟩
      have := l.repair_differing_le (rsSyndromes w) w
      omega
    case isFalse => cases h

end Sys2Proof.Machine
end

section
/-!
PROOFS. Wire blocks (R400): two interleaved code words, and the flit read back from them.
-/

namespace Sys2Proof.Machine

open Sys2Proof

/-! ## Interleaving -/

@[simp] theorem evens_interleave {u v : List Byte} (h : u.length = v.length) : evens (interleave u v) = u := by
  induction u generalizing v with
  | nil => cases v <;> rfl
  | cons a u ih =>
    obtain ⟨b, v, rfl⟩ := List.exists_cons_of_length_eq_add_one h.symm
    rw [interleave, evens, ih (Nat.succ.inj h)]

theorem evens_cons (a : Byte) (l : List Byte) : evens (a :: l) = a :: evens (l.drop 1) := by
  cases l <;> rfl

theorem odds_interleave {u v : List Byte} (h : u.length = v.length) : evens ((interleave u v).drop 1) = v := by
  induction u generalizing v with
  | nil => rw [List.length_eq_zero_iff.mp h.symm]; rfl
  | cons a u ih =>
    obtain ⟨b, v, rfl⟩ := List.exists_cons_of_length_eq_add_one h.symm
    rw [interleave, List.drop_one, List.tail_cons, evens_cons, ih (Nat.succ.inj h)]

@[simp] theorem length_interleave {u v : List Byte} (h : u.length = v.length) : (interleave u v).length = 2 * u.length := by
  induction u generalizing v with
  | nil => simp [interleave]
  | cons a u ih =>
    obtain ⟨b, v, rfl⟩ := List.exists_cons_of_length_eq_add_one h.symm
    simp only [interleave, List.length_cons, ih (Nat.succ.inj h)]
    omega

theorem interleave_append {u v : List Byte} (h : u.length = v.length) (p q : List Byte) :
    interleave (u ++ p) (v ++ q) = interleave u v ++ interleave p q := by
  induction u generalizing v with
  | nil => rw [List.length_eq_zero_iff.mp h.symm]; rfl
  | cons a u ih =>
    obtain ⟨b, v, rfl⟩ := List.exists_cons_of_length_eq_add_one h.symm
    simp only [List.cons_append, interleave, ih (Nat.succ.inj h)]

theorem length_evens (l : List Byte) : (evens l).length = (l.length + 1) / 2 := by
  fun_induction evens l with
  | case1 a b l ih => simp only [List.length_cons, ih]; omega
  | case2 => simp
  | case3 => rfl

theorem interleave_evens_odds {l : List Byte} (h : l.length % 2 = 0) : interleave (evens l) (evens (l.drop 1)) = l := by
  fun_induction evens l with
  | case1 a b l ih =>
    rw [List.drop_one, List.tail_cons, evens_cons, interleave, ih (by simp only [List.length_cons] at h; omega)]
  | case2 => simp at h
  | case3 => rfl

/-- Changing byte `i` of two interleaved words changes byte i ÷ 2 of the first or the second. -/
theorem modify_interleave {u v : List Byte} (h : u.length = v.length) (i : Nat) (f : Byte → Byte) :
    (interleave u v).modify i f =
      if i % 2 = 0 then interleave (u.modify (i / 2) f) v else interleave u (v.modify (i / 2) f) := by
  induction u generalizing v i with
  | nil => rw [List.length_eq_zero_iff.mp h.symm]; simp [interleave]
  | cons a u ih =>
    obtain ⟨b, v, rfl⟩ := List.exists_cons_of_length_eq_add_one h.symm
    match i with
    | 0 => simp [interleave]
    | 1 => simp [interleave]
    | i + 2 =>
      rw [interleave, List.modify_succ_cons, List.modify_succ_cons, ih (Nat.succ.inj h), Nat.add_mod_right, Nat.add_div_right i (by omega),
        List.modify_succ_cons, List.modify_succ_cons]
      split <;> rfl

theorem take_interleave {u v : List Byte} (h : u.length = v.length) (n : Nat) :
    (interleave u v).take (2 * n) = interleave (u.take n) (v.take n) := by
  induction n generalizing u v with
  | zero => simp [interleave]
  | succ n ih =>
    cases u with
    | nil => rw [List.length_eq_zero_iff.mp h.symm]; simp [interleave]
    | cons a u =>
      obtain ⟨b, v, rfl⟩ := List.exists_cons_of_length_eq_add_one h.symm
      rw [interleave, Nat.mul_succ, List.take_succ_cons, List.take_succ_cons, ih (Nat.succ.inj h), List.take_succ_cons,
        List.take_succ_cons, interleave]

/-! ## Blocks -/

/-- The code word of data bytes. -/
def encoded (d : List Byte) : List Byte := d ++ rsParity d

theorem blockOf_interleave {d e : List Byte} (h : d.length = e.length) :
    blockOf (interleave d e) = interleave (encoded d) (encoded e) := by
  rw [blockOf, evens_interleave h, odds_interleave h, encoded, encoded, interleave_append h]

theorem exists_lanes {f : List Byte} (hf : f.length = 256) : ∃ d e, d.length = 128 ∧ e.length = 128 ∧ interleave d e = f :=
  ⟨evens f, evens (f.drop 1), by rw [length_evens, hf], by rw [length_evens, List.length_drop, hf], interleave_evens_odds (by omega)⟩

/-- A block whose two words decode is the flit of their data bytes. -/
theorem unblock_interleave {u v p q : List Byte} {x y : Bool} (hu : u.length = 136) (hv : v.length = 136)
    (hp : rsDecode u = some (p, x)) (hq : rsDecode v = some (q, y)) :
    unblock (interleave u v) = some ((interleave p q).take 256, x || y) := by
  have hlen : u.length = v.length := hu.trans hv.symm
  rw [unblock, if_neg (by simp [length_interleave hlen, hu]), evens_interleave hlen, odds_interleave hlen, hp, hq]

@[simp] theorem length_encoded (d : List Byte) : (encoded d).length = d.length + 8 := by simp [encoded]

theorem take_interleave_encoded {d e : List Byte} (hd : d.length = 128) (he : e.length = 128) :
    (interleave (encoded d) (encoded e)).take 256 = interleave d e := by
  rw [take_interleave (n := 128) (by simp [hd, he]), encoded, encoded, List.take_left' hd, List.take_left' he]

/-- A change of one byte is the addition of a nonzero byte. -/
theorem set_eq_modify_xor {l : List Byte} {i : Nat} {b : Byte} (hi : i < l.length) (hb : l[i]? ≠ some b) :
    ∃ x, x ≠ 0#8 ∧ l.set i b = l.modify i (· ^^^ x) := by
  refine ⟨l[i] ^^^ b, fun h => hb ?_, ?_⟩
  · rw [List.getElem?_eq_getElem hi, BitVec.xor_eq_zero_iff.mp h]
  · apply List.ext_getElem (by simp)
    intro j h1 h2
    rw [List.getElem_set, List.getElem_modify]
    split
    case isTrue hij => subst hij; simp
    case isFalse => rfl

theorem codeWord_encoded (d : List Byte) : CodeWord (encoded d) := codeWord_rsParity d

/-- The data bytes of a code word name it. -/
theorem CodeWord.encoded_take {c : List Byte} (h : CodeWord c) (hc : c.length = 136) : encoded (c.take 128) = c := by
  have hsplit := List.take_append_drop 128 c
  rw [encoded, ← CodeWord.eq_rsParity (p := c.drop 128) (by simp [hc]) (by rwa [hsplit]), hsplit]

theorem unblock_blockOf {f : List Byte} (hf : f.length = 256) : unblock (blockOf f) = some (f, false) := by
  obtain ⟨d, e, hd, he, rfl⟩ := exists_lanes hf
  rw [blockOf_interleave (hd.trans he.symm), unblock_interleave (by simp [hd]) (by simp [he]) (rsDecode_codeWord (codeWord_encoded d))
    (rsDecode_codeWord (codeWord_encoded e)), take_interleave_encoded hd he]
  rfl

theorem unblock_blockOf_set {f : List Byte} (hf : f.length = 256) {i : Nat} {b : Byte} (hi : i < 272)
    (hb : (blockOf f)[i]? ≠ some b) : unblock ((blockOf f).set i b) = some (f, true) := by
  obtain ⟨d, e, hd, he, rfl⟩ := exists_lanes hf
  have hlen : (encoded d).length = (encoded e).length := by simp [hd, he]
  rw [blockOf_interleave (hd.trans he.symm)] at hb ⊢
  obtain ⟨x, hx, hset⟩ := set_eq_modify_xor (by rw [length_interleave hlen]; simp [hd]; omega) hb
  have hfixed : ∀ c : List Byte, c.length = 128 → rsDecode ((encoded c).modify (i / 2) (· ^^^ x)) = some (encoded c, true) := fun c hc =>
    rsDecode_modify (codeWord_encoded c) hx (by simp [hc]; omega) (by simp [hc])
  rw [hset, modify_interleave hlen]
  split
  case isTrue =>
    rw [unblock_interleave (by simp [hd]) (by simp [he]) (hfixed d hd) (rsDecode_codeWord (codeWord_encoded e)),
      take_interleave_encoded hd he]
    rfl
  case isFalse =>
    rw [unblock_interleave (by simp [hd]) (by simp [he]) (rsDecode_codeWord (codeWord_encoded d)) (hfixed e he),
      take_interleave_encoded hd he]
    rfl

/-- The flit that the decoder names has a block that is two code words, each near the one received. -/
theorem unblock_some {b f : List Byte} {fixed : Bool} (h : unblock b = some (f, fixed)) : f.length = 256 ∧
    (((evens b).zip (evens (blockOf f))).filter (fun y => y.1 != y.2)).length ≤ 4 ∧
    (((evens (b.drop 1)).zip (evens ((blockOf f).drop 1))).filter (fun y => y.1 != y.2)).length ≤ 4 := by
  rw [unblock] at h
  split at h
  case isTrue => cases h
  case isFalse hlen =>
    split at h
    case h_2 => cases h
    case h_1 p q hp hq =>
      obtain ⟨p, x⟩ := p
      obtain ⟨q, y⟩ := q
      obtain ⟨rfl, -⟩ := Prod.mk.inj (Option.some.inj h)
      obtain ⟨hplen, hpcode, hpnear⟩ := rsDecode_some hp
      obtain ⟨hqlen, hqcode, hqnear⟩ := rsDecode_some hq
      have hp136 : p.length = 136 := by rw [hplen, length_evens]; omega
      have hq136 : q.length = 136 := by rw [hqlen, length_evens, List.length_drop]; omega
      have hpq : p.length = q.length := hp136.trans hq136.symm
      have htake : (p.take 128).length = (q.take 128).length := by simp [hpq]
      have hf := take_interleave hpq 128
      have hflen : ((interleave p q).take 256).length = 256 := by rw [hf, length_interleave htake]; simp [hp136]
      have hblock : blockOf ((interleave p q).take 256) = interleave p q := by
        rw [hf, blockOf_interleave htake, hpcode.encoded_take hp136, hqcode.encoded_take hq136]
      rw [hblock, evens_interleave hpq, odds_interleave hpq]
      exact ⟨hflen, hpnear, hqnear⟩

end Sys2Proof.Machine
end

section
/-!
PROOFS. What the operations on a port make of it (R404 to R406, R426, R427): down, empty, to retrain, after a violation, and after the
header of a flit.
-/

namespace Sys2Proof.Machine

open Sys2Proof

/-! ## A port in states that differ elsewhere -/

theorem State.port_of_ports {s t : State} (h : t.links.ports = s.links.ports) (q : Nat) : t.port q = s.port q := by
  rw [State.port, State.port, h]

theorem State.port_of_links {s t : State} (h : t.links = s.links) (q : Nat) : t.port q = s.port q :=
  State.port_of_ports (congrArg Links.ports h) q

@[simp] theorem State.advance_port (s : State) (t q : Nat) : (s.advance t).port q = s.port q := rfl
@[simp] theorem State.emit_port (s : State) (o : Out) (q : Nat) : (s.emit o).port q = s.port q := rfl
@[simp] theorem State.incReg_port (s : State) (k q : Nat) : (s.incReg k).port q = s.port q := rfl
@[simp] theorem State.incReg_now (s : State) (k : Nat) : (s.incReg k).now = s.now := rfl

@[simp] theorem State.inc64_links (s : State) (k : Nat) : (s.inc64 k).links = s.links := by
  unfold State.inc64
  dsimp only
  split <;> rfl

@[simp] theorem State.inc64_port (s : State) (k q : Nat) : (s.inc64 k).port q = s.port q := State.port_of_links (s.inc64_links k) q

@[simp] theorem State.logErr_port (s : State) (a : ErrArg) (q : Nat) : (s.logErr a).port q = s.port q :=
  State.port_of_links (s.logErr_links a) q

@[simp] theorem State.mbxEvent_port (s : State) (p bit q : Nat) : (s.mbxEvent p bit).port q = s.port q :=
  State.port_of_links (s.raise_links ..) q
@[simp] theorem State.mbxEvent_now (s : State) (q bit : Nat) : (s.mbxEvent q bit).now = s.now := s.raise_now ..

/-- A message sent changes what waits and what is reported, and no port. -/
theorem State.sendMsg_ports (s : State) (m : Msg) : (s.sendMsg m).links.ports = s.links.ports ∧ (s.sendMsg m).now = s.now := by
  unfold State.sendMsg
  split
  · exact ⟨rfl, rfl⟩
  · split
    · split
      · simp [State.toInbox, State.refuseRec, State.modLinks]
      · exact ⟨rfl, rfl⟩
    · exact ⟨rfl, rfl⟩

@[simp] theorem State.sendMsg_port (s : State) (m : Msg) (q : Nat) : (s.sendMsg m).port q = s.port q :=
  State.port_of_ports (s.sendMsg_ports m).1 q

@[simp] theorem State.sendMsg_now (s : State) (m : Msg) : (s.sendMsg m).now = s.now := (s.sendMsg_ports m).2

/-! ## What the operations on a port make of it (R404, R406, R411, R427) -/

/-- The port DARK or DARK_HELD, with a reason. -/
def Port.down (p : Port) (st : PortState) (reason : Nat) : Port := { p with state := st, reason := reason, phase := 0 }

/-- The port with its buffers empty, and its sequences and credits anew. -/
def Port.cleared (p : Port) : Port := { p with
  expected := 0, gotAny := false, nakAt := none, sent := 0, retry := [], replay := [], nakRun := 0, usedRes := [], usedShared := [],
  held := [], heldRes := [], returns := [], knownPartner := none }

/-- The port that leaves UP to retrain at time `now`. -/
def Port.retrained (p : Port) (now : Nat) (dest : PortState) : Port :=
  if p.state ≠ .up then p
  else
    let ts := stamp now (1000000 * cyclesPerMicro) p.retrains
    let p := { p with retrains := ts, knownPartner := some (p.partner.toNat % 256, p.partner.toNat / 256 % 16) }
    if ts.length ≥ 4 then (p.down .darkHeld 6).cleared
    else { p with state := dest, reason := 0, since := now, phase := 0, echoes := 0, minTrip := 0 }

/-- The port after a violation at time `now`. -/
def Port.violated (p : Port) (now code seq : Nat) : Port :=
  let vs := stamp now (1000 * cyclesPerMicro) p.viols
  let rs := stamp now (10000000 * cyclesPerMicro) p.violRetrains
  let p := { p with lastViol := BitVec.ofNat 32 (code + 256 * seq), viols := vs }
  if vs.length < 16 then p
  else
    let p := { p with viols := [], violRetrains := rs }
    if rs.length ≥ 3 then (p.down .darkHeld 4).cleared else p.retrained now .training

@[simp] theorem State.portDown_port (s : State) (q : Nat) (st : PortState) (r : Nat) :
    (s.portDown q st r).port q = (s.port q).down st r := by
  unfold State.portDown
  dsimp only
  split <;> split <;> simp [Port.down]

@[simp] theorem State.clearPort_port (s : State) (q : Nat) : (s.clearPort q).port q = (s.port q).cleared :=
  (State.port_of_ports (s := s.modPort q Port.cleared) rfl q).trans (s.modPort_port q _)

@[simp] theorem State.portRetrain_port (s : State) (q : Nat) (dest : PortState) :
    (s.portRetrain q dest).port q = (s.port q).retrained s.now dest := by
  unfold State.portRetrain Port.retrained
  dsimp only
  split
  · rfl
  · split <;> simp [State.startTraining]

/-- What every violation does: a record, a count, the register, and a notice to a partner that is known. -/
def State.noteViolation (s : State) (q code seq : Nat) : State :=
  let p := s.port q
  let vs := Machine.stamp s.now (1000 * cyclesPerMicro) p.viols
  let w := (((s.incReg (mbxKey q 0x44)).mbxEvent q 4).logErr { cls := 0, source := 8, code := 1, unit := q, detail := code }).modPort q
    (fun p => { p with lastViol := BitVec.ofNat 32 (code + 256 * seq), viols := vs })
  if p.partner.getLsbD 31 then w.sendMsg { op := 0x20, src := w.dev, dst := p.partner.toNat % 256, addr := seq, aux := code } else w

/-- What the sixteenth violation within 1 ms does besides: the port retrains, or is held dark for the third time in 10 s. -/
def State.sixteenth (w : State) (q : Nat) (old : List Nat) : State :=
  let rs := Machine.stamp w.now (10000000 * cyclesPerMicro) old
  let w := w.modPort q (fun p => { p with viols := [], violRetrains := rs })
  if rs.length ≥ 3 then (w.portDown q .darkHeld 4).clearPort q
  else
    let w := w.portRetrain q .training
    if (w.port q).state = .training then (w.mbxEvent q 1).logErr { cls := 0, source := 8, code := 3, unit := q, detail := 4 } else w

theorem State.violation_eq (s : State) (q code seq : Nat) : s.violation q code seq =
    if (Machine.stamp s.now (1000 * cyclesPerMicro) (s.port q).viols).length < 16 then s.noteViolation q code seq
    else (s.noteViolation q code seq).sixteenth q (s.port q).violRetrains := by
  unfold State.violation State.noteViolation State.sixteenth
  dsimp only

theorem State.noteViolation_port (s : State) (q code seq : Nat) : (s.noteViolation q code seq).port q = { s.port q with
    lastViol := BitVec.ofNat 32 (code + 256 * seq), viols := Machine.stamp s.now (1000 * cyclesPerMicro) (s.port q).viols } := by
  unfold State.noteViolation
  dsimp only
  split <;> simp

theorem State.noteViolation_now (s : State) (q code seq : Nat) : (s.noteViolation q code seq).now = s.now := by
  unfold State.noteViolation
  dsimp only
  split <;> simp

theorem State.sixteenth_port (w : State) (q : Nat) (old : List Nat) : (w.sixteenth q old).port q =
    let p := { w.port q with viols := [], violRetrains := Machine.stamp w.now (10000000 * cyclesPerMicro) old }
    if (Machine.stamp w.now (10000000 * cyclesPerMicro) old).length ≥ 3 then (p.down .darkHeld 4).cleared
    else p.retrained w.now .training := by
  unfold State.sixteenth
  dsimp only
  split
  · simp
  · split <;> simp

@[simp] theorem State.violation_port (s : State) (q code seq : Nat) :
    (s.violation q code seq).port q = (s.port q).violated s.now code seq := by
  rw [State.violation_eq, Port.violated, apply_ite (State.port · q), State.sixteenth_port, State.noteViolation_port,
    State.noteViolation_now]

theorem Port.retrained_up {p : Port} (h : p.state = .up) (now : Nat) (dest : PortState) : p.retrained now dest =
    if (stamp now (1000000 * cyclesPerMicro) p.retrains).length ≥ 4 then
      (({ p with
        retrains := stamp now (1000000 * cyclesPerMicro) p.retrains,
        knownPartner := some (p.partner.toNat % 256, p.partner.toNat / 256 % 16) } : Port).down .darkHeld 6).cleared
    else { p with
      retrains := stamp now (1000000 * cyclesPerMicro) p.retrains,
      knownPartner := some (p.partner.toNat % 256, p.partner.toNat / 256 % 16),
      state := dest, reason := 0, since := now, phase := 0, echoes := 0, minTrip := 0 } := by
  rw [Port.retrained, if_neg (not_not_intro h)]

theorem Port.retrained_state {p : Port} (h : p.state = .up) {now : Nat}
    (hfew : (stamp now (1000000 * cyclesPerMicro) p.retrains).length < 4) {dest : PortState} : (p.retrained now dest).state = dest := by
  rw [Port.retrained_up h, if_neg (Nat.not_le.mpr hfew)]

theorem Port.retrained_lastViol (p : Port) (now : Nat) (dest : PortState) : (p.retrained now dest).lastViol = p.lastViol := by
  by_cases h : p.state = .up
  · rw [Port.retrained_up h]
    split <;> rfl
  · rw [Port.retrained, if_pos h]

/-- No port is UP right after it was told to retrain. -/
theorem Port.retrained_not_up (p : Port) (now : Nat) {dest : PortState} (hd : dest ≠ .up) : (p.retrained now dest).state ≠ .up := by
  by_cases h : p.state = .up
  · rw [Port.retrained_up h]
    split
    · exact PortState.noConfusion
    · exact hd
  · rwa [Port.retrained, if_pos h]

section
variable {p : Port} {now code seq : Nat}

theorem Port.violated_few (h : (stamp now (1000 * cyclesPerMicro) p.viols).length < 16) : p.violated now code seq =
    { p with lastViol := BitVec.ofNat 32 (code + 256 * seq), viols := stamp now (1000 * cyclesPerMicro) p.viols } := if_pos h

theorem Port.violated_dark (h : 16 ≤ (stamp now (1000 * cyclesPerMicro) p.viols).length)
    (hr : 3 ≤ (stamp now (10000000 * cyclesPerMicro) p.violRetrains).length) : p.violated now code seq =
    (({ p with
      lastViol := BitVec.ofNat 32 (code + 256 * seq), viols := [],
      violRetrains := stamp now (10000000 * cyclesPerMicro) p.violRetrains } : Port).down .darkHeld 4).cleared :=
  (if_neg (Nat.not_lt.mpr h)).trans (if_pos hr)

theorem Port.violated_retrains (h : 16 ≤ (stamp now (1000 * cyclesPerMicro) p.viols).length)
    (hr : (stamp now (10000000 * cyclesPerMicro) p.violRetrains).length < 3) : p.violated now code seq =
    ({ p with
      lastViol := BitVec.ofNat 32 (code + 256 * seq), viols := [],
      violRetrains := stamp now (10000000 * cyclesPerMicro) p.violRetrains } : Port).retrained now .training :=
  (if_neg (Nat.not_lt.mpr h)).trans (if_neg (Nat.not_le.mpr hr))

theorem Port.violated_lastViol (p : Port) (now code seq : Nat) :
    (p.violated now code seq).lastViol = BitVec.ofNat 32 (code + 256 * seq) := by
  rcases Nat.lt_or_ge (stamp now (1000 * cyclesPerMicro) p.viols).length 16 with hfew | hmany
  · rw [Port.violated_few hfew]
  rcases Nat.lt_or_ge (stamp now (10000000 * cyclesPerMicro) p.violRetrains).length 3 with hretrain | hdark
  · rw [Port.violated_retrains hmany hretrain, Port.retrained_lastViol]
  · rw [Port.violated_dark hmany hdark]
    rfl

/-- A port that is UP after a violation has kept its sequences. -/
theorem Port.violated_expected (h : (p.violated now code seq).state = .up) : (p.violated now code seq).expected = p.expected := by
  rcases Nat.lt_or_ge (stamp now (1000 * cyclesPerMicro) p.viols).length 16 with hfew | hmany
  · rw [Port.violated_few hfew]
  rcases Nat.lt_or_ge (stamp now (10000000 * cyclesPerMicro) p.violRetrains).length 3 with hretrain | hdark
  · rw [Port.violated_retrains hmany hretrain] at h
    exact absurd h (Port.retrained_not_up _ now PortState.noConfusion)
  · rw [Port.violated_dark hmany hdark] at h
    cases h

end

/-! ## The header of a flit (R404, R405) -/

theorem State.takeAck_violation {s : State} {q n : Nat} (h : min (s.port q).sent 2048 ≤ ((s.port q).sent + 4095 - n) % 4096) :
    s.takeAck q n = s.violation q 5 n := if_pos h

/-- The port after the ACK of a number it has sent. -/
def Port.acked (p : Port) (now n : Nat) : Port :=
  let left := fun f : SentFlit => decide ((n + 4096 - f.seq) % 4096 ≥ 2048)
  { p with
    retry := p.retry.filter left, replay := p.replay.filter left, progressAt := if p.retry.all left then p.progressAt else now,
    nakRun := if (n + 4096 - p.nakSeq) % 4096 < 2048 then 0 else p.nakRun }

theorem State.takeAck_acked {s : State} {q n : Nat} (h : ((s.port q).sent + 4095 - n) % 4096 < min (s.port q).sent 2048) :
    s.takeAck q n = s.modPort q (fun p => p.acked s.now n) := if_neg (Nat.not_le.mpr h)

theorem State.takeAck_expected {s : State} {q n : Nat} (h : ((s.takeAck q n).port q).state = .up) :
    ((s.takeAck q n).port q).expected = (s.port q).expected := by
  rcases Nat.lt_or_ge (((s.port q).sent + 4095 - n) % 4096) (min (s.port q).sent 2048) with hsent | hunsent
  · rw [State.takeAck_acked hsent, State.modPort_port]
    rfl
  · rw [State.takeAck_violation hunsent, State.violation_port] at h ⊢
    exact Port.violated_expected h

/-- The credits that one field of a flit returns. -/
def State.takeCredits (s : State) (q c : Nat) : State :=
  if c / 256 = 0 then s else s.modPort q (fun p => p.gotCredits (creditKey c) (c / 256))

theorem State.takeHeader_eq (s : State) (q : Nat) (f : List Byte) : s.takeHeader q f =
    ((if flitAckV f then s.takeAck q (flitAck f) else s).takeCredits q (fieldLE f 4 2)).takeCredits q (fieldLE f 6 2) := rfl

theorem State.takeCredits_regs (s : State) (q c : Nat) : (s.takeCredits q c).regs = s.regs := by
  unfold State.takeCredits
  split <;> rfl

theorem State.takeCredits_sequence (s : State) (q c : Nat) :
    ((s.takeCredits q c).port q).state = (s.port q).state ∧ ((s.takeCredits q c).port q).expected = (s.port q).expected := by
  unfold State.takeCredits
  split
  · exact ⟨rfl, rfl⟩
  · rw [State.modPort_port]
    exact ⟨rfl, rfl⟩

/-- A port that is UP after a flit's header still expects the same number. -/
theorem State.takeHeader_expected {s : State} {q : Nat} {f : List Byte} (h : ((s.takeHeader q f).port q).state = .up) :
    ((s.takeHeader q f).port q).expected = (s.port q).expected := by
  rw [State.takeHeader_eq] at h ⊢
  rw [(State.takeCredits_sequence _ q _).1, (State.takeCredits_sequence _ q _).1] at h
  rw [(State.takeCredits_sequence _ q _).2, (State.takeCredits_sequence _ q _).2]
  split
  case isTrue ha =>
    rw [if_pos ha] at h
    exact State.takeAck_expected h
  case isFalse => rfl

end Sys2Proof.Machine
end

section
/-!
PROOFS. A block received (R404, R406): the registers it leaves, the count of accepted DATA flits, and the number its port expects next.
-/

namespace Sys2Proof.Machine

open Sys2Proof

/-! ## Registers that reports leave -/

theorem State.reg_of_regs {s t : State} (h : t.regs = s.regs) (k : Nat) : t.reg k = s.reg k := by
  rw [State.reg, State.reg, h]

theorem State.incReg_reg_ne (s : State) {k j : Nat} (h : j ≠ k) : (s.incReg k).reg j = s.reg j := State.setReg_reg_ne s k j _ h

theorem State.orReg_reg_ne (s : State) {k j : Nat} (bit : Nat) (h : j ≠ k) : (s.orReg k bit).reg j = s.reg j :=
  State.setReg_reg_ne s k j _ h

theorem State.toStream_regs (s : State) (e : StreamEntry) : (s.toStream e).regs = s.regs := by
  unfold State.toStream
  dsimp only
  repeat' split
  all_goals rfl

theorem State.requestMsix_regs (s : State) (f v : Nat) : (s.requestMsix f v).regs = s.regs := by
  unfold State.requestMsix State.sendMsix
  split
  · rfl
  · split <;> rfl

/-- An event writes its block's events register alone. -/
theorem State.raise_reg_ne (s : State) (fn irq bit vec : Nat) {ev j : Nat} (h : j ≠ ev) : (s.raise fn ev irq bit vec).reg j = s.reg j := by
  have hbit : ((s.orReg ev bit).toStream (.event ev bit)).reg j = s.reg j :=
    (State.reg_of_regs (State.toStream_regs _ _) j).trans (s.orReg_reg_ne bit h)
  unfold State.raise
  dsimp only
  split
  · exact (State.reg_of_regs (State.requestMsix_regs _ _ _) j).trans hbit
  · exact hbit

/-- Either branch of a choice. -/
theorem State.reg_ite {c : Prop} [Decidable c] {s t u : State} {j : Nat} (h : t.reg j = s.reg j) (k : u.reg j = s.reg j) :
    (if c then t else u).reg j = s.reg j := by
  split
  · exact h
  · exact k

/-- A fold whose steps leave the registers leaves them. -/
theorem State.foldl_regs {α : Type} {f : State → α → State} (hf : ∀ t x, (f t x).regs = t.regs) (l : List α) (s : State) :
    (l.foldl f s).regs = s.regs := by
  induction l generalizing s with
  | nil => rfl
  | cons a l ih => exact (ih _).trans (hf s a)

section
variable {j : Nat} (hj : 0x100000 ≤ j)
include hj

theorem errKey_ne {o : Nat} (ho : o < 0x1000) : j ≠ errKey o := by unfold errKey; omega

theorem State.errEvent_reg (s : State) (bit : Nat) : (s.errEvent bit).reg j = s.reg j :=
  s.raise_reg_ne _ _ _ _ (errKey_ne hj (by omega))

theorem State.ringPut_reg (s : State) (r : ErrRec) : (s.ringPut r).reg j = s.reg j := by
  unfold State.ringPut
  split <;> split <;>
    simp only [State.errEvent_reg hj, State.incReg_reg_ne _ (errKey_ne hj (show 0x20 < 0x1000 by omega)),
      State.incReg_reg_ne _ (errKey_ne hj (show 0x1C < 0x1000 by omega))] <;> rfl

theorem State.contain_reg (s : State) (p source code : Nat) : (s.contain p source code).reg j = s.reg j := by
  have hbit := s.orReg_reg_ne p (errKey_ne hj (show 0x24 < 0x1000 by omega))
  unfold State.contain
  dsimp only
  split <;> exact hbit

omit hj in
theorem State.fatalStop_regs (s : State) (source code : Nat) : (s.fatalStop source code).regs = s.regs := by
  have hstop : ∀ w : State, w.stopAllCmds.regs = w.regs := fun _ => rfl
  rw [State.fatalStop, hstop, State.foldl_regs fun t p => State.modPart_regs t p _]

theorem State.logErrWrite_reg (s : State) (a : ErrArg) (cls fr count : Nat) (rest : List SuppEntry) (limited : Bool) :
    (s.logErrWrite a cls fr count rest limited).reg j = s.reg j := by
  have hkept : ∀ (w : State) (e : ErrSt) (x : StreamEntry), (({ w with err := e } : State).toStream x).reg j = w.reg j := fun _ _ _ =>
    State.reg_of_regs (State.toStream_regs _ _) j
  have hput : ∀ (w : State) (r : ErrRec) (e : ErrSt), (if w.host.en then w.ringPut r else { w with err := e }).reg j = w.reg j :=
    fun _ _ _ => State.reg_ite (State.ringPut_reg hj _ _) rfl
  have hbad : ∀ (c : Prop) (_ : Decidable c) (w : State) (e : ErrSt), (if c then { w with err := e } else w).reg j = w.reg j :=
    fun _ _ _ _ => State.reg_ite rfl rfl
  unfold State.logErrWrite
  dsimp only
  refine State.reg_ite ((State.contain_reg hj _ _ _ _).trans ?_)
    (State.reg_ite ((State.reg_of_regs (State.fatalStop_regs _ _ _) j).trans ?_) ?_)
  all_goals
    exact (hbad _ _ _ _).trans ((hput _ _ _).trans (hkept _ _ _))

/-- An error record leaves the registers of the ports. -/
theorem State.logErr_reg (s : State) (a : ErrArg) : (s.logErr a).reg j = s.reg j := by
  unfold State.logErr
  dsimp only
  split
  · split
    · rfl
    · exact State.logErrWrite_reg hj _ _ _ _ _ _ _
  · exact State.logErrWrite_reg hj _ _ _ _ _ _ _
  · exact State.logErrWrite_reg hj _ _ _ _ _ _ _

theorem State.sendMsg_reg (s : State) (m : Msg) : (s.sendMsg m).reg j = s.reg j := by
  unfold State.sendMsg
  split
  · rfl
  · split
    · split
      · exact s.logErr_reg hj _
      · rfl
    · rfl

end

/-! ## MBX_RXF, the count of accepted DATA flits -/

/-- MBX_RXF of a port. -/
abbrev rxf (q : Nat) : Nat := mbxKey q 0x2C

theorem rxf_ge (q : Nat) : 0x100000 ≤ rxf q := by unfold rxf mbxKey; omega

theorem rxf_ne (q : Nat) {o : Nat} (h : o ≠ 0x2C) : rxf q ≠ mbxKey q o := by unfold rxf mbxKey; omega

@[simp] theorem State.modPort_reg (s : State) (q k : Nat) (f : Port → Port) : (s.modPort q f).reg k = s.reg k := rfl

@[simp] theorem State.countReg_rxf (s : State) (q : Nat) {o : Nat} (h : o ≠ 0x2C) : (s.incReg (mbxKey q o)).reg (rxf q) = s.reg (rxf q) :=
  s.incReg_reg_ne (rxf_ne q h)

@[simp] theorem State.mbxEvent_rxf (s : State) (q bit : Nat) : (s.mbxEvent q bit).reg (rxf q) = s.reg (rxf q) :=
  s.raise_reg_ne _ _ _ _ (rxf_ne q (by omega))

@[simp] theorem State.logErr_rxf (s : State) (a : ErrArg) (q : Nat) : (s.logErr a).reg (rxf q) = s.reg (rxf q) :=
  s.logErr_reg (rxf_ge q) a

@[simp] theorem State.sendMsg_rxf (s : State) (m : Msg) (q : Nat) : (s.sendMsg m).reg (rxf q) = s.reg (rxf q) :=
  s.sendMsg_reg (rxf_ge q) m

@[simp] theorem State.clearPort_rxf (s : State) (q : Nat) : (s.clearPort q).reg (rxf q) = s.reg (rxf q) := rfl

@[simp] theorem State.startTraining_rxf (s : State) (q : Nat) : (s.startTraining q).reg (rxf q) = s.reg (rxf q) := rfl

@[simp] theorem State.portDown_rxf (s : State) (q : Nat) (st : PortState) (r : Nat) : (s.portDown q st r).reg (rxf q) = s.reg (rxf q) := by
  unfold State.portDown
  dsimp only
  split <;> split <;> simp

@[simp] theorem State.portRetrain_rxf (s : State) (q : Nat) (dest : PortState) : (s.portRetrain q dest).reg (rxf q) = s.reg (rxf q) := by
  unfold State.portRetrain
  dsimp only
  split
  · rfl
  · split <;> simp

theorem State.noteViolation_rxf (s : State) (q code seq : Nat) : (s.noteViolation q code seq).reg (rxf q) = s.reg (rxf q) := by
  unfold State.noteViolation
  dsimp only
  split <;> simp

theorem State.sixteenth_rxf (w : State) (q : Nat) (old : List Nat) : (w.sixteenth q old).reg (rxf q) = w.reg (rxf q) := by
  unfold State.sixteenth
  dsimp only
  split
  · simp
  · split <;> simp

@[simp] theorem State.violation_rxf (s : State) (q code seq : Nat) : (s.violation q code seq).reg (rxf q) = s.reg (rxf q) := by
  rw [State.violation_eq]
  split
  · exact s.noteViolation_rxf q code seq
  · rw [State.sixteenth_rxf, State.noteViolation_rxf]

theorem State.sendFlit_regs (s : State) (q kind seq tag nmsg : Nat) (payload : List Byte) :
    (s.sendFlit q kind seq tag nmsg payload).regs = s.regs := rfl

/-- A second NAK waits 1 µs. -/
theorem State.sendNak_waits {s : State} {q n : Nat} (h : (s.port q).nakAt = some n) (hn : s.now < n + cyclesPerMicro) :
    s.sendNak q = s := by
  simp [State.sendNak, h, hn]

theorem State.sendNak_regs (s : State) (q : Nat) : (s.sendNak q).regs = s.regs := by
  unfold State.sendNak
  dsimp only
  cases (s.port q).nakAt with
  | none => exact State.sendFlit_regs _ q 2 _ 0 0 []
  | some t =>
    dsimp only
    split
    · rfl
    · exact State.sendFlit_regs _ q 2 _ 0 0 []

@[simp] theorem State.sendNak_rxf (s : State) (q : Nat) : (s.sendNak q).reg (rxf q) = s.reg (rxf q) :=
  State.reg_of_regs (s.sendNak_regs q) _

theorem State.badBlock_rxf (s : State) (q : Nat) : (s.badBlock q false).reg (rxf q) = s.reg (rxf q) := by
  unfold State.badBlock
  rw [if_neg Bool.false_ne_true]
  dsimp only
  split
  · rfl
  · split <;> simp

theorem State.takeAck_rxf (s : State) (q n : Nat) : (s.takeAck q n).reg (rxf q) = s.reg (rxf q) := by
  rcases Nat.lt_or_ge (((s.port q).sent + 4095 - n) % 4096) (min (s.port q).sent 2048) with hsent | hunsent
  · rw [State.takeAck_acked hsent, State.modPort_reg]
  · rw [State.takeAck_violation hunsent, State.violation_rxf]

theorem State.takeHeader_rxf (s : State) (q : Nat) (f : List Byte) : (s.takeHeader q f).reg (rxf q) = s.reg (rxf q) := by
  rw [State.takeHeader_eq, State.reg_of_regs (State.takeCredits_regs _ q _), State.reg_of_regs (State.takeCredits_regs _ q _)]
  split
  · exact s.takeAck_rxf q _
  · rfl

/-! ## A block received -/

/-- The state in which the decoder's correction of a flit has been counted. -/
def State.corrected (s : State) (q : Nat) (fixed : Bool) : State := if fixed then s.incReg (mbxKey q 0x38) else s

@[simp] theorem State.corrected_port (s : State) (q : Nat) (fixed : Bool) : (s.corrected q fixed).port q = s.port q := by
  unfold State.corrected
  split <;> rfl

theorem State.corrected_rxf (s : State) (q : Nat) (fixed : Bool) : (s.corrected q fixed).reg (rxf q) = s.reg (rxf q) :=
  State.reg_ite (s.countReg_rxf q (by omega)) rfl

/-- Block `b` at a port that is UP carries flit `f`, sound and of kind `kind`. -/
structure Carries (b : List Byte) (kind : Nat) (f : List Byte) (fixed : Bool) : Prop where
  decoded : unblock b = some (f, fixed)
  crc : fieldLE f 252 4 = flitCrc (f.take 252)
  kind_eq : flitKind f = kind
  fields : flitFieldBad f = false

section
variable {s : State} {q kind : Nat} {b f : List Byte} {fixed : Bool} {g : State → List Byte → State} (hup : (s.port q).state = .up)
include hup

theorem State.receive_broken (hb : unblock b = none) : s.receive q kind b g = s.badBlock q false := by
  simp [State.receive, hup, hb]

theorem State.receive_badCrc (hb : unblock b = some (f, fixed)) (hc : fieldLE f 252 4 ≠ flitCrc (f.take 252)) :
    s.receive q kind b g = s.badBlock q false := by
  simp [State.receive, hup, hb, hc]

/-- What a decoded flit with a sound CRC does. -/
theorem State.receive_decoded (hb : unblock b = some (f, fixed)) (hc : fieldLE f 252 4 = flitCrc (f.take 252)) :
    s.receive q kind b g =
      let w := s.corrected q fixed
      if flitKind f ≥ 5 then w.violation q 1 (flitSeq f)
      else if flitKind f ≠ kind then w
      else if flitFieldBad f then
        let w := w.violation q 2 (flitSeq f)
        if kind = 1 then w.sendNak q else w
      else
        let w := w.takeHeader q f
        if (w.port q).state ≠ .up then w else g w f := by
  rw [State.receive, if_neg (not_not_intro hup), hb]
  dsimp only
  rw [if_neg (not_not_intro hc)]
  rfl

end

/-- A block received either leaves MBX_RXF, or carries a sound flit that acts on the state in which its header has been taken. -/
theorem State.receive_cases (s : State) (q : Nat) (b : List Byte) (g : State → List Byte → State) :
    (s.receive q 1 b g).reg (rxf q) = s.reg (rxf q) ∨ ∃ f fixed, Carries b 1 f fixed ∧
      (((s.corrected q fixed).takeHeader q f).port q).state = .up ∧
      s.receive q 1 b g = g ((s.corrected q fixed).takeHeader q f) f := by
  by_cases hup : (s.port q).state = .up
  case neg => exact .inl (by rw [State.receive_down hup])
  rcases hb : unblock b with _ | ⟨f, fixed⟩
  · rw [State.receive_broken hup hb, State.badBlock_rxf]
    exact .inl rfl
  by_cases hcrc : fieldLE f 252 4 = flitCrc (f.take 252)
  case neg =>
    rw [State.receive_badCrc hup hb hcrc, State.badBlock_rxf]
    exact .inl rfl
  rw [State.receive_decoded hup hb hcrc]
  have hcorrected := s.corrected_rxf q fixed
  split
  · exact .inl ((State.violation_rxf _ q _ _).trans hcorrected)
  split
  · exact .inl hcorrected
  split
  · exact .inl (by rw [if_pos rfl, State.sendNak_rxf, State.violation_rxf, hcorrected])
  dsimp only
  split
  · exact .inl ((State.takeHeader_rxf _ q f).trans hcorrected)
  rename_i hkind hfields hstill
  exact .inr ⟨f, fixed, ⟨hb, hcrc, not_not.mp hkind, by simpa using hfields⟩, not_not.mp hstill, rfl⟩

/-! ## A DATA flit (R404) -/

@[simp] theorem State.takeMsg_port (s : State) (q : Nat) (x : RxSlot) (m : Msg) (r : Nat) : (s.takeMsg q x m).port r = s.port r := by
  unfold State.takeMsg
  split
  · rfl
  · split
    · split
      · rw [State.sendMsg_port, State.refuseRec, State.logErr_port]
      · rfl
    · rfl

theorem State.foldl_takeMsg_port (s : State) (q : Nat) (x : RxSlot) (l : List Msg) (r : Nat) :
    (l.foldl (fun s m => s.takeMsg q x m) s).port r = s.port r := by
  induction l generalizing s with
  | nil => rfl
  | cons m l ih => rw [List.foldl_cons, ih, State.takeMsg_port]

/-- Freeing a place changes what a port still has to return, and nothing else of it. -/
theorem State.freeSlot_port (s : State) (x : Option RxSlot) (q : Nat) :
    (s.freeSlot x).port q = { s.port q with returns := ((s.freeSlot x).port q).returns } := by
  cases x with
  | none => rfl
  | some x =>
    unfold State.freeSlot
    dsimp only
    split
    · rfl
    · by_cases hq : q = x.port
      · subst hq
        rw [State.modPort_port]
      · rw [State.modPort_port_ne _ _ _ _ hq]

theorem State.rxTake_expected (s : State) (q key : Nat) : ((s.rxTake q key).port q).expected = (s.port q).expected := by
  unfold State.rxTake
  split <;> rw [State.modPort_port]

/-- A DATA flit in sequence is refused, or the port expects the next number. -/
theorem State.acceptData_cases (s : State) (q : Nat) (f : List Byte) : (s.acceptData q f).reg (rxf q) = s.reg (rxf q) ∨
    ((s.acceptData q f).port q).expected = ((s.port q).expected + 1) % 4096 := by
  unfold State.acceptData
  dsimp only
  split
  · exact .inl (by simp)
  split
  · exact .inl (by simp)
  split
  · exact .inl (by simp)
  · right
    rw [State.freeSlot_port, State.foldl_takeMsg_port, State.modPort_port, State.inc64_port]
    dsimp only
    rw [State.rxTake_expected]

/-- MBX_RXF moves only for a DATA flit in sequence, and the port then expects the next number. -/
theorem State.dataFlit_cases (s : State) (q : Nat) (f : List Byte) : (s.dataFlit q f).reg (rxf q) = s.reg (rxf q) ∨
    ((s.port q).expected + 4096 - flitSeq f) % 4096 = 0 ∧ ((s.dataFlit q f).port q).expected = ((s.port q).expected + 1) % 4096 := by
  unfold State.dataFlit
  dsimp only
  split
  case isTrue h => exact (s.acceptData_cases q f).imp_right fun hnext => ⟨h, hnext⟩
  case isFalse =>
    split
    · exact .inl rfl
    · exact .inl (s.sendNak_rxf q)

/-- A DATA flit one behind the number expected is dropped. -/
theorem State.dataFlit_dropped {s : State} {q : Nat} {f : List Byte} (h : 0 < ((s.port q).expected + 4096 - flitSeq f) % 4096)
    (hlt : ((s.port q).expected + 4096 - flitSeq f) % 4096 < 2048) : s.dataFlit q f = s :=
  (if_neg (Nat.ne_of_gt h)).trans (if_pos hlt)

/-- After the number of an accepted flit the port expects the next one, so that the flit is one behind. -/
theorem one_behind {e n : Nat} (hn : n < 4096) (h : (e + 4096 - n) % 4096 = 0) : ((e + 1) % 4096 + 4096 - n) % 4096 = 1 := by omega

theorem execDataFlit_not_twice {s v w : State} {q t t2 : Nat} {b : List Byte} (h1 : exec (.dataFlit q b t) s = .next v)
    (h2 : exec (.dataFlit q b t2) v = .next w) (hmoved : v.reg (rxf q) ≠ s.reg (rxf q)) : w.reg (rxf q) = v.reg (rxf q) := by
  have hv : (s.advance t).receive q 1 b (fun s f => s.dataFlit q f) = v := Host.Outcome.next.inj h1
  have hw : (v.advance t2).receive q 1 b (fun s f => s.dataFlit q f) = w := Host.Outcome.next.inj h2
  rcases (s.advance t).receive_cases q b (fun s f => s.dataFlit q f) with hstay | ⟨f, fixed, hf, -, hact⟩
  · exact absurd (hv ▸ hstay) hmoved
  rcases (v.advance t2).receive_cases q b (fun s f => s.dataFlit q f) with hstay | ⟨f', fixed', hf', hup, hact'⟩
  · exact hw ▸ hstay
  obtain ⟨rfl, rfl⟩ := Prod.mk.inj (Option.some.inj (hf.decoded.symm.trans hf'.decoded))
  rw [hv] at hact
  rw [hw] at hact'
  have hsame : (((v.advance t2).corrected q fixed).takeHeader q f).reg (rxf q) = v.reg (rxf q) := by
    rw [State.takeHeader_rxf, State.corrected_rxf]
    rfl
  rcases State.dataFlit_cases (((s.advance t).corrected q fixed).takeHeader q f) q f with hstay | ⟨hseq, hnext⟩
  · rw [← hact, State.takeHeader_rxf, State.corrected_rxf] at hstay
    exact absurd hstay hmoved
  rw [← hact] at hnext
  have hbehind := one_behind (n := flitSeq f) (Nat.mod_lt _ (by omega)) hseq
  rw [← hnext] at hbehind
  have hexpected := State.takeHeader_expected hup
  rw [State.corrected_port, State.advance_port] at hexpected
  rw [← hexpected] at hbehind
  rw [hact', State.dataFlit_dropped (by omega) (by omega), hsame]

/-- Settles O53: one changed byte leaves syndromes with one ratio, which the decoder reads; what it answers are two code words; and
an accepted flit is one behind the number its port then expects. -/
theorem noFlitIsAcceptedTwice : Obligations.NoFlitIsAcceptedTwice :=
  ⟨fun _ hf => ⟨unblock_blockOf hf, fun _ _ hi hb => unblock_blockOf_set hf hi hb⟩, fun _ _ _ h => unblock_some h,
    fun _ _ _ _ _ _ _ h1 h2 hmoved => execDataFlit_not_twice h1 h2 hmoved⟩

end Sys2Proof.Machine
end

section
/-!
PROOFS. What a port does with the flits it hears, what it sends, and its bring-up (R404 to R407, R409, R411 to R414, R417, R425, R426, R428).
-/

namespace Sys2Proof.Machine

open Sys2Proof

/-! ## Blocks at a port that is UP (R404 to R406, R425) -/

section
variable {s : State} {q : Nat} (hup : (s.port q).state = .up)
include hup

/-- The state in which a bad block has been counted and a NAK sent for it. -/
def State.discard (s : State) (q : Nat) : State :=
  let ds := Machine.stamp s.now (1000 * cyclesPerMicro) (s.port q).discards
  ((s.incReg (mbxKey q 0x34)).modPort q (fun p => { p with discards := ds })).sendNak q

theorem State.badBlock_eq : s.badBlock q false =
    if (Machine.stamp s.now (1000 * cyclesPerMicro) (s.port q).discards).length > 64 then
      ((s.discard q).modPort q (fun p => { p with discards := [] })).portRetrain q .retrain
    else s.discard q := by
  rw [State.badBlock, if_neg (not_not_intro hup), if_neg Bool.false_ne_true]
  dsimp only [State.discard]

theorem State.badBlock_few (h : (Machine.stamp s.now (1000 * cyclesPerMicro) (s.port q).discards).length ≤ 64) :
    s.badBlock q false = s.discard q := by
  rw [State.badBlock_eq hup, if_neg (Nat.not_lt.mpr h)]

theorem State.badBlock_many (h : 64 < (Machine.stamp s.now (1000 * cyclesPerMicro) (s.port q).discards).length) :
    s.badBlock q false = ((s.discard q).modPort q (fun p => { p with discards := [] })).portRetrain q .retrain := by
  rw [State.badBlock_eq hup, if_pos h]

variable {kind : Nat} {b f : List Byte} {fixed : Bool} (hb : unblock b = some (f, fixed)) (hc : fieldLE f 252 4 = flitCrc (f.take 252))
  (g : State → List Byte → State)
include hb hc

theorem State.receive_reservedKind (h : 5 ≤ flitKind f) : s.receive q kind b g = (s.corrected q fixed).violation q 1 (flitSeq f) := by
  rw [State.receive_decoded hup hb hc]
  exact if_pos h

theorem State.receive_null (hk : flitKind f = 0) (hf : flitFieldBad f = false) :
    s.receive q 0 b (fun s _ => s) = (s.corrected q fixed).takeHeader q f := by
  rw [State.receive_sound hup hb hc hk (by omega) hf]
  exact ite_self _

/-- A sound flit of the kind asked for acts where its header leaves the port UP. -/
theorem State.receive_acts (hk : flitKind f = kind) (h5 : kind < 5) (hf : flitFieldBad f = false)
    (hv : (((s.corrected q fixed).takeHeader q f).port q).state = .up) :
    s.receive q kind b g = g ((s.corrected q fixed).takeHeader q f) f := by
  rw [State.receive_sound hup hb hc hk h5 hf]
  exact if_neg (not_not_intro hv)

theorem State.receive_reservedField (hk : flitKind f = 1) (h : flitFieldBad f = true) :
    s.receive q 1 b g = ((s.corrected q fixed).violation q 2 (flitSeq f)).sendNak q := by
  rw [State.receive_decoded hup hb hc]
  simp [hk, h]

end

/-! ## A NAK (R405, R406) -/

/-- NAKs in a row for one number, with this one. -/
def Port.nakCount (p : Port) (n : Nat) : Nat := if p.nakRun ≠ 0 ∧ p.nakSeq = n then p.nakRun + 1 else 1

/-- The state in which a NAK for number `n` has been counted and what is unacknowledged from there on is to be sent again. -/
def State.resend (s : State) (q n : Nat) : State :=
  (s.incReg (mbxKey q 0x3C)).modPort q (fun p => { p with
    nakSeq := n, nakRun := (s.port q).nakCount n, replay := p.retry.filter (fun x => decide ((x.seq + 4096 - n) % 4096 < 2048)) })

theorem State.nakFlit_few {s : State} {q : Nat} {f : List Byte} (h : (s.port q).nakCount (flitSeq f) < 8) :
    s.nakFlit q f = s.resend q (flitSeq f) := if_neg (Nat.not_le.mpr h)

theorem State.nakFlit_eighth {s : State} {q : Nat} {f : List Byte} (h : 8 ≤ (s.port q).nakCount (flitSeq f)) :
    s.nakFlit q f = ((s.resend q (flitSeq f)).modPort q (fun p => { p with nakRun := 0 })).portRetrain q .retrain := if_pos h

/-! ## A DATA flit in sequence (R404, R409, R426) -/

section
variable {s : State} {q : Nat} {f : List Byte}

theorem State.dataFlit_inSequence (h : ((s.port q).expected + 4096 - flitSeq f) % 4096 = 0) : s.dataFlit q f = s.acceptData q f := if_pos h

theorem State.dataFlit_ahead (h : 2048 ≤ ((s.port q).expected + 4096 - flitSeq f) % 4096) : s.dataFlit q f = s.sendNak q :=
  (if_neg (by omega)).trans (if_neg (by omega))

theorem State.acceptData_noSlice (h : s.plate.linksInForce.sliceFlits q (tagKey (flitTag f) / 8) = 0) :
    s.acceptData q f = (s.violation q 3 (flitSeq f)).sendNak q := if_pos h

section
variable (hslice : s.plate.linksInForce.sliceFlits q (tagKey (flitTag f) / 8) ≠ 0)
include hslice

theorem State.acceptData_noCredit (h : (s.rxReserved q (tagKey (flitTag f)) || s.rxShared q (tagKey (flitTag f))) = false) :
    s.acceptData q f = (s.violation q 4 (flitSeq f)).sendNak q :=
  (if_neg hslice).trans (if_pos (by rw [h]; rfl))

variable (hcredit : (s.rxReserved q (tagKey (flitTag f)) || s.rxShared q (tagKey (flitTag f))) = true)
include hcredit

theorem State.acceptData_badMsgs {e : Nat} (h : flitMsgs f = .error e) : s.acceptData q f = (s.violation q e (flitSeq f)).sendNak q := by
  rw [State.acceptData]
  simp [hslice, hcredit, h]

theorem State.acceptData_accepts {ms : List Msg} (h : flitMsgs f = .ok ms) :
    s.acceptData q f =
      let slot : RxSlot := { port := q, key := tagKey (flitTag f), fid := (s.port q).nextFid }
      (ms.foldl (fun s m => s.takeMsg q slot m)
        (((s.rxTake q (tagKey (flitTag f))).inc64 (mbxKey q 0x2C)).modPort q (fun p => { p with
          expected := (p.expected + 1) % 4096, gotAny := true, nakAt := none, nextFid := p.nextFid + 1 }))).freeSlot (some slot) := by
  rw [State.acceptData]
  simp [hslice, hcredit, h]

end
end

/-! ## Sending (R405, R407, R409, R417) -/

section
variable {s : State} {q : Nat} (hup : (s.port q).state = .up)
include hup

theorem State.transmit_replay {f : SentFlit} {l : List SentFlit} (h : (s.port q).replay = f :: l) :
    s.transmit q = (s.modPort q (fun p => { p with replay := l })).sendFlit q 1 f.seq f.tagByte f.nmsg f.payload := by
  simp [State.transmit, hup, h]

/-- The direction of a port, and the messages that wait to leave in it. -/
def State.portDir (s : State) (q : Nat) : Nat := (s.plate.linksInForce.roles.drop q).headD 0
def State.leaving (s : State) (q : Nat) : List TxMsg := s.links.outbox.filter (fun m => m.dir == s.portDir q)

/-- The first message, by class, whose turn it is on the port. -/
def State.nextOut (s : State) (q : Nat) : Option TxMsg :=
  ((List.range 4).flatMap (fun c => (s.leaving q).filter (fun m => m.cls == c))).find? (fun m => s.turnPort (s.portDir q) m.key == some q)

variable (hr : (s.port q).replay = [])
include hr

theorem State.transmit_null (h : ∀ m ∈ s.leaving q, (s.turnPort (s.portDir q) m.key == some q) = false) :
    s.transmit q = s.sendFlit q 0 0 0 0 [] := by
  have hnone : s.nextOut q = none := by
    rw [State.nextOut, List.find?_eq_none]
    intro m hm
    obtain ⟨c, -, hm⟩ := List.mem_flatMap.mp hm
    simp [h m (List.mem_of_mem_filter hm)]
  unfold State.nextOut State.leaving State.portDir at hnone
  rw [State.transmit, if_neg (not_not_intro hup), hr]
  dsimp only
  rw [hnone]

theorem State.transmit_data {m : TxMsg} (h : s.nextOut q = some m) :
    s.transmit q = s.sendData q (s.portDir q) m.key (packMsgs 15 240 ((s.leaving q).filter (fun x => x.key == m.key))) := by
  unfold State.nextOut State.leaving State.portDir at h
  rw [State.transmit, if_neg (not_not_intro hup), hr]
  dsimp only
  rw [h]
  rfl

end

/-- A port whose turn it is may send: it has a credit, and room in its retry buffer. -/
theorem State.turnPort_canSend {s : State} {dir key q : Nat} (h : s.turnPort dir key = some q) :
    (s.port q).hasCredit key = true ∧ (s.port q).retry.length < 512 := by
  have := List.find?_some h
  simp only [Port.canSend, Bool.and_eq_true, decide_eq_true_eq] at this
  exact this.1

theorem Port.takeReturns_kept (p : Port) : p.takeReturns.2.sent = p.sent ∧ p.takeReturns.2.retry = p.retry := by
  unfold Port.takeReturns
  dsimp only
  generalize List.map _ _ = l
  induction l generalizing p with
  | nil => exact ⟨rfl, rfl⟩
  | cons e l ih => exact ih _

/-- The retry buffer and the count of DATA flits sent are as before. -/
def Port.SameSent (p p' : Port) : Prop := p'.sent = p.sent ∧ p'.retry = p.retry

theorem State.sendFlit_sameSent (s : State) (q kind seq tag nmsg : Nat) (payload : List Byte) :
    (s.port q).SameSent ((s.sendFlit q kind seq tag nmsg payload).port q) := by
  unfold State.sendFlit
  dsimp only
  rw [State.emit_port, State.modPort_port]
  exact (s.port q).takeReturns_kept

theorem State.modLinks_port {f : Links → Links} (hf : ∀ l, (f l).ports = l.ports) (s : State) (q : Nat) :
    (s.modLinks f).port q = s.port q := State.port_of_ports (hf s.links) q

theorem State.noteSent_port (s : State) (m : Msg) (q : Nat) : (s.noteSent m).port q = s.port q := by
  unfold State.noteSent
  split
  · exact State.modLinks_port (fun _ => rfl) s q
  · rfl

/-- Once messages have left, the places they held are free; no port's retry buffer changes by it. -/
theorem State.foldl_sent_sameSent (l : List TxMsg) (s : State) (q : Nat) :
    (s.port q).SameSent ((l.foldl (fun s m => (s.noteSent m.msg).freeSlot m.slot) s).port q) := by
  induction l generalizing s with
  | nil => exact ⟨rfl, rfl⟩
  | cons m l ih =>
    have h := ih ((s.noteSent m.msg).freeSlot m.slot)
    rw [State.freeSlot_port, State.noteSent_port] at h
    exact h

/-- The flit that carries these messages under the next number. -/
def Port.nextFlit (p : Port) (key : Nat) (ms : List TxMsg) : SentFlit :=
  { seq := p.sent % 4096, tagByte := tagOf key, nmsg := ms.length, payload := (ms.map (fun m => m.msg.bytes)).flatten }

/-- A DATA flit sent is counted and kept until it is acknowledged. -/
theorem State.sendData_port (s : State) (q dir key : Nat) (ms : List TxMsg) :
    ((s.sendData q dir key ms).port q).sent = (s.port q).sent + 1 ∧
    ((s.sendData q dir key ms).port q).retry = (s.port q).retry ++ [(s.port q).nextFlit key ms] := by
  unfold State.sendData
  dsimp only
  generalize hw : State.modLinks _ _ = w
  have hport : (w.port q).sent = (s.port q).sent + 1 ∧ (w.port q).retry = (s.port q).retry ++ [(s.port q).nextFlit key ms] := by
    rw [← hw, State.modLinks_port, State.inc64_port, State.modPort_port]
    · exact ⟨rfl, rfl⟩
    · exact fun _ => rfl
  have hfreed := State.foldl_sent_sameSent ms w q
  have hsent := State.sendFlit_sameSent (ms.foldl (fun s m => (s.noteSent m.msg).freeSlot m.slot) w) q 1 ((s.port q).sent % 4096)
    (tagOf key) ms.length (ms.map (fun m => m.msg.bytes)).flatten
  exact ⟨(hsent.1.trans hfreed.1).trans hport.1, (hsent.2.trans hfreed.2).trans hport.2⟩

/-! ## Bring-up (R411 to R414) -/

theorem State.modPort_congr {s : State} {q : Nat} {f g : Port → Port} (h : f (s.port q) = g (s.port q)) :
    s.modPort q f = s.modPort q g := by
  unfold State.port at h
  rw [State.modPort, State.modPort, NatMap.upd, NatMap.upd, h]

/-- The five timestamp messages that measure a delay. -/
def State.measure (s : State) (q : Nat) : State := (List.range 5).foldl (fun s _ => s.emit (.wire q 0 [s.now])) s

section
variable {s : State} {q : Nat}

theorem State.trainingComplete_training (h : (s.port q).state = .training) (hd : (s.port q).since ≤ s.now) :
    s.trainingComplete q = (s.modPort q (fun p => { p with state := .measure, reason := 0, echoes := 0, minTrip := 0 })).measure q := by
  rw [State.trainingComplete, h]
  exact if_neg (Nat.not_lt.mpr hd)

theorem State.trainingComplete_retrain (h : (s.port q).state = .retrain) (hp : (s.port q).phase = 0) :
    s.trainingComplete q = (s.modPort q (fun p => { p with phase := 1, echoes := 0, minTrip := 0 })).measure q := by
  rw [State.trainingComplete, h]
  exact if_neg (not_not_intro hp)

theorem State.retrainDeadline_late (h : (s.port q).state = .retrain) (hd : (s.port q).since + 100000 * cyclesPerMicro ≤ s.now) :
    s.retrainDeadline q = (s.portDown q .dark 5).dropBuffers q := by
  simp [State.retrainDeadline, h, hd]

theorem State.trainFlit_up (h : (s.port q).state = .up) (m : TrainMsg) : s.trainFlit q m = s.violation q 8 0 := if_pos h

theorem State.trainFlit_stamp (h : (s.port q).state = .measure ∨ (s.port q).state = .ident) (a : Nat) :
    s.trainFlit q (.stamp a) = s.emit (.wire q 1 [a, 0]) := by
  rcases h with h | h <;> simp [State.trainFlit, h]

theorem State.trainFlit_echo (h : (s.port q).state = .measure) (a turn : Nat) : s.trainFlit q (.echo a turn) = s.echo q a turn := by
  simp [State.trainFlit, h]

theorem State.trainFlit_ident (h : (s.port q).state = .ident) (b : List Byte) : s.trainFlit q (.ident b) = s.identMsg q b := by
  simp [State.trainFlit, h]

theorem State.echo_few (h : (s.port q).state = .measure) (a turn : Nat) (hn : (s.port q).echoes + 1 < 5) :
    s.echo q a turn = s.modPort q (fun p => { p with
      echoes := p.echoes + 1,
      minTrip := if p.echoes = 0 then s.now - a - turn else min p.minTrip (s.now - a - turn) }) := by
  rw [State.echo, if_neg (by simp [h]), if_pos hn]
  exact State.modPort_congr rfl

theorem State.echo_fifth (h : (s.port q).state = .measure) (a turn : Nat) (hn : (s.port q).echoes + 1 = 5) :
    ((s.echo q a turn).port q).state = .ident ∧
    ((s.echo q a turn).port q).rtt = (2 * min (s.port q).minTrip (s.now - a - turn) + 1) / 3 ∧
    ((s.echo q a turn).port q).delay = (((s.echo q a turn).port q).rtt + 1) / 2 := by
  have h4 : (s.port q).echoes = 4 := by omega
  simp [State.echo, h, h4]

/-- The port once its partner's identity is known. -/
def State.identified (s : State) (q : Nat) (b : List Byte) : State :=
  let who := Sys2Proof.byteAt b 1 + Sys2Proof.byteAt b 2 % 16 * 2 ^ 8 + Sys2Proof.byteAt b 3 % 8 * 2 ^ 12
  s.modPort q (fun p => { p with partner := BitVec.ofNat 32 who ||| 0x80000000#32 })

section
variable (h : (s.port q).state = .ident) {b : List Byte} (hb : b.length = 64)
include h hb

theorem State.identMsg_mismatch (hi : s.identityOk q b = false) : s.identMsg q b =
    (((((s.identified q b).portDown q .darkHeld 3).dropBuffers q).mbxEvent q 3).pltEvent 6).logErr
      { cls := 0, source := 0x0B, code := 1, unit := q, detail := 1 } := by
  have hi' : (s.identified q b).identityOk q b = false := hi
  rw [State.identMsg]
  dsimp only
  rw [if_neg (by simp [h, hb])]
  exact if_pos (by rw [← State.identified, hi']; rfl)

theorem State.identMsg_match (hi : s.identityOk q b = true) : ((s.identMsg q b).port q).state = .up ∧
    ((s.identMsg q b).port q).reason = 0 ∧ ((s.identMsg q b).port q).mirror = (List.range 17).map (fun i => fieldLE b (16 + 2 * i) 2) := by
  have hi' : (s.identified q b).identityOk q b = true := hi
  rw [State.identMsg]
  dsimp only
  rw [if_neg (by simp [h, hb]), if_neg (by rw [← State.identified, hi']; decide), State.mbxEvent_port, State.modPort_port]
  exact ⟨rfl, rfl, rfl⟩

end

/-! ## Commands of the port (R101, R428) -/

theorem State.mbxRetrain_up (h : (s.port q).state = .up) :
    s.mbxRetrain q = (s.modPort q (fun p => { p with badCmd := false })).portRetrain q .training := by
  simp [State.mbxRetrain, h]

section
variable (h : (s.port q).state = .dark ∨ (s.port q).state = .darkHeld)
include h

theorem State.mbxRetrain_connected (hc : s.connected q = true) :
    s.mbxRetrain q = (s.modPort q (fun p => { p with badCmd := false })).startTraining q := by
  have hc' : (s.modPort q (fun p => { p with badCmd := false })).connected q = true := hc
  rcases h with h | h <;> simp [State.mbxRetrain, h, hc']

theorem State.mbxRetrain_unconnected (hc : s.connected q = false) :
    s.mbxRetrain q = s.modPort q (fun p => { p with badCmd := false }) := by
  have hc' : (s.modPort q (fun p => { p with badCmd := false })).connected q = false := hc
  rcases h with h | h <;> simp [State.mbxRetrain, h, hc']

end
end

end Sys2Proof.Machine
end

section
/-!
PROOFS. Flits and the states of ports together (R101, R403 to R406, R409, R411, R412, R414, R426 to R428).
-/

namespace Sys2Proof.Machine

open Sys2Proof

theorem next_congr {s t : State} (h : s = t) : (Host.Outcome.next s : Host.Outcome State Fault Refusal) = .next t := congrArg _ h

/-- Settles O52: what a block, a sending and each event of a port do is read off the lemma of its case; the port after a violation,
a retrain or going down is that of `Port.violated`, `Port.retrained` and `Port.down`. -/
theorem linkFlitsAndPortStates : Obligations.LinkFlitsAndPortStates := by
  intro s q t u p
  refine ⟨fun hdown b tick => ?down, fun hup => ⟨?few, ?many, fun b hb => ?broken, fun b f x hb hc => ?badCrc, fun b f x hb hc => ?sound,
      fun f l hl => ?replay, fun hl => ⟨?null, ?data⟩, fun hr hl => ?timeout, fun m => ?trainUp, ?lockLoss, fun dest => ⟨?retrains, ?dark⟩⟩,
    ?nakWaits, ?ackUnsent, ?ackSent, fun c n => ?violation, ⟨?measures, ?remeasures⟩, ?trainingFails, ?deadline, ?stamps,
    fun h a turn => ⟨?echoes, ?fifthEcho⟩, fun h b hb => ⟨?fits, ?mismatch⟩, ?portDown,
    fun h => ⟨?cmdUp, ?cmdDark, ?cmdUnconnected, ?cmdDown⟩, ?connected, ?unconnected⟩
  case down =>
    have hblock : ∀ kind g, u.receive q kind b g = u := fun kind g => State.receive_down (s := u) hdown kind b g
    exact ⟨next_congr (hblock _ _), next_congr (hblock _ _), next_congr (hblock _ _), next_congr (if_pos hdown), next_congr (if_pos hdown)⟩
  case few => exact fun h => next_congr (State.badBlock_few (s := u) hup h)
  case many => exact fun h => next_congr (State.badBlock_many (s := u) hup h)
  case broken =>
    have h : ∀ kind g, u.receive q kind b g = u.badBlock q false := fun _ _ => State.receive_broken hup hb
    exact ⟨next_congr (h _ _), next_congr (h _ _), next_congr (h _ _)⟩
  case badCrc => exact next_congr (State.receive_badCrc hup hb hc)
  case sound =>
    intro w v
    have hup : (u.port q).state = .up := hup
    refine ⟨fun hk => next_congr (State.receive_reservedKind hup hb hc _ hk),
      fun hk hf => next_congr (State.receive_reservedField hup hb hc _ hk hf), fun hk hf => next_congr (State.receive_null hup hb hc hk hf),
      fun hf hv => ⟨fun hk => ?nakFlit, fun hk => ?dataFlit⟩⟩
    case nakFlit =>
      have hact : u.receive q 2 b (fun s f => s.nakFlit q f) = v.nakFlit q f := State.receive_acts hup hb hc _ hk (by omega) hf hv
      exact ⟨fun h => next_congr (hact.trans (State.nakFlit_few (s := v) h)),
        fun h => next_congr (hact.trans (State.nakFlit_eighth (s := v) h))⟩
    case dataFlit =>
      have hact : u.receive q 1 b (fun s f => s.dataFlit q f) = v.dataFlit q f := State.receive_acts hup hb hc _ hk (by omega) hf hv
      have hseq := fun h => hact.trans (State.dataFlit_inSequence (s := v) (q := q) (f := f) h)
      exact ⟨fun h0 hlt => next_congr (hact.trans (State.dataFlit_dropped h0 hlt)),
        fun h => next_congr (hact.trans (State.dataFlit_ahead h)),
        fun h hslice => next_congr ((hseq h).trans (State.acceptData_noSlice hslice)),
        fun h hslice hres hshared => next_congr ((hseq h).trans (State.acceptData_noCredit hslice (by rw [hres, hshared]; rfl))),
        fun h hslice hcredit => ⟨fun e he => next_congr ((hseq h).trans (State.acceptData_badMsgs hslice hcredit he)),
          fun ms hms => next_congr ((hseq h).trans (State.acceptData_accepts hslice hcredit hms))⟩⟩
  case replay => exact next_congr (State.transmit_replay (s := u) hup hl)
  case null => exact fun h => next_congr (State.transmit_null (s := u) hup hl h)
  case data =>
    intro m hm ms
    have hturn := List.find?_some hm
    obtain ⟨hcredit, hroom⟩ := State.turnPort_canSend (by simpa using hturn)
    refine ⟨hcredit, hroom, _, next_congr (State.transmit_data (s := u) hup hl hm), ?_⟩
    exact u.sendData_port q (u.portDir q) m.key ms
  case timeout => exact next_congr (if_pos ⟨hup, hr, hl⟩)
  case trainUp => exact next_congr (State.trainFlit_up (s := u) hup m)
  case lockLoss => rfl
  case retrains =>
    intro h
    have hport : (u.portRetrain q dest).port q = p.retrained u.now dest := u.portRetrain_port q dest
    rw [hport, Port.retrained_up hup, if_neg (Nat.not_le.mpr h)]
    exact ⟨rfl, rfl, rfl, rfl⟩
  case dark =>
    intro h
    have hport : (u.portRetrain q dest).port q = p.retrained u.now dest := u.portRetrain_port q dest
    rw [hport, Port.retrained_up hup, if_pos h]
    exact ⟨rfl, rfl, rfl⟩
  case nakWaits => exact fun ⟨n, hn, hlt⟩ => State.sendNak_waits hn hlt
  case ackUnsent => exact fun n h => State.takeAck_violation h
  case ackSent =>
    intro n h
    rw [State.takeAck_acked h, State.modPort_port]
    rfl
  case violation =>
    intro vs rs
    rw [State.violation_port]
    refine ⟨Port.violated_lastViol p s.now c n, fun h => ?_, fun h hr => ?_, fun h hr hup hfew => ?_⟩
    · rw [Port.violated_few h]
    · rw [Port.violated_dark h hr]
      exact ⟨rfl, rfl⟩
    · rw [Port.violated_retrains h hr]
      refine Port.retrained_state ?_ ?_
      · exact hup
      · exact hfew
  case measures => exact fun h hd => next_congr (State.trainingComplete_training (s := u) h hd)
  case remeasures => exact fun h hp => next_congr (State.trainingComplete_retrain (s := u) h hp)
  case trainingFails => exact fun h => next_congr (if_pos h)
  case deadline => exact fun h hd => next_congr (State.retrainDeadline_late (s := u) h hd)
  case stamps => exact fun h a => next_congr (State.trainFlit_stamp (s := u) h a)
  case echoes => exact fun hn => next_congr ((State.trainFlit_echo (s := u) h a turn).trans (State.echo_few (s := u) h a turn hn))
  case fifthEcho =>
    exact fun hn => ⟨_, next_congr (State.trainFlit_echo (s := u) h a turn), State.echo_fifth (s := u) h a turn hn⟩
  case fits => exact fun hi => ⟨_, next_congr (State.trainFlit_ident (s := u) h b), State.identMsg_match (s := u) h hb hi⟩
  case mismatch =>
    exact fun hi => next_congr ((State.trainFlit_ident (s := u) h b).trans (State.identMsg_mismatch (s := u) h hb hi))
  case portDown =>
    intro st r
    rw [State.portDown_port]
    exact ⟨rfl, rfl⟩
  case cmdUp => exact fun hup => next_congr ((State.pfWrite_serves h _).trans (State.mbxRetrain_up hup))
  case cmdDark => exact fun hdark hc => next_congr ((State.pfWrite_serves h _).trans (State.mbxRetrain_connected hdark hc))
  case cmdUnconnected => exact fun hdark hc => next_congr ((State.pfWrite_serves h _).trans (State.mbxRetrain_unconnected hdark hc))
  case cmdDown => exact next_congr (State.pfWrite_serves h _)
  case connected => exact fun h => next_congr (if_pos h)
  case unconnected => exact fun h => next_congr (if_neg (by simp [h]))

end Sys2Proof.Machine
end

section
/-!
PROOFS. Register files, reset, and going on past an instruction (R104, R105, R121, R205, R216).
-/

namespace Sys2Proof.Machine

open Sys2Proof

/-! ## The register files -/

section
variable (s : State) (c r q d : Nat) (v : Dword)

@[simp] theorem State.setF_gr : ((s.setF c r v).core c).gr q = (s.core c).gr q := by
  rw [State.setF, State.modRegs, State.core_modCore_same]
  rfl

@[simp] theorem State.setG_fr : ((s.setG c r v).core c).fr q = (s.core c).fr q := by
  rw [State.setG]
  split
  · rfl
  · rw [State.modRegs, State.core_modCore_same]
    rfl

theorem State.setG_core_ne (h : d ≠ c) : (s.setG c r v).core d = s.core d := by
  rw [State.setG]
  split
  · rfl
  · exact State.core_modCore_ne _ _ _ _ h

theorem State.setF_core_ne (h : d ≠ c) : (s.setF c r v).core d = s.core d := State.core_modCore_ne _ _ _ _ h

end

/-- Settles O7: the rules of one write (`State.setG_gr`, `State.setF_fr`) and what each leaves alone. -/
theorem registerFile : Obligations.RegisterFile := fun s c r q d v =>
  ⟨rfl, State.setG_zero s c v, State.setG_gr s c r q v, State.setF_fr s c r q v, State.setG_fr s c r q v, State.setF_gr s c r q v,
    fun h => ⟨State.setG_core_ne s c r d v h, State.setF_core_ne s c r d v h⟩⟩

/-- Settles O6: `State.finish_advanced` says it of every instruction that is no transfer. -/
theorem retirementFrame : Obligations.RetirementFrame := State.finish_advanced

/-! ## What a control register reads as (R106) -/

section
variable (s : State) (c : Nat)

theorem State.creg_mode : s.creg c 0x000 = some (BitVec.ofNat 64 (s.core c).ctl.mode) := by simp [State.creg]
theorem State.creg_fflags : s.creg c 0x001 = some (BitVec.ofNat 64 (s.core c).ctl.fflags) := by simp [State.creg]
theorem State.creg_vshape : s.creg c 0x002 =
    some (BitVec.ofNat 64 ((s.core c).ctl.vshape + if shapeIll (s.core c).ctl.vshapeEff then 256 else 0)) := by simp [State.creg]
theorem State.creg_vln : s.creg c 0x003 = some (BitVec.ofNat 64 (s.core c).ctl.vln) := by simp [State.creg]
theorem State.creg_status : s.creg c 0x100 = some (BitVec.ofNat 64 (s.core c).ctl.status) := by simp [State.creg]
theorem State.creg_evbase : s.creg c 0x101 = some (s.core c).sr.evbase := by simp [State.creg]
theorem State.creg_gatebase : s.creg c 0x102 = some (s.core c).sr.gatebase := by simp [State.creg]
theorem State.creg_slimit : s.creg c 0x103 = some (s.core c).sr.slimit := by simp [State.creg]
theorem State.creg_ssp : s.creg c 0x104 = some (s.core c).ssp := by simp [State.creg]
theorem State.creg_even : s.creg c 0x105 = some (BitVec.ofNat 64 (s.core c).even) := by simp [State.creg]
theorem State.creg_evpend : s.creg c 0x106 = some (BitVec.ofNat 64 (s.core c).ctl.evpend) := by simp [State.creg]
theorem State.creg_segen : s.creg c 0x170 = some (s.core c).sr.segen := by simp [State.creg]
theorem State.creg_winctl : s.creg c 0x171 = some (s.core c).sr.winctl := by simp [State.creg]
theorem State.creg_dtabCtrl : s.creg c 0x180 = some (BitVec.ofNat 64 ((if (s.core c).sr.dtabUen then 1 else 0)
    + (s.core c).sr.dtabCmd * 2 + (s.core c).sr.dtabAddr * 2 ^ 8 + (s.core c).dtabResult * 2 ^ 56 + (s.core c).bank % 2 * 2 ^ 59)) := by
  simp [State.creg]
theorem State.creg_ksWait : s.creg c 0x181 = some (BitVec.ofNat 64 ((s.core c).sr.ksWait + (s.core c).ksEff * 2 ^ 8)) := by
  simp [State.creg]
theorem State.creg_l1dCfg : s.creg c 0x190 = some (BitVec.ofNat 64 (s.core c).sr.l1dCfg) := by simp [State.creg]
theorem State.creg_icCfg : s.creg c 0x191 = some (BitVec.ofNat 64 (if (s.core c).sr.icEn then 1 else 0)) := by simp [State.creg]
theorem State.creg_vresume : s.creg c 0x200 =
    some (BitVec.ofNat 64 ((s.core c).ctl.vresElem + if (s.core c).ctl.vresArmed then 2 ^ 13 else 0)) := by simp [State.creg]
theorem State.creg_vstat : s.creg c 0x201 = some (BitVec.ofNat 64 (s.core c).ctl.vstat) := by simp [State.creg]
theorem State.creg_perf {n : Nat} (h1 : 0x301 ≤ n) (h2 : n ≤ 0x30F) : s.creg c n = some (NatMap.get 0 (s.core c).perf n) :=
  (if_neg (by omega)).trans ((if_neg (by omega)).trans ((if_neg (by omega)).trans (if_pos ⟨h1, h2⟩)))
theorem State.creg_cycles : s.creg c 0x300 = some (NatMap.get 0 (s.core c).perf 0x300 + BitVec.ofNat 64 s.now) := by simp [State.creg]

end

@[simp] theorem State.reset_core (c : Nat) : State.reset.core c = {} := rfl

/-- Settles O2: what each register reads as, in a core whose fields hold their reset values. -/
theorem resetState : Obligations.ResetState := by
  refine ⟨fun c => ⟨?zeros, ?vshape, ?status, State.creg_segen _ c, ?dtabCtrl, ?ksWait, State.creg_l1dCfg _ c, State.creg_icCfg _ c,
    fun r => ite_self 0⟩, rfl, rfl, rfl⟩
  case zeros =>
    simp only [List.forall_mem_cons]
    exact ⟨State.creg_mode _ c, State.creg_fflags _ c, State.creg_vln _ c, State.creg_evbase _ c, State.creg_gatebase _ c,
      State.creg_slimit _ c, State.creg_ssp _ c, State.creg_even _ c, State.creg_evpend _ c, State.creg_winctl _ c,
      State.creg_vresume _ c, State.creg_vstat _ c, List.forall_mem_nil _⟩
  case vshape =>
    have legal : shapeIll 0x31 = false := by decide
    simp [State.creg_vshape, legal]
  case status => exact State.creg_status _ c
  case dtabCtrl => simp [State.creg_dtabCtrl]
  case ksWait => simp [State.creg_ksWait]

/-! ## What a write of a control register does (R106, R109, R205) -/

/-- What no write of a control register changes in its core. -/
def Core.cregKept (k : Core) : Bool × Dword × CoreRegs × SyncRegs × Nat × Nat × List SbEntry × Option Delay :=
  (k.ctl.priv, k.ctl.pc, k.regs, k.sre, k.ctl.modeEff, k.ctl.vshapeEff, k.sb, k.ctl.delay)

/-- `t` is `s` but for core `c`, which has kept what a write of a control register leaves. -/
def CregKept (c : Nat) (s t : State) : Prop := CoreOnly c s t ∧ (t.core c).cregKept = (s.core c).cregKept

theorem CregKept.refl (c : Nat) (s : State) : CregKept c s s := ⟨CoreOnly.refl c s, rfl⟩

theorem CregKept.modCore {c : Nat} {s t : State} (h : CregKept c s t) {f : Core → Core} (hf : ∀ k, (f k).cregKept = k.cregKept) :
    CregKept c s (t.modCore c f) :=
  ⟨h.1.modCore f, by rw [State.core_modCore_same, hf, h.2]⟩

theorem State.setCregCtl_kept {c : Nat} {s t : State} (h : CregKept c s t) (n : Nat) (v : Dword) :
    CregKept c s (t.setCregCtl c n v) := by
  unfold State.setCregCtl
  split
  case h_11 => exact h
  all_goals exact h.modCore fun _ => rfl

theorem State.setCregSync_kept {c : Nat} {s t : State} (h : CregKept c s t) (n : Nat) (v : Dword) :
    CregKept c s (t.setCregSync c n v) := by
  unfold State.setCregSync
  split
  · exact h.modCore fun _ => rfl
  · split
    case h_10 => exact h
    all_goals exact h.modCore fun _ => rfl

theorem State.setCreg_kept (s : State) (c n : Nat) (v : Dword) : CregKept c s (s.setCreg c n v) := by
  unfold State.setCreg
  split
  · exact (CregKept.refl c s).modCore fun _ => rfl
  · exact State.setCregSync_kept (State.setCregCtl_kept (CregKept.refl c s) n v) n v

@[simp] theorem State.setCreg_delay (s : State) (c n : Nat) (v : Dword) : ((s.setCreg c n v).core c).ctl.delay = (s.core c).ctl.delay :=
  congrArg (fun x => x.2.2.2.2.2.2.2) (State.setCreg_kept s c n v).2

/-- The low `k` bits of a word, as a mask. -/
theorem ofNat_mod_two_pow (v : Dword) (k : Nat) : BitVec.ofNat 64 (v.toNat % 2 ^ k) = v &&& BitVec.ofNat 64 (2 ^ k - 1) := by
  apply BitVec.eq_of_getLsbD_eq
  intro i hi
  rw [BitVec.getLsbD_and, BitVec.getLsbD_ofNat, BitVec.getLsbD_ofNat, Nat.testBit_mod_two_pow, Nat.testBit_two_pow_sub_one,
    BitVec.testBit_toNat]
  simp [hi, Bool.and_comm]

theorem ofNat_bit_zero (v : Dword) : BitVec.ofNat 64 (if bitOf v.toNat 0 then 1 else 0) = v &&& 1#64 := by
  refine Eq.trans ?_ (ofNat_mod_two_pow v 1)
  rw [bitOf, Nat.testBit_zero]
  rcases Nat.mod_two_eq_zero_or_one v.toNat with h | h <;> simp [h]

/-- VRESUME's element number and its armed bit are one field of 14 bits (R150). -/
theorem ofNat_vresume (v : Dword) :
    BitVec.ofNat 64 (v.toNat % 2 ^ 13 + if bitOf v.toNat 13 then 2 ^ 13 else 0) = v &&& 0x3FFF#64 := by
  refine Eq.trans ?_ (ofNat_mod_two_pow v 14)
  rw [Nat.mod_pow_succ (k := 13), bitOf, Nat.testBit_eq_decide_div_mod_eq]
  rcases Nat.mod_two_eq_zero_or_one (v.toNat / 2 ^ 13) with h | h <;> rw [h] <;> rfl

/-- A performance counter reads back whole; CYCLES, which counts on from the value written, does at that instant (R216). -/
theorem State.setCreg_perf (s : State) (c : Nat) (v : Dword) {n : Nat} (h1 : 0x300 ≤ n) (h2 : n ≤ 0x30F) :
    (s.setCreg c n v).creg c n = some v := by
  have written : s.setCreg c n v = _ := if_pos ⟨h1, h2⟩
  rcases Nat.eq_or_lt_of_le h1 with rfl | h
  · rw [State.creg_cycles, written]
    simp
  · rw [State.creg_perf _ _ h h2, written]
    simp [Nat.ne_of_gt h]

/-- Settles O18: `State.setCreg_kept` is its frame, and each register's field reads back under its mask. -/
theorem controlRegisterWrites : Obligations.ControlRegisterWrites := by
  intro s c n v t k
  obtain ⟨⟨device, others⟩, kept⟩ := State.setCreg_kept s c n v
  simp only [Core.cregKept, Prod.mk.injEq] at kept
  obtain ⟨priv, pc, regs, sre, modeEff, vshapeEff, sb, -⟩ := kept
  refine ⟨device, others, priv, pc, regs, sre, modeEff, vshapeEff, sb, ?fields, ?perf, ?vln, ?status, ?mode, ?vshape, ?ksWait⟩
  case fields =>
    have own : ∀ (j : Nat) (m : Dword), (s.setCreg c j v).creg c j = some (v &&& m) → n = j → t.creg c n = some (v &&& m) := by
      rintro j m h rfl
      exact h
    simp only [List.forall_mem_cons]
    refine ⟨own _ _ ?_, own _ _ ?_, own _ _ ?_, own _ _ ?_, own _ _ ?_, own _ _ ?_, own _ _ ?_, own _ _ ?_, own _ _ ?_, own _ _ ?_,
      own _ _ ?_, own _ _ ?_, own _ _ ?_, own _ _ ?_, List.forall_mem_nil _⟩
    all_goals simp [State.setCreg, State.setCregCtl, State.setCregSync, State.modSr, State.creg_mode, State.creg_fflags,
      State.creg_evbase, State.creg_gatebase, State.creg_slimit, State.creg_ssp, State.creg_even, State.creg_evpend, State.creg_segen, State.creg_winctl,
      State.creg_l1dCfg, State.creg_icCfg, State.creg_vresume, State.creg_vstat]
    · exact ofNat_mod_two_pow v 9
    · exact ofNat_mod_two_pow v 5
    · exact ofNat_mod_two_pow v 9
    · exact ofNat_mod_two_pow v 9
    · exact ofNat_mod_two_pow v 16
    · exact ofNat_mod_two_pow v 2
    · exact ofNat_mod_two_pow v 3
    · exact ofNat_bit_zero v
    · exact ofNat_vresume v
    · exact ofNat_mod_two_pow v 2
  case perf => exact State.setCreg_perf s c v
  case vln =>
    rintro rfl
    simp [t, k, State.setCreg, State.setCregCtl, State.setCregSync, State.creg_vln]
  case status =>
    rintro rfl
    simp [t, State.setCreg, State.setCregCtl, State.setCregSync]
    rfl
  case mode =>
    rintro rfl
    simp [t, k, State.setCreg, State.setCregCtl, State.setCregSync]
  case vshape =>
    rintro rfl
    simp [t, k, State.setCreg, State.setCregCtl, State.setCregSync]
  case ksWait =>
    rintro rfl
    simp [t, k, State.setCreg, State.setCregCtl, State.setCregSync, State.modSr]

end Sys2Proof.Machine
end

section
/-!
PROOFS. Integer instructions (R114 to R116): what the model's operations on words are as numbers, and how an instruction that gives its
destination a value ends.
-/

namespace Sys2Proof

theorem getElem_natLE {n i : Nat} (v : Nat) (h : i < (natLE n v).length) : (natLE n v)[i] = BitVec.ofNat 8 (v / 256 ^ i) := by
  induction n generalizing v i with
  | zero => simp at h
  | succ n ih =>
    cases i with
    | zero => simp [natLE]
    | succ i => simp [natLE, ih, Nat.div_div_eq_div_mul, Nat.pow_succ']

end Sys2Proof

namespace Sys2Proof.Machine

open Sys2Proof

/-! ## Words as numbers -/

section
variable (a b : Dword) (n : Nat)

theorem add_eq_ofNat : a + b = BitVec.ofNat 64 (a.toNat + b.toNat) := by
  rw [BitVec.ofNat_add, BitVec.ofNat_toNat, BitVec.ofNat_toNat, BitVec.setWidth_eq, BitVec.setWidth_eq]

theorem sub_eq_ofInt : a - b = BitVec.ofInt 64 ((a.toNat : Int) - b.toNat) := by
  rw [Int.sub_eq_add_neg, BitVec.ofInt_add, BitVec.ofInt_neg, BitVec.ofInt_natCast, BitVec.ofInt_natCast, BitVec.ofNat_toNat,
    BitVec.ofNat_toNat, BitVec.setWidth_eq, BitVec.setWidth_eq, BitVec.sub_eq_add_neg]

theorem shiftLeft_eq_ofNat : a <<< n = BitVec.ofNat 64 (a.toNat * 2 ^ n) := by
  apply BitVec.eq_of_toNat_eq
  simp [Nat.shiftLeft_eq]

theorem ushiftRight_eq_ofNat : a >>> n = BitVec.ofNat 64 (a.toNat / 2 ^ n) := by
  apply BitVec.eq_of_toNat_eq
  rw [BitVec.toNat_ushiftRight, Nat.shiftRight_eq_div_pow, BitVec.toNat_ofNat,
    Nat.mod_eq_of_lt (Nat.lt_of_le_of_lt (Nat.div_le_self _ _) a.isLt)]

theorem sshiftRight_eq_ofInt : a.sshiftRight n = BitVec.ofInt 64 (a.toInt / (2 ^ n : Int)) := by
  rw [← BitVec.ofInt_toInt (x := a.sshiftRight n), BitVec.toInt_sshiftRight, Int.shiftRight_eq_div_pow]
  norm_cast

theorem bit64_slt : bit64 (a.slt b) = if a.toInt < b.toInt then 1 else 0 := by simp [bit64, BitVec.slt]

theorem bit64_ult : bit64 (a.ult b) = if a.toNat < b.toNat then 1 else 0 := by simp [bit64, BitVec.ult]

theorem min_slt : (if a.slt b then a else b) = BitVec.ofInt 64 (min a.toInt b.toInt) := by
  rcases lt_or_ge a.toInt b.toInt with h | h
  · rw [if_pos (BitVec.slt_iff_toInt_lt.mpr h), min_eq_left h.le, BitVec.ofInt_toInt]
  · rw [if_neg (by simpa [BitVec.slt] using h), min_eq_right h, BitVec.ofInt_toInt]

theorem max_slt : (if a.slt b then b else a) = BitVec.ofInt 64 (max a.toInt b.toInt) := by
  rcases lt_or_ge a.toInt b.toInt with h | h
  · rw [if_pos (BitVec.slt_iff_toInt_lt.mpr h), max_eq_right h.le, BitVec.ofInt_toInt]
  · rw [if_neg (by simpa [BitVec.slt] using h), max_eq_left h, BitVec.ofInt_toInt]

theorem min_ult : (if a.ult b then a else b) = BitVec.ofNat 64 (min a.toNat b.toNat) := by
  rcases lt_or_ge a.toNat b.toNat with h | h
  · rw [if_pos (BitVec.ult_iff_toNat_lt.mpr h), min_eq_left h.le, BitVec.ofNat_toNat, BitVec.setWidth_eq]
  · rw [if_neg (by simpa [BitVec.ult] using h), min_eq_right h, BitVec.ofNat_toNat, BitVec.setWidth_eq]

theorem max_ult : (if a.ult b then b else a) = BitVec.ofNat 64 (max a.toNat b.toNat) := by
  rcases lt_or_ge a.toNat b.toNat with h | h
  · rw [if_pos (BitVec.ult_iff_toNat_lt.mpr h), max_eq_right h.le, BitVec.ofNat_toNat, BitVec.setWidth_eq]
  · rw [if_neg (by simpa [BitVec.ult] using h), max_eq_left h, BitVec.ofNat_toNat, BitVec.setWidth_eq]

/-! ## The low 32 bits -/

theorem sext32_setWidth : sext32 a = (a.setWidth 32).signExtend 64 := rfl

theorem sext32_add : sext32 (a + b) = (a.setWidth 32 + b.setWidth 32).signExtend 64 := by
  rw [sext32_setWidth, BitVec.setWidth_add _ _ (by omega)]

theorem sext32_sub : sext32 (a - b) = (a.setWidth 32 - b.setWidth 32).signExtend 64 := by
  rw [sext32_setWidth]
  congr 1
  bv_omega

theorem sext32_mul : sext32 (a * b) = (a.setWidth 32 * b.setWidth 32).signExtend 64 := by
  rw [sext32_setWidth, BitVec.setWidth_mul _ _ (by omega)]

theorem sext32_shiftLeft : sext32 (a <<< n) = (a.setWidth 32 <<< n).signExtend 64 := by
  rw [sext32_setWidth, BitVec.setWidth_shiftLeft_of_le (by omega)]

theorem and_low32 : a &&& 0xFFFFFFFF = (a.setWidth 32).setWidth 64 := by
  apply BitVec.eq_of_toNat_eq
  refine (congrArg BitVec.toNat (ofNat_mod_two_pow a 32).symm).trans ?_
  simp

theorem sext32_ushiftRight : sext32 ((a &&& 0xFFFFFFFF) >>> n) = (a.setWidth 32 >>> n).signExtend 64 := by
  rw [sext32_setWidth, and_low32]
  congr 1
  apply BitVec.eq_of_toNat_eq
  have low : a.toNat % 2 ^ 32 < 2 ^ 32 := Nat.mod_lt _ (Nat.two_pow_pos 32)
  have shifted : (a.toNat % 2 ^ 32) >>> n ≤ a.toNat % 2 ^ 32 := Nat.shiftRight_le _ n
  rw [BitVec.toNat_setWidth, BitVec.toNat_ushiftRight, BitVec.toNat_setWidth, BitVec.toNat_ushiftRight, BitVec.toNat_setWidth,
    Nat.mod_eq_of_lt (b := 2 ^ 64) (by omega), Nat.mod_eq_of_lt (by omega)]

theorem sext32_sshiftRight : (sext32 a).sshiftRight n = ((a.setWidth 32).sshiftRight n).signExtend 64 := by
  apply BitVec.eq_of_toInt_eq
  rw [BitVec.toInt_sshiftRight, sext32_setWidth, BitVec.toInt_signExtend_of_le (by omega), BitVec.toInt_signExtend_of_le (by omega),
    BitVec.toInt_sshiftRight]

/-! ## Leading and trailing zeros, bits and bytes -/

/-- A number of 64 bits other than 0 has a lowest and a highest bit. -/
theorem exists_getLsbD (h : a ≠ 0) : ∃ i < 64, a.getLsbD i = true := by
  by_contra hn
  push Not at hn
  exact h (BitVec.eq_of_getLsbD_eq fun i hi => by simpa using hn i hi)

theorem clz64_spec (h : a ≠ 0) : 2 ^ (63 - clz64 a) ≤ a.toNat ∧ a.toNat < 2 ^ (64 - clz64 a) ∧ clz64 a < 64 := by
  obtain ⟨j, hj, hbit⟩ := exists_getLsbD a h
  cases hf : (List.range 64).find? (fun i => a.getLsbD (63 - i)) with
  | none =>
    have := List.find?_range_eq_none.mp hf (63 - j) (by omega)
    rw [Nat.sub_sub_self (by omega), hbit] at this
    contradiction
  | some k =>
    have hk : clz64 a = k := by rw [clz64, hf]; rfl
    obtain ⟨set, below, clear⟩ := List.find?_range_eq_some.mp hf
    rw [List.mem_range] at below
    rw [hk]
    refine ⟨Nat.ge_two_pow_of_testBit set, Nat.lt_pow_two_of_testBit _ fun i hi => ?_, below⟩
    rcases Nat.lt_or_ge i 64 with hi' | hi'
    · have := clear (63 - i) (by omega)
      rw [Nat.sub_sub_self (by omega)] at this
      rwa [Bool.not_eq_true'] at this
    · exact BitVec.getLsbD_of_ge a i hi'

theorem ctz64_spec (h : a ≠ 0) : ctz64 a < 64 ∧ a.getLsbD (ctz64 a) = true ∧ ∀ i < ctz64 a, a.getLsbD i = false := by
  obtain ⟨j, hj, hbit⟩ := exists_getLsbD a h
  cases hf : (List.range 64).find? (fun i => a.getLsbD i) with
  | none => simpa [hbit] using List.find?_range_eq_none.mp hf j hj
  | some k =>
    have hk : ctz64 a = k := by rw [ctz64, hf]; rfl
    obtain ⟨set, below, clear⟩ := List.find?_range_eq_some.mp hf
    rw [hk]
    exact ⟨List.mem_range.mp below, set, fun i hi => by simpa using clear i hi⟩

theorem popcount_countP : popcount 64 a.toNat = (List.range 64).countP a.getLsbD := List.countP_eq_length_filter.symm

/-- Byte `i` of a word is byte `i` of its bytes. -/
theorem byte_natLE {i : Nat} (h : i < (natLE 8 a.toNat).length) : a.extractLsb' (8 * i) 8 = (natLE 8 a.toNat)[i] := by
  apply BitVec.eq_of_toNat_eq
  rw [getElem_natLE, BitVec.extractLsb'_toNat, BitVec.toNat_ofNat, Nat.shiftRight_eq_div_pow, Nat.pow_mul]

/-- BSWAP's bytes are its operand's in reverse. -/
theorem natLE_bswap64 : natLE 8 (bswap64 a).toNat = (natLE 8 a.toNat).reverse := by
  have eight : (natLE 8 a.toNat).reverse.length = 8 := by simp
  have fits := leNat_lt (natLE 8 a.toNat).reverse
  have back := natLE_leNat (natLE 8 a.toNat).reverse
  rw [eight] at fits back
  rw [bswap64, beNat, BitVec.toNat_ofNat, Nat.mod_eq_of_lt (b := 2 ^ 64) fits, back]

theorem bswap64_bytes {i : Nat} (h : i < 8) : (bswap64 a).extractLsb' (8 * i) 8 = a.extractLsb' (8 * (7 - i)) 8 := by
  rw [byte_natLE _ (by simpa using h), byte_natLE _ (by simp; omega)]
  simp [natLE_bswap64]

end

/-! ## Quotients and remainders (R116) -/

section
variable {n : Nat} (a b : BitVec n)

/-- The signed overflow, as numbers: the least dividend over minus one. -/
theorem intMin_allOnes_iff (hn : 0 < n) : (a = BitVec.intMin n ∧ b = BitVec.allOnes n) ↔ (a.toInt = -2 ^ (n - 1) ∧ b.toInt = -1) := by
  rw [← BitVec.toInt_inj, ← BitVec.toInt_inj, BitVec.toInt_allOnes, if_pos hn, BitVec.toInt_intMin,
    Nat.mod_eq_of_lt (Nat.pow_lt_pow_right (by omega) (by omega))]
  norm_cast

theorem divRem_signed_quot (hn : 0 < n) : (divRem true a b).1 =
    if b = 0 then BitVec.allOnes n else if a.toInt = -2 ^ (n - 1) ∧ b.toInt = -1 then a else BitVec.ofInt n (a.toInt.tdiv b.toInt) := by
  simp only [divRem, intMin_allOnes_iff a b hn]
  split
  · rfl
  · simp only [if_true]
    split <;> rfl

theorem divRem_unsigned_quot : (divRem false a b).1 = if b = 0 then BitVec.allOnes n else BitVec.ofNat n (a.toNat / b.toNat) := by
  unfold divRem
  split
  · rfl
  · exact BitVec.udiv_def

/-- A remainder is the dividend less quotient times divisor; over a divisor of zero it is the dividend. -/
theorem divRem_rem (isSigned : Bool) : (divRem isSigned a b).2 = if b = 0 then a else a - (divRem isSigned a b).1 * b := by
  unfold divRem
  split
  · rfl
  · cases isSigned with
    | false =>
      refine eq_sub_of_add_eq (BitVec.eq_of_toNat_eq ?_)
      have parts := Nat.mod_add_div' a.toNat b.toNat
      rw [if_neg (by decide), BitVec.toNat_add, BitVec.toNat_mul, Nat.add_mod_mod, BitVec.toNat_umod, BitVec.toNat_udiv, parts,
        Nat.mod_eq_of_lt a.isLt]
    | true =>
      rw [if_pos rfl]
      split
      next overflow =>
        obtain ⟨rfl, rfl⟩ := overflow
        show 0 = BitVec.intMin n - BitVec.intMin n * BitVec.allOnes n
        rw [← BitVec.neg_one_eq_allOnes, BitVec.mul_neg, BitVec.mul_one, BitVec.neg_intMin, BitVec.sub_self]
        rfl
      next =>
        rw [Int.tmod_def, Int.sub_eq_add_neg, BitVec.ofInt_add, BitVec.ofInt_neg, BitVec.ofInt_mul, BitVec.ofInt_toInt,
          BitVec.ofInt_toInt, BitVec.mul_comm b, BitVec.sub_eq_add_neg]

end

/-! ## Instructions that give rd a value, or raise RESERVED -/

section
variable {i : Instr} {s : State} {c : Nat} {w : Word} {sem : State → Res} {r : Option Dword}
  (hi : exec i s = ok (s.execute c w sem)) (h : s.executes c) (e : sem s = Res.ofG s c (fRd w) r)
include hi h e

theorem CompletesAs.of_ofG {v : Dword} (hr : r = some v) : CompletesAs i s (s.setG c (fRd w) v) c :=
  .of_ok hi h (u := s.setG c (fRd w) v) (e.trans (by rw [hr]; rfl)) (by simp)

theorem Raises.of_ofG (hr : r = none) : Raises i s c illReserved := .of_fault hi h (e.trans (by rw [hr]; rfl))

end

theorem semImm_major {c : Nat} {w : Word} {s : State} {m : Nat} (hm : major w = m) (h : 3 ≤ m ∧ m ≤ 0x0C) :
    semImm c w s = Res.ofG s c (fRd w) (immResult m w ((s.core c).gr (fRa w)) (s.core c).ctl.pc) := by
  subst hm
  exact if_pos h

/-! ## Immediate forms (R114) -/

/-- SHIFTI's immediate: its function above its amount. -/
theorem immResult_shift {w : Word} {a pc : Dword} {n : Nat} (hn : (fImm w).toNat = n) : immResult 0x09 w a pc =
    if 256 ≤ n then none else some (match n / 64 with
      | 0 => a <<< (n % 64)
      | 1 => a >>> (n % 64)
      | 2 => a.sshiftRight (n % 64)
      | _ => a.rotateRight (n % 64)) := by
  subst hn
  rfl

/-- Settles O10: each form is `immResult` of its major. -/
theorem immediateResults : Obligations.ImmediateResults := by
  intro c w s h a pc sext zext n gives reserved
  have hsext : sImm w = sext := rfl
  have hzext : zImm w = zext := rfl
  have him : (fImm w).toNat = n := by
    simp [fImm, n]
  have value : ∀ {m v}, major w = m → 3 ≤ m ∧ m ≤ 0x0C → immResult m w a pc = some v → gives v :=
    fun hm hr e => .of_ofG rfl h (semImm_major hm hr) e
  have reserves : ∀ {m}, major w = m → 3 ≤ m ∧ m ≤ 0x0C → immResult m w a pc = none → reserved :=
    fun hm hr e => .of_ofG rfl h (semImm_major hm hr) e
  refine ⟨fun hm => value hm (by omega) rfl, fun hm => value hm (by omega) rfl, fun hm => value hm (by omega) rfl,
    fun hm => value hm (by omega) rfl, fun hm => value hm (by omega) ?slti, fun hm => value hm (by omega) ?sltiu,
    fun hm => ⟨fun hn => ?sll, fun hlo hhi => ?srl, fun hlo hhi => ?sra, fun hlo hhi => ?ror, fun hn => ?shiftReserved⟩,
    fun hm => ⟨fun hra => value hm (by omega) (if_pos hra), fun hra => reserves hm (by omega) (if_neg hra)⟩,
    fun hm => ⟨fun hra => value hm (by omega) (if_pos hra), fun hra => reserves hm (by omega) (if_neg hra)⟩,
    fun hm => value hm (by omega) rfl⟩
  case slti => exact congrArg some (bit64_slt a sext)
  case sltiu => exact congrArg some (bit64_ult a sext)
  case sll =>
    refine value hm (by omega) ?_
    rw [immResult_shift him, if_neg (by omega), Nat.div_eq_of_lt hn, Nat.mod_eq_of_lt hn]
    rfl
  case srl =>
    refine value hm (by omega) ?_
    rw [immResult_shift him, if_neg (by omega), show n / 64 = 1 by omega, show n % 64 = n - 0x40 by omega]
    rfl
  case sra =>
    refine value hm (by omega) ?_
    rw [immResult_shift him, if_neg (by omega), show n / 64 = 2 by omega, show n % 64 = n - 0x80 by omega,
      ← sshiftRight_eq_ofInt]
    rfl
  case ror =>
    refine value hm (by omega) ?_
    rw [immResult_shift him, if_neg (by omega), show n / 64 = 3 by omega, show n % 64 = n - 0xC0 by omega]
    rfl
  case shiftReserved => exact reserves hm (by omega) ((immResult_shift him).trans (if_pos hn))

/-! ## ALU (R115) -/

theorem semAlu_major {c : Nat} {w : Word} {s : State} (hm : major w = 0x01) :
    semAlu c w s = Res.ofG s c (fRd w) (aluResult w ((s.core c).gr (fRa w)) ((s.core c).gr (fRb w))) := if_pos hm

/-- The words that name no ALU function, or set a field that must be 0, are reserved. -/
theorem aluResult_reserved {w : Word} (a b : Dword)
    (h : fRc w ≠ 0 ∨ fFunc w = 0x17 ∨ 0x20 ≤ fFunc w ∨ (0x18 ≤ fFunc w ∧ fRb w ≠ 0)) : aluResult w a b = none := by
  by_cases hc : fRc w = 0
  · rw [aluResult, if_neg (not_not_intro hc)]
    split
    case h_32 => rfl
    case h_24 | h_25 | h_26 | h_27 | h_28 | h_29 | h_30 | h_31 => exact if_neg (by omega)
    all_goals omega
  · exact if_pos hc

/-- Settles O8: each function is `aluResult` of its number, read as R115 says it. -/
theorem aluResults : Obligations.AluResults := by
  intro c w s h hm a b gives low sh
  have value : ∀ {v}, aluResult w a b = some v → gives v := fun e => .of_ofG rfl h (semAlu_major hm) e
  refine ⟨fun hc => ⟨?f00, ?f01, ?f02, ?f03, ?f04, ?f05, ?f06, ?f07, ?f08, ?f09, ?f0A, ?f0B, ?f0C, ?f0D, ?f0E, ?f0F, ?f10, ?f11, ?f12,
      ?f13, ?f14, ?f15, ?f16⟩, fun hc hb => ⟨?f18, ?f19, ?f1A, ?f1B, ?f1C, ?f1D, ?f1E, ?f1F⟩,
    fun hr => .of_ofG rfl h (semAlu_major hm) (aluResult_reserved a b hr)⟩
  case f18 =>
    refine fun hf => ⟨BitVec.ofNat 64 (clz64 a), value ?_, ?_⟩
    · rw [aluResult, if_neg (not_not_intro hc), hf]
      exact if_pos hb
    · split
      next h0 => exact h0 ▸ rfl
      next h0 =>
        obtain ⟨least, most, fits⟩ := clz64_spec a h0
        rw [BitVec.toNat_ofNat, Nat.mod_eq_of_lt (by omega)]
        exact ⟨least, most, fits⟩
  case f19 =>
    refine fun hf => ⟨BitVec.ofNat 64 (ctz64 a), value ?_, ?_⟩
    · rw [aluResult, if_neg (not_not_intro hc), hf]
      exact if_pos hb
    · split
      next h0 => exact h0 ▸ rfl
      next h0 =>
        obtain ⟨fits, set, clear⟩ := ctz64_spec a h0
        rw [BitVec.toNat_ofNat, Nat.mod_eq_of_lt (by omega)]
        exact ⟨fits, set, clear⟩
  case f1F =>
    refine fun hf => ⟨bswap64 a, value ?_, fun i => bswap64_bytes a⟩
    rw [aluResult, if_neg (not_not_intro hc), hf]
    exact if_pos hb
  all_goals
    intro hf
    refine value ?_
    rw [aluResult, if_neg (not_not_intro hc), hf]
  case f00 => exact congrArg some (add_eq_ofNat a b)
  case f01 => exact congrArg some (sub_eq_ofInt a b)
  case f02 => exact rfl
  case f03 => exact rfl
  case f04 => exact rfl
  case f05 => exact rfl
  case f06 => exact rfl
  case f07 => exact rfl
  case f08 => exact congrArg some (shiftLeft_eq_ofNat a sh)
  case f09 => exact congrArg some (ushiftRight_eq_ofNat a sh)
  case f0A => exact congrArg some (sshiftRight_eq_ofInt a sh)
  case f0B => exact rfl
  case f0C => exact congrArg some (bit64_slt a b)
  case f0D => exact congrArg some (bit64_ult a b)
  case f0E => exact congrArg some (min_slt a b)
  case f0F => exact congrArg some (max_slt a b)
  case f10 => exact congrArg some (min_ult a b)
  case f11 => exact congrArg some (max_ult a b)
  case f12 => exact congrArg some (sext32_add a b)
  case f13 => exact congrArg some (sext32_sub a b)
  case f14 => exact congrArg some (sext32_shiftLeft a _)
  case f15 => exact congrArg some (sext32_ushiftRight a _)
  case f16 => exact congrArg some (sext32_sshiftRight a _)
  case f1A => exact (if_pos hb).trans (congrArg some (congrArg (BitVec.ofNat 64) (popcount_countP a)))
  case f1B => exact if_pos hb
  case f1C => exact if_pos hb
  case f1D => exact if_pos hb
  case f1E => exact (if_pos hb).trans (congrArg some (and_low32 a))

/-! ## MULDIV (R116) -/

theorem high64_eq (x : Int) : high64 x = BitVec.ofInt 64 (x / 2 ^ 64) := by
  rw [high64, Int.fdiv_eq_ediv_of_nonneg _ (by decide)]

/-- The words that name no MULDIV function, or set bits [10:6], are reserved. -/
theorem mulDivResult_reserved {w : Word} (a b : Dword)
    (h : fRc w ≠ 0 ∨ (0x05 ≤ fFunc w ∧ fFunc w ≤ 0x07) ∨ 0x10 ≤ fFunc w) : mulDivResult w a b = none := by
  by_cases hc : fRc w = 0
  · rw [mulDivResult, if_neg (not_not_intro hc)]
    split
    case h_14 => rfl
    all_goals omega
  · exact if_pos hc

section
variable {c : Nat} {w : Word} {s : State} (h : s.executes c) (hm : major w = 0x02)
include h hm

theorem muldiv_completes {v : Dword} (e : mulDivResult w ((s.core c).gr (fRa w)) ((s.core c).gr (fRb w)) = some v) :
    CompletesAs (.muldiv c w) s ((s.setG c (fRd w) v).bump c 0x30F (divBusy w)) c :=
  .of_ok (sem := semMulDiv c w) rfl h ((if_pos hm).trans (by rw [e]; rfl)) (by simp)

theorem muldiv_reserved (e : mulDivResult w ((s.core c).gr (fRa w)) ((s.core c).gr (fRb w)) = none) :
    Raises (.muldiv c w) s c illReserved :=
  .of_fault (sem := semMulDiv c w) rfl h ((if_pos hm).trans (by rw [e]; rfl))

end

/-- Settles O9: products are exact (`BitVec.ofInt_mul`), quotients and remainders those of `divRem`. -/
theorem mulDivResults : Obligations.MulDivResults := by
  intro c w s h hm a b gives low sq uq sqw uqw
  have hsq : (divRem true a b).1 = sq := divRem_signed_quot a b (by decide)
  have huq : (divRem false a b).1 = uq := divRem_unsigned_quot a b
  have hsqw : (divRem true (low a) (low b)).1 = sqw := divRem_signed_quot (low a) (low b) (by decide)
  have huqw : (divRem false (low a) (low b)).1 = uqw := divRem_unsigned_quot (low a) (low b)
  have value : ∀ {v}, mulDivResult w a b = some v → gives v := fun e => muldiv_completes h hm e
  refine ⟨fun hc => ⟨?f00, ?f01, ?f02, ?f03, ?f04, ?f08, ?f09, ?f0A, ?f0B, ?f0C, ?f0D, ?f0E, ?f0F⟩,
    fun hr => muldiv_reserved h hm (mulDivResult_reserved a b hr)⟩
  all_goals
    intro hf
    refine value ?_
    rw [mulDivResult, if_neg (not_not_intro hc), hf]
    refine congrArg some ?_
  case f00 => rw [BitVec.ofNat_mul, BitVec.ofNat_toNat, BitVec.ofNat_toNat, BitVec.setWidth_eq, BitVec.setWidth_eq]
  case f01 => exact high64_eq _
  case f02 => exact (high64_eq _).trans (BitVec.ofInt_natCast 64 _)
  case f03 => exact high64_eq _
  case f04 => exact sext32_mul a b
  case f08 => exact hsq
  case f09 => exact huq
  case f0A => exact hsq ▸ divRem_rem a b true
  case f0B => exact huq ▸ divRem_rem a b false
  case f0C => exact congrArg (BitVec.signExtend 64) hsqw
  case f0D => exact congrArg (BitVec.signExtend 64) huqw
  case f0E => exact congrArg (BitVec.signExtend 64) (hsqw ▸ divRem_rem (low a) (low b) true)
  case f0F => exact congrArg (BitVec.signExtend 64) (huqw ▸ divRem_rem (low a) (low b) false)

end Sys2Proof.Machine
end

section
/-!
PROOFS. Scalar loads and stores (R105, R117 to R119, R251).
-/

namespace Sys2Proof.Machine

open Sys2Proof

/-! ## Loads and stores as one operation of their width -/

/-- An FP32 value boxed is its number below a field of ones (R105). -/
theorem box32_ofNat (v : Nat) : box32 (BitVec.ofNat 32 v) = BitVec.ofNat 64 (v % 2 ^ 32 + 0xFFFFFFFF00000000) := by
  apply BitVec.eq_of_toNat_eq
  have low : v % 2 ^ 32 < 2 ^ 32 := Nat.mod_lt _ (Nat.two_pow_pos 32)
  have boxed : 0xFFFFFFFF00000000 ||| v % 2 ^ 32 = 0xFFFFFFFF00000000 + v % 2 ^ 32 :=
    (Nat.two_pow_add_eq_or_of_lt low 0xFFFFFFFF).symm
  rw [box32, BitVec.toNat_or, BitVec.toNat_setWidth, BitVec.toNat_ofNat, BitVec.toNat_ofNat, BitVec.toNat_ofNat,
    Nat.mod_eq_of_lt (b := 2 ^ 64) (a := v % 2 ^ 32) (by omega), Nat.mod_eq_of_lt (a := v % 2 ^ 32 + _) (by omega), Nat.add_comm]
  exact boxed

/-- What the load of a major writes of the number `v` it has read (R117). -/
def State.loaded (u : State) (c m rd v : Nat) : State :=
  if m = 0x10 then u.setG c rd ((BitVec.ofNat 8 v).signExtend 64)
  else if m = 0x12 then u.setG c rd ((BitVec.ofNat 16 v).signExtend 64)
  else if m = 0x14 then u.setG c rd ((BitVec.ofNat 32 v).signExtend 64)
  else if m = 0x1C then u.setF c rd (BitVec.ofNat 64 (v % 2 ^ 32 + 0xFFFFFFFF00000000))
  else if m = 0x1D then u.setF c rd (BitVec.ofNat 64 v)
  else u.setG c rd (BitVec.ofNat 64 v)

theorem semLoad_width {c n : Nat} {w : Word} {s : State} (hl : isLoad (major w) = true) (hn : memWidth (major w) = n) :
    semLoad c w s = (s.load c (effAddr (s.core c) w) n).andThen (fun b u => .ok (u.loaded c (major w) (fRd w) (leNat b))) := by
  subst hn
  refine (if_neg (by simp [hl])).trans (congrArg _ (funext fun b => funext fun u => congrArg Res.ok ?_))
  unfold State.loaded
  split <;> simp_all [box32_ofNat]

theorem semLoad_got {c n : Nat} {w : Word} {s : State} {g : Got} (hl : isLoad (major w) = true) (hn : memWidth (major w) = n)
    (hg : s.load c (effAddr (s.core c) w) n = g) :
    semLoad c w s = g.andThen (fun b u => .ok (u.loaded c (major w) (fRd w) (leNat b))) := hg ▸ semLoad_width hl hn

theorem semStore_width {c n : Nat} {w : Word} {s : State} (hl : isStore (major w) = true) (hn : memWidth (major w) = n) :
    semStore c w s = s.store c (effAddr (s.core c) w)
      (natLE n (if major w = 0x1E ∨ major w = 0x1F then (s.core c).fr (fRd w) else (s.core c).gr (fRd w)).toNat) := by
  subst hn
  exact if_neg (by simp [hl])

/-- The load majors by their width (R117). -/
theorem isLoad_of {m n : Nat} (h : (n = 1 → m = 0x10 ∨ m = 0x11) ∧ (n = 2 → m = 0x12 ∨ m = 0x13) ∧
    (n = 4 → m = 0x14 ∨ m = 0x15 ∨ m = 0x1C) ∧ (n = 8 → m = 0x16 ∨ m = 0x1D) ∧ n ∈ [1, 2, 4, 8]) :
    isLoad m = true ∧ memWidth m = n := by
  obtain ⟨h1, h2, h4, h8, hn⟩ := h
  have majors : (n = 1 ∧ (m = 0x10 ∨ m = 0x11)) ∨ (n = 2 ∧ (m = 0x12 ∨ m = 0x13)) ∨ (n = 4 ∧ (m = 0x14 ∨ m = 0x15 ∨ m = 0x1C)) ∨
      (n = 8 ∧ (m = 0x16 ∨ m = 0x1D)) := by
    simp only [List.mem_cons, List.not_mem_nil, or_false] at hn
    omega
  rcases majors with ⟨rfl, rfl | rfl⟩ | ⟨rfl, rfl | rfl⟩ | ⟨rfl, rfl | rfl | rfl⟩ | ⟨rfl, rfl | rfl⟩ <;> decide

/-- The store majors by their width (R117). -/
theorem isStore_of {m n : Nat} (h : (n = 1 → m = 0x18) ∧ (n = 2 → m = 0x19) ∧ (n = 4 → m = 0x1A ∨ m = 0x1E) ∧
    (n = 8 → m = 0x1B ∨ m = 0x1F) ∧ n ∈ [1, 2, 4, 8]) : isStore m = true ∧ memWidth m = n := by
  obtain ⟨h1, h2, h4, h8, hn⟩ := h
  have majors : (n = 1 ∧ m = 0x18) ∨ (n = 2 ∧ m = 0x19) ∨ (n = 4 ∧ (m = 0x1A ∨ m = 0x1E)) ∨ (n = 8 ∧ (m = 0x1B ∨ m = 0x1F)) := by
    simp only [List.mem_cons, List.not_mem_nil, or_false] at hn
    omega
  rcases majors with ⟨rfl, rfl⟩ | ⟨rfl, rfl⟩ | ⟨rfl, rfl | rfl⟩ | ⟨rfl, rfl | rfl⟩ <;> decide

/-! ## The checks of R118 -/

section
variable {s : State} {c pa n : Nat}

theorem State.load_misaligned (h : pa % n ≠ 0) : s.load c pa n = .fault (misaligned 1 pa) s := if_pos h

theorem State.load_refused {e : MemErr} (h : pa % n = 0) (hc : s.coreCheck c (s.core c).ctl.priv .read pa n = .error e) :
    s.load c pa n = .fault (busErr e 0 pa) s := by
  rw [State.load, if_neg (not_not_intro h), hc]

variable {bs : List Byte} (hn : bs.length = n)
include hn

theorem State.store_misaligned (h : pa % n ≠ 0) : s.store c pa bs = .fault (misaligned 2 pa) s := if_pos (hn ▸ h)

theorem State.store_refused {e : MemErr} (h : pa % n = 0) (hc : s.coreCheck c (s.core c).ctl.priv .write pa n = .error e) :
    s.store c pa bs = .fault (busErr e 1 pa) s := by
  rw [State.store, hn, if_neg (not_not_intro h), hc]

theorem State.store_enters (h : pa % n = 0) (hc : s.coreCheck c (s.core c).ctl.priv .write pa n = .ok ())
    (hsb : (s.core c).sb.length < 8) : s.store c pa bs = .ok (s.pushSb c (s.scalarEntry c pa bs)) := by
  rw [State.store, hn, if_neg (not_not_intro h), hc]
  exact State.sbRoom_free hsb _

end

/-- Settles O11: a load is `State.load` of its width with `State.loaded` behind it, a store `State.store` of its width. -/
theorem loadsAndStores : Obligations.LoadsAndStores := by
  intro c w s h m ea lw sw
  refine ⟨fun n b u hl hload => ?load, fun n hl hmis => ?loadMis, fun n e hl hal hc => ?loadBus,
    fun n hs hal hc hsb => ?store, fun n hs hmis => ?storeMis, fun n e hs hal hc => ?storeBus⟩
  case load =>
    obtain ⟨isLoad, width⟩ := isLoad_of hl
    have runs : semLoad c w s = .ok (u.loaded c m (fRd w) (leNat b)) := semLoad_got isLoad width hload
    exact congrArg ok (State.execute_ok w h runs)
  case loadMis =>
    obtain ⟨isLoad, width⟩ := isLoad_of hl
    exact .of_fault (sem := semLoad c w) rfl h (semLoad_got isLoad width (State.load_misaligned hmis))
  case loadBus =>
    obtain ⟨isLoad, width⟩ := isLoad_of hl
    exact .of_fault (sem := semLoad c w) rfl h (semLoad_got isLoad width (State.load_refused hal hc))
  case store =>
    obtain ⟨isStore, width⟩ := isStore_of hs
    exact .of_ok (sem := semStore c w) rfl h
      ((semStore_width isStore width).trans (State.store_enters (length_natLE n _) hal hc hsb)) (by simp)
  case storeMis =>
    obtain ⟨isStore, width⟩ := isStore_of hs
    exact .of_fault (sem := semStore c w) rfl h ((semStore_width isStore width).trans (State.store_misaligned (length_natLE n _) hmis))
  case storeBus =>
    obtain ⟨isStore, width⟩ := isStore_of hs
    exact .of_fault (sem := semStore c w) rfl h ((semStore_width isStore width).trans (State.store_refused (length_natLE n _) hal hc))

/-! ## A load sees the core's own store (R117, R251), but not one that crosses a line -/

/-- The bytes of a read that answers. -/
def Got.bytes? (g : Got) : Option (List Byte) := match g with
  | .ok b _ => some b
  | _ => none

/-- Core 0 of a partition whose one segment maps address 0 to the DRAM of granule 0. -/
def dramDevice : State := { State.reset with
  plate := { installed := some { parts := [{
    clusters := 1
    segs := [{ base := 0, size := 2 ^ 30, target := 0, mode := 1, perm := 3 }] }] } } }

/-- A load of three bytes at the last byte of a line reads that line alone, and answers its one byte, with the core's store over it. -/
theorem dramDevice_load : Got.bytes? ((dramDevice.pushSb 0 (dramDevice.scalarEntry 0 63 [1, 2, 3])).load 0 63 3) = some [1] := by
  decide +kernel

/-- Refutes O12: its width is any number of bytes, and over a store of three bytes at address 63 a load of three answers the one byte of
the line. The widths of the load and store instructions divide a line, so that none of them crosses one. -/
theorem not_loadSeesOwnStore : ¬ Obligations.LoadSeesOwnStore := by
  intro h
  have answer := dramDevice_load
  cases e : (dramDevice.pushSb 0 (dramDevice.scalarEntry 0 63 [1, 2, 3])).load 0 63 3 with
  | ok b v =>
    have whole : b = [1, 2, 3] := h dramDevice v 0 63 [1, 2, 3] b (by decide +kernel) (by decide +kernel) e
    rw [e, whole] at answer
    simp [Got.bytes?] at answer
  | fault f v => rw [e] at answer; contradiction
  | wait v => rw [e] at answer; contradiction

end Sys2Proof.Machine
end

section
/-!
PROOFS. Branches and jumps (R120 to R124): their targets, their faults in a delay slot, and what resolving one leaves (R203).
-/

namespace Sys2Proof.Machine

open Sys2Proof

/-! ## Targets -/

theorem shiftLeft_two (x : Dword) : x <<< 2 = 4 * x := by
  rw [BitVec.shiftLeft_eq_mul_twoPow, BitVec.mul_comm]
  rfl

theorem disp16_eq (w : Word) : disp16 w = 4 * (w.setWidth 16).signExtend 64 := shiftLeft_two _

theorem disp26_eq (w : Word) : disp26 w = 4 * (w.setWidth 26).signExtend 64 := shiftLeft_two _

section
variable {c : Nat} {w : Word} {s : State}

theorem semBranch_go {taken : Bool} (h : branchTaken (major w) ((s.core c).gr (fRd w)) ((s.core c).gr (fRa w)) = some taken) :
    semBranch c w s =
      let target := (if taken then (s.core c).ctl.pc + disp16 w else (s.core c).ctl.pc + 8).toNat
      .go { addr := (s.core c).ctl.pc.toNat, target := target, guard := [fRd w, fRa w] }
        (s.btbResolve c (s.core c).ctl.pc.toNat taken target) := by
  rw [semBranch, h]

theorem branchTaken_isSome {m : Nat} (h0 : 0x20 ≤ m) (h1 : m ≤ 0x25) (a b : Dword) : ∃ taken, branchTaken m a b = some taken := by
  interval_cases m <;> exact ⟨_, rfl⟩

theorem semJalr_reserved (hm : major w = 0x28) (hr : fRd w = fRa w ∧ fRd w ≠ 0) : semJalr c w s = .fault illReserved s :=
  (if_neg (not_not_intro hm)).trans (if_pos hr)

theorem semJalr_misaligned (hm : major w = 0x28) (hr : ¬ (fRd w = fRa w ∧ fRd w ≠ 0))
    (ht : ((s.core c).gr (fRa w) + sImm w).toNat % 4 ≠ 0) :
    semJalr c w s = .fault (misaligned 3 ((s.core c).gr (fRa w) + sImm w).toNat) s :=
  (if_neg (not_not_intro hm)).trans ((if_neg hr).trans (if_pos ht))

theorem semJalr_go (hm : major w = 0x28) (hr : ¬ (fRd w = fRa w ∧ fRd w ≠ 0)) (ht : ((s.core c).gr (fRa w) + sImm w).toNat % 4 = 0) :
    semJalr c w s = .go { addr := (s.core c).ctl.pc.toNat, target := ((s.core c).gr (fRa w) + sImm w).toNat, guard := [fRa w, fRd w] }
      ((s.btbResolve c (s.core c).ctl.pc.toNat true ((s.core c).gr (fRa w) + sImm w).toNat).setG c (fRd w) ((s.core c).ctl.pc + 8)) :=
  (if_neg (not_not_intro hm)).trans ((if_neg hr).trans (if_neg (not_not_intro ht)))

end

/-! ## Faults -/

section
variable {i : Instr} {s t : State} {c : Nat} {sem : State → TransRes} {f : FaultInfo}

theorem Raises.of_transferFault (hi : exec i s = ok (s.executeTransfer c sem)) (h : s.transfers c) (e : sem s = .fault f s) :
    Raises i s c f := exec_transferFault hi h e

/-- In a delay slot a transfer is not executed (R122): the fault is reported at the transfer before it. -/
theorem exec_inSlot {d : Delay} (hi : exec i s = ok (s.executeTransfer c sem)) (h : s.ready c) (hd : (s.core c).ctl.delay = some d)
    (hf : (sem s).reservedOrSlot = f) : exec i s = .next (s.enterExc c f d.addr true false) := by
  obtain ⟨run, aligned, reach⟩ := h
  rw [hi, State.executeTransfer, run, fetchFault_none _ aligned reach, hd, hf, State.faultAt, hd]
  rfl

/-- A transfer that does not answer RESERVED raises SLOT in a delay slot. -/
theorem TransRes.slot {r : TransRes} (h : ∀ g t, r = .fault g t → g.cause ≠ 1 ∨ g.sub ≠ 1) : r.reservedOrSlot = illSlot := by
  cases r with
  | go d t => rfl
  | wait t => rfl
  | fault g t =>
    refine if_neg fun hg => ?_
    subst hg
    rcases h _ _ rfl with h | h <;> exact h rfl

/-- What a GATE faults with is a fault of the gate (R234). -/
theorem semGate_fault {w : Word} (own : sysIs w 0 = true) (e : semGate c w s = .fault f t) : f.cause = 6 := by
  unfold semGate at e
  simp only [own, Bool.not_true, Bool.false_eq_true, if_false] at e
  repeat' first
    | split at e
    | contradiction
    | (cases e; rfl)

/-- What a return faults with is PRIV, FRAME or a fault of its load, never RESERVED. -/
theorem returnFrom_fault {gate : Bool} (e : returnFrom c gate s = .fault f t) : f.cause ≠ 1 ∨ f.sub ≠ 1 := by
  unfold returnFrom at e
  dsimp only at e
  split at e
  · cases e
    exact .inr (by decide)
  · split at e
    next hl =>
      cases e
      rcases State.load_fault hl with h | h <;> exact .inl (by omega)
    · contradiction
    · split at e
      · cases e
        exact .inr (by decide)
      · contradiction

end

/-! ## The branch-target buffer (R203) -/

/-- `t` is `s` but for the branch-target buffer of core `c`, its counters and its count of uses. -/
def BtbOnly (c : Nat) (s t : State) : Prop :=
  CoreOnly c s t ∧ ∃ b p n, t.core c = { s.core c with btb := b, perf := p, useCount := n }

theorem BtbOnly.refl (c : Nat) (s : State) : BtbOnly c s s := ⟨CoreOnly.refl c s, _, _, _, rfl⟩

section
variable {c : Nat} {s t : State} (h : BtbOnly c s t)
include h

theorem BtbOnly.bump (num n : Nat) : BtbOnly c s (t.bump c num n) := by
  obtain ⟨only, b, p, u, hk⟩ := h
  exact ⟨only.modCore _, _, _, _, by rw [State.bump, State.core_modCore_same, hk]⟩

theorem BtbOnly.btbPut (addr way : Nat) (x : BtbEntry) : BtbOnly c s (t.btbPut c addr way x) := by
  obtain ⟨only, b, p, u, hk⟩ := h
  exact ⟨only.modCore _, _, _, _, by rw [State.btbPut, State.core_modCore_same, hk]⟩

end

theorem State.btbResolve_only (s : State) (c addr target : Nat) (taken : Bool) : BtbOnly c s (s.btbResolve c addr taken target) := by
  have start := BtbOnly.refl c s
  unfold State.btbResolve
  split
  · have counted : ∀ right : Bool, BtbOnly c s (if right then s.bump c 0x309 1 else s.bump c 0x30A 1) := fun right => by
      cases right with
      | true => exact start.bump _ _
      | false => exact start.bump _ _
    dsimp only
    split
    · exact (counted _).btbPut _ _ _
    · exact (counted _).btbPut _ _ _
  · split
    · exact (start.bump _ _).btbPut _ _ _
    · exact start

/-- Settles O13: a transfer goes where its operation says (`semBranch_go`, `semJalr_go`), in a delay slot `exec_inSlot` raises what its
operation answers, and `State.btbResolve_only` is the frame of a resolution. -/
theorem transfersOfControl : Obligations.TransfersOfControl := by
  refine ⟨fun c w s h => ?runs, fun c w s d h hd => ?slot, fun s c a g d taken => ?btb⟩
  case runs =>
    intro A x y near far branches
    have hnear : A + disp16 w = near := congrArg (A + ·) (disp16_eq w)
    have hfar : A + disp26 w = far := congrArg (A + ·) (disp26_eq w)
    have branch : ∀ {m taken}, major w = m → branchTaken m x y = some taken → branches taken := by
      rintro m taken rfl ht
      have runs := semBranch_go (c := c) (w := w) (s := s) ht
      rw [hnear] at runs
      exact .of_go rfl h runs
    refine ⟨fun hm => branch hm (congrArg some ?eq), fun hm => branch hm (congrArg some ?ne), fun hm => branch hm rfl,
      fun hm => branch hm (congrArg some ?ge), fun hm => branch hm rfl, fun hm => branch hm (congrArg some ?geu), fun hm => ?j,
      fun hm => ?jal,
      fun hm => ⟨fun heq h0 => ?jalrReserved, fun hr => ⟨fun ht => ?jalrMisaligned, fun ht => ?jalr⟩⟩⟩
    case eq => rfl
    case ne => simp [bne, beq_eq_decide]
    case ge => simp only [BitVec.slt, ← decide_not, not_lt]
    case geu => simp only [BitVec.ult, ← decide_not, not_lt]
    case j =>
      have runs : semJ c w s = _ := if_neg (not_not_intro hm)
      rw [hfar] at runs
      exact .of_go (sem := semJ c w) rfl h runs
    case jal =>
      have runs : semJal c w s = _ := if_neg (not_not_intro hm)
      rw [hfar] at runs
      exact .of_go (sem := semJal c w) rfl h runs
    case jalrReserved => exact .of_transferFault (sem := semJalr c w) rfl h (semJalr_reserved hm ⟨heq, h0⟩)
    case jalrMisaligned => exact .of_transferFault (sem := semJalr c w) rfl h (semJalr_misaligned hm hr ht)
    case jalr => exact .of_go (sem := semJalr c w) rfl h (semJalr_go hm hr ht)
  case slot =>
    intro raises
    refine ⟨fun h0 h1 => ?branch, fun hm => ?j, fun hm => ?jal, fun hm => ?jalr, fun own => ?gate, fun own => ?retg, fun own => ?rete⟩
    case branch =>
      obtain ⟨taken, ht⟩ := branchTaken_isSome h0 h1 ((s.core c).gr (fRd w)) ((s.core c).gr (fRa w))
      exact exec_inSlot (sem := semBranch c w) rfl h hd (by rw [semBranch_go ht]; rfl)
    case j => exact exec_inSlot (sem := semJ c w) rfl h hd (congrArg TransRes.reservedOrSlot (if_neg (not_not_intro hm)))
    case jal => exact exec_inSlot (sem := semJal c w) rfl h hd (congrArg TransRes.reservedOrSlot (if_neg (not_not_intro hm)))
    case jalr =>
      refine exec_inSlot (sem := semJalr c w) rfl h hd ?_
      split
      next hr => rw [semJalr_reserved hm hr]; rfl
      next hr =>
        by_cases ht : ((s.core c).gr (fRa w) + sImm w).toNat % 4 = 0
        · rw [semJalr_go hm hr ht]; rfl
        · rw [semJalr_misaligned hm hr ht]
          exact TransRes.slot fun g t e => by cases e; exact .inl (show (2 : Nat) ≠ 1 by decide)
    case gate => exact exec_inSlot (sem := semGate c w) rfl h hd (TransRes.slot fun g t e => .inl (by rw [semGate_fault own e]; decide))
    case retg => exact exec_inSlot rfl h hd (TransRes.slot fun g t e => returnFrom_fault ((congrFun (semRetg_own own) s).symm.trans e))
    case rete => exact exec_inSlot rfl h hd (TransRes.slot fun g t e => returnFrom_fault ((congrFun (semRete_own own) s).symm.trans e))
  case btb =>
    obtain ⟨⟨device, others⟩, b, p, n, hk⟩ := State.btbResolve_only s c a g taken
    exact ⟨device, others d, by rw [hk]⟩

end Sys2Proof.Machine
end

section
/-!
PROOFS. The end of a kernel, BREAK, WAITEV and asynchronous exceptions (R125, R222, R228, R230, R253).
-/

namespace Sys2Proof.Machine

open Sys2Proof

section
variable {c : Nat} {w : Word} {s : State}

/-! ## YIELD, ENDK and BREAK -/

/-- A core with no dirty line flushes its L1D at once (R253). -/
theorem State.flushL1_clean (h : (s.core c).dirtyLines = []) (k : State → Res) :
    s.flushL1 c k = k (s.modCore c (fun x => { x with l1d := [] })) := by
  rw [State.flushL1, h, cleanLines]

/-- A core with an empty store buffer drains it at once. -/
theorem State.drain_empty (h : (s.core c).sb = []) (k : State → Res) : s.drain c k = k s := by
  have stays : s.drainFrom c ((s.core c).sb.length + 1) = s := by rw [State.drainFrom, h]
  rw [State.drain, stays, h]

theorem semEnd_clean {fn : Nat} (own : sysIs w fn = true) (hd : (s.core c).ctl.delay = none) (hl : (s.core c).dirtyLines = [])
    (hsb : (s.core c).sb = []) (e : CoreEnd) :
    semEnd c w fn e s = .ok ((s.modCore c (fun x => { x with l1d := [] })).endKernel c e) := by
  have free : ((s.modCore c (fun x => { x with l1d := [] })).core c).sb = [] := by rw [State.core_modCore_same, hsb]
  rw [semEnd, if_neg (by simp [own]), if_neg (by simp [hd]), State.flushL1_clean hl, State.drain_empty free]

/-! ## WAITEV (R230) -/

/-- An instruction that keeps no reads of other devices goes on as any other. -/
theorem State.retire_advanced (u : State) (c : Nat) (h : (u.core c).ctl.plain) : Advanced u ((u.modCtl c CoreCtl.pass).retire c) c := by
  have passed := (CoreIs.refl c u).modCore (fun k => { k with ctl := k.ctl.pass })
  obtain ⟨r, ⟨device, others⟩, hk⟩ := State.retire_spec u _ c _ (by exact h) passed
  change (u.modCtl c CoreCtl.pass).retire c = _ at device
  change ((u.modCtl c CoreCtl.pass).retire c).core c = _ at hk
  constructor
  case device => exact device
  case others => exact others
  case pc =>
    rw [hk]
    rfl
  case retired =>
    rw [hk]
    exact NatMap.get_upd_same (0 : Dword) (u.core c).perf 0x301 (fun v => v + BitVec.ofNat 64 1)
  case counters =>
    intro n hn
    rw [hk]
    exact NatMap.get_upd_ne (0 : Dword) (u.core c).perf 0x301 n (fun v => v + BitVec.ofNat 64 1) hn
  all_goals simp [hk]

@[simp] theorem State.setWaiting_ctl (b : Bool) : ((s.setWaiting c b).core c).ctl = (s.core c).ctl := by
  rw [State.setWaiting, State.core_modCore_same]

theorem State.waitev_own (run : (s.core c).run = .running) (aligned : (s.core c).ctl.pc.toNat % 4 = 0)
    (reach : (s.core c).ctl.pc.toNat < 2 ^ 18) (own : sysIs w 6 = true) :
    s.waitev c w = if s.evReady c then ((s.setWaiting c false).modCtl c CoreCtl.pass).retire c else s.setWaiting c true := by
  rw [State.waitev, if_neg (not_not_intro run), fetchFault_none _ aligned reach]
  exact if_neg (by simp [own])

/-! ## Asynchronous exceptions (R228) -/

theorem bitOf_and (a b i : Nat) : bitOf (a &&& b) i = (bitOf a i && bitOf b i) := Nat.testBit_and a b i

theorem State.async_boundary (hb : (s.core c).atBoundary = true) (hw : (s.core c).kernel.waitEv = false) :
    s.async c = s.takeAsync c := by
  simp [State.async, hb, hw]

theorem State.takeAsync_late {x : Nat × Nat} (h : s.oldestLate c = some x) :
    s.takeAsync c = (s.takeLate c).enterExc c { cause := 4, sub := x.1, eaddr := x.2 } (s.core c).ctl.pc.toNat false true := by
  rw [State.takeAsync, h]
  rfl

section
variable (hl : s.oldestLate c = none)
include hl

theorem State.takeAsync_held (h : (s.core c).kernel.heldPending = true) :
    s.takeAsync c = (s.modCore c (fun k => { k with kernel := { k.kernel with heldTaken := true } })).enterExc c
      { cause := 8, sub := 2 } (s.core c).ctl.pc.toNat false true := by
  rw [State.takeAsync, hl]
  exact if_pos h

variable (hh : (s.core c).kernel.heldPending = false)
include hh

theorem State.takeAsync_overrun (h : (s.core c).kernel.overrunPending = true) :
    s.takeAsync c = (s.modCore c (fun k => { k with kernel := { k.kernel with overrunTaken := true } })).enterExc c
      { cause := 8, sub := 1 } (s.core c).ctl.pc.toNat false true := by
  rw [State.takeAsync, hl]
  exact (if_neg (by simp [hh])).trans (if_pos h)

variable (ho : (s.core c).kernel.overrunPending = false)
include ho

theorem State.takeAsync_masked (h : (s.core c).ctl.ie = false) : s.takeAsync c = s := by
  rw [State.takeAsync, hl]
  exact (if_neg (by simp [hh])).trans ((if_neg (by simp [ho])).trans (if_pos (by simp [h])))

variable (hie : (s.core c).ctl.ie = true)
include hie

/-- With IE 1 the lowest event that is enabled and pending is taken. -/
theorem State.takeAsync_event {i : Nat}
    (h : (List.range 9).find? (fun i => bitOf ((s.core c).even &&& (s.core c).ctl.evpend) i) = some i) :
    s.takeAsync c = (s.modCtl c (fun x => { x with evpend := x.evpend - 2 ^ i })).enterExc c { cause := 9 + i }
      (s.core c).ctl.pc.toNat false true := by
  simp only [State.takeAsync, hl, hh, ho, hie, h, Bool.not_true, Bool.false_eq_true, if_false]

theorem State.takeAsync_idle (h : (List.range 9).find? (fun i => bitOf ((s.core c).even &&& (s.core c).ctl.evpend) i) = none) :
    s.takeAsync c = s := by
  simp only [State.takeAsync, hl, hh, ho, hie, h, Bool.not_true, Bool.false_eq_true, if_false]

end

end

/-- Settles O16: a kernel's end is `semEnd_clean`, WAITEV `State.waitev_own`, and what is taken at a boundary a lemma about
`State.takeAsync`. -/
theorem kernelEndsBreaksAndWaits : Obligations.KernelEndsBreaksAndWaits := by
  refine fun c w s => ⟨fun h => ⟨fun hd hl hsb => ⟨fun own => ?yield, fun own => ?endk⟩, fun own => ?brk⟩,
    fun run aligned reach plain own => ⟨fun ready => ?completes, fun waits => ?waits⟩, fun hb hw => ?async⟩
  case yield => exact congrArg ok (State.execute_ok w h (semEnd_clean own hd hl hsb .yielded))
  case endk => exact congrArg ok (State.execute_ok w h (semEnd_clean own hd hl hsb .ended))
  case brk => exact .of_fault (sem := semBreak c w) rfl h (if_neg (by simp [own]))
  case completes =>
    refine ⟨_, congrArg ok ((State.waitev_own run aligned reach own).trans (if_pos ready)), State.retire_advanced _ c ?_⟩
    rwa [State.setWaiting_ctl]
  case waits =>
    refine ⟨congrArg ok ((State.waitev_own run aligned reach own).trans (if_neg (by simp [waits]))), ?_⟩
    rw [State.setWaiting, State.core_modCore_same]
  case async =>
    intro k takes
    have acts : ∀ {t}, s.takeAsync c = t → exec (.asyncException c) s = .next t := fun e =>
      congrArg ok ((State.async_boundary hb hw).trans e)
    refine ⟨fun x hx => acts (State.takeAsync_late hx), fun hl => ⟨fun hh => acts (State.takeAsync_held hl hh),
      fun hh ho => acts (State.takeAsync_overrun hl hh ho), fun hh ho => ⟨fun hie => acts (State.takeAsync_masked hl hh ho hie),
        fun hie => ⟨fun i hi even pend first => ?event, fun idle => ?idle⟩⟩⟩⟩
    case event =>
      exact acts (State.takeAsync_event hl hh ho hie (List.find?_range_eq_some.mpr
        ⟨by rw [bitOf_and, even, pend, Bool.and_self], List.mem_range.mpr hi,
          fun j hj => by simpa [bitOf_and, imp_iff_not_or] using first j hj⟩))
    case idle =>
      exact acts (State.takeAsync_idle hl hh ho hie (List.find?_range_eq_none.mpr
        fun i hi => by simpa [bitOf_and, imp_iff_not_or] using idle i hi))

end Sys2Proof.Machine
end

section
/-!
PROOFS. The control-register instructions (R106, R126).
-/

namespace Sys2Proof.Machine

open Sys2Proof

section
variable {c : Nat} {w : Word} {s : State} {op : Nat} {f : Dword → Dword → Option Dword}

/-! ## One control-register operation, check by check (R126) -/

section
variable (own : major w = 0x2A ∧ cregOp w = op ∧ (op = 1 → fRd w = 0))
include own

theorem cregOpSem_own : ¬ (major w ≠ 0x2A ∨ cregOp w ≠ op ∨ (op = 1 ∧ fRd w ≠ 0)) := by
  obtain ⟨hm, ho, hr⟩ := own
  simpa [hm, ho] using hr

theorem cregOpSem_reserved (h : s.creg c (cregNum w) = none) : cregOpSem c w op f s = .fault illCreg s := by
  rw [cregOpSem, if_neg (cregOpSem_own own), h]

variable {old : Dword} (h : s.creg c (cregNum w) = some old)
include h

theorem cregOpSem_denied (hp : (s.core c).ctl.priv = false) (hs : cregSystemOnly (cregNum w) = true) :
    cregOpSem c w op f s = .fault illPriv s := by
  rw [cregOpSem, if_neg (cregOpSem_own own), h]
  exact if_pos (by simp [hp, hs])

variable (hp : (s.core c).ctl.priv = true ∨ cregSystemOnly (cregNum w) = false)
include hp

theorem cregOpSem_allowed : cregOpSem c w op f s = match f old ((s.core c).gr (fRa w)) with
    | none => .ok (s.setG c (fRd w) old)
    | some v => if cregReadOnly (s.core c).ctl.priv (cregNum w) then .fault illCreg s
      else .ok (if op = 1 then s.setCreg c (cregNum w) v else (s.setCreg c (cregNum w) v).setG c (fRd w) old) := by
  rw [cregOpSem, if_neg (cregOpSem_own own), h]
  refine (if_neg ?_).trans rfl
  rcases hp with hp | hp <;> simp [hp]

variable {v : Dword} (hv : f old ((s.core c).gr (fRa w)) = some v)
include hv

theorem cregOpSem_readOnly (hr : cregReadOnly (s.core c).ctl.priv (cregNum w) = true) : cregOpSem c w op f s = .fault illCreg s := by
  rw [cregOpSem_allowed own h hp, hv]
  exact if_pos hr

theorem cregOpSem_writes (hr : cregReadOnly (s.core c).ctl.priv (cregNum w) = false) : cregOpSem c w op f s =
    .ok (if op = 1 then s.setCreg c (cregNum w) v else (s.setCreg c (cregNum w) v).setG c (fRd w) old) := by
  rw [cregOpSem_allowed own h hp, hv]
  exact if_neg (by simp [hr])

end

end

/-! ## The five instructions -/

/-- Instruction `x.2` is the control-register operation with OP `x.1`, and writes unless that is 0. -/
def IsCregRow (c : Nat) (w : Word) (x : Nat × Instr) : Prop := ∃ f : Dword → Dword → Option Dword,
  (∀ s, exec x.2 s = ok (s.execute c w (cregOpSem c w x.1 f))) ∧ (x.1 ≠ 0 → ∀ old a, ∃ v, f old a = some v)

theorem isCregRow_all (c : Nat) (w : Word) :
    ∀ x ∈ [(0, Instr.mfc c w), (1, .mtc c w), (2, .swc c w), (3, .setc c w), (4, .clrc c w)], IsCregRow c w x := by
  simp only [List.forall_mem_cons]
  exact ⟨⟨_, fun _ => rfl, fun h => absurd rfl h⟩, ⟨_, fun _ => rfl, fun _ _ _ => ⟨_, rfl⟩⟩, ⟨_, fun _ => rfl, fun _ _ _ => ⟨_, rfl⟩⟩,
    ⟨_, fun _ => rfl, fun _ _ _ => ⟨_, rfl⟩⟩, ⟨_, fun _ => rfl, fun _ _ _ => ⟨_, rfl⟩⟩, List.forall_mem_nil _⟩

/-- Settles O17: every row is `cregOpSem` with its OP (`isCregRow_all`), which faults and writes as its lemmas say. -/
theorem controlRegisterInstructions : Obligations.ControlRegisterInstructions := by
  intro c w s h hm hrd n k a rows
  have own : ∀ {op}, cregOp w = op → major w = 0x2A ∧ cregOp w = op ∧ (op = 1 → fRd w = 0) :=
    fun ho => ⟨hm, ho, fun h1 => hrd (ho.trans h1)⟩
  refine ⟨fun none x hx ho => ?reserved, fun old hold => ⟨fun user system x hx ho => ?denied, fun allowed =>
    ⟨fun ho => ?mfc, fun readOnly x hx ho => ?readOnly, fun writable =>
      ⟨fun ho => ?mtc, fun ho => ?swc, fun ho => ?setc, fun ho => ?clrc⟩⟩⟩⟩
  case reserved =>
    obtain ⟨f, runs, -⟩ := isCregRow_all c w x hx
    exact .of_fault (runs s) h (cregOpSem_reserved (own ho) none)
  case denied =>
    obtain ⟨f, runs, -⟩ := isCregRow_all c w x hx
    exact .of_fault (runs s) h (cregOpSem_denied (own ho) hold user system)
  case readOnly =>
    obtain ⟨f, runs, writes⟩ := isCregRow_all c w x (List.mem_of_mem_drop hx)
    have writer : x.1 ≠ 0 := by
      revert x
      simp [rows]
    obtain ⟨v, hv⟩ := writes writer old a
    exact .of_fault (runs s) h (cregOpSem_readOnly (own ho) hold allowed hv readOnly)
  case mfc => exact .of_ok (sem := semMfc c w) rfl h (cregOpSem_allowed (own ho) hold allowed) (by simp)
  case mtc => exact .of_ok (sem := semMtc c w) rfl h (cregOpSem_writes (own ho) hold allowed rfl writable) (by simp)
  case swc => exact .of_ok (sem := semSwc c w) rfl h (cregOpSem_writes (own ho) hold allowed rfl writable) (by simp)
  case setc => exact .of_ok (sem := semSetc c w) rfl h (cregOpSem_writes (own ho) hold allowed rfl writable) (by simp)
  case clrc => exact .of_ok (sem := semClrc c w) rfl h (cregOpSem_writes (own ho) hold allowed rfl writable) (by simp)

end Sys2Proof.Machine
end

section
/-!
PROOFS. Fences, SYNC and cache maintenance (R127 to R129, R206, R242 to R247, R252).
-/

namespace Sys2Proof.Machine

open Sys2Proof

section
variable {c : Nat} {w : Word} {s : State}

/-! ## Fences (R127, R252) -/

/-- A store buffer that accepting its entries empties is drained. -/
theorem State.drain_emptied {u : State} (hu : s.drainFrom c ((s.core c).sb.length + 1) = u) (h : (u.core c).sb = []) (k : State → Res) :
    s.drain c k = k u := by
  rw [State.drain, hu, h]

theorem semFenceA_settled {u : State} (own : fenceIs w 2 = true) (hu : s.acceptAll c = u)
    (h : ∀ e ∈ (u.core c).sb, e.late.isSome = true) : semFenceA c w s = .ok u := by
  have settled : (u.core c).sb.any (fun e => e.late.isNone) = false := by
    simpa [Option.isNone_iff_eq_none, Option.isSome_iff_ne_none] using h
  refine (if_neg (by simp [own])).trans ?_
  rw [hu]
  exact if_neg (by simp [settled])

/-! ## SYNC (R128) -/

theorem semSync_steady (own : fenceIs w 0x10 = true) (h : (s.core c).sr.l1dCfg % 4 = (s.core c).sre.l1dCfg % 4) :
    semSync c w s = .ok (s.syncEffect c) :=
  (if_neg (by simp [own])).trans (if_neg (not_not_intro h))

/-- With no DTAB_CTRL command, SYNC is one change of its core. -/
theorem State.syncEffect_idle (h : (s.core c).sr.dtabCmd = 0) : s.syncEffect c = s.modCore c (fun k => { k with
    sre := k.sr, ic := if (s.core c).sr.icEn = (s.core c).sre.icEn then (s.core c).ic else [], ksEff := max 2 (min 7 k.sr.ksWait),
    ctl := k.ctl.settle, bank := (s.cluster (c / 16)).installed }) := by
  rw [State.syncEffect, h]
  rfl

end

/-- Settles O20: each fence is its operation once what it waits for is done, and SYNC without a command `State.syncEffect_idle`. -/
theorem fencesAndSync : Obligations.FencesAndSync := by
  refine fun c w s h => ⟨fun own u hu empty => ?fenceS, fun own => ?fenceL, fun own u hu settled => ?fenceA,
    fun own u v hu empty flushed => ?fenceE, fun own steady => ⟨?sync, fun idle => ?effect⟩⟩
  case fenceS =>
    have runs : semFenceS c w s = .ok u := (if_neg (by simp [own])).trans (State.drain_emptied hu empty _)
    exact congrArg ok (State.execute_ok w h runs)
  case fenceL => exact .of_ok (sem := semFenceL c w) rfl h (if_neg (by simp [own])) rfl
  case fenceA => exact congrArg ok (State.execute_ok w h (semFenceA_settled own hu settled))
  case fenceE =>
    have runs : semFenceE c w s = .ok v := ((if_neg (by simp [own])).trans (State.drain_emptied hu empty _)).trans flushed
    exact congrArg ok (State.execute_ok w h runs)
  case sync => exact congrArg ok (State.execute_ok w h (semSync_steady own steady))
  case effect =>
    intro t
    have ht : t = _ := State.syncEffect_idle idle
    refine ⟨ht ▸ rfl, ?_⟩
    rw [ht, State.core_modCore_same]
    exact ⟨rfl, rfl, rfl, rfl, rfl, rfl, rfl⟩

/-! ## Cache maintenance (R129, R243 to R245) -/

/-- What a maintenance operation leaves of a way that is cleaned, invalidated or both. -/
def State.maintained (s : State) (c : Nat) (clean inv : Bool) (set way : Nat) : State :=
  let u := if clean && ((s.core c).l1At set way).valid && ((s.core c).l1At set way).dirty then s.l1Clean c set way else s
  if inv then u.l1Drop c set way else u

section
variable {c : Nat} {w : Word} {s : State} {op : Nat} {clean inv : Bool}

/-- With a store-buffer entry free, maintenance is done at once (R245). -/
theorem State.maintain_free (hsb : (s.core c).sb.length < 8) (set way : Nat) :
    s.maintain c set way clean inv = .ok (s.maintained c clean inv set way) := by
  unfold State.maintained
  by_cases h : (clean && ((s.core c).l1At set way).valid && ((s.core c).l1At set way).dirty) = true
  · rw [if_pos h]
    exact (if_pos h).trans (State.sbRoom_free hsb _)
  · rw [if_neg h]
    exact if_neg h

section
variable (own : cacheIs w op = true)
include own

theorem cacheByAddr_refused {e : MemErr}
    (h : s.coreCheck c (s.core c).ctl.priv (if inv then .write else .read) (effAddr (s.core c) w) 1 = .error e) :
    cacheByAddr c w op clean inv s = .fault (busErr e 3 (effAddr (s.core c) w)) s := by
  refine (if_neg (by simp [own])).trans ?_
  rw [h]

section
variable (h : s.coreCheck c (s.core c).ctl.priv (if inv then .write else .read) (effAddr (s.core c) w) 1 = .ok ())
  {pl : Place} (hpl : s.corePlace c (if inv then .write else .read) (effAddr (s.core c) w) = pl)
include h hpl

theorem cacheByAddr_absent (absent : (s.core c).cacheable pl = false ∨ (s.core c).l1Way pl.addr = none) :
    cacheByAddr c w op clean inv s = .ok s := by
  refine (if_neg (by simp [own])).trans ?_
  rw [h, hpl]
  rcases absent with hc | hn
  · simp [hc]
  · simp [hn]

theorem cacheByAddr_held {way : Nat} (cacheable : (s.core c).cacheable pl = true) (held : (s.core c).l1Way pl.addr = some way)
    (hsb : (s.core c).sb.length < 8) : cacheByAddr c w op clean inv s = .ok (s.maintained c clean inv (l1Set pl.addr) way) := by
  refine (if_neg (by simp [own])).trans ?_
  rw [h, hpl]
  refine (if_neg (by simp [cacheable])).trans ?_
  rw [held]
  exact State.maintain_free hsb _ way

end

theorem cacheBySetWay_user (level : (s.core c).ctl.priv = false) : cacheBySetWay c w op clean inv s = .fault illPriv s :=
  (if_neg (by simp [own])).trans (if_pos (by simp [level]))

theorem cacheBySetWay_system (level : (s.core c).ctl.priv = true) (hsb : (s.core c).sb.length < 8) : cacheBySetWay c w op clean inv s =
    .ok (s.maintained c clean inv (bitsOf (effAddr (s.core c) w) 6 6) (bitsOf (effAddr (s.core c) w) 12 3)) :=
  (if_neg (by simp [own])).trans ((if_neg (by simp [level])).trans (State.maintain_free hsb _ _))

end

/-- A dirty way without an uncorrectable word is written back and stays, clean (R241). -/
theorem State.l1Clean_dirty {set way : Nat} (hv : ((s.core c).l1At set way).valid = true) (hd : ((s.core c).l1At set way).dirty = true)
    (hu : ((s.core c).l1At set way).ue = 0) : s.l1Clean c set way =
      (s.pushSb c (writeBackEntry ((s.core c).l1At set way))).setL1 c set way { (s.core c).l1At set way with dirty := false } := by
  rw [State.l1Clean]
  exact (if_pos (by rw [hv, hd]; rfl)).trans (if_pos hu)

end

/-- Settles O21: the by-address and the set-and-way operations are one each, with `State.maintained` for the line they reach. -/
theorem cacheMaintenance : Obligations.CacheMaintenance := by
  intro c w s h k pa byAddr bySet done
  refine ⟨fun x hx own => ?byAddr, fun x hx own => ?bySet, fun own zero => ?iinv, fun set way hv hd hu => ?clean⟩
  case byAddr =>
    have runs : exec x.1 s = ok (s.execute c w (cacheByAddr c w x.2.1 x.2.2.1 x.2.2.2)) := by
      revert x
      simp only [byAddr, List.forall_mem_cons]
      exact ⟨fun _ => rfl, fun _ => rfl, fun _ => rfl, List.forall_mem_nil _⟩
    intro acc pl
    exact ⟨fun e he => .of_fault runs h (cacheByAddr_refused own he), fun hc =>
      ⟨fun absent => .of_ok runs h (cacheByAddr_absent own hc rfl absent) rfl,
        fun way cacheable held hsb => runs.trans (congrArg ok (State.execute_ok w h (cacheByAddr_held own hc rfl cacheable held hsb)))⟩⟩
  case bySet =>
    have runs : exec x.1 s = ok (s.execute c w (cacheBySetWay c w x.2.1 x.2.2.1 x.2.2.2)) := by
      revert x
      simp only [bySet, List.forall_mem_cons]
      exact ⟨fun _ => rfl, fun _ => rfl, fun _ => rfl, List.forall_mem_nil _⟩
    exact ⟨fun level => .of_fault runs h (cacheBySetWay_user own level),
      fun level hsb => runs.trans (congrArg ok (State.execute_ok w h (cacheBySetWay_system own level hsb)))⟩
  case iinv => exact .of_ok (sem := semIinvAll c w) rfl h (if_neg (by simp [own, zero])) (by simp)
  case clean =>
    intro u
    have hu' : u = _ := State.l1Clean_dirty hv hd hu
    rw [hu', State.setL1, State.core_modCore_same]
    exact ⟨State.pushSb_sb _ _ _, NatMap.get_set_same _ _ _ _, rfl⟩

end Sys2Proof.Machine
end

section
/-!
PROOFS. Scalar floating-point instructions (R105, R107, R108, R134 to R138).
-/

namespace Sys2Proof.Machine

open Sys2Proof

/-! ## Words of major FPX, and integers as an instruction takes them -/

theorem fpxIs_of {w : Word} {p : Nat → Bool} (hm : major w = 0x2F) (hp : p (fFunc w) = true) (he : encOk {} w = true) :
    fpxIs w p = true := by
  rw [fpxIs, hm, hp, he]
  rfl

/-- An instruction that raises flags and then does more does both in one write. -/
theorem State.fpFinish_bind (s : State) (c fl : Nat) (wr g : State → State) :
    (s.fpFinish c fl wr).bind (fun t => .ok (g t)) = s.fpFinish c fl (fun t => g (wr t)) := by
  unfold State.fpFinish
  dsimp only
  split <;> rfl

theorem signed_toNat {n : Nat} (hn : 0 < n) (a : Dword) : signed n a.toNat = (a.setWidth n).toInt := by
  have half : 2 ^ n = 2 * 2 ^ (n - 1) := (mul_pow_sub_one hn.ne' 2).symm
  rw [signed, BitVec.toInt_eq_toNat_cond, BitVec.toNat_setWidth]
  split <;> split <;> omega

theorem setWidth_ofInt_32 (x : Int) : (BitVec.ofInt 64 x).setWidth 32 = BitVec.ofInt 32 x := by
  apply BitVec.eq_of_toNat_eq
  rw [BitVec.toNat_setWidth, BitVec.toNat_ofInt, BitVec.toNat_ofInt]
  omega

/-- The integer that a conversion from code `f` reads: W, WU, L or LU (R136). -/
theorem itof_operand (f : Nat) (a : Dword) :
    (if intSigned f then signed (intWidth f) a.toNat else ((a.toNat % 2 ^ intWidth f : Nat) : Int)) =
      if f % 4 = 0 then (a.setWidth 32).toInt else if f % 4 = 1 then ((a.setWidth 32).toNat : Int)
        else if f % 4 = 2 then a.toInt else (a.toNat : Int) := by
  have fits := a.isLt
  have four : f % 4 = 0 ∨ f % 4 = 1 ∨ f % 4 = 2 ∨ f % 4 = 3 := by omega
  have parity : intSigned f = decide (f % 4 % 2 = 0) := by simp [intSigned, beq_eq_decide]
  rcases four with h | h | h | h
  · simp [h, parity, intWidth, signed_toNat]
  · simp [h, parity, intWidth]
  · simp [h, parity, intWidth, signed_toNat]
  · simp [h, parity, intWidth]
    omega

/-- What a conversion to code `f` writes of its integer (R136). -/
theorem ftoi_result (f : Nat) (x : Int) : (if intWidth f = 32 then sext32 (BitVec.ofInt 64 x) else BitVec.ofInt 64 x) =
    if f % 4 < 2 then (BitVec.ofInt 32 x).signExtend 64 else BitVec.ofInt 64 x := by
  rw [intWidth, sext32_setWidth, setWidth_ofInt_32]
  split <;> rfl

/-- Settles O22: a form that raises flags ends as `ends_of_fpFinish` says, one that raises none completes; integers are taken and given
as `itof_operand` and `ftoi_result` say. -/
theorem scalarFloatInstructions : Obligations.ScalarFloatInstructions := by
  intro c w s h he k z r rd ends
  refine ⟨fun hm => ?fpOp, fun hm => ?fma, fun hm => ?fpx⟩
  case fpOp =>
    intro single op
    have own : ¬ (major w ≠ 0x2D ∨ (!encOk {} w) = true) := by simp [hm, he]
    exact ⟨fun hop => .of_ok (sem := semFpOp c w) rfl h ((if_neg own).trans (if_pos hop)) (by simp),
      fun hop => ends_of_fpFinish (sem := semFpOp c w) rfl h
        ((if_neg own).trans ((if_neg (Nat.not_le.mpr hop)).trans (State.fpFinish_bind _ _ _ _ _))) (by simp)⟩
  case fma =>
    intro single v x
    exact ends_of_fpFinish (sem := semFmaOp c w) rfl h (if_neg (by simp [hm, he])) (by simp)
  case fpx =>
    intro f
    have own : ∀ {p : Nat → Bool}, p f = true → ¬ (!fpxIs w p) = true := fun hp => by simp [fpxIs_of hm hp he]
    refine ⟨fun h6 h3 => ?compare, fun hf => ?kind, fun hf => ?narrow, fun hf => ?widen, fun h0 h1 => ?ftoi, fun h0 h1 => ?itof,
      fun hf => ?movg, fun hf => ?movf⟩
    case compare =>
      exact ends_of_fpFinish (sem := semFpCompare c w) rfl h
        (if_neg (own (p := fun n => decide (n ≤ 6) && n != 3) (by simp [h6, h3]))) (by simp)
    case kind =>
      exact .of_ok (sem := semFkind c w) rfl h (if_neg (own (p := fun n => n == 3 || n == 7) (by simpa using hf))) (by simp)
    case narrow => exact ends_of_fpFinish (sem := semFnarrow c w) rfl h (if_neg (own (p := (· == 8)) (by simpa using hf))) (by simp)
    case widen => exact ends_of_fpFinish (sem := semFwiden c w) rfl h (if_neg (own (p := (· == 9)) (by simpa using hf))) (by simp)
    case ftoi =>
      have runs : semFtoi c w s = _ := if_neg (own (p := fun n => decide (0x10 ≤ n) && decide (n ≤ 0x1F)) (by simp [h0, h1]))
      simp only [ftoi_result] at runs
      exact ends_of_fpFinish (sem := semFtoi c w) rfl h runs (by simp)
    case itof =>
      have runs : semItof c w s = _ := if_neg (own (p := fun n => decide (0x20 ≤ n) && decide (n ≤ 0x27)) (by simp [h0, h1]))
      simp only [itof_operand] at runs
      exact ends_of_fpFinish (sem := semItof c w) rfl h runs (by simp)
    case movg => exact .of_ok (sem := semFmovg c w) rfl h (if_neg (own (p := (· == 0x30)) (by simpa using hf))) (by simp)
    case movf => exact .of_ok (sem := semFmovf c w) rfl h (if_neg (own (p := (· == 0x31)) (by simpa using hf))) (by simp)

end Sys2Proof.Machine
end

section
/-!
PROOFS. Rounding (R107, R132, R133): a magnitude's multiple below or the one above, as the mode chooses.
-/

namespace Sys2Proof.Machine

open Sys2Proof

/-- Rounding `m / 2^d` to an integer drops `d` bits, for `d = 0` too. -/
theorem roundTo_roundShift (r : Rounding) (neg : Bool) (m d : Nat) :
    roundTo r neg m (-(d : Int)) 0 false = roundShift r neg m d false := by
  unfold roundTo
  split
  next h =>
    have hd : d = 0 := by omega
    subst hd
    cases r <;> simp [roundShift, Nat.mod_one]
  next h => simp

/-- Does a mode round the quotient `q` with remainder `rem` over `unit` up? -/
def Rounding.roundsUp (r : Rounding) (neg : Bool) (q rem unit : Nat) : Bool := match r with
  | .near => decide (unit < 2 * rem) || (decide (2 * rem = unit) && q % 2 == 1)
  | .zero => false
  | .down => neg && rem != 0
  | .up => !neg && rem != 0
  | .stochastic u => decide (u < 65536 * rem / unit)

theorem roundShift_exact (r : Rounding) (neg : Bool) (m d : Nat) : roundShift r neg m d false =
    (if r.roundsUp neg (m / 2 ^ d) (m % 2 ^ d) (2 ^ d) then m / 2 ^ d + 1 else m / 2 ^ d, m % 2 ^ d != 0) := by
  cases r <;> simp [roundShift, Rounding.roundsUp]

/-- No mode rounds an integer up. -/
theorem Rounding.roundsUp_zero (r : Rounding) (neg : Bool) (q : Nat) {unit : Nat} (h : 0 < unit) : r.roundsUp neg q 0 unit = false := by
  cases r <;> simp [Rounding.roundsUp, h.ne]

/-- Settles O23: with `m` as quotient `q` and remainder `rem` over the unit, the multiple is `q` or, where the mode rounds up,
`q + 1`. -/
theorem roundingIsCorrect : Obligations.RoundingIsCorrect := by
  intro r neg m d y
  have hy : y = _ := (roundTo_roundShift r neg m d).trans (roundShift_exact r neg m d)
  have unit : 0 < 2 ^ d := Nat.two_pow_pos d
  have rest : m % 2 ^ d < 2 ^ d := Nat.mod_lt m unit
  have parts : m / 2 ^ d * 2 ^ d + m % 2 ^ d = m := Nat.div_add_mod' m (2 ^ d)
  have stays := r.roundsUp_zero neg (m / 2 ^ d) unit
  rw [hy]
  clear hy y
  generalize m / 2 ^ d = q at *
  generalize m % 2 ^ d = rem at *
  generalize 2 ^ d = u at *
  subst parts
  cases hup : r.roundsUp neg q rem u with
  | false =>
    simp only [Bool.false_eq_true, if_false, bne_iff_ne]
    refine ⟨by omega, by omega, fun _ => by omega, ?_, ?_, ?_⟩
    all_goals
      rintro rfl
      simp only [Rounding.roundsUp, Bool.or_eq_false_iff, Bool.and_eq_false_iff, decide_eq_false_iff_not,
        bne_eq_false_iff_eq, beq_eq_false_iff_ne] at hup
    · exact ⟨by omega, by omega, by omega⟩
    · split
      next sign =>
        have zero : rem = 0 := hup.resolve_left (by simp [sign])
        omega
      next => omega
    · split
      next => omega
      next sign =>
        have zero : rem = 0 := hup.resolve_left (by simp [sign])
        omega
  | true =>
    have inexact : rem ≠ 0 := fun h0 => by simp [h0, stays] at hup
    simp only [if_true, Nat.succ_mul, bne_iff_ne]
    refine ⟨by omega, by omega, ?_, ?_, ?_, ?_⟩
    all_goals
      rintro rfl
      simp only [Rounding.roundsUp, Bool.or_eq_true, Bool.and_eq_true, decide_eq_true_eq, bne_iff_ne, beq_iff_eq,
        Bool.not_eq_true'] at hup
    · exact absurd hup (by decide)
    · exact ⟨by omega, by omega, by omega⟩
    · rw [if_pos hup.1]; omega
    · rw [if_neg (by simp [hup.1])]; omega

end Sys2Proof.Machine
end

section
/-!
PROOFS. Custom instructions and FIXQ (R139, R140, R208 to R212, R265, R287).
-/

namespace Sys2Proof.Machine

open Sys2Proof

section
variable {c : Nat} {w : Word} {s : State}

/-! ## Custom instructions -/

section
variable (hm : 0x3C ≤ major w)
include hm

theorem semCustom_user (level : (s.core c).ctl.priv = false) (uen : (s.core c).sre.dtabUen = false) :
    semCustom c w s = .fault illPriv s :=
  (if_neg (Nat.not_lt.mpr hm)).trans (if_pos (by simp [level, uen]))

variable (level : (s.core c).ctl.priv = true ∨ (s.core c).sre.dtabUen = true)
include level

omit hm in
theorem customDenied_not : ¬ (!(s.core c).ctl.priv && !(s.core c).sre.dtabUen) = true := by
  rcases level with h | h <;> simp [h]

theorem semCustom_empty (h : (s.customEntry c w).1 = false) : semCustom c w s = .fault illEmpty s :=
  (if_neg (Nat.not_lt.mpr hm)).trans ((if_neg (customDenied_not level)).trans (if_pos (by simp [h])))

/-- A valid entry runs from micro-op 0, where there is no delay slot to spoil and no micro-op to resume at. -/
theorem semCustom_runs (h : (s.customEntry c w).1 = true) (hd : (s.core c).ctl.delay = none) (hr : (s.core c).ctl.resumeUop = none) :
    semCustom c w s = runUops c w (s.customEntry c w).2 32 0 s := by
  refine (if_neg (Nat.not_lt.mpr hm)).trans ((if_neg (customDenied_not level)).trans ((if_neg (by simp [h])).trans ?_))
  rw [hd, hr]
  rfl

end

/-- A micro-op that is no NOP and ends its entry is its instruction's own operation, counted once (R210, R212). -/
theorem runUops_ends {m : MicroOp} {l : List MicroOp} {t : State} (fuel : Nat) (nop : m.isNop = false) (ends : m.cond = 1)
    (e : microSem c (m.substitute w) s = .ok t) :
    runUops c w (m :: l) (fuel + 1) 0 s = .ok ((t.endRemote c).bump c 0x302 1) := by
  have last : ∀ k : Core, nextUop m w k 0 = none := fun k => by simp [nextUop, ends]
  simp [runUops, nop, e, last]

/-! ## FIXQ -/

theorem semFixq_misaligned (own : fixqOk w = true) (h : ((s.core c).gr (fRa w)).toNat % 64 ≠ 0) :
    semFixq c w s = .fault (misaligned 1 ((s.core c).gr (fRa w)).toNat) s :=
  (if_neg (by simp [own])).trans (if_pos h)

theorem semFixq_reads (own : fixqOk w = true) (aligned : ((s.core c).gr (fRa w)).toNat % 64 = 0)
    (check : s.coreCheck c (s.core c).ctl.priv .read ((s.core c).gr (fRa w)).toNat 64 = .ok ())
    (room : (s.sch (s.corePart c)).laneCount c < 4) {b : List Byte} {u : State}
    (loads : ∀ f, fixqLoads c ((s.core c).gr (fRa w)).toNat 8 [] s f = f b u) :
    let img := bytesLine (b.take 48 ++ fixqScalar (s.core c) (fFunc w % 4) (fRd w) ((b.drop 48).take 8)
      ++ fixqScalar (s.core c) (fFunc w / 4 % 4) (fRb w) ((b.drop 56).take 8))
    semFixq c w s = .ok (u.modSch (s.corePart c) (fun x => { x with
      lanes := NatMap.upd [] x.lanes c
        (fun l => l ++ [{ image := img, verdict := u.checkRecord (s.corePart c) (some (c / 16)) img }]) })) := by
  refine (if_neg (by simp [own])).trans ((if_neg (not_not_intro aligned)).trans ?_)
  rw [check]
  exact (if_neg (Nat.not_le.mpr room)).trans (loads _)

end

/-- Settles O32: a valid entry is `runUops` from 0 (`semCustom_runs`), and FIXQ past its checks `semFixq_reads`. -/
theorem customAndFixq : Obligations.CustomAndFixq := by
  intro c w s h k e pa p
  refine ⟨fun hm hd hr => ⟨fun level uen => ?user, fun level =>
      ⟨fun invalid => ?empty, fun valid u hu => ?runs, fun valid m l t hl nop ends ht => ?single⟩⟩,
    fun own aligned check room b u loads => ?fixq, fun own mis => ?misaligned⟩
  case user => exact .of_fault (sem := semCustom c w) rfl h (semCustom_user hm level uen)
  case empty => exact .of_fault (sem := semCustom c w) rfl h (semCustom_empty hm level invalid)
  case runs => exact congrArg ok (State.execute_ok w h ((semCustom_runs hm level valid hd hr).trans hu))
  case single =>
    have entry : (s.customEntry c w).2 = m :: l := hl
    have runs := semCustom_runs hm level valid hd hr
    rw [entry, runUops_ends 31 nop ends ht] at runs
    exact congrArg ok (State.execute_ok w h runs)
  case fixq => exact congrArg ok (State.execute_ok w h (semFixq_reads own aligned check room loads))
  case misaligned => exact .of_fault (sem := semFixq c w) rfl h (semFixq_misaligned own mis)

end Sys2Proof.Machine
end
